-- ==== Sys2Proof/Word.lean ====
section
/-! DEFINITION. The word types of the model and the names of the units (spec 01, Tables 1-1 to 1-4). -/

namespace Sys2Proof

abbrev Byte := BitVec 8
abbrev W16 := BitVec 16
abbrev W32 := BitVec 32
abbrev W64 := BitVec 64

/-- Logical core (R16); grade B has 0-119 only. -/
abbrev Core := Fin 128
/-- Logical compute die (R16); grade B has 0-29 only. -/
abbrev CDie := Fin 32
/-- Memory die, and the HBM stack of the same number (R13). -/
abbrev MDie := Fin 12
abbrev IoDie := Fin 4
/-- Jildoit port p = 12 i + j (R23). -/
abbrev Port := Fin 48
abbrev Part := Fin 8
/-- Fabric node ID (R335). -/
abbrev Node := Fin 16384
/-- Move channel of a core: MV0 owns 0-15, MV1 owns 16-31 (R294). -/
abbrev Chan := Fin 32

end Sys2Proof
end

