-- ==== Sys2Proof/Syntax.lean ====
section
/-! DEFINITION. The commands the block takes (spec/opcode_table.json), with the operands each row names.
The table gives no row any bits: a command is data, not a word. -/

namespace Sys2Proof

/-- The engines of a core, in the order of Table 5-1. -/
inductive CoreEngine where
  | me | ve | mv0 | mv1
deriving DecidableEq, Repr

/-- The engines of a compute die (Table 5-1). -/
inductive DieEngine where
  | xe | ce
deriving DecidableEq, Repr

/-- An engine instruction stream (R15, R112). -/
inductive Stream where
  | core (c : Core) (e : CoreEngine)
  | die (d : CDie) (e : DieEngine)
deriving DecidableEq, Repr

/-- A logic die by its physical index (Table 1-2). -/
inductive Unit52 where
  | compute (x : Fin 34)
  | memory (m : MDie)
  | io (i : IoDie)
  | heartwood (h : Fin 2)
deriving DecidableEq, Repr

/-- What a thermal action of Table 18-5 concerns. -/
inductive ThermalUnit where
  | compute (x : Fin 34)
  | memory (m : MDie)
  | io (i : IoDie)
  | heartwood (h : Fin 2)
  | stack (m : MDie)
deriving DecidableEq, Repr

/-- The sapwood domains of Table 1-4. Cores and compute dies are named by their physical die. -/
inductive Domain where
  | core (x : Fin 34) (pos : Fin 4)
  | computeDie (x : Fin 34)
  | router (u : Unit52)
  | memoryDie (m : MDie)
  | fabricPort (p : Port)
  | hostPort (h : Fin 2)
deriving DecidableEq, Repr

/-- A scrubbed SRAM: a core store or a well (R286). -/
inductive SramUnit where
  | coreStore (c : Core)
  | well (m : MDie)
deriving DecidableEq, Repr

/-- The hold reasons of Table 19-5. -/
inductive HoldReason where
  | envelope | hang | stackRetired | tornDown | norm | proof | regulator | journal | replay
deriving DecidableEq, Repr

/-- A mailbox block: that of the physical function, of a virtual function, or the I3C view (R438). -/
inductive Blk where
  | pf
  | vf (n : Fin 8)
  | i3c
deriving DecidableEq, Repr

/-- Where a plain register write goes: a mailbox block, a partition's BAR4 pages, or configuration space. -/
inductive RegTarget where
  | mbx (b : Blk) (off : Nat)
  | bar4 (p : Part) (off : Nat)
  | cfg (addr : Nat)
deriving DecidableEq, Repr

/-- The JTAG instructions of R570. -/
inductive JtagInstr where
  | bypass | idcode | samplePreload | extest | extestPulse | extestTrain | clamp | highz
deriving DecidableEq, Repr

/-- An exchange or collective message: a 32 B header (Table 8-3, Table 13-5) and its payload. Bit i of pmask: payload
bytes 64i to 64i + 63 are poisoned, as the frames' PMASK carries it (R343). `port` is the port it goes or came by, 63 for
a message from the device itself. -/
structure Msg where
  hdr : BitVec 256
  payload : List Byte
  pmask : Nat
  port : Fin 64
deriving DecidableEq, Repr

/-- A Jildoit frame: its 48 B header (Table 12-2) and payload; padding and frame CRC are left to the link. -/
structure Frame where
  hdr : BitVec 384
  payload : List Byte
deriving DecidableEq, Repr

/-- An error event as a unit reports it to heartwood (R527). -/
structure ErrEvent where
  cls : Fin 4          -- 0 CE, 1 DE, 2 UC, 3 FA
  isolation : Bool
  part : Option Part   -- none: DEV
  kind : Fin 6
  unit : Byte
  sub : Byte
  code : W16
  stamp : Nat
  logical : W16
  addr : Nat
  detail : W64
deriving DecidableEq, Repr

/-- The norm check record of a job image (R393). -/
structure NormCheck where
  window : Nat
  normAddr : Nat
  verdictAddr : Nat
  skipEntry : Nat
deriving DecidableEq, Repr

/-- What a job image holds. The manual gives no arrangement of the image's bytes (R484), so the command carries the contents (log 5). -/
structure JobImage where
  cores : Nat                            -- compiled logical cores, 120 or 128 (R3)
  sets : List Nat                        -- window table base of each variant set (R158, R488)
  steps : List Nat                       -- step table (R421)
  norm : Option NormCheck                -- R393
  meetSets : List (List Node)            -- meeting-set table (Table 6-6)
  mirror : Nat                           -- doorbell mirror (R472)
  bellDie : CDie
  bellCore : Fin 4
  bellTally : Fin 1024
  cfgWords : List (Nat × W64)            -- descriptors, queues, regions, contexts and XE registers
  memBytes : List (Nat × List Byte)      -- segment, stash and visit records in memory
  segBase : Nat                          -- segment directory (R202)
  segNmb : Nat
  segCount : Nat
  params : List (BitVec 512)             -- parameter records (Table 14-1)
  alarmNodes : List Node                 -- R530
  spanKm : List (Port × Nat)             -- declared span lengths (R356)
  windows : Nat                          -- records in each window table (R160)
  operands : List (Nat × Nat)            -- operand bytes N of the groups of the parameter table (R385)
  pins : List (Nat × Nat)                -- lines of window 0: index of a stream that fetches them (R159), line address (R165)
deriving DecidableEq, Repr

/-- A partition record of a plate (Table 16-18). -/
structure PlatePart where
  valid : Bool
  dies : BitVec 32
  wellEn : BitVec 12
  hbm : BitVec 24
  well : BitVec 192
  ports : BitVec 48
deriving DecidableEq, Repr

/-- What a plate holds (Tables 16-15 and 16-16). The manual does not give the layout of every section, so the command carries the contents (log 5). -/
structure Plate where
  magic : W32
  version : Nat
  order : Nat
  seq : Nat
  serial : W64
  dieMap : List (Fin 34)                 -- physical die behind logical die d
  coppice : List (Fin 34)
  fused : List (Fin 34)
  parts : List PlatePart
  ledgerAddr : Nat
  ledgerRanges : List (Nat × Nat)        -- first entry and entry count of each partition (R201)
  modes : List (W32)                     -- ME_MODE bits of each partition (R92)
  ports : List (W64 × W64)               -- offsets 0x00 and 0x20 of Table 12-1 per port
  fabric : List W64                      -- TRACK_BASE, STREAM_BASE, and offset 0x18 (Table 12-5)
  wellReserved : List (MDie × Nat × Nat)
deriving DecidableEq, Repr

/-- The commands of the block: one constructor per row of spec/opcode_table.json, in its order. -/
inductive Instr where
  /-- NOP (R120): Control instruction that performs only its waits and signals. -/
  | nop (st : Stream)
  /-- TWAIT (R120): Issues once six tally waits can all be satisfied in one cycle. -/
  | twait (st : Stream)
  /-- SIGNAL (R120): Sends up to six count-event signals at issue. -/
  | signal (st : Stream)
  /-- SETX (R120): Loads an immediate into an index register. -/
  | setx (st : Stream)
  /-- ADDX (R120): Adds an immediate to an index register modulo 2^32. -/
  | addx (st : Stream)
  /-- LOOP (R121): Runs the next LEN instructions COUNT or X[XC] times. -/
  | loop (st : Stream)
  /-- JUMP (R121): Moves the PC by a signed offset, with loop-body target checks. -/
  | jump (st : Stream)
  /-- BRX (R121): Branches when an index register compares true against an immediate. -/
  | brx (st : Stream)
  /-- WAITGC (R122): Issues once the global count reaches GC and any tally waits are satisfied. -/
  | waitgc (st : Stream)
  /-- FETCHAHEAD (R144): Fills and pins instruction-cache lines with the next window's generation. -/
  | fetchahead (st : Stream)
  /-- LOCK (R148): Makes the next N instructions a locked sequence that defers halts, cuts and sleep. -/
  | lock (st : Stream)
  /-- HALT (R115): Returns the stream to IDLE until the next launch. -/
  | halt (st : Stream)
  /-- WEND (R161): Ends the stream's part of a window and enters WAIT_BOUNDARY after its fetch-aheads complete. -/
  | wend (st : Stream)
  /-- DSET (R120): Writes a 64-bit value into one word of a tensor descriptor. -/
  | dset (st : Stream)
  /-- DLIVE (R120): Sets a descriptor's LIVE_ROWS from a core-store word less a bias, clamped. -/
  | dlive (st : Stream)
  /-- MXW (R66): Weight-stationary matrix instruction streaming M rows through a held weight block. -/
  | mxw (st : Stream)
  /-- MXO (R71): Output-stationary matrix instruction streaming K through a held output tile. -/
  | mxo (st : Stream)
  /-- MXT (R85): Weight-stationary matrix instruction over weights read through the transposed load path. -/
  | mxt (st : Stream)
  /-- MXS (R82): 2:4-sparse weight-stationary matrix instruction using a stipple map. -/
  | mxs (st : Stream)
  /-- MXC (R88): Convolution by address generation over a convolution address block. -/
  | mxc (st : Stream)
  /-- MXD (R90): Distance or comparison over K in L2, L1, MAXPLUS or MINPLUS mode. -/
  | mxd (st : Stream)
  /-- VSIMPLE (R124): Element-parallel simple arithmetic, compare, select, rint or widen. -/
  | vsimple (st : Stream)
  /-- VIEEE (R101): Element-parallel RCP, DIV, SQRT or RSQRT. -/
  | vieee (st : Stream)
  /-- VEXPLOG (R99): Element-parallel EXP2, EXP, LN or LOG2 by the AC1 procedures. -/
  | vexplog (st : Stream)
  /-- VCOMP (R101): Element-parallel SIGMOID, SILU or TANH. -/
  | vcomp (st : Stream)
  /-- VCVT (R47): Converts FP32 values into a narrow format with block scales, rounding and sentinel counts. -/
  | vcvt (st : Stream)
  /-- VRED (R102): Row reduction SUM, MAX, MIN, AMAX or ARGMAX by the canonical tree. -/
  | vred (st : Stream)
  /-- VSOFTMAX (R103): Row softmax. -/
  | vsoftmax (st : Stream)
  /-- RMSNORM (R103): Row RMS normalisation. -/
  | rmsnorm (st : Stream)
  /-- LAYERNORM (R103): Row layer normalisation. -/
  | layernorm (st : Stream)
  /-- VROUTE (R104): Scores tokens, selects top-k experts and writes gate records. -/
  | vroute (st : Stream)
  /-- VEXIT (R106): Early-exit confidence test writing an exit mask and its count. -/
  | vexit (st : Stream)
  /-- VSCLOSE (R108): Sentinel close: takes partials, runs guard tests, updates history and SCALE_NEXT. -/
  | vsclose (st : Stream)
  /-- VOPT (R110): Optimiser update by SGDM, ADAMW or LION on master parameters and moments. -/
  | vopt (st : Stream)
  /-- MOVE (R125): Queues a chain of move descriptors on a channel. -/
  | move (st : Stream)
  /-- MOVE_COPY (R297): A channel runs a COPY descriptor over its strided footprint. -/
  | moveCopy (c : Core) (ch : Chan)
  /-- MOVE_FILL (R303): A channel runs a FILL descriptor writing the 8-byte pattern. -/
  | moveFill (c : Core) (ch : Chan)
  /-- MOVE_COMPARE (R304): A channel runs a COMPARE descriptor, setting mismatch count and first position. -/
  | moveCompare (c : Core) (ch : Chan)
  /-- MOVE_CONVERT (R306): A channel runs quantize-on-move with optional rotation and transpose. -/
  | moveConvert (c : Core) (ch : Chan)
  /-- MOVE_RELAYOUT (R305): A channel copies elements and block scales into another layout unchanged. -/
  | moveRelayout (c : Core) (ch : Chan)
  /-- GATHER_MAP (R308): A channel gathers landed cell chains through a row map into a hatched tensor. -/
  | gatherMap (c : Core) (ch : Chan)
  /-- DESCRIPTOR_DONE (R300): A move descriptor's writes are done and it sends its count event and counted interrupt. -/
  | descriptorDone (c : Core) (ch : Chan)
  /-- TILE_GROUP_DONE (R301): A 16-row group of a TILE_EVT descriptor is done and pulses its event. -/
  | tileGroupDone (c : Core) (ch : Chan)
  /-- XSEND_FORWARD (R226): Dispatch: sends ROW messages for SENT and SPILLED routes of a slice. -/
  | xsendForward (st : Stream) (gates : Nat)
  /-- XSEND_BACKWARD (R236): Backward scatter of combine-gradient rows to experts. -/
  | xsendBackward (st : Stream)
  /-- XRECV_LANDING (R227): Landing receive that opens landing areas for local experts. -/
  | xrecvLanding (st : Stream)
  /-- XRECV_RETURN (R234): Return receive that places returned rows and weights on the token owner. -/
  | xrecvReturn (st : Stream)
  /-- XRETURN (R233): Sends expert output or input-gradient rows back to their owners. -/
  | xreturn (st : Stream)
  /-- XCLOSE (R206): Closes a segment after its operations complete, freeing entries and cells. -/
  | xclose (st : Stream)
  /-- XMSG_ROW (R228): A ROW message arrives and lands in a cell chain and staging entry. -/
  | xmsgRow (src : Node) (d : CDie) (m : Msg)
  /-- XMSG_COUNT (R222): A COUNT message arrives with a source's per-expert admitted counts. -/
  | xmsgCount (src : Node) (d : CDie) (m : Msg)
  /-- XMSG_RETURN (R234): A RETURN message arrives and is placed at its route's return row. -/
  | xmsgReturn (src : Node) (d : CDie) (m : Msg)
  /-- XMSG_ACK (R218): An exchange ACK returns a credit and may complete the sending operation. -/
  | xmsgAck (src : Node) (d : CDie) (m : Msg)
  /-- XMSG_NACK (R223): An exchange NACK causes a resend with the next attempt number. -/
  | xmsgNack (src : Node) (d : CDie) (m : Msg)
  /-- XMSG_REJECT (R224): An exchange REJECT ends the sending operation in XCH_REJECT. -/
  | xmsgReject (src : Node) (d : CDie) (m : Msg)
  /-- LANDING_COMPLETE (R230): All counts and rows of an expert have landed; landing entry, row map and DONE are written. -/
  | landingComplete (op : Nat) (i : Fin 8)
  /-- CE_OPERATION_BEGIN (R362): A queued collective operation begins once the previous one on its queue completes. -/
  | ceOperationBegin (g : Fin 2048)
  /-- CREDSCAT (R367): Reduce-scatter by the canonical tree over stages. -/
  | credscat (st : Stream)
  /-- CALLRED (R370): All-reduce: reduce-scatter then gather of the roots. -/
  | callred (st : Stream)
  /-- CGATHER (R370): All-gather of shards in descending stage order. -/
  | cgather (st : Stream)
  /-- CBCAST (R370): Broadcast from member 0 along the gather route. -/
  | cbcast (st : Stream)
  /-- CDIGEST (R398): SHA-256 digest of a tensor gathered from every member. -/
  | cdigest (st : Stream)
  /-- CMSG_NODE (R367): A reduced node arrives and is combined when its sibling is present. -/
  | cmsgNode (src : Node) (m : Msg)
  /-- CMSG_ABSENT (R369): An absent node arrives and passes through as +0. -/
  | cmsgAbsent (src : Node) (m : Msg)
  /-- CMSG_DATA (R370): A gathered chunk arrives and is written or forwarded. -/
  | cmsgData (src : Node) (m : Msg)
  /-- CMSG_RELAY (R373): A gate relays a span message unchanged over its own hall. -/
  | cmsgRelay (src : Node) (m : Msg)
  /-- CMSG_ACK (R376): A collective ACK returns credit and may complete the operation. -/
  | cmsgAck (src : Node) (m : Msg)
  /-- CMSG_NACK (R376): A collective NACK causes a resend with the next attempt. -/
  | cmsgNack (src : Node) (m : Msg)
  /-- CMSG_REJECT (R376): A collective REJECT ends the sending operation in CE_REJECT. -/
  | cmsgReject (src : Node) (m : Msg)
  /-- COUNT_EVENT_ARRIVE (R136): A count event reaches a tally bank and is applied or queued in the event FIFO. -/
  | countEventArrive (i : Nat)
  /-- DEMAND_FILL_COMPLETE (R145): A miss's instruction line returns from HBM and the stream leaves WAIT_FETCH. -/
  | demandFillComplete (st : Stream)
  /-- FETCHAHEAD_FILL_COMPLETE (R144): A pinned fill completes or is skipped for a pin conflict. -/
  | fetchaheadFillComplete (st : Stream)
  /-- SPECULATIVE_FETCH (R146): The fetch unit fills the next two lines regardless of control flow. -/
  | speculativeFetch (st : Stream) (k : Fin 2)
  /-- HELD_ACCESS_COMPLETE (R22): An access held at a router for a sleeping domain completes once the domain is ON. -/
  | heldAccessComplete (i : Nat)
  /-- POOL_ALLOCATE (R253): A buffer-pool manager grants a chain of cells or queues the request. -/
  | poolAllocate (st : Stream) (owner : Fin 4096) (bytes key : Nat)
  /-- POOL_RELEASE (R256): Releases one cell or a chain to its owner. -/
  | poolRelease (st : Stream) (addr : Nat) (chain : Bool)
  /-- POOL_WAITER_GRANT (R254): After a tick's releases, waiting requests are granted in queue order. -/
  | poolWaiterGrant (m : MDie) (r : Fin 64)
  /-- SPILL_CACHE_REFILL (R251): Reads 64 spill indices from a region's free-index ring into the spill cache. -/
  | spillCacheRefill (m : MDie) (r : Fin 64)
  /-- BOUNDARY_START (R163): At B the pace manager closes window w, books credits, applies latched effects and chooses. -/
  | boundaryStart (p : Part)
  /-- PACE_SEND (R163): At B + 4 the chosen pace is sent to the die clocks, which relock. -/
  | paceSend (p : Part)
  /-- ENTRY_PC_LOAD (R275): At B + 28 entry PCs are loaded and the bandwidth plan is installed. -/
  | entryPcLoad (p : Part)
  /-- WINDOW_OPEN (R163): At B + 32 waiting streams take the new window number and PCs and enter RUN. -/
  | windowOpen (p : Part)
  /-- WINDOW_CLOSE (R162): Every stream is at the boundary and every operation done; quiet credit booked. -/
  | windowClose (p : Part)
  /-- SLEEP_ANSWER (R181): A participant answers READY or REFUSE to a sleep proposal. -/
  | sleepAnswer (p : Part) (dom : Domain)
  /-- SLEEP_ANSWER_DEADLINE (R181): At C − 4 missing or refusing answers cancel the agreement. -/
  | sleepAnswerDeadline (p : Part)
  /-- SLEEP_COMMIT (R181): Every participant enters SLEEP at C. -/
  | sleepCommit (p : Part)
  /-- WAKE_REQUEST (R182): A wake request before C cancels the agreement, at or after C is latched. -/
  | wakeRequest (p : Part)
  /-- LATCHED_WAKE (R182): A latched wake takes effect when the minimum dwell ends. -/
  | latchedWake (p : Part)
  /-- SCHEDULED_WAKE (R183): At MC − wake latency sleeping domains needed next window are woken. -/
  | scheduledWake (p : Part)
  /-- MEETING_COUNT_REACHED (R176): A window not closed by MC posts LATE_START and sends a LATE beacon. -/
  | meetingCountReached (p : Part)
  /-- HANG_LIMIT_EXPIRY (R179): An unclosed window past HANG_LIMIT holds the partition with a record. -/
  | hangLimitExpiry (p : Part)
  /-- HOLD_LIMIT_EXPIRY (R535): An unanswered hold reaches its limit and its fallback applies. -/
  | holdLimitExpiry (p : Part) (r : HoldReason)
  /-- WINDOW0_BOUNDARY (R170): At LC − 32 the boundary for window 0 runs and variant 0 is debited. -/
  | window0Boundary (p : Part)
  /-- LAUNCH_COUNT (R419): At LC the partition becomes RUNNING, STEP takes STEP0 and streams leave IDLE. -/
  | launchCount (p : Part)
  /-- NORM_VERDICT (R395): At B + 224 heartwood writes the norm verdict record and journal entry. -/
  | normVerdict (p : Part)
  /-- LOAD (R343): A LOAD frame arrives at the home and reads bytes from a region. -/
  | load (pt : Port) (f : Frame)
  /-- STORE (R343): A STORE frame arrives at the home, writes data and may raise NOTIFY. -/
  | store (pt : Port) (f : Frame)
  /-- ATOMIC (R344): An ATOMIC frame executes a read-modify-write at a well bank. -/
  | atomic (pt : Port) (f : Frame)
  /-- FILL (R350): A FILL frame asks the home for a cacheable line. -/
  | fill (pt : Port) (f : Frame)
  /-- EVICT (R352): An EVICT frame clears a sharer bit when its LTAG matches. -/
  | evict (pt : Port) (f : Frame)
  /-- INVAL (R349): An INVAL frame reaches a far cache and is answered PRESENT or NOT_PRESENT. -/
  | inval (pt : Port) (f : Frame)
  /-- LOAD_DATA (R343): A LOAD_DATA response lands at the requester's reserved destination. -/
  | loadData (pt : Port) (f : Frame)
  /-- STORE_ACK (R345): A STORE_ACK completes a store. -/
  | storeAck (pt : Port) (f : Frame)
  /-- ATOMIC_DATA (R344): An ATOMIC_DATA response returns the old value. -/
  | atomicData (pt : Port) (f : Frame)
  /-- FILL_DATA (R349): A FILL_DATA response fills or declines a far-cache line and serves waiting loads. -/
  | fillData (pt : Port) (f : Frame)
  /-- INVAL_ACK (R351): An INVAL_ACK arrives; the last one clears INV_OPEN and releases the write's answer. -/
  | invalAck (pt : Port) (f : Frame)
  /-- RESYNC (R340): A RESYNC makes the requester resend unanswered requests of the stream. -/
  | resync (pt : Port) (f : Frame)
  /-- REQUEST_TIMEOUT (R340): A request unanswered within RTO is resent or moved to another port. -/
  | requestTimeout (n : Node) (pt : Port)
  /-- SUSPECT_RESEND (R354): The oldest request of a SUSPECT context is resent every 65,536 ticks. -/
  | suspectResend (n : Node)
  /-- FAR_CACHE_LOAD (R349): A load through the far cache is served from a line or sends FILL. -/
  | farCacheLoad (st : Stream) (n : Node) (addr len dst : Nat)
  /-- BEACON (R413): A timing BEACON frame arrives and the count offset is estimated. -/
  | beacon (pt : Port) (f : Frame) (rx : Nat)
  /-- BEACON_SEND (R413): A serving NATIVE port sends a BEACON every 16,384 ticks. -/
  | beaconSend (pt : Port)
  /-- LATE (R178): A LATE beacon arrives and peer-late attribution starts for that window. -/
  | late (pt : Port) (f : Frame)
  /-- TEARDOWN (R355): A TEARDOWN frame with the partition's job tag tears it down. -/
  | teardown (pt : Port) (f : Frame)
  /-- ALARM (R532): An ALARM frame arrives and raises an ALARM_RECEIVED event. -/
  | alarm (pt : Port) (f : Frame)
  /-- DATA_UNIT (R326): A NATIVE data unit arrives and is accepted, reassembled or NAKed. -/
  | dataUnit (pt : Port) (tag : W64) (data : List Byte) (crc : W32)
  /-- UNIT_ACK (R326): A cumulative ACK control unit frees the replay store. -/
  | unitAck (pt : Port) (lsn : W16)
  /-- UNIT_NAK (R327): A NAK control unit starts a replay from the named LSN. -/
  | unitNak (pt : Port) (lsn : W16)
  /-- CREDIT (R328): A CREDIT control unit returns receive credits for a class. -/
  | credit (pt : Port) (cls : Fin 4) (count : Nat)
  /-- SPARE (R318): A SPARE control unit names a lane and switch count. -/
  | spare (pt : Port) (lane : Fin 4) (t : Nat)
  /-- ECHO (R323): An ECHO control unit is answered with ECHO_REPLY. -/
  | echo (pt : Port) (count : W64)
  /-- ECHO_REPLY (R323): An ECHO_REPLY gives the port's RTT_TICKS. -/
  | echoReply (pt : Port) (count : W64)
  /-- LINK_ACK_TIMER (R326): A receiver sends a cumulative ACK at least every 256 ticks. -/
  | linkAckTimer (pt : Port)
  /-- LANE_FAILURE (R318): A lane loses lock or exceeds its FEC threshold and sparing starts. -/
  | laneFailure (pt : Port) (lane : Fin 5)
  /-- SPARE_SWITCH (R318): At the switch count both ends steer the lane onto lane 4. -/
  | spareSwitch (pt : Port)
  /-- PORT_DOWN (R318): A port with no spare left goes DOWN and its contexts move ports. -/
  | portDown (pt : Port)
  /-- D2D_LINK_FAILURE (R274): A die-to-die lane fails; repair is queued or the link is lost. -/
  | d2dLinkFailure (u : Unit52) (link : Fin 6) (module : Fin 16) (lane : Fin 64)
  /-- PTP_SYNC (R412): A PTP Sync message arrives on a SOURCE ETH port. -/
  | ptpSync (pt : Port) (twoStep : Bool) (seq : W16) (t1 t2 : Int)
  /-- PTP_FOLLOW_UP (R412): A PTP Follow_Up message arrives. -/
  | ptpFollowUp (pt : Port) (seq : W16) (t1 : Int)
  /-- PTP_DELAY_REQ (R412): A PTP Delay_Req arrives on a SERVE port and is answered. -/
  | ptpDelayReq (pt : Port) (seq : W16) (rx : Int)
  /-- PTP_DELAY_RESP (R412): A PTP Delay_Resp arrives and the servo updates the offset. -/
  | ptpDelayResp (pt : Port) (seq : W16) (t4 : Int)
  /-- PTP_SYNC_SEND (R412): A SERVE port sends Sync every 2^−10 s. -/
  | ptpSyncSend (pt : Port)
  /-- SOURCE_TIMEOUT (R411): No update from the primary source for 2^20 ticks switches source or enters HOLDOVER. -/
  | sourceTimeout
  /-- ERR_EST_GROWTH (R416): In HOLDOVER the error estimate grows every 16,384 ticks, possibly entering LOST. -/
  | errEstGrowth
  /-- COUNT_BEACON_SEND (R408): Heartwood sends a count beacon over the sideband every 256 ticks. -/
  | countBeaconSend
  /-- COUNT_BEACON_RECEIVE (R408): A die realigns its local count from a sideband beacon. -/
  | countBeaconReceive (u : Unit52)
  /-- HEARTBEAT_SEND (R435): The active heartwood die sends a heartbeat every 256 ticks. -/
  | heartbeatSend
  /-- HEARTBEAT_TIMEOUT (R435): Four missed heartbeats make the standby claim the active role. -/
  | heartbeatTimeout
  /-- TAKEOVER_COMPLETE (R436): The new active die serves mailboxes and boundaries and raises FAILOVER. -/
  | takeoverComplete
  /-- MIRROR_RECORD (R434): The standby receives a mirror record and acknowledges it. -/
  | mirrorRecord
  /-- MIRROR_ACK (R434): A mirror acknowledgement lets the mirrored change take effect. -/
  | mirrorAck
  /-- STANDBY_FAILURE (R437): A failed standby is held in reset and STANDBY_OK clears. -/
  | standbyFailure (check : Fin 4)
  /-- HEARTWOOD_SILENCE (R437): No heartbeat from either die for 1,280 ticks asserts FAULT_N. -/
  | heartwoodSilence
  /-- ERROR_EVENT (R527): A unit's error event reaches heartwood and enters, coalesces into, or is lost from the holding FIFO. -/
  | errorEvent (e : Option ErrEvent)
  /-- RECORD_WRITE (R525): Heartwood writes the FIFO head as an error record at most every 40 ticks. -/
  | recordWrite
  /-- FLASH_APPEND (R526): A UC or FA record is appended to the persistent error log. -/
  | flashAppend
  /-- HBM_TEMP_SAMPLE (R282): A memory die samples its stack temperature every 2,500 ticks. -/
  | hbmTempSample (m : MDie) (t : Nat)
  /-- BAND_CHANGE (R282): The HBM controller changes refresh band after a crossing sample. -/
  | bandChange (m : MDie)
  /-- HBM_SCRUB (R286): One granule per pseudo-channel is scrubbed every 2^20 ticks. -/
  | hbmScrub (m : MDie) (hits : List (Fin 64 × Fin 36))
  /-- SRAM_SCRUB (R286): One well or core-store line per bank is scrubbed every 2^16 ticks. -/
  | sramScrub (u : SramUnit) (hits : List (Fin 128))
  /-- ROW_REMAP (R287): An uncorrectable HBM row is remapped at once, holding its bank. -/
  | rowRemap (m : MDie) (pc : Fin 64) (bank : Fin 64) (row : Fin 16384) (bad : List (Fin 16))
  /-- STACK_RETIREMENT (R293): A stack is retired, powered off and its partitions held. -/
  | stackRetirement (m : MDie) (cause : Fin 6) (pc bank : Nat)
  /-- SENSOR_SAMPLE (R514): Junction temperature sensors are sampled every 250 ticks. -/
  | sensorSample (u : Unit52) (i : Fin 6) (t : Int)
  /-- ENERGY_SLOT_MEASURED (R515): A 2,500-tick sensor slot's measured energy becomes available to the account. -/
  | energySlotMeasured (slot : Nat) (owned : List Nat) (shared input peak : Nat)
  /-- THERMAL_CLAMP (R518): A die or stack at the clamp threshold is slowed or throttled. -/
  | thermalClamp (u : ThermalUnit)
  /-- THERMAL_CLAMP_RELEASE (R518): A clamp releases after two cool samples. -/
  | thermalClampRelease (u : ThermalUnit)
  /-- CURRENT_LIMIT (R518): Input current over threshold for 25 ticks halves every compute clock. -/
  | currentLimit (deciAmps : Nat)
  /-- CURRENT_LIMIT_RELEASE (R518): Current below 90 % for 2,500 ticks releases the fast limit. -/
  | currentLimitRelease
  /-- AVG_LIMIT (R519): The 1 ms average above 1.02 × envelope applies one throttle rung. -/
  | avgLimit (avgW : Nat)
  /-- AVG_LIMIT_RELEASE (R519): The average below 0.95 × envelope releases one rung. -/
  | avgLimitRelease (avgW : Nat)
  /-- REG_OVERCURRENT (R521): A regulator output over its limit is turned OFF and its partitions held. -/
  | regOvercurrent (u : Unit52) (out : Fin 21)
  /-- THERMAL_TRIP (R521): A die or stack at trip temperature turns every sapwood domain OFF and faults the device. -/
  | thermalTrip (u : ThermalUnit)
  /-- PACKAGE_SLEEP (R511): After 1 s idle in READY the package enters package sleep. -/
  | packageSleep
  /-- DOMAIN_TRANSITION_DONE (R509): A domain enable or disable completes, and a queued enable starts. -/
  | domainTransitionDone (dom : Domain)
  /-- HEARTWOOD_SUPPLY_UP (R578): Standby supply and reference clock good; count starts at 0 and boot begins. -/
  | heartwoodSupplyUp (slot : Fin 8)
  /-- BOOT (R461): Power-on reset releases; boot ROM verifies and runs Lysby to HEARTWOOD. -/
  | boot
  /-- HEARTWOOD_SUPPLY_LOST (R578): Loss of standby supply or reference clock makes the device COLD. -/
  | heartwoodSupplyLost
  /-- MAIN_GOOD_SET (R580): VIN12 held at 11.2 V for 2,500 ticks sets MAIN_GOOD. -/
  | mainGoodSet (mv : Nat)
  /-- MAIN_GOOD_CLEAR (R580): VIN12 below 10.8 V clears MAIN_GOOD, faulting the device if domains are on. -/
  | mainGoodClear (mv : Nat)
  /-- REFCLK_LOST (R581): REFCLK25 out of frequency for 2,500 ticks faults the device. -/
  | refclkLost (ppm : Int)
  /-- PERST_ASSERT (R582): PERST_N resets its host port's PCIe controller and link only. -/
  | perstAssert (hp : Fin 2)
  /-- AGEING_SAMPLE (R544): Ring-oscillator ageing is sampled every 2^38 ticks for the wear indices. -/
  | ageingSample (readings : List (Fin 113 × Nat))
  /-- GRAFT_FINAL_COPY (R541): At the graft boundary the final state copy runs from old die to spare. -/
  | graftFinalCopy (d : CDie)
  /-- GRAFT_MAP_SWITCH (R542): At the agreed count every router takes the new compute-die map. -/
  | graftMapSwitch (d : CDie)
  /-- GRAFT_FORWARD_END (R542): 2,500 ticks after the agreed count the old die stops forwarding and powers off. -/
  | graftForwardEnd (d : CDie)
  /-- CUT (R566): At the cut tick the partition's engines freeze and it enters STOPPED. -/
  | cut (p : Part)
  /-- FRAME_CAPTURE (R567): A frame for a cut partition is held and a capture entry written. -/
  | frameCapture (pt : Port) (f : Frame)
  /-- CUT_RESUME (R569): At Rz captured frames and held packets apply, then engines unfreeze. -/
  | cutResume (p : Part)
  /-- ENGINE_HALT (R564): A named engine halts at its next instruction boundary, or after a locked sequence. -/
  | engineHalt (st : Stream)
  /-- TRACE_TRIGGER (R559): An armed trace ring's trigger fires and writes a MARK. -/
  | traceTrigger (ring : Fin 384)
  /-- SNAPSHOT_LATCH (R554): At count K every covered counter is latched for a snapshot. -/
  | snapshotLatch (i : Nat)
  /-- TGEN_RUN_END (R291): A traffic generator run ends after COUNT, STOP or a mismatch and sets DONE. -/
  | tgenRunEnd (m : MDie) (pc : Fin 64) (made : Nat)
  /-- TGEN_START (R291): Writing START begins a generator run, or sets DONE at once for an invalid field. -/
  | tgenStart (m : MDie) (pc : Fin 64)
  /-- TGEN_STOP (R291): Writing STOP ends a generator run at the next granule. -/
  | tgenStop (m : MDie) (pc : Fin 64)
  /-- CMD_PROD_WRITE (R446): Writing CMD_PROD rings a command ring's doorbell or sets RING_ERR. -/
  | cmdProdWrite (b : Blk) (k : Fin 12) (v : W16)
  /-- RSP_CONS_WRITE (R446): Writing RSP_CONS consumes responses, or is ignored beyond RSP_PROD. -/
  | rspConsWrite (b : Blk) (k : Fin 12) (v : W16)
  /-- MBX_IRQ_TAKE (R445): A read of MBX_IRQ returns and clears the interrupt causes. -/
  | mbxIrqTake (b : Blk)
  /-- PORT_TAKE (R443): Writing PORT_TAKE through the standby port makes it the serving host port. -/
  | portTake (hp : Fin 2) (v : W64)
  /-- PEAK_W_TAKE (R522): A take of the PWR register returns and resets PEAK_W. -/
  | peakWTake
  /-- FIFO_PEAK_TAKE (R526): A take of the REC register returns and resets FIFO_PEAK. -/
  | fifoPeakTake
  /-- TRC_FIRE (R559): A take of TRC_FIRE fires a manual trace trigger. -/
  | trcFire (ring : Fin 384)
  /-- JNL_READ_WRITE (R423): The host advances JNL_READ, freeing journal slots or setting JNL_READ_ERR. -/
  | jnlReadWrite (p : Part) (v : W64)
  /-- DOORBELL_WRITE (R472): A write to DB_k latches a doorbell value for the next boundary. -/
  | doorbellWrite (p : Part) (k : Fin 16) (v : W64)
  /-- BAR2_ACCESS (R442): A host access through the BAR2 aperture reaches HBM or is refused. -/
  | bar2Access (b : Blk) (off : Nat) (len : Nat) (data : Option (List Byte))
  /-- ACC_WIN_WRITE (R562): Sets the accumulator-bank quarter seen through the debug view. -/
  | accWinWrite (c : Core) (v : W64)
  /-- REGISTER_WRITE (R11): A write to a register with no behaviour of its own, including W1C clears. -/
  | registerWrite (t : RegTarget) (v : W64)
  /-- I3C_PRIVATE_WRITE (R455): An I3C private write stores bytes into the I3C view from an offset. -/
  | i3cPrivateWrite (h : Fin 2) (bytes : List Byte)
  /-- I3C_PRIVATE_READ (R455): An I3C private read returns bytes of the I3C view. -/
  | i3cPrivateRead (h : Fin 2) (n : Nat)
  /-- ENTDAA (R453): Dynamic address assignment by provisioned-ID arbitration. -/
  | entdaa (h : Fin 2) (others : List Nat) (addr : BitVec 7)
  /-- RSTDAA (R452): Resets the dynamic address. -/
  | rstdaa (h : Fin 2)
  /-- SETMWL (R452): Sets the maximum write length. -/
  | setmwl (h : Fin 2) (n : Nat)
  /-- SETMRL (R452): Sets the maximum read length. -/
  | setmrl (h : Fin 2) (n : Nat)
  /-- GETPID (R453): Returns the provisioned ID. -/
  | getpid (h : Fin 2)
  /-- GETBCR (R453): Returns the BCR. -/
  | getbcr (h : Fin 2)
  /-- GETDCR (R453): Returns the DCR. -/
  | getdcr (h : Fin 2)
  /-- GETSTATUS (R452): Returns the target status. -/
  | getstatus (h : Fin 2)
  /-- ENEC (R452): Enables target events. -/
  | enec (h : Fin 2) (events : Byte)
  /-- DISEC (R452): Disables target events. -/
  | disec (h : Fin 2) (events : Byte)
  /-- PENDING_COMMAND_COMPLETE (R476): The awaited event of a P command occurs and its final response is written. -/
  | pendingCommandComplete (i : Nat) (failed : List Nat)
  /-- DEVICE_START (R461): Powers the sapwood domains from HEARTWOOD to READY. -/
  | deviceStart (b : Blk) (k : Fin 12)
  /-- DEVICE_STOP (R479): Turns every sapwood domain OFF and returns to HEARTWOOD. -/
  | deviceStop (b : Blk) (k : Fin 12)
  /-- DEVICE_RESET (R480): Tears down partitions, fails pending commands and returns to HEARTWOOD. -/
  | deviceReset (b : Blk) (k : Fin 12)
  /-- DEVICE_IDENTITY (R479): Returns ordering code, stepping, serial and unit inventory. -/
  | deviceIdentity (b : Blk) (k : Fin 12)
  /-- DEVICE_MEASURE (R460): Returns one measurement register. -/
  | deviceMeasure (b : Blk) (k : Fin 12)
  /-- DEVICE_STATUS (R479): Returns device state, count, record counts and cap. -/
  | deviceStatus (b : Blk) (k : Fin 12)
  /-- POWER_CAP (R481): Sets the facility cap on the envelope. -/
  | powerCap (b : Blk) (k : Fin 12)
  /-- FIRMWARE_COMMIT (R482): Raises the fused rollback minimum. -/
  | firmwareCommit (b : Blk) (k : Fin 12)
  /-- JOB_LOAD (R484): Verifies and loads a job image into a READY partition. -/
  | jobLoad (b : Blk) (k : Fin 12) (img : JobImage)
  /-- JOB_UNLOAD (R485): Unloads a job and returns the partition to READY. -/
  | jobUnload (b : Blk) (k : Fin 12)
  /-- JOB_LAUNCH (R419): Arms a loaded partition with LC, seed, STEP0, tag and replay fields. -/
  | jobLaunch (b : Blk) (k : Fin 12)
  /-- JOB_TEARDOWN (R487): Tears down a job, or disarms it before LC. -/
  | jobTeardown (b : Blk) (k : Fin 12)
  /-- JOB_RESUME (R569): Resumes a held or stopped partition at the next boundary or Rz. -/
  | jobResume (b : Blk) (k : Fin 12)
  /-- JOB_VARIANT (R488): Selects a variant set from the next STEP-advancing boundary. -/
  | jobVariant (b : Blk) (k : Fin 12)
  /-- INPUT_COMMIT (R489): Hashes and journals an input batch, comparing it in replay. -/
  | inputCommit (b : Blk) (k : Fin 12)
  /-- POOL_AUDIT (R258): Audits buffer-pool owners of a partition for leaks. -/
  | poolAudit (b : Blk) (k : Fin 12)
  /-- PACE_PLAN (R490): Sets the partition's pace plan, latched to the next boundary. -/
  | pacePlan (b : Blk) (k : Fin 12)
  /-- PACE_READ (R490): Returns headroom, variant, pace and plan in force. -/
  | paceRead (b : Blk) (k : Fin 12)
  /-- PLATE_STAGE (R464): Writes and verifies a plate in the inactive flash slot. -/
  | plateStage (b : Blk) (k : Fin 12) (pl : Plate) (sigOk : Bool)
  /-- PLATE_APPLY (R465): Applies a plate to every register it governs. -/
  | plateApply (b : Blk) (k : Fin 12)
  /-- OVERLAY_APPLY (R468): Applies a signed overlay at once or at the next boundary. -/
  | overlayApply (b : Blk) (k : Fin 12) (sigOk : Bool)
  /-- OVERLAY_REMOVE (R468): Removes an overlay and recomputes the fields it named. -/
  | overlayRemove (b : Blk) (k : Fin 12)
  /-- OVERLAY_LIST (R491): Lists the overlays in force. -/
  | overlayList (b : Blk) (k : Fin 12)
  /-- NODE_ASSIGN (R456): Sets the node ID, VLAN and port MAC addresses. -/
  | nodeAssign (b : Blk) (k : Fin 12)
  /-- TIME_SOURCE (R494): Sets the device's time role and port time registers. -/
  | timeSource (b : Blk) (k : Fin 12)
  /-- PART_QUERY (R493): Returns a partition's state, resources and launch values. -/
  | partQuery (b : Blk) (k : Fin 12)
  /-- GRAFT_PREPARE (R540): Powers, tests and preloads a spare compute die. -/
  | graftPrepare (b : Blk) (k : Fin 12)
  /-- GRAFT_COMMIT (R496): Commits a prepared graft at an agreed boundary count. -/
  | graftCommit (b : Blk) (k : Fin 12)
  /-- GRAFT_ABORT (R540): Abandons a prepared graft and returns the spare. -/
  | graftAbort (b : Blk) (k : Fin 12)
  /-- GRAFT_STATUS (R495): Returns the phase of a die's graft. -/
  | graftStatus (b : Blk) (k : Fin 12)
  /-- NORM_ARM (R498): Arms the norm bounds for the next check. -/
  | normArm (b : Blk) (k : Fin 12)
  /-- NORM_ANSWER (R397): Answers a norm hold with PROCEED or SKIP. -/
  | normAnswer (b : Blk) (k : Fin 12)
  /-- PROOF_ARM (R399): Sets proof interval, phase and mismatch action. -/
  | proofArm (b : Blk) (k : Fin 12)
  /-- PROOF_COMPARE_COMMAND (R498): Compares journal proof entries with host-supplied entries. -/
  | proofCompareCommand (b : Blk) (k : Fin 12)
  /-- JOURNAL_OPEN (R500): Opens a journal ring in the partition's HBM. -/
  | journalOpen (b : Blk) (k : Fin 12)
  /-- JOURNAL_CLOSE (R499): Closes the journal and returns JNL_WRITE. -/
  | journalClose (b : Blk) (k : Fin 12)
  /-- EXPORT_START (R403): Writes master state in LOGICAL or WORKING form to an HBM buffer. -/
  | exportStart (b : Blk) (k : Fin 12)
  /-- IMPORT_START (R405): Verifies and imports master state into a loaded job. -/
  | importStart (b : Blk) (k : Fin 12)
  /-- STOP_AT (R502): Arms a stop-at-count cut. -/
  | stopAt (b : Blk) (k : Fin 12)
  /-- STOP_CANCEL (R502): Cancels a pending stop-at-count. -/
  | stopCancel (b : Blk) (k : Fin 12)
  /-- DEBUG_HALT (R564): Halts named engines at their next instruction boundary. -/
  | debugHalt (b : Blk) (k : Fin 12)
  /-- DEBUG_RUN (R564): Resumes issue of halted engines. -/
  | debugRun (b : Blk) (k : Fin 12)
  /-- PEEK (R561): Reads bytes without side effects, inline or to a destination. -/
  | peek (b : Blk) (k : Fin 12)
  /-- TAKE (R563): Reads a register holding TAKE fields and performs their side effects. -/
  | take (b : Blk) (k : Fin 12)
  /-- TRACE_ARM (R557): Arms a trace ring with trigger, share and source mask. -/
  | traceArm (b : Blk) (k : Fin 12)
  /-- COUNTERS_SNAP (R554): Takes a counter snapshot at count K into a buffer. -/
  | countersSnap (b : Blk) (k : Fin 12)
  /-- SERVICE_ENTER (R504): Moves the device from READY to SERVICE. -/
  | serviceEnter (b : Blk) (k : Fin 12)
  /-- SERVICE_EXIT (R504): Stops traffic generators and returns to READY. -/
  | serviceExit (b : Blk) (k : Fin 12)
  /-- TGEN_RUN (R505): Programs and starts a range of traffic generators in one tick. -/
  | tgenRun (b : Blk) (k : Fin 12)
  /-- TGEN_READ (R504): Returns a traffic generator's status registers. -/
  | tgenRead (b : Blk) (k : Fin 12)
  /-- RECORD_READ (R505): Returns half of an error record by sequence number. -/
  | recordRead (b : Blk) (k : Fin 12)
  /-- WEAR_READ (R545): Returns one wear index. -/
  | wearRead (b : Blk) (k : Fin 12)
  /-- STACK_RETIRE (R505): Retires an HBM stack by service command. -/
  | stackRetire (b : Blk) (k : Fin 12)
  /-- RETURN_PREPARE (R548): Zeroes memory, writes the sealed capture and blows the seal fuse. -/
  | returnPrepare (b : Blk) (k : Fin 12)
  /-- GC_WAIT_SATISFIED (R122): A stream in WAIT_GC sees the global count reach GC and issues its WAITGC 2 cycles later. -/
  | gcWaitSatisfied (st : Stream)
  /-- ENGINE_INSTRUCTION_COMPLETE (R119): An ME shape or VE operation reaches the end of its cycle count, retires, completes and sends its signals. -/
  | engineInstructionComplete (st : Stream)
  /-- TALLY_FIFO_APPLY (R136): A tally bank applies up to 4 queued count events from its event FIFO in a later cycle and tests waits. -/
  | tallyFifoApply (c : Core)
  /-- LINK_TRAINING_COMPLETE (R319): A Jildoit port finishes link training and its LINK goes UP, reporting PEER_NODE, or is held DOWN on its own node ID. -/
  | linkTrainingComplete (pt : Port) (peer : Node)
  /-- PERST_DEASSERT (R441): PERST_N deasserts and the host port's PCIe link trains, ready for configuration 100 ms later. -/
  | perstDeassert (hp : Fin 2)
  /-- SNAPSHOT_WRITE_TIMEOUT (R533): A counter snapshot not written within 250,000 ticks of its take ends FAILED with reason 7 and SNAP_DROPS rises. -/
  | snapshotWriteTimeout (i : Nat)
  /-- IBI_RETRY (R454): An in-band interrupt that lost arbitration is requested again when the I3C bus is next free. -/
  | ibiRetry
  /-- BOUNDARY_SCAN (R570): A JTAG instruction such as EXTEST, CLAMP or HIGHZ takes effect on the pins, or acts as BYPASS while sapwood domains are on. -/
  | boundaryScan (i : JtagInstr)
deriving DecidableEq, Repr

end Sys2Proof
end

