-- ==== Sys2Proof/Decode.lean ====
section
/-! DEFINITION. The commands that words spell: none, since spec/opcode_table.json gives no row any bits. -/

namespace Sys2Proof

/-- The command that a word of nbits bits spells. -/
def decodeTableWord (_nbits _w : Nat) : Option Instr := none

end Sys2Proof
end

