-- ==== Sys2Proof/Machine/Table.lean ====
section
/-! DEFINITION. Sparse tables: strictly rising keys, and no entry equal to what an unlisted key reads as; and the
little-endian helpers (R10). -/

namespace Sys2Proof.Machine

/-- A sparse table: what an unlisted key reads as is the argument d of each operation. -/
abbrev Tbl (α : Type) := List (Nat × α)

/-- The value at key k. -/
def tget {α : Type} (d : Nat → α) : Tbl α → Nat → α
  | [], k => d k
  | (j, v) :: t, k => if k = j then v else tget d t k

/-- The table with value v at key k, in canonical form. -/
def tput {α : Type} [DecidableEq α] (d : Nat → α) : Tbl α → Nat → α → Tbl α
  | [], k, v => if v = d k then [] else [(k, v)]
  | (j, u) :: t, k, v =>
    if k < j then (if v = d k then (j, u) :: t else (k, v) :: (j, u) :: t)
    else if k = j then (if v = d k then t else (k, v) :: t)
    else (j, u) :: tput d t k v

/-- All keys of a table above lo, strictly rising, no entry equal to its default. -/
def tblWfFrom {α : Type} [DecidableEq α] (d : Nat → α) : Nat → Tbl α → Bool
  | _, [] => true
  | lo, (j, v) :: t => decide (lo ≤ j) && decide (v ≠ d j) && tblWfFrom d (j + 1) t

/-- The canonical form of a table. -/
def tblWf {α : Type} [DecidableEq α] (d : Nat → α) (t : Tbl α) : Bool := tblWfFrom d 0 t

/-- A set of numbers as a strictly rising list: insertion. -/
def nins : List Nat → Nat → List Nat
  | [], k => [k]
  | j :: t, k => if k < j then k :: j :: t else if k = j then j :: t else j :: nins t k

/-- Removal from such a set. -/
def ndel (l : List Nat) (k : Nat) : List Nat := l.filter (fun j => j != k)

/-- The n bits of w from bit lo. -/
def bitsAt (w lo n : Nat) : Nat := (w >>> lo) % 2 ^ n

/-- w with its n bits from lo replaced by v. -/
def setBits (w lo n v : Nat) : Nat :=
  w - (bitsAt w lo n) * 2 ^ lo + (v % 2 ^ n) * 2 ^ lo

/-- A field of a register word. -/
def fld {m : Nat} (w : BitVec m) (lo n : Nat) : Nat := bitsAt w.toNat lo n

/-- A register word with one field replaced. -/
def setFld {m : Nat} (w : BitVec m) (lo n v : Nat) : BitVec m := BitVec.ofNat m (setBits w.toNat lo n v)

/-- One bit of a word. -/
def bitOf {m : Nat} (w : BitVec m) (i : Nat) : Bool := w.getLsbD i

/-- The number that little-endian bytes hold (R10). -/
def leNat : List Byte → Nat
  | [] => 0
  | b :: t => b.toNat + 256 * leNat t

/-- The k little-endian bytes of n. -/
def natLe : Nat → Nat → List Byte
  | 0, _ => []
  | k + 1, n => BitVec.ofNat 8 n :: natLe k (n / 256)

def boolNat (b : Bool) : Nat := if b then 1 else 0

/-- A count that holds at the greatest value of n bits. -/
def satAdd (n a b : Nat) : Nat := min (a + b) (2 ^ n - 1)

/-- Signed reading of the low n bits. -/
def sext (n w : Nat) : Int := if w % 2 ^ n < 2 ^ (n - 1) then (w % 2 ^ n : Nat) else (w % 2 ^ n : Nat) - (2 ^ n : Nat)

/-- The numbers below n that satisfy p. -/
def below (n : Nat) (p : Nat → Bool) : List Nat := (List.range n).filter p

end Sys2Proof.Machine
end

