-- ==== Sys2Proof/Machine/Digest.lean ====
section
/-! DEFINITION. CRC-32C (R221) and the SHA-2 digests (R384, R398, R486) over byte lists. -/

namespace Sys2Proof.Machine

/-- Eight shifts of the reflected CRC register with polynomial 0x1EDC6F41. -/
def crcShift : Nat → W32 → W32
  | 0, c => c
  | n + 1, c => crcShift n (if c.getLsbD 0 then (c >>> 1) ^^^ 0x82F63B78#32 else c >>> 1)

def crcByte (c : W32) (b : Byte) : W32 := crcShift 8 (c ^^^ b.zeroExtend 32)

/-- CRC-32C: reflected, initial value and final XOR all ones (R221). -/
def crc32c (bs : List Byte) : W32 := (bs.foldl crcByte 0xFFFFFFFF#32) ^^^ 0xFFFFFFFF#32

/-- The number that big-endian bytes hold. -/
def beNat (bs : List Byte) : Nat := bs.foldl (fun a b => 256 * a + b.toNat) 0
/-- The k big-endian bytes of n. -/
def natBe (k n : Nat) : List Byte := (natLe k n).reverse

/-- Consecutive runs of n elements; `f` bounds their number. -/
def runsOf {α : Type} (n : Nat) : Nat → List α → List (List α)
  | 0, _ => []
  | f + 1, l => if l.isEmpty then [] else l.take n :: runsOf n f (l.drop n)

/-- The padded message: 0x80, zeros, and the bit length in `lb` bytes, to a multiple of `blk` bytes. -/
def shaPad (blk lb : Nat) (bs : List Byte) : List Byte :=
  let n := bs.length
  let z := (blk - (n + 1 + lb) % blk) % blk
  bs ++ [0x80] ++ List.replicate z 0 ++ natBe lb (8 * n)

structure ShaSt (w : Nat) where
  a : BitVec w
  b : BitVec w
  c : BitVec w
  d : BitVec w
  e : BitVec w
  f : BitVec w
  g : BitVec w
  h : BitVec w
deriving DecidableEq, Repr

/-- The rotation and shift amounts of a SHA-2 width: Σ0, Σ1, σ0, σ1. -/
structure ShaRot where
  s0 : Nat × Nat × Nat
  s1 : Nat × Nat × Nat
  e0 : Nat × Nat × Nat
  e1 : Nat × Nat × Nat
deriving DecidableEq, Repr

def rot256 : ShaRot := ⟨(2, 13, 22), (6, 11, 25), (7, 18, 3), (17, 19, 10)⟩
def rot512 : ShaRot := ⟨(28, 34, 39), (14, 18, 41), (1, 8, 7), (19, 61, 6)⟩

def bigSigma {w : Nat} (r : Nat × Nat × Nat) (x : BitVec w) : BitVec w :=
  x.rotateRight r.1 ^^^ x.rotateRight r.2.1 ^^^ x.rotateRight r.2.2
def smallSigma {w : Nat} (r : Nat × Nat × Nat) (x : BitVec w) : BitVec w :=
  x.rotateRight r.1 ^^^ x.rotateRight r.2.1 ^^^ (x >>> r.2.2)

/-- One round, given its constant plus message word. -/
def shaRound {w : Nat} (r : ShaRot) (s : ShaSt w) (kw : BitVec w) : ShaSt w :=
  let t1 := s.h + bigSigma r.s1 s.e + ((s.e &&& s.f) ^^^ (~~~s.e &&& s.g)) + kw
  let t2 := bigSigma r.s0 s.a + ((s.a &&& s.b) ^^^ (s.a &&& s.c) ^^^ (s.b &&& s.c))
  ⟨t1 + t2, s.a, s.b, s.c, s.d + t1, s.e, s.f, s.g⟩

/-- The rounds of a block: the 16 words in view slide along the schedule. -/
def shaRounds {w : Nat} (r : ShaRot) : List (BitVec w) → List (BitVec w) → ShaSt w → ShaSt w
  | [], _, s => s
  | k :: ks, ws, s =>
    let nxt := smallSigma r.e1 (ws.getD 14 0) + ws.getD 9 0 + smallSigma r.e0 (ws.getD 1 0) + ws.getD 0 0
    shaRounds r ks (ws.drop 1 ++ [nxt]) (shaRound r s (k + ws.getD 0 0))

def ShaSt.plus {w : Nat} (s t : ShaSt w) : ShaSt w :=
  ⟨s.a + t.a, s.b + t.b, s.c + t.c, s.d + t.d, s.e + t.e, s.f + t.f, s.g + t.g, s.h + t.h⟩

def shaBlock {w : Nat} (r : ShaRot) (ks : List (BitVec w)) (s : ShaSt w) (blk : List Byte) : ShaSt w :=
  s.plus (shaRounds r ks ((runsOf (w / 8) 16 blk).map fun x => BitVec.ofNat w (beNat x)) s)

def ShaSt.bytes {w : Nat} (s : ShaSt w) : List Byte :=
  ([s.a, s.b, s.c, s.d, s.e, s.f, s.g, s.h].map fun x => natBe (w / 8) x.toNat).flatten

def k256a : List (BitVec 32) :=
  [0x428a2f98#32, 0x71374491#32, 0xb5c0fbcf#32, 0xe9b5dba5#32, 0x3956c25b#32, 0x59f111f1#32, 0x923f82a4#32, 0xab1c5ed5#32,
   0xd807aa98#32, 0x12835b01#32, 0x243185be#32, 0x550c7dc3#32, 0x72be5d74#32, 0x80deb1fe#32, 0x9bdc06a7#32, 0xc19bf174#32]
def k256b : List (BitVec 32) :=
  [0xe49b69c1#32, 0xefbe4786#32, 0x0fc19dc6#32, 0x240ca1cc#32, 0x2de92c6f#32, 0x4a7484aa#32, 0x5cb0a9dc#32, 0x76f988da#32,
   0x983e5152#32, 0xa831c66d#32, 0xb00327c8#32, 0xbf597fc7#32, 0xc6e00bf3#32, 0xd5a79147#32, 0x06ca6351#32, 0x14292967#32]
def k256c : List (BitVec 32) :=
  [0x27b70a85#32, 0x2e1b2138#32, 0x4d2c6dfc#32, 0x53380d13#32, 0x650a7354#32, 0x766a0abb#32, 0x81c2c92e#32, 0x92722c85#32,
   0xa2bfe8a1#32, 0xa81a664b#32, 0xc24b8b70#32, 0xc76c51a3#32, 0xd192e819#32, 0xd6990624#32, 0xf40e3585#32, 0x106aa070#32]
def k256d : List (BitVec 32) :=
  [0x19a4c116#32, 0x1e376c08#32, 0x2748774c#32, 0x34b0bcb5#32, 0x391c0cb3#32, 0x4ed8aa4a#32, 0x5b9cca4f#32, 0x682e6ff3#32,
   0x748f82ee#32, 0x78a5636f#32, 0x84c87814#32, 0x8cc70208#32, 0x90befffa#32, 0xa4506ceb#32, 0xbef9a3f7#32, 0xc67178f2#32]
/-- Round constants. -/
def k256 : List (BitVec 32) := k256a ++ k256b ++ k256c ++ k256d

def k512a : List (BitVec 64) :=
  [0x428a2f98d728ae22#64, 0x7137449123ef65cd#64, 0xb5c0fbcfec4d3b2f#64, 0xe9b5dba58189dbbc#64,
   0x3956c25bf348b538#64, 0x59f111f1b605d019#64, 0x923f82a4af194f9b#64, 0xab1c5ed5da6d8118#64,
   0xd807aa98a3030242#64, 0x12835b0145706fbe#64, 0x243185be4ee4b28c#64, 0x550c7dc3d5ffb4e2#64,
   0x72be5d74f27b896f#64, 0x80deb1fe3b1696b1#64, 0x9bdc06a725c71235#64, 0xc19bf174cf692694#64]
def k512b : List (BitVec 64) :=
  [0xe49b69c19ef14ad2#64, 0xefbe4786384f25e3#64, 0x0fc19dc68b8cd5b5#64, 0x240ca1cc77ac9c65#64,
   0x2de92c6f592b0275#64, 0x4a7484aa6ea6e483#64, 0x5cb0a9dcbd41fbd4#64, 0x76f988da831153b5#64,
   0x983e5152ee66dfab#64, 0xa831c66d2db43210#64, 0xb00327c898fb213f#64, 0xbf597fc7beef0ee4#64,
   0xc6e00bf33da88fc2#64, 0xd5a79147930aa725#64, 0x06ca6351e003826f#64, 0x142929670a0e6e70#64]
def k512c : List (BitVec 64) :=
  [0x27b70a8546d22ffc#64, 0x2e1b21385c26c926#64, 0x4d2c6dfc5ac42aed#64, 0x53380d139d95b3df#64,
   0x650a73548baf63de#64, 0x766a0abb3c77b2a8#64, 0x81c2c92e47edaee6#64, 0x92722c851482353b#64,
   0xa2bfe8a14cf10364#64, 0xa81a664bbc423001#64, 0xc24b8b70d0f89791#64, 0xc76c51a30654be30#64,
   0xd192e819d6ef5218#64, 0xd69906245565a910#64, 0xf40e35855771202a#64, 0x106aa07032bbd1b8#64]
def k512d : List (BitVec 64) :=
  [0x19a4c116b8d2d0c8#64, 0x1e376c085141ab53#64, 0x2748774cdf8eeb99#64, 0x34b0bcb5e19b48a8#64,
   0x391c0cb3c5c95a63#64, 0x4ed8aa4ae3418acb#64, 0x5b9cca4f7763e373#64, 0x682e6ff3d6b2b8a3#64,
   0x748f82ee5defb2fc#64, 0x78a5636f43172f60#64, 0x84c87814a1f0ab72#64, 0x8cc702081a6439ec#64,
   0x90befffa23631e28#64, 0xa4506cebde82bde9#64, 0xbef9a3f7b2c67915#64, 0xc67178f2e372532b#64]
def k512e : List (BitVec 64) :=
  [0xca273eceea26619c#64, 0xd186b8c721c0c207#64, 0xeada7dd6cde0eb1e#64, 0xf57d4f7fee6ed178#64,
   0x06f067aa72176fba#64, 0x0a637dc5a2c898a6#64, 0x113f9804bef90dae#64, 0x1b710b35131c471b#64,
   0x28db77f523047d84#64, 0x32caab7b40c72493#64, 0x3c9ebe0a15c9bebc#64, 0x431d67c49c100d4c#64,
   0x4cc5d4becb3e42b6#64, 0x597f299cfc657e2a#64, 0x5fcb6fab3ad6faec#64, 0x6c44198c4a475817#64]
/-- Round constants. -/
def k512 : List (BitVec 64) := k512a ++ k512b ++ k512c ++ k512d ++ k512e

/-- SHA-256. -/
def sha256 (bs : List Byte) : List Byte :=
  let p := shaPad 64 8 bs
  ((runsOf 64 (p.length / 64) p).foldl (shaBlock rot256 k256)
    ⟨0x6a09e667#32, 0xbb67ae85#32, 0x3c6ef372#32, 0xa54ff53a#32, 0x510e527f#32, 0x9b05688c#32, 0x1f83d9ab#32,
     0x5be0cd19#32⟩).bytes

/-- SHA-384. -/
def sha384 (bs : List Byte) : List Byte :=
  let p := shaPad 128 16 bs
  (((runsOf 128 (p.length / 128) p).foldl (shaBlock rot512 k512)
    ⟨0xcbbb9d5dc1059ed8#64, 0x629a292a367cd507#64, 0x9159015a3070dd17#64, 0x152fecd8f70e5939#64, 0x67332667ffc00b31#64,
     0x8eb44a8768581511#64, 0xdb0c2e0d64f98fa7#64, 0x47b5481dbefa4fa4#64⟩).bytes).take 48

end Sys2Proof.Machine
end

