-- ==== Sys2Proof/Config.lean ====
section
/-! DEFINITION. What the spec leaves open: values without a body, which no proof can see (log 3). -/

namespace Sys2Proof.Config

/-- A byte whose value the spec leaves open, the n-th one asked for (log 3). -/
opaque freeByte : Nat → Byte

/-- A word whose value the spec leaves open, the n-th one asked for (log 3). -/
opaque freeWord : Nat → W64

/-- Alaholt's MIPI manufacturer ID, which the spec names and does not state (R453, log 3). -/
opaque mipiId : BitVec 15

/-- Alaholt's JEP106 manufacturer code (R570, log 3). -/
opaque jep106 : BitVec 11

/-- The arrangement of the return capture, of which the spec gives the parts and no layout (R548, log 60). -/
opaque captureBytes : List (List Nat) → List Byte

end Sys2Proof.Config
end

