-- ==== Sys2Proof/Machine/Exact.lean ====
section
/-! DEFINITION. Exact values and the single rounding of AC1 (chapter 02): dyadic numbers, rne32, the FP32
operations, the chunk sum and the canonical tree, the counter generator and the Hadamard rotation. -/

namespace Sys2Proof.Machine

/-- A value that AC1 computes with: a NaN, an infinity, or the dyadic number m × 2^e (−0 is read as +0, R28). -/
inductive Val where
  | nan
  | inf (neg : Bool)
  | fin (m e : Int)
deriving DecidableEq, Repr

/-- The canonical FP32 NaN (Table 2-3). -/
def nan32 : W32 := 0x7FC00000#32
def zero32 : W32 := 0#32
def one32 : W32 := 0x3F800000#32
def posInf32 : W32 := 0x7F800000#32

/-- 2^e as a Nat shift of m, dropping bits below the point. -/
def shiftDown (m : Nat) (d : Int) : Nat :=
  if d ≤ 0 then m <<< (-d).toNat else m >>> d.toNat

/-- m × 2^(−d) rounded to the nearest integer, ties to even. -/
def rneShift (m : Nat) (d : Int) : Nat :=
  if d ≤ 0 then m <<< (-d).toNat
  else
    let k := d.toNat
    let n := m >>> k
    let r := m - (n <<< k)
    let half := 1 <<< (k - 1)
    if half < r || (r == half && n % 2 == 1) then n + 1 else n

/-- The exponent of the unit in the last place of m × 2^e (m > 0) with p significant bits and least unit 2^emin. -/
def ulpExp (p : Nat) (emin : Int) (m : Nat) (e : Int) : Int :=
  max ((Nat.log2 m : Int) + e - (p - 1 : Nat)) emin

/-- The FP32 magnitude code of m × 2^e under round-to-nearest-even, with gradual underflow and overflow (R35). -/
def rnePos (m : Nat) (e : Int) : Nat :=
  if m == 0 then 0
  else
    let q := ulpExp 24 (-149) m e
    let n := rneShift m (q - e)
    let code := if n < 0x800000 then n else ((q + 150).toNat <<< 23) + (n - 0x800000)
    if code < 0x7F800000 then code else 0x7F800000

/-- rne32 of R35: the exact value rounded once to binary32. Every zero is +0 (R28), every NaN canonical (R27). -/
def Val.rne32 : Val → W32
  | .nan => nan32
  | .inf false => posInf32
  | .inf true => 0xFF800000#32
  | .fin m e =>
    let c := rnePos m.natAbs e
    if c == 0 then 0#32
    else if m < 0 then BitVec.ofNat 32 (0x80000000 + c) else BitVec.ofNat 32 c

/-- The value of a binary field triple: e bits of exponent, m bits of mantissa (R26), no special codes. -/
def fieldVal (ebits mbits : Nat) (bias : Int) (code : Nat) : Val :=
  let mm := code % 2 ^ mbits
  let ee := (code >>> mbits) % 2 ^ ebits
  let neg := (code >>> (mbits + ebits)) % 2 == 1
  let mag : Int := if ee == 0 then mm else mm + 2 ^ mbits
  let x : Int := (if ee == 0 then 1 else (ee : Int)) - bias - mbits
  .fin (if neg then -mag else mag) x

/-- An IEEE encoding whose top exponent holds the infinities and NaNs. -/
def ieeeVal (ebits mbits : Nat) (bias : Int) (code : Nat) : Val :=
  if (code >>> mbits) % 2 ^ ebits == 2 ^ ebits - 1 then
    if code % 2 ^ mbits == 0 then .inf ((code >>> (mbits + ebits)) % 2 == 1) else .nan
  else fieldVal ebits mbits bias code

/-- The value of an FP32 word (Table 2-1). -/
def val32 (w : W32) : Val := ieeeVal 8 23 127 w.toNat

/-- m × 2^e at the lower exponent e' ≤ e. -/
def align (m e e' : Int) : Int := m * 2 ^ (e - e').toNat

namespace Val

def ofNat (n : Nat) : Val := .fin n 0
def ofInt (n : Int) : Val := .fin n 0
def zero : Val := .fin 0 0
def one : Val := .fin 1 0
/-- 2^k. -/
def pow2 (k : Int) : Val := .fin 1 k

def neg : Val → Val
  | .nan => .nan
  | .inf s => .inf (!s)
  | .fin m e => .fin (-m) e

def abs : Val → Val
  | .nan => .nan
  | .inf _ => .inf false
  | .fin m e => .fin m.natAbs e

def isNan : Val → Bool
  | .nan => true
  | _ => false

def isInf : Val → Bool
  | .inf _ => true
  | _ => false

def isZero : Val → Bool
  | .fin m _ => m == 0
  | _ => false

def add : Val → Val → Val
  | .nan, _ => .nan
  | _, .nan => .nan
  | .inf a, .inf b => if a == b then .inf a else .nan
  | .inf a, .fin _ _ => .inf a
  | .fin _ _, .inf b => .inf b
  | .fin m e, .fin n f =>
    let g := min e f
    .fin (align m e g + align n f g) g

def sub (a b : Val) : Val := add a (neg b)

def mul : Val → Val → Val
  | .nan, _ => .nan
  | _, .nan => .nan
  | .inf a, .inf b => .inf (a != b)
  | .inf a, .fin m _ => if m == 0 then .nan else .inf (a != decide (m < 0))
  | .fin m _, .inf b => if m == 0 then .nan else .inf (b != decide (m < 0))
  | .fin m e, .fin n f => .fin (m * n) (e + f)

/-- Strict order on values; false where either is a NaN. -/
def lt : Val → Val → Bool
  | .nan, _ => false
  | _, .nan => false
  | .inf a, .inf b => a && !b
  | .inf a, .fin _ _ => a
  | .fin _ _, .inf b => !b
  | .fin m e, .fin n f =>
    let g := min e f
    decide (align m e g < align n f g)

def eq : Val → Val → Bool
  | .nan, _ => false
  | _, .nan => false
  | .inf a, .inf b => a == b
  | .inf _, .fin _ _ => false
  | .fin _ _, .inf _ => false
  | .fin m e, .fin n f =>
    let g := min e f
    decide (align m e g = align n f g)

def le (a b : Val) : Bool := lt a b || eq a b

/-- ⌊log₂ |x|⌋ of a non-zero finite value. -/
def log2Floor : Val → Int
  | .fin m e => (Nat.log2 m.natAbs : Int) + e
  | _ => 0

/-- The integer nearest to a finite value, ties to even (RINT). -/
def rint : Val → Val
  | .fin m e =>
    if 0 ≤ e then .fin m e
    else
      let n : Int := rneShift m.natAbs (-e)
      .fin (if m < 0 then -n else n) 0
  | v => v

end Val

/-- The quotient of two positive dyadics with a sticky low bit: enough bits for one rounding to binary32. -/
def divSticky (m : Nat) (e : Int) (n : Nat) (f : Int) : Nat × Int :=
  let k := (Nat.log2 n + 30) - Nat.log2 m
  let p := m <<< k
  let q := p / n
  let r := p % n
  (2 * q + (if r == 0 then 0 else 1), e - f - k - 1)

/-- The integer square root of n by bits, from bit k down. -/
def isqrtAux (n : Nat) : Nat → Nat → Nat
  | 0, acc => acc
  | k + 1, acc =>
    let t := acc + 1 <<< k
    isqrtAux n k (if t * t ≤ n then t else acc)

def isqrt (n : Nat) : Nat := isqrtAux n (Nat.log2 n / 2 + 1) 0

/-- A square root of the positive dyadic m × 2^e with a sticky low bit. -/
def sqrtSticky (m : Nat) (e : Int) : Nat × Int :=
  -- make the exponent even and the integer wide
  let k := 64 + (if (e % 2 == 0) then 0 else 1)
  let p := m <<< k
  let q := isqrt p
  (2 * q + (if q * q == p then 0 else 1), (e - k) / 2 - 1)

def signedRne (neg : Bool) (mag : Nat × Int) : W32 :=
  (Val.fin (if neg then -(mag.1 : Int) else mag.1) mag.2).rne32

/-- canon(x) of R39. -/
def canon (x : W32) : W32 := (val32 x).rne32

def fadd (a b : W32) : W32 := ((val32 a).add (val32 b)).rne32
def fsub (a b : W32) : W32 := ((val32 a).sub (val32 b)).rne32
def fmul (a b : W32) : W32 := ((val32 a).mul (val32 b)).rne32
/-- The fused multiply-add of R42. -/
def ffma (a b c : W32) : W32 := (((val32 a).mul (val32 b)).add (val32 c)).rne32

/-- IEEE 754 division under R28: a zero divisor is +0. -/
def divVal : Val → Val → W32
  | .nan, _ => nan32
  | _, .nan => nan32
  | .inf _, .inf _ => nan32
  | .inf a, .fin m _ => (Val.inf (a != decide (m < 0))).rne32
  | .fin _ _, .inf _ => zero32
  | .fin m e, .fin n f =>
    if n == 0 then (if m == 0 then nan32 else (Val.inf (decide (m < 0))).rne32)
    else if m == 0 then zero32
    else signedRne (decide (m < 0) != decide (n < 0)) (divSticky m.natAbs e n.natAbs f)

def fdiv (a b : W32) : W32 := divVal (val32 a) (val32 b)
def frcp (a : W32) : W32 := divVal Val.one (val32 a)

/-- SQRT: NaN of a negative operand, +0 of ±0 (R28, R101). -/
def fsqrt (a : W32) : W32 :=
  match val32 a with
  | .nan => nan32
  | .inf neg => if neg then nan32 else posInf32
  | .fin m e =>
    if m == 0 then zero32 else if m < 0 then nan32 else signedRne false (sqrtSticky m.natAbs e)

/-- 1/√x of a positive dyadic, with a sticky low bit. -/
def rsqrtSticky (m : Nat) (e : Int) : Nat × Int :=
  -- 1/√(m·2^e) = √(2^(2k)/m) · 2^(−k − e/2); the quotient's own sticky bit goes below the root's
  let odd : Nat := if e % 2 == 0 then 0 else 1
  let mm := m <<< odd
  let h := (e - odd) / 2
  let k := Nat.log2 mm + 64
  let p := (1 <<< (2 * k)) / mm
  let q := isqrt p
  let exact := q * q * mm == 1 <<< (2 * k)
  (2 * q + (if exact then 0 else 1), -(k : Int) - h - 1)

def frsqrt (a : W32) : W32 :=
  match val32 a with
  | .nan => nan32
  | .inf neg => if neg then nan32 else zero32
  | .fin m e =>
    if m == 0 then posInf32 else if m < 0 then nan32 else signedRne false (rsqrtSticky m.natAbs e)

/-- acc := rne32(acc + P), one step of R35. -/
def accStep (acc : W32) (p : Val) : W32 := ((val32 acc).add p).rne32

/-- The chunk accumulator of R35 over its partials, in increasing K order. -/
def chunkSum (ps : List Val) : W32 := ps.foldl accStep zero32

/-- One level of the tree of R39. -/
def treeLevel : List W32 → List W32
  | a :: b :: t => fadd a b :: treeLevel t
  | t => t

def treeLoop : Nat → List W32 → W32
  | _, [] => zero32
  | _, [a] => a
  | 0, a :: _ => a
  | k + 1, v => treeLoop k (treeLevel v)

/-- The canonical reduction tree of R39. An empty list reduces to +0. -/
def tree (v : List W32) : W32 := treeLoop v.length (v.map canon)

/-- Cut a list into runs of n. -/
def chunksOf {α : Type} (n : Nat) : Nat → List α → List (List α)
  | 0, _ => []
  | _, [] => []
  | k + 1, l => l.take n :: chunksOf n k (l.drop n)

def cut {α : Type} (n : Nat) (l : List α) : List (List α) := chunksOf n l.length l

/-- The sum of R42: terms in index order, 512 to a chunk, each chunk by R35 and the chunks by R39. -/
def sumTerms (xs : List W32) : W32 := tree ((cut 512 xs).map fun c => chunkSum (c.map val32))

/-- The sum of R42 over exact terms (products that round once into the accumulator). -/
def sumVals (xs : List Val) : W32 := tree ((cut 512 xs).map chunkSum)

/-- max by value; a NaN operand gives the canonical NaN. -/
def fmax (a b : W32) : W32 :=
  let x := val32 a
  let y := val32 b
  if x.isNan || y.isNan then nan32 else if x.lt y then canon b else canon a

def fmin (a b : W32) : W32 :=
  let x := val32 a
  let y := val32 b
  if x.isNan || y.isNan then nan32 else if y.lt x then canon b else canon a

/-- One round of the counter generator of R50. -/
def genRound (k0 k1 : W32) (i : Nat) (x : W32 × W32 × W32 × W32) : W32 × W32 × W32 × W32 :=
  let ra := ([7, 19, 11, 25] : List Nat).getD (i % 4) 0
  let rb := ([21, 9, 27, 14] : List Nat).getD (i % 4) 0
  let x0 := x.1 ^^^ (k0 + BitVec.ofNat 32 (i * 0x9E3779B9))
  let x2 := x.2.2.1 ^^^ (k1 + BitVec.ofNat 32 (i * 0x6C078965))
  let x0 := x0 + x.2.1
  let x1 := (x.2.1.rotateLeft ra) ^^^ x0
  let x2 := x2 + x.2.2.2
  let x3 := (x.2.2.2.rotateLeft rb) ^^^ x2
  (x0, x3, x2, x1)

/-- The AC1 counter generator of R50. -/
def gen (seed : W64) (tensorId : W32) (index : W64) (stepNo : W32) : W32 :=
  let k0 := seed.setWidth 32
  let k1 := (seed >>> 32).setWidth 32
  let x := (List.range 10).foldl (fun x i => genRound k0 k1 i x)
    (index.setWidth 32, (index >>> 32).setWidth 32, tensorId, stepNo)
  x.1 ^^^ x.2.2.1

/-- One butterfly stage of R54: positions paired at distance 2^s. -/
def butterfly (s : Nat) (xs : List W32) : List W32 :=
  (List.range xs.length).map fun i =>
    if (i >>> s) % 2 == 0 then fadd (xs.getD i 0) (xs.getD (i + 2 ^ s) 0)
    else fsub (xs.getD (i - 2 ^ s) 0) (xs.getD i 0)

/-- log₂ of a rotation size. -/
def rotLog (n : Nat) : Nat := Nat.log2 n

/-- The exponents of Table 2-8. -/
def rotExp (n : Nat) (inverse : Bool) : Int :=
  if n == 16 then 2 else if n == 32 then (if inverse then 3 else 2) else 3

/-- The rotation of one block by R54. -/
def rotateBlock (inverse : Bool) (xs : List W32) : List W32 :=
  let n := xs.length
  let ys := (List.range (rotLog n)).foldl (fun v s => butterfly s v) xs
  ys.map fun y => ((val32 y).mul (Val.pow2 (-(rotExp n inverse)))).rne32

/-- Consecutive blocks of n rotated along a row (R53). -/
def rotateRow (n : Nat) (inverse : Bool) (xs : List W32) : List W32 :=
  ((cut n xs).map (rotateBlock inverse)).flatten

end Sys2Proof.Machine
end

