-- ==== Sys2Proof/Machine/Formats.lean ====
section
/-! DEFINITION. The tensor formats of AC1 (R26 to R32), conversion to narrow formats (R45 to R48) and stochastic
rounding (R51). -/

namespace Sys2Proof.Machine

/-- An element encoding (Table 2-1). -/
inductive Enc where
  | e2m1 | e4m3 | e5m2 | t2 | bf16 | fp32 | raw | int32
deriving DecidableEq, Repr

/-- The block scale of a format. -/
inductive Scale where
  | none | e4m3 | e8m0
deriving DecidableEq, Repr

/-- A tensor format (Table 2-4, Table 5-15). -/
structure Fmt where
  enc : Enc
  block : Nat                  -- 0: no blocks
  scale : Scale
  ts : Bool                    -- has a tensor scale
deriving DecidableEq, Repr

/-- The format of a FORMAT code (Table 5-15); none for 11 to 15. -/
def fmtOf : Nat → Option Fmt
  | 0 => some ⟨.raw, 0, .none, false⟩
  | 1 => some ⟨.fp32, 0, .none, false⟩
  | 2 => some ⟨.bf16, 0, .none, false⟩
  | 3 => some ⟨.e2m1, 16, .e4m3, true⟩
  | 4 => some ⟨.e2m1, 32, .e8m0, false⟩
  | 5 => some ⟨.e4m3, 32, .e8m0, false⟩
  | 6 => some ⟨.e5m2, 32, .e8m0, false⟩
  | 7 => some ⟨.e4m3, 0, .none, true⟩
  | 8 => some ⟨.e5m2, 0, .none, true⟩
  | 9 => some ⟨.t2, 32, .e4m3, true⟩
  | 10 => some ⟨.int32, 0, .none, false⟩
  | _ => none

/-- Bits of one element. -/
def Enc.bits : Enc → Nat
  | .e2m1 => 4 | .e4m3 => 8 | .e5m2 => 8 | .t2 => 2 | .bf16 => 16 | .fp32 => 32 | .raw => 8 | .int32 => 32

/-- A format that holds numbers: not RAW and not INT32 (R128). -/
def Fmt.numeric (f : Fmt) : Bool :=
  match f.enc with
  | .raw => false
  | .int32 => false
  | _ => true

/-- Element bytes of a packed row of n elements (R32). -/
def Fmt.elemBytes (f : Fmt) (n : Nat) : Nat := (n * f.enc.bits + 7) / 8

/-- Bytes of a packed row of n elements: elements, then block scales (R32). -/
def Fmt.rowBytes (f : Fmt) (n : Nat) : Nat :=
  f.elemBytes n + (if f.block == 0 then 0 else n / f.block)

/-- The E4M3 value of a code: S.1111.111 is NaN. -/
def e4m3Val (code : Nat) : Val := if code % 128 == 127 then .nan else fieldVal 4 3 7 code

/-- The E8M0 value of a code: 0xFF is NaN. -/
def e8m0Val (code : Nat) : Val := if code % 256 == 255 then .nan else .fin 1 ((code % 256 : Nat) - 127)

/-- The value of an element code (R26). The invalid T2 code reads as 0 (Table 2-2). -/
def Enc.val : Enc → Nat → Val
  | .e2m1, c => fieldVal 2 1 1 c
  | .e4m3, c => e4m3Val c
  | .e5m2, c => ieeeVal 5 2 15 c
  | .t2, c => if c % 4 == 1 then .fin 1 0 else if c % 4 == 3 then .fin (-1) 0 else .fin 0 0
  | .bf16, c => ieeeVal 8 7 127 c
  | .fp32, c => ieeeVal 8 23 127 c
  | .raw, c => .fin c 0
  | .int32, c => .fin c 0

/-- An invalid T2 code is counted where it is read (R31). -/
def Enc.invalid : Enc → Nat → Bool
  | .t2, c => c % 4 == 2
  | _, _ => false

/-- The value of a block scale code: a QF4 or T2 scale by its magnitude (R31). -/
def Scale.val : Scale → Nat → Val
  | .none, _ => Val.one
  | .e4m3, c => e4m3Val (c % 128)
  | .e8m0, c => e8m0Val c

/-- A QF4 or T2 scale with its sign bit set is counted as invalid (R31). -/
def Scale.invalid : Scale → Nat → Bool
  | .e4m3, c => 128 ≤ c % 256
  | _, _ => false

/-- How a conversion rounds. -/
inductive Rounding where
  | rne
  | sr (r : W32)
deriving DecidableEq, Repr

/-- A converted element: its code and what the sentinel counts (R45, R56). -/
structure Conv where
  code : Nat
  sat : Bool
  nan : Bool
deriving DecidableEq, Repr

/-- The grid of an encoding: mantissa bits, least exponent of its unit, largest magnitude, sign position, and the
magnitude code of n × 2^q. -/
structure Grid where
  mbits : Nat
  emin : Int
  maxM : Nat
  maxE : Int
  bits : Nat
deriving DecidableEq, Repr

def Enc.grid : Enc → Grid
  | .e2m1 => ⟨1, -1, 3, 1, 4⟩          -- largest 6
  | .e4m3 => ⟨3, -9, 14, 5, 8⟩         -- largest 448
  | .e5m2 => ⟨2, -16, 7, 13, 8⟩        -- largest 57,344
  | .bf16 => ⟨7, -133, 255, 120, 16⟩   -- largest (2 − 2^−7) × 2^127
  | _ => ⟨0, 0, 1, 0, 2⟩

/-- The magnitude code of n units of 2^q on a grid (n ≤ 2^(mbits+1)). -/
def Grid.code (g : Grid) (n : Nat) (q : Int) : Nat :=
  if n < 2 ^ g.mbits then n else ((q - g.emin).toNat + 1) * 2 ^ g.mbits + (n - 2 ^ g.mbits)

/-- The code of the largest finite magnitude. -/
def Grid.maxCode (g : Grid) : Nat := g.code g.maxM g.maxE

/-- The magnitude code of |v| = m × 2^e (m > 0) rounded to the grid; values above the grid must be handled before. -/
def Grid.round (g : Grid) (m : Nat) (e : Int) : Rounding → Nat
  | .rne =>
    let q := ulpExp (g.mbits + 1) g.emin m e
    g.code (rneShift m (q - e)) q
  | .sr r =>
    let q := ulpExp (g.mbits + 1) g.emin m e
    let n := shiftDown m (q - e)
    -- t = floor((a − lo) × 2^32 / (hi − lo)), with hi − lo the unit 2^q (R51)
    let t := (shiftDown m (q - e - 32)) - n * 2 ^ 32
    g.code (if r.toNat < t then n + 1 else n) q

/-- The largest finite magnitude as a value. -/
def Grid.maxVal (g : Grid) : Val := .fin g.maxM g.maxE

/-- The code of the T2 target: magnitude 0 or 1 and a sign. -/
def t2Code (neg : Bool) (one : Bool) : Nat := if one then (if neg then 3 else 1) else 0

/-- The grid code with the sign; a zero result is +0 (R28). -/
def signCode (enc : Enc) (neg : Bool) (mag : Nat) : Nat :=
  match enc with
  | .t2 => t2Code neg (mag != 0)
  | _ => if mag == 0 then 0 else if neg then mag + 2 ^ ((enc.grid).bits - 1) else mag

/-- The code that an encoding's NaN takes (R45): canonical, or +0 where it has none. -/
def Enc.nanCode : Enc → Nat
  | .e4m3 => 0x7F
  | .e5m2 => 0x7F
  | .bf16 => 0x7FC0
  | .fp32 => 0x7FC00000
  | _ => 0

/-- The magnitude of a finite value on a T2 grid: 0 or 1. -/
def t2Mag (m : Nat) (e : Int) : Rounding → Nat
  | .rne => if (Val.fin 1 (-1)).lt (.fin m e) then 1 else 0
  | .sr r =>
    if Val.le Val.one (.fin m e) then 1
    else if r.toNat < shiftDown m (-e - 32) then 1 else 0

/-- Conversion of a value v to an encoding (R45, R46, R51). -/
def convVal (enc : Enc) (rnd : Rounding) (w : W32) : Conv :=
  match enc with
  | .fp32 =>
    let v := val32 w
    ⟨(canon w).toNat, false, v.isNan⟩
  | _ =>
    match val32 w with
    | .nan => ⟨enc.nanCode, false, true⟩
    | .inf neg =>
      match enc with
      | .bf16 => ⟨if neg then 0xFF80 else 0x7F80, (match rnd with | .rne => false | .sr _ => true), false⟩
      | .t2 => ⟨t2Code neg true, true, false⟩
      | _ => ⟨signCode enc neg enc.grid.maxCode, true, false⟩
    | .fin m e =>
      let neg := decide (m < 0)
      let a := m.natAbs
      if a == 0 then ⟨0, false, false⟩
      else
        match enc with
        | .t2 =>
          if Val.one.lt (.fin a e) then ⟨t2Code neg true, true, false⟩
          else ⟨t2Code neg (t2Mag a e rnd == 1), false, false⟩
        | .bf16 =>
          match rnd with
          | .rne =>
            let c := enc.grid.round a e .rne
            if 0x7F80 ≤ c then ⟨if neg then 0xFF80 else 0x7F80, true, false⟩
            else ⟨signCode enc neg c, false, false⟩
          | .sr _ =>
            if enc.grid.maxVal.lt (.fin a e) then ⟨if neg then 0xFF80 else 0x7F80, true, false⟩
            else ⟨signCode enc neg (enc.grid.round a e rnd), false, false⟩
        | _ =>
          if enc.grid.maxVal.lt (.fin a e) then ⟨signCode enc neg enc.grid.maxCode, true, false⟩
          else ⟨signCode enc neg (enc.grid.round a e rnd), false, false⟩

/-- What one written element adds to a sentinel (R45, R56). -/
structure Written where
  code : Nat
  sat : Bool
  flush : Bool
  nan : Bool
  amax : W32
deriving DecidableEq, Repr

/-- The magnitude of a finite FP32 word, or +0. -/
def finMag (w : W32) : W32 :=
  if (w.toNat >>> 23) % 256 == 255 then 0 else w &&& 0x7FFFFFFF#32

/-- A value is zero: +0 or −0. -/
def isZero32 (w : W32) : Bool := w &&& 0x7FFFFFFF#32 == 0#32

/-- The magnitude part of a code is zero. -/
def Enc.zeroCode (enc : Enc) (code : Nat) : Bool :=
  match enc with
  | .t2 => code % 4 == 0
  | _ => code % 2 ^ (enc.bits - 1) == 0

/-- One element converted by R45 and R47 under block scale value `bs` and tensor scale `ts`. -/
def convElem (f : Fmt) (bs : Val) (ts : W32) (rnd : Rounding) (x : W32) : Written :=
  let scaled := f.scale != .none || f.ts
  let d : W32 := if scaled then (bs.mul (if f.ts then val32 ts else Val.one)).rne32 else one32
  let v : W32 :=
    if !scaled then x
    else if isZero32 d then (if (val32 x).isNan then x else zero32)
    else fdiv x d
  let c := convVal f.enc rnd v
  let isNan := (val32 x).isNan || c.nan
  ⟨c.code, c.sat, !isZero32 x && !(val32 x).isNan && f.enc.zeroCode c.code && !c.nan, isNan, finMag x⟩

/-- The largest finite magnitude of a block. -/
def blockAmax (xs : List W32) : W32 :=
  xs.foldl (fun a x => if a.toNat < (finMag x).toNat then finMag x else a) 0

/-- The block scale code of a block, by R48. -/
def blockScale (f : Fmt) (ts : W32) (xs : List W32) : Nat :=
  let a := blockAmax xs
  match f.scale with
  | .none => 0
  | .e4m3 =>
    if a == 0#32 then 0
    else
      let q : Val := (if f.enc == .t2 then Val.one else Val.ofNat 6).mul (val32 ts)
      ((List.range 127).find? fun c => Val.le (val32 a) ((e4m3Val c).mul q)).getD 0x7E
  | .e8m0 =>
    if a == 0#32 then 0
    else
      let emax : Int := match f.enc with | .e4m3 => 8 | .e5m2 => 15 | _ => 2
      let e := (val32 a).log2Floor - emax
      (min 127 (max (-127) e) + 127).toNat

/-- The element bytes of codes in logical order (R32). -/
def packCodes (enc : Enc) : List Nat → List Byte
  | codes =>
    match enc with
    | .e2m1 => (cut 2 codes).map fun p => BitVec.ofNat 8 (p.getD 0 0 % 16 + 16 * (p.getD 1 0 % 16))
    | .t2 => (cut 4 codes).map fun p =>
        BitVec.ofNat 8 (p.getD 0 0 % 4 + 4 * (p.getD 1 0 % 4) + 16 * (p.getD 2 0 % 4) + 64 * (p.getD 3 0 % 4))
    | _ => (codes.map fun c => natLe (enc.bits / 8) c).flatten

/-- The code of element i in packed element bytes (R32). -/
def codeAt (enc : Enc) (bytes : List Byte) (i : Nat) : Nat :=
  match enc with
  | .e2m1 => bitsAt (bytes.getD (i / 2) 0).toNat (4 * (i % 2)) 4
  | .t2 => bitsAt (bytes.getD (i / 4) 0).toNat (2 * (i % 4)) 2
  | _ => leNat ((bytes.drop (i * (enc.bits / 8))).take (enc.bits / 8))

/-- The FP32 reading of a decoded element: rne32(rne32(element × block scale) × tensor scale) (R587, R306). -/
def decode32 (f : Fmt) (ts : W32) (code scale : Nat) : W32 :=
  match f.enc with
  | .fp32 => canon (BitVec.ofNat 32 code)
  | .bf16 => (f.enc.val code).rne32
  | _ =>
    let a := (f.enc.val code).mul (f.scale.val scale)
    let b := val32 a.rne32
    if f.ts then (b.mul (val32 ts)).rne32 else b.rne32

end Sys2Proof.Machine
end

