-- ==== Sys2Proof/Machine/State.lean ====
section
/-! DEFINITION. The state of the block: every register, memory, queue, counter and mode the spec gives it, as plain
data; the reasons a step can stop; and the state after reset. -/

namespace Sys2Proof.Machine

/-- Why a step can stop with a fault. No meaning of this model raises one: the block reports its errors in its state. -/
inductive Fault where
  /-- Raised by no command; safe. -/
  | none
deriving DecidableEq, Repr

/-- Why a command is refused. -/
inductive Refusal where
  /-- Raised by exec for a command that has no meaning yet, by its mnemonic; safe. -/
  | notModelled (mnemonic : String)
deriving DecidableEq, Repr

/-- The power state of a sapwood domain (R21). -/
inductive Power where
  | on | sleep | off
deriving DecidableEq, Repr

/-- A sapwood domain: its state, a transition in progress with the tick at which it ends, and an enable or wake queued
behind it (R509, R510). -/
structure Dom where
  st : Power
  going : Option Power
  doneAt : Nat
  queuedOn : Bool
deriving DecidableEq, Repr

/-- STATE of Table 5-2. -/
inductive EngState where
  | idle | run | waitTally | waitGc | waitFetch | waitBoundary | halted | faulted
deriving DecidableEq, Repr

/-- One active loop level (R121): first instruction of the body, the address after its last, iterations left. -/
structure Loop where
  first : Nat
  stop : Nat
  left : Nat
deriving DecidableEq, Repr

/-- A count event (R135): target, amount and source. `part` is the sending engine's partition. -/
structure CountEvent where
  die : Nat
  pos : Nat
  tally : Nat
  amount : Nat
  srcDie : Nat
  srcEng : Nat
  part : Option Part
deriving DecidableEq, Repr

/-- An issued instruction that has not retired: cycles left in fifths of a cycle, and what its cycles were. -/
structure Flight where
  pc : Nat
  word : BitVec 512
  left : Nat
  busy : Nat
  quiet : Nat
  fallback : Nat
  locked : Bool                -- it belongs to a locked sequence (R148)
deriving DecidableEq, Repr

/-- A FETCHAHEAD that has not completed (R144): lines still to fill, generation and its instruction's word. -/
structure Ahead where
  lines : List Nat
  gen : Nat
  word : BitVec 512
deriving DecidableEq, Repr

/-- An engine stream (R112, R114). -/
structure StreamSt where
  pc : Nat
  x : List W32                 -- X1 to X7; X0 reads 0
  loops : List Loop            -- innermost first
  window : Nat
  st : EngState
  lock : Nat                   -- instructions of the locked sequence not yet issued
  lockPast : Bool              -- the sequence has run past the end of a loop body (R149)
  lockHeld : Bool              -- LOCK_HELD_HALT
  flight : Option Flight
  ahead : List Ahead
  wend : Bool                  -- a WEND waits for the stream's own FETCHAHEADs (R166)
  fbuf : Option (Nat × List Byte)  -- fetch buffer: line address and bytes (R145)
  queue : Bool                 -- its next operation waits for queue room (R125)
  resume : EngState            -- the state a debug halt or a cut interrupted
  granted : Bool               -- the waits of the next instruction have been satisfied and have subtracted (R22, R119)
  haltAt : Option (Nat × Bool) -- a halt that has not taken effect: its tick, and whether a cut asks for it (R564, R566)
  idleCode : Nat               -- Table 20-1 code of the run of cycles under way, and its length (R558 STALL)
  idleRun : Nat
deriving DecidableEq, Repr

/-- A tally (R134). -/
structure Tally where
  value : Nat
  ovf : Bool
deriving DecidableEq, Repr

/-- A tally bank: events applied in the current cycle, and its event FIFO (R136). -/
structure Bank where
  applied : Nat
  fifo : List CountEvent
deriving DecidableEq, Repr

/-- A line of an instruction cache (Table 5-17): INVALID, VALID or PINNED(g). -/
structure ILine where
  valid : Bool
  addr : Nat
  data : List Byte
  pin : Option Nat
deriving DecidableEq, Repr

/-- An access of a function through its aperture at a local address; `data` is what it writes, none for a read. -/
structure HostAccess where
  blk : Blk
  addr : Nat
  len : Nat
  data : Option (List Byte)
deriving DecidableEq, Repr

/-- An access or a count event that waits at a router for a sleeping domain (R22). -/
structure Held where
  stream : Option Nat          -- the engine stream whose access it is
  event : Option CountEvent
  dom : Nat                    -- the domain, by domKey
  host : Option HostAccess     -- the host's access through an aperture (R442)
deriving DecidableEq, Repr

/-- A range in a core's write-set checker (R311): channel 0-31, or 32 for the ME. -/
structure WsRange where
  core : Nat
  chan : Nat
  write : Bool
  base : Nat
  len : Nat
deriving DecidableEq, Repr

/-- The engine side of the machine. -/
structure EngSt where
  streams : Tbl StreamSt       -- index of R159
  tallies : Tbl Tally          -- 1024 × core + t
  banks : Tbl Bank             -- by core
  events : List CountEvent     -- sent, not yet arrived, oldest first
  held : List Held
  icache : Tbl ILine           -- core caches, then die caches
  acc : Tbl W32                -- accumulator words: (4096 × core + row) × 128 + column (R74)
  coverStacks : Tbl (List Nat)      -- chunks covered by each stack node, top first: 4096 × core + STACK_ROW (R76)
  gated : Tbl Nat              -- gated tile-cycles of a core since the last boundary (R79)
  pinConflicts : Tbl Nat       -- fills skipped for a pin, by partition, in the window (R144)
  missIn : Tbl Nat             -- misses, by partition, in the window (R145)
  heldIn : Tbl Nat             -- accesses held for a sleeping domain, by partition, in the window (R22)
  specDrops : Nat
  evDiscards : Nat
  fallbacks : Tbl Nat          -- sparse fallbacks, by partition, in the window (R82)
  badCodes : Nat               -- invalid stipple codes (R81)
  wset : List WsRange
  wsNoted : List Nat           -- channels with a WRITE_SET notice in this window: 64 × core + channel
  badDescs : List Nat          -- descriptors with an uncorrected error: 4096 × core + h (R283)
  badTallies : List Nat        -- tallies with an uncorrected error: 1024 × core + t (R283)
deriving DecidableEq, Repr
/-- A pace plan (Table 6-10). MODE: 0 RACE, 1 FIT, 2 BALANCE; FALLBACK: 0 RUN_LATE, 1 EQUAL_SHARES. -/
structure PacePlan where
  fast : Nat
  slow : Nat
  mode : Nat
  dpace : Nat
  tderate : Nat
  reserve : Nat
  share : Nat
  fallback : Nat
  hang : Nat
deriving DecidableEq, Repr

/-- An estimate segment of the energy account (R516): open, MC, energy less the quiet credit, TAIL_W, and the tick at which
its window closed. -/
structure EnergySeg where
  opened : Nat
  mc : Nat
  nj : Int
  tailW : Nat
  closed : Option Nat
deriving DecidableEq, Repr

/-- A sleep agreement (R181): commit count, participants by domKey, the answers READY so far, a refusal, whether it
committed, and a latched wake's tick. -/
structure SleepSt where
  commit : Nat
  doms : List Nat
  ready : List Nat
  refused : Bool
  done : Bool
  wake : Option Nat
deriving DecidableEq, Repr

/-- The bounds of a norm check (Table 14-2): actions 0 PROCEED, 1 SKIP, 2 HOLD. -/
structure NormBounds where
  limit : W32
  clip : W32
  above : Nat
  nonfinite : Nat
  fallback : Nat
deriving DecidableEq, Repr

/-- A verdict (Table 14-4). -/
structure Verdict where
  action : Nat
  source : Nat
  stepNo : W32
  ss : W32
  norm : W32
  gscale : W32
  count : Nat
deriving DecidableEq, Repr

/-- Ingress fingerprints of a window (Table 15-9): counts and sums of the classes X, C and S. -/
structure Ingress where
  xn : Nat
  xs : Nat
  cn : Nat
  cs : Nat
  sn : Nat
  ss : Nat
deriving DecidableEq, Repr

/-- Replay mode (R429): the recorded journal, FROM_SEQ's slot, STOP_ON_DIVERGE, and the causes that have diverged. -/
structure Replay where
  base : Nat
  slots : Nat
  from_ : Nat
  stopOn : Bool
  lc : Nat
  seen : List Nat
  later : Nat                  -- divergences counted, not reported
deriving DecidableEq, Repr

/-- A hold (R535): reason, the tick of entry, its record's number, and whether its limit has expired. -/
structure Hold where
  reason : Nat
  since : Nat
  seq : Nat
  expired : Bool
deriving DecidableEq, Repr

/-- A partition: its state code (Table 16-12), its job and where it stands in its windows. -/
structure PartSt where
  state : Nat
  job : Option JobImage
  seed : W64
  stepNo : W32
  lc : Nat
  tag : W64
  window : Nat
  pace : Nat                   -- pace q in force
  variant : Nat
  frozen : Bool                -- cut: its engines are frozen (R566)
  compiled : Nat               -- compiled pace of the running variant
  set : Nat                    -- variant set in force (R488)
  setNext : Option Nat
  opened : Option Nat          -- tick at which the window opened
  closed : Option Nat          -- tick at which it closed
  bAt : Option Nat             -- tick B of the boundary under way
  phase : Nat                  -- of that boundary: 1 chosen, 2 pace sent, 3 entry PCs loaded
  entries : List (Nat × Nat)   -- entry PCs loaded at B + 28, by stream index
  entryBase : Nat              -- entry table of the choice
  nextPace : Nat               -- choice of the boundary under way
  nextVariant : Nat
  nextCompiled : Nat
  last : Bool                  -- the window has LAST set
  tornDown : Bool
  plan : PacePlan
  planNext : Option PacePlan
  headroom : Int               -- H at the last B
  hottest : Nat
  credit : Nat                 -- quiet credit of the last window, nJ
  segs : List EnergySeg        -- estimate segments, newest first
  slots : List (Nat × Nat)     -- measured slots: slot number, nJ
  late : Option (Nat × Nat × Nat)  -- LATE_START posted: cause, node, stream
  peers : List (Nat × Nat × Nat) -- first LATE beacon of a window: window, node, tick (R176, R552)
  bandOver : Bool              -- a stack ran above the planned band in the window
  sleep : Option SleepSt
  sleepCancels : Nat
  bounds : NormBounds
  verdict : Option Verdict     -- of the check under way, applied at the next window's B
  answer : Option Nat          -- norm.answer latched to the next B
  proofPi : Nat                -- proof interval, phase and action in force (R399)
  proofPh : Nat
  proofHold : Bool
  proofNext : Option (Nat × Nat × Bool)
  proofDue : Bool              -- a PROOF_MISMATCH was posted under HOLD (R402)
  ingress : Ingress
  jseq : Nat                   -- headed journal entries since journal.open
  proofSlots : List Nat        -- journal slots of the PROOF entries since then
  replay : Option Replay
  batch : Nat                  -- number of the next input batch (R489)
  holds : List Hold
  stopAt : Option Nat          -- stop.at pending
  stopped : Option Nat         -- cut count
  resumeAt : Option Nat        -- Rz of a resume (R569)
  captureNoDir : Bool
  bellAt : Tbl Nat             -- tick of each doorbell's last write
  guardHold : Bool             -- ENVELOPE hold due at the next boundary (R175)
  replayDue : Bool             -- REPLAY hold due at the next boundary (R432)
  alarmSent : Bool
  checkBounds : NormBounds     -- bounds of the norm check under way
  step0 : W32                  -- STEP0 of the launch
  replayBit : Bool             -- REPLAY of the launch
  cap : Nat                    -- facility cap that the account uses (R512)
  capNext : Option (Nat × Nat) -- cap that it takes at the next B, and the tick it was set
  stackDue : Bool              -- STACK_RETIRED hold due at the next boundary (R293)
  bDone : Option Nat           -- window whose boundary has run its latched effects
  hangFrom : Option Nat        -- tick from which HANG_LIMIT counts again after a resume
  normAt : Option Nat          -- B of the norm check under way
  ranSlow : Bool               -- the window ran at a clock below its variant's compiled pace (R171)
  bwAddr : Nat                 -- bandwidth plan installed: its address, header and entries (R275)
  bwPlan : List (BitVec 128)
  latched : List (Nat × Nat × Nat) -- latched commands not yet due: code, journal slot, tick of the take (R477)
  resumed : Bool               -- a cut has been resumed in this window (R569)
  digest : List Byte           -- SHA-256 of the image loaded
deriving DecidableEq, Repr


/-- A request for a chain of cells (R249). `use` is 0 for a bare request, else what the chain is for: 1 + the index of a
landing that waits in an exchange engine (R228). -/
structure PoolReq where
  stream : Nat
  owner : Nat
  bytes : Nat
  key : Nat
  use : Nat
deriving DecidableEq, Repr

/-- The buffer-pool managers; regions are numbered 64 × memory die + region. -/
structure PoolSt where
  pops : Tbl (List Nat)        -- pop batch: indices of free well cells (R250)
  rels : Tbl (List Nat)        -- release batch
  heads : Tbl Nat              -- address of the head batch node, 0 for none
  caches : Tbl (List Nat)      -- spill cache (R251)
  waiters : Tbl (List PoolReq) -- in queue order (R254)
  granted : List (PoolReq × Nat)  -- bare requests granted, with the head address of the chain
  dead : List Nat              -- regions that stopped granting spill cells (R259)
  spillNoted : List Nat        -- 8 × owner + partition: SPILL notices of this window (R251)
deriving DecidableEq, Repr

/-- A move descriptor that runs: its writes are applied, its event, registers and interrupt are still to come. -/
structure RunningDesc where
  addr : Nat
  word : BitVec 512
  groups : Nat                 -- TILE_EVT pulses still to send (R301)
  mism : Nat                   -- COMPARE: unequal bytes, and the first unequal position
  first : Nat
  bytes : Nat
deriving DecidableEq, Repr

/-- A move channel (R294): chains that wait, as address and count; the rest of the chain begun; the descriptor running. -/
structure ChanSt where
  queue : List (Nat × Nat)
  rest : Nat × Nat
  running : Option RunningDesc
deriving DecidableEq, Repr

/-- The move engines. -/
structure MoveSt where
  chans : Tbl ChanSt           -- 32 × core + channel
  irqSlots : Tbl Nat           -- 1 + event-ring number of a channel's last MOVE_IRQ notice (R302)
deriving DecidableEq, Repr

/-- What the block puts out, in order (log 34): the model's record of what leaves by a port or pin, or goes from one of
its engines to another by message. -/
inductive Output where
  /-- An exchange message to a node, for logical compute die `die` there (none: an answer to whoever sent it). -/
  | xmsg (node : Nat) (die : Option Nat) (m : Msg)
  /-- A collective message to a node. -/
  | cmsg (node : Nat) (m : Msg)
  /-- A frame on an ETH port (R329). -/
  | frame (port : Nat) (f : Frame)
  /-- A data unit on a NATIVE port (R323): tag, frame bytes, unit CRC. -/
  | data (port : Nat) (tag : W64) (bytes : List Byte) (crc : W32)
  /-- A control unit on a NATIVE port: CTYPE and body (R323). -/
  | control (port ctype : Nat) (body : W64)
  /-- An MSI-X message of a mailbox block: vector (Table 16-5). -/
  | msix (blk vector : Nat)
  /-- A PTP message: 0 Sync, 8 Follow_Up, 1 Delay_Req, 9 Delay_Resp; its number and time in 1/16 tick (R412). -/
  | ptp (port kind : Nat) (seq : W16) (time : Int)
  /-- An in-band interrupt request on I3C with its mandatory byte (R454). -/
  | ibi (byte : Nat)
  /-- What a read by the host or the board management controller returns, or that a write got no error (value 0). -/
  | readback (value : Nat)
  /-- An access completed with Unsupported Request (R442, R443). -/
  | unsupported
  /-- The bytes an I3C transfer or a BAR2 read returns (R442, R452). -/
  | bytes (value : List Byte)
deriving DecidableEq, Repr

/-- A message of a sending exchange operation. -/
structure XOut where
  slot : Nat                   -- tray slot of its destination
  mtype : Nat
  expert : Nat
  choice : Nat
  q : Nat
  token : Nat
  addr : Nat                   -- SRC row
  len : Nat
  fmt : Nat
  attempt : Nat
  body : List Byte             -- of a COUNT
deriving DecidableEq, Repr

/-- What an accepted exchange operation does (Table 8-1). -/
inductive XRole where
  | send | landing | ret | back | close
deriving DecidableEq, Repr

/-- An accepted exchange operation (R216). -/
structure XOp where
  id : Nat
  die : Nat
  pc : Nat
  word : BitVec 512
  role : XRole
  seg : Nat                    -- address of its segment record
  dir : Nat
  failed : Bool                -- it has faulted; its credits are out until their answers come
  todo : List XOut             -- messages not yet sent, in order
  unacked : List XOut
  base : Nat                   -- receives: the DST tensor
  stride : Nat
  rows : Nat
  row0 : Nat
  fmt : Nat
  cols : Nat
  wbase : Nat                  -- a forward return receive: the weight tensor
  wstride : Nat
  staged : List Nat            -- landing: (area × 8 + source) × 8192 + slot; return receive: routes placed
  done : List Nat              -- landing: areas complete
deriving DecidableEq, Repr

/-- A message that waits at a die: for its receive (R219). -/
structure XWait where
  die : Nat
  src : Nat
  m : Msg
deriving DecidableEq, Repr

/-- A landing row that waits for cells (R228). -/
structure LandWait where
  id : Nat
  op : Nat
  src : Nat
  m : Msg
deriving DecidableEq, Repr

/-- The exchange engines and the ledger state table. -/
structure XchSt where
  ops : List XOp               -- oldest first
  nextId : Nat
  ledger : List (Nat × Nat)    -- runs of ledger entries in use: first entry and count (R206)
  slices : List (Nat × Nat × Nat × Nat)  -- tokens sent: segment, direction, first token, tokens (R214)
  buf : List XWait             -- the receive buffers (R219)
  cells : List (Nat × Nat × Nat)  -- landing chains: segment, head, grant stamp (R232)
  waits : List LandWait
deriving DecidableEq, Repr
/-- A node, absent or with its bytes, or a gathered chunk, that a collective operation holds; the messages it came by,
which are answered when it is used: sender, message, and the chain it landed in (0 for none). -/
structure CVal where
  shard : Nat
  chunk : Nat
  j : Nat
  i : Nat
  body : Option (List Byte)
  pmask : Nat
  owed : List (Nat × Msg × Nat)
deriving DecidableEq, Repr

/-- A message that a collective operation owes (Table 13-5). -/
structure COut where
  gather : Bool
  stage : Nat
  shard : Nat
  chunk : Nat
  j : Nat
  i : Nat
  dest : Nat                   -- member that receives it at last
deriving DecidableEq, Repr

/-- A message sent and not yet answered. `relay` is the message a gate relays, with its sender and chain. -/
structure CSent where
  out : COut
  node : Nat
  m : Msg
  owed : List (Nat × Msg × Nat)
  relay : Bool
deriving DecidableEq, Repr

/-- A collective operation that its CE has accepted (R362). -/
structure COp where
  id : Nat
  die : Nat
  pc : Nat
  word : BitVec 512
  begun : Bool
  failed : Bool
  opseq : Nat
  absent : Bool
  due : Bool                   -- CDIGEST: the step is due (R399)
  bytes : Nat                  -- N
  src : Nat × Nat × Nat × Nat  -- base, stride, rows and packed row bytes of SRC; all 0 for null
  dst : Nat × Nat × Nat × Nat
  head : List Byte             -- CDIGEST: the 16 B before the live extent (R398), and LIVE_ROWS
  live : Nat
  vals : List CVal
  at_ : List (Nat × Nat × Nat) -- shard, chunk, stages done in the reduction
  todo : List COut             -- owed and not yet sent, in order
  held : List CVal             -- gathered chunks this member has, until sent on and answered
  resend : List CSent          -- to be sent again after NACK
  sent : List CSent
  got : List (Nat × Nat × Nat × Nat × Nat)  -- gather flag, shard, chunk, node received
  missing : Nat                -- bytes of DST not yet written
  relays : Nat                 -- messages still to be relayed as a gate
deriving DecidableEq, Repr

/-- A collective message that waits for cells: its identifier, operation, sender. -/
structure CWait where
  id : Nat
  op : Nat
  src : Nat
  m : Msg
deriving DecidableEq, Repr

/-- The collective engines. -/
structure CeSt where
  ops : List COp               -- in issue order
  buf : List XWait             -- the collective receive buffers (R377)
  waits : List CWait
  proofOk : Tbl Nat            -- PROOF_OK counts, by die (R401)
deriving DecidableEq, Repr

/-- Who waits for the answer of a fabric request (R346), and what the answer is for. -/
inductive ReqUse where
  /-- A LOAD of an engine stream: where its data land. -/
  | load (stream dst : Nat)
  /-- The fill of a far-cache line. -/
  | fill
  /-- An invalidation: its number. -/
  | inval (id : Nat)
  /-- A STORE of an engine stream. -/
  | store (stream : Nat)
  /-- An ATOMIC of an engine stream: where its old value lands. -/
  | atomic (stream dst : Nat)
  /-- An EVICT, which nothing answers: kept until a later answer shows that it arrived (log 42). -/
  | evict
deriving DecidableEq, Repr

/-- An outstanding request (R340, R346). -/
structure Req where
  node : Nat
  port : Nat
  seq : Nat
  frame : Frame
  use : ReqUse
  sentAt : Nat
  resends : Nat                -- on this port
  tried : List Nat             -- ports it has left
deriving DecidableEq, Repr

/-- A load that waits for a far-cache fill: stream, offset in the line, length, destination. -/
structure FcWait where
  stream : Nat
  off : Nat
  len : Nat
  dst : Nat
deriving DecidableEq, Repr

/-- A far-cache line (Table 12-9); `filling` with its waiting loads, or shared. -/
structure FcLine where
  node : Nat
  line : Nat                   -- address / 256
  part : Nat
  filling : Bool
  doomed : Bool
  ltag : Nat
  data : List Byte
  pmask : Nat
  waiting : List FcWait
deriving DecidableEq, Repr

/-- A write at the home that waits for invalidations (R351): directory entries with INV_OPEN, answers still to come, and
the answer held back with its port. -/
structure InvWait where
  id : Nat
  entries : List Nat
  left : Nat
  port : Nat
  answer : Frame
deriving DecidableEq, Repr

/-- The link layer of a port (R323 to R328, R318). -/
structure LinkSt where
  txq : List (Nat × List Byte) -- frames to send: class and bytes
  txLsn : Nat
  store : List (Nat × W64 × List Byte) -- replay store: LSN, tag, data
  rxLsn : Nat
  nakOut : Bool
  sinceAck : Nat               -- units accepted since the last ACK
  ackAt : Nat                  -- tick of the last ACK
  parts : List (Nat × List Byte) -- frames being reassembled: class and bytes so far
  credits : List Nat           -- credits held to send, by class
  spare : Option (Nat × Nat)   -- lane and switch count T
  blockedUntil : Nat           -- no unit is carried before this tick (R318)
deriving DecidableEq, Repr

/-- The fabric side. -/
structure NetSt where
  rr : Tbl Nat                 -- round-robin position of message ports, by node (R338)
  txSeq : Tbl Nat              -- next SEQ of a stream, 48 × node + port
  rxSeq : Tbl Nat              -- expected SEQ
  atomics : Tbl (Nat × Nat)    -- SEQ + 1 and result of the last ATOMIC applied, by stream (R339)
  moved : List Nat             -- streams left by REPLAYED requests (R340)
  reqs : List Req              -- outstanding requests, oldest first
  fc : Tbl (Option FcLine)     -- far cache, 8 × set + way
  fcNext : Tbl Nat             -- next victim way, by set
  invs : List InvWait
  nextInv : Nat
  links : Tbl LinkSt
  arrived : List (Nat × Frame) -- frames a NATIVE link has reassembled, by port
  d2d : List (Nat × Nat × Nat × Nat) -- lane repairs queued: unit, link, module, lane (R274)
  d2dUsed : Tbl Nat            -- redundant lanes used, by (unit × 6 + link) × 16 + module
  d2dLost : List (Nat × Nat)
  deadSpares : List Nat        -- ports whose idle spare lane has failed
  heldPorts : List Nat         -- ports held DOWN until the next node.assign (R457)
  captured : List (Nat × Frame) -- frames held for a cut, by port (R567)
deriving DecidableEq, Repr

/-- An entry of the holding FIFO (R527). -/
structure FifoEnt where
  ev : ErrEvent
  coalesced : Bool
  instances : Nat
  first : Nat
  last : Nat
deriving DecidableEq, Repr

/-- Error reporting (R523 to R533). -/
structure LogSt where
  raised : List ErrEvent       -- events on the sideband, oldest first
  fifo : List FifoEnt
  endpoint : List FifoEnt      -- FA events that wait at their endpoints (R528)
  recent : List ((Nat × Nat × Nat × Nat × Nat) × Nat) -- recent keys and the tick each was queued (R529), newest first
  records : Tbl (BitVec 512)   -- the record log, by slot
  lastWrite : Option Nat
  flash : List (BitVec 512)    -- persistent error log
  flashDue : List (BitVec 512 × Nat) -- UC and FA records to append, with the tick each was written
  appends : List Nat           -- ticks of the appends of the last second
  alarms : List (Nat × Nat × Nat × Nat) -- CODE, node, tick of the last frame, alarms suppressed since
deriving DecidableEq, Repr

/-- A Lysby image in the boot flash (R458). -/
structure FwImage where
  verified : Bool              -- its digest and signature verify
  version : Nat
  rollback : Nat
  digest : List Byte
deriving DecidableEq, Repr

/-- A plate in the boot flash: its contents, its bytes' SHA-384, and whether its signatures verify. -/
structure PlateSlot where
  plate : Plate
  digest : List Byte
  good : Bool
deriving DecidableEq, Repr

/-- An overlay in force or waiting (R466): scope (none: device), first 8 B of its SHA-256, SHA-384, entries as address,
mask and value. -/
structure Overlay where
  part : Option Nat
  sha8 : Nat
  digest : List Byte
  entries : List (Nat × W64 × W64)
  phase : Nat                  -- 0 waits for a boundary, 1 in force, 2 in force and to be removed at a boundary
deriving DecidableEq, Repr

/-- A command that has answered PENDING and owes its final response (R476). -/
structure PendCmd where
  id : Nat
  blk : Blk
  pair : Nat
  entry : BitVec 512
  accept : Nat                 -- count at acceptance
  data : List Nat              -- what the command keeps until then
  image : Option JobImage      -- of a job.load
  slot : Option PlateSlot      -- of a plate.stage
deriving DecidableEq, Repr

/-- The I3C target of a heartwood die (R452 to R455). -/
structure I3cSt where
  addr : Option Nat
  mwl : Nat
  mrl : Nat
  off : Nat                    -- the offset of the next private read
  events : Nat                 -- target events enabled
deriving DecidableEq, Repr

/-- A graft in progress (R540 to R542): phase 1 preparing, 2 prepared, 3 committing, 4 copied, 5 switched. -/
structure Graft where
  die : Nat
  part : Nat
  spare : Nat
  old : Nat
  phase : Nat
  earliest : Nat
  count : Nat                  -- C of the commit
  agreed : Nat
  until_ : Nat                 -- the old die forwards until this tick
deriving DecidableEq, Repr

/-- Management state of heartwood. -/
structure MgmtSt where
  plate : Option Plate         -- in force
  plateDigest : List Byte      -- its SHA-384
  dieMap : List (Fin 34)       -- in force, grafts applied (R17)
  slot : Nat                   -- SLOT straps sampled at supply-up (R583)
  group : Tbl Nat              -- group blocks (R553): 16 × partition + field
  devState : Nat               -- Table 16-10
  booted : Bool                -- Lysby runs
  validImage : Bool            -- FAULTED is not for want of a valid image
  supply : Bool                -- standby supply and reference clock good (R578)
  mainGood : Bool              -- MAIN_GOOD (R580)
  faultN : Bool                -- FAULT_N is driven low
  sealed : Bool                -- the seal fuse is blown (R548)
  active : Nat                 -- active heartwood die
  standbyOk : Bool
  deadHw : List Nat            -- heartwood dies held in reset
  lastBeat : Nat               -- tick of the last heartbeat
  takeover : Option Nat        -- H of a takeover under way (R435)
  mirror : List Nat            -- mirror records sent and not acknowledged: their ticks (R434)
  hostPort : Nat               -- 0 I/O die 0, 1 I/O die 2
  perst : List Nat             -- host ports whose PERST_N is asserted
  hostReady : List (Nat × Nat) -- host ports and the tick from which they are ready for configuration (R441)
  images : List FwImage        -- Lysby A and B
  bootSlot : Nat
  fusedMin : Nat
  meas : List (List Byte)      -- MEAS0 to MEAS7
  plates : List (Option PlateSlot) -- plate A and B
  plateSlot : Nat              -- active slot
  plateSeq : Nat               -- SEQ last applied
  overlays : List (Option Overlay) -- by handle
  overlayOrder : List Nat      -- handles in order of application
  serial : W64
  stepping : Nat
  lysbyVersion : Nat
  bells : List (Nat × Blk × Nat × Nat) -- doorbells not yet served: cycle, block, pair, CMD_PROD written (R440)
  lastTake : Option Nat        -- cycle of the last take
  cmds : List PendCmd
  baseCfg : Tbl (Option W64)   -- words under overlays, as they are without them (R468)
  nextCmd : Nat
  i3c : List I3cSt
  ibi : List Nat               -- in-band interrupts pending: their bytes (R454)
  grafts : List Graft
  coppice : List Nat           -- spare compute dies, physical
  failedDies : List Nat        -- compute dies that failed a start test (R462)
  graftLog : List (Nat × Nat)  -- repair log: logical die and the physical die it was grafted to
  repairs : List (Nat × Nat × Nat × Nat) -- repair log: kind, unit, bank, row or line (R289, R538)
  wearCe : Tbl Nat             -- corrected events since manufacture, by wear index (Table 19-10)
  wearAt : List (Nat × Nat)    -- wear index and tick of the recent ones
  wearAge : Tbl Nat            -- AGEING by wear index
  wearPeak : Tbl Int           -- PEAK_T
  wearOn : Tbl Nat             -- ticks with the unit's domains on
  lastWork : Nat               -- tick of the last command that is not READ (R511)
  hwFused : List Nat           -- heartwood dies that the fuses mark out of service (R20)
  aged : Option Nat            -- tick of the last ageing sample; none when one is due (R544)
  asleep : Bool                -- package sleep
  capture : List Byte          -- return capture
  jtag : JtagInstr
deriving DecidableEq, Repr

/-- A PTP exchange under way on a SOURCE port (R412): Sync's number, its origin time once known, its arrival, and the
Delay_Req sent for it. Times are in 1/16 tick. -/
structure PtpSt where
  seq : W16
  t1 : Option Int
  t2 : Int
  t3 : Option Int
deriving DecidableEq, Repr

/-- Time keeping (R406 to R417) beside the count registers. -/
structure TimeSt where
  role : Nat                   -- 0 none, 1 root, 2 hall master, 3 member
  root : Nat                   -- root node
  sources : List Nat           -- SOURCE ports, the primary first
  since : Nat                  -- tick of the last time.source
  last : Tbl Nat               -- tick of a port's last update
  corrAt : Option Nat          -- tick of the last phase correction
  hold : Nat                   -- ticks for which the count still holds
  run : Nat                    -- consecutive updates within 2 ticks
  growAt : Nat                 -- tick from which the error estimate grows
  bseq : Tbl Nat               -- next BSEQ, by port
  sentAt : Tbl Nat             -- 1 + tick of a port's last BEACON or Sync
  ptp : Tbl (Option PtpSt)
  copies : Tbl Int             -- local counts of the logic dies, less the master count, by unit (R408)
  beaconAt : Nat               -- tick of the last count beacon
  owing : List Nat             -- units that have not received it
deriving DecidableEq, Repr

/-- The power side (chapter 18). -/
structure PowerSt where
  cap : Nat                    -- facility cap as last set, 0 for none
  temps : Tbl Int              -- last samples, by 6 × unit + sensor, in quarter degrees
  cool : Tbl Nat               -- cool samples in a row, by 6 × unit + sensor
  clamps : List Nat            -- thermal units clamped
  inputs : List (Nat × Nat)    -- input energy of the last 100 slots: slot, nJ
  inputNj : Nat                -- 12 V input energy in all
  rungAt : Nat                 -- tick of the average limiter's last move
deriving DecidableEq, Repr


/-- A traffic generator (R291): the tick of its START, a STOP under way, and the granules it wrote with a bad symbol. -/
structure TgenSt where
  since : Nat
  stopping : Bool
  marred : List Nat
deriving DecidableEq, Repr

/-- Scrubbing and repair (R286 to R289, R538). HBM banks are numbered (64 × stack + pseudo-channel) × 64 + bank; SRAM units
are logical cores, then 128 + memory die; their banks are numbered 128 × unit + bank. -/
structure SvcSt where
  hbmAt : Tbl Nat              -- granule that the next scrub reads, by stack
  hbmTick : Tbl Nat            -- tick of the last scrub
  sramAt : Tbl Nat             -- line, by unit
  sramTick : Tbl Nat
  rowHits : Tbl Nat            -- corrected reads of a row in this scrub period: 16384 × bank + row
  laneHits : Tbl Nat           -- corrections of a symbol in this period: 36 × (64 × stack + pseudo-channel) + symbol
  lineHits : Tbl Nat           -- corrected reads of a line in this period: 65536 × bank + line
  rowQueue : List (Nat × Nat)  -- rows queued for repair: bank, row
  laneQueue : List (Nat × Nat) -- lanes queued: 64 × stack + pseudo-channel, symbol
  lineQueue : List (Nat × Nat) -- lines queued: bank, line
  rowSpares : Tbl Nat          -- spare rows used, by bank
  laneSpares : Tbl Nat         -- spare lanes used, by 64 × stack + pseudo-channel
  lineSpares : Tbl Nat         -- spare lines used, by bank
  bandDue : Tbl (Option (Nat × Nat)) -- band change due: new band and the tick of its sample, by stack
  tgens : Tbl TgenSt           -- by 64 × stack + pseudo-channel
deriving DecidableEq, Repr

/-- The default pace plan of a device with n configured partitions (Table 6-10). -/
def planDefault (n : Nat) : PacePlan := ⟨0, 7, 2, 3, 95, 0, 64 / max n 1, 0, 25000000⟩

/-- Defaults of Table 14-2. -/
def boundsDefault : NormBounds := ⟨0x7F800000#32, 0#32, 2, 2, 1⟩

/-- A partition before any plate configures it. -/
def PartSt.init : PartSt where
  state := 15
  job := none
  seed := 0
  stepNo := 0
  lc := 0
  tag := 0
  window := 0
  pace := 0
  variant := 0
  frozen := false
  compiled := 0
  set := 0
  setNext := none
  opened := none
  closed := none
  bAt := none
  phase := 0
  entries := []
  entryBase := 0
  nextPace := 0
  nextVariant := 0
  nextCompiled := 0
  last := false
  tornDown := false
  plan := planDefault 1
  planNext := none
  headroom := 0
  hottest := 0
  credit := 0
  segs := []
  slots := []
  late := none
  peers := []
  bandOver := false
  sleep := none
  sleepCancels := 0
  bounds := boundsDefault
  verdict := none
  answer := none
  proofPi := 0
  proofPh := 0
  proofHold := false
  proofNext := none
  proofDue := false
  ingress := ⟨0, 0, 0, 0, 0, 0⟩
  jseq := 0
  proofSlots := []
  replay := none
  batch := 0
  holds := []
  stopAt := none
  stopped := none
  resumeAt := none
  captureNoDir := false
  bellAt := []
  guardHold := false
  replayDue := false
  alarmSent := false
  checkBounds := boundsDefault
  step0 := 0
  replayBit := false
  cap := 0
  capNext := none
  stackDue := false
  bDone := none
  hangFrom := none
  normAt := none
  ranSlow := false
  bwAddr := 0
  bwPlan := []
  latched := []
  resumed := false
  digest := []

/-- Resets of a compute die's block, by offset (Tables 9-3, 20-4). -/
def dieCfgReset (off : Nat) : W64 :=
  if 0x30000 ≤ off ∧ off < 0x31000 then 0x0F0F0F0F0F0F0F0F
  else if 0x2000 ≤ off ∧ off < 0x2300 ∧ off % 64 = 24 then 0xFFFFFFFFFFFFFFFF
  else 0

/-- Resets of an I/O die's block (Table 12-1): ETHERTYPE and LANE_THRESH, SPARED_LANE. -/
def ioCfgReset (off : Nat) : W64 :=
  if 0x10000 ≤ off ∧ off < 0x10C00 then
    (if off % 256 = 0 then 0x001000000088B500 else if off % 256 = 8 then 0x38 else 0)
  else 0

/-- Resets of a core's block (Table 11-6): CMP_FIRST. -/
def coreCfgReset (off : Nat) : W64 :=
  if 0x400 ≤ off ∧ off < 0x800 ∧ off % 32 = 16 then 0xFFFFFFFF00000000 else 0

/-- Resets of a heartwood die's block (Table 15-1): GC_SRC_PORT. -/
def hwCfgReset (off : Nat) : W64 := if off = 0x2008 then 0x3F0 else 0

/-- What an unlisted word of configuration space reads as: its reset value. -/
def cfgReset (a : Nat) : W64 :=
  if a < 0x01F000000000 then 0
  else if a < 0x01F008000000 then coreCfgReset (a % 0x100000)
  else if 0x01F010000000 ≤ a ∧ a < 0x01F012000000 then dieCfgReset (a % 0x100000)
  else if 0x01F030000000 ≤ a ∧ a < 0x01F030400000 then ioCfgReset (a % 0x100000)
  else if 0x01F040000000 ≤ a ∧ a < 0x01F040100000 then hwCfgReset (a % 0x100000)
  else 0

/-- The engine side before any job. -/
def EngSt.init : EngSt where
  streams := []
  tallies := []
  banks := []
  events := []
  held := []
  icache := []
  acc := []
  coverStacks := []
  gated := []
  pinConflicts := []
  missIn := []
  heldIn := []
  specDrops := 0
  evDiscards := 0
  fallbacks := []
  badCodes := 0
  wset := []
  wsNoted := []
  badDescs := []
  badTallies := []

/-- The fabric side after reset. -/
def NetSt.init : NetSt where
  rr := []
  txSeq := []
  rxSeq := []
  atomics := []
  moved := []
  reqs := []
  fc := []
  fcNext := []
  invs := []
  nextInv := 0
  links := []
  arrived := []
  d2d := []
  d2dUsed := []
  d2dLost := []
  deadSpares := []
  heldPorts := []
  captured := []

/-- Error reporting after reset. -/
def LogSt.init : LogSt where
  raised := []
  fifo := []
  endpoint := []
  recent := []
  records := []
  lastWrite := none
  flash := []
  flashDue := []
  appends := []
  alarms := []

/-- The factory plate in slot A (R492): its contents are the model's choice (log 7). -/
def plateFactory : Plate where
  magic := 0x45544C50
  version := 1
  order := 1
  seq := 0
  serial := 0
  dieMap := (List.range 32).map (Fin.ofNat 34)
  coppice := [32, 33]
  fused := []
  parts := []
  ledgerAddr := 0
  ledgerRanges := []
  modes := []
  ports := []
  fabric := []
  wellReserved := []

def zeros48 : List Byte := List.replicate 48 0
def i3cReset : I3cSt := ⟨none, 256, 256, 0, 0xFF⟩

/-- Management state after reset (log 7). -/
def MgmtSt.init : MgmtSt where
  plate := none
  plateDigest := zeros48
  dieMap := []
  slot := 0
  group := []
  devState := 1
  booted := false
  validImage := true
  supply := true
  mainGood := false
  faultN := false
  sealed := false
  active := 0
  standbyOk := false
  deadHw := []
  lastBeat := 0
  takeover := none
  mirror := []
  hostPort := 0
  perst := []
  hostReady := []
  images := [⟨true, 1, 0, zeros48⟩, ⟨false, 0, 0, zeros48⟩]
  bootSlot := 0
  fusedMin := 0
  meas := List.replicate 8 zeros48
  plates := [some ⟨plateFactory, zeros48, true⟩, none]
  plateSlot := 0
  plateSeq := 0
  overlays := [none, none, none, none]
  overlayOrder := []
  serial := 0
  stepping := 1
  lysbyVersion := 0
  bells := []
  lastTake := none
  cmds := []
  baseCfg := []
  nextCmd := 0
  i3c := [i3cReset, i3cReset]
  ibi := []
  grafts := []
  coppice := [32, 33]
  failedDies := []
  graftLog := []
  repairs := []
  wearCe := []
  wearAt := []
  wearAge := []
  wearPeak := []
  wearOn := []
  lastWork := 0
  hwFused := []
  aged := none
  asleep := false
  capture := []
  jtag := .bypass

/-- Time keeping after reset. -/
def TimeSt.init : TimeSt where
  role := 0
  root := 0
  sources := []
  since := 0
  last := []
  corrAt := none
  hold := 0
  run := 0
  growAt := 0
  bseq := []
  sentAt := []
  ptp := []
  copies := []
  beaconAt := 0
  owing := []


/-- Scrubbing and repair after reset. -/
def SvcSt.init : SvcSt where
  hbmAt := []
  hbmTick := []
  sramAt := []
  sramTick := []
  rowHits := []
  laneHits := []
  lineHits := []
  rowQueue := []
  laneQueue := []
  lineQueue := []
  rowSpares := []
  laneSpares := []
  lineSpares := []
  bandDue := []
  tgens := []
/-- The state of the block. -/
structure State where
  gc : Nat                     -- the global count (R406), in ticks
  eng : EngSt
  mem : List Host.Cell
  poison : List Nat            -- poisoned 64 B lines, by address / 64 (R283)
  cfg : Tbl W64                -- configuration space, by 8-aligned address (Table 10-2)
  mbx : Tbl W64                -- mailbox blocks and BAR4 pages
  doms : Tbl Dom               -- sapwood domains, by domKey (Table 1-4)
  parts : Tbl PartSt
  pool : PoolSt
  mv : MoveSt
  xch : XchSt
  ce : CeSt
  net : NetSt
  mgmt : MgmtSt
  time : TimeSt
  svc : SvcSt
  pw : PowerSt
  log : LogSt
  order : Nat                  -- ordering code: 1 E16-A, 2 E10-A, 3 E10-B (Table 0-1)
  freeCount : Nat              -- free values drawn so far (log 3); the model's own
  out : List Output            -- what the block has put out (log 34)
  pending : List Instr         -- commands that wait, first in first out
deriving DecidableEq, Repr


/-- The state after reset. -/
def State.reset : State where
  gc := 0
  eng := EngSt.init
  mem := []
  poison := []
  cfg := []
  mbx := []
  doms := []
  parts := []
  pool := ⟨[], [], [], [], [], [], [], []⟩
  mv := ⟨[], []⟩
  xch := ⟨[], 0, [], [], [], [], []⟩
  ce := ⟨[], [], [], []⟩
  net := NetSt.init
  mgmt := MgmtSt.init
  time := TimeSt.init
  svc := SvcSt.init
  pw := ⟨0, [], [], [], [], 0, 0⟩
  log := LogSt.init
  order := 1
  freeCount := 0
  out := []
  pending := []

end Sys2Proof.Machine
end

