-- ==== Sys2Proof/Machine/Ops.lean ====
section
/-! DEFINITION. The named operations over the state: configuration space, power domains, local memory and its access
checks, descriptors, count events, error events and notices. -/

namespace Sys2Proof.Machine

/-- What a command does when its condition may fail: nothing happens where there is no effect (log 1). -/
def attempt (s : State) (o : Option State) : Host.Outcome State Fault Refusal := .next (o.getD s)

def guardThat (b : Bool) : Option Unit := if b then some () else none

-- Numbers of the part

def State.gradeB (s : State) : Bool := s.order == 3
/-- Logical cores of the grade (R16). -/
def State.nCores (s : State) : Nat := if s.gradeB then 120 else 128
/-- Logical compute dies of the grade (R16). -/
def State.nDies (s : State) : Nat := if s.gradeB then 30 else 32

-- Configuration space (Table 10-2)

def coreCfg (c : Nat) : Nat := 0x01F000000000 + c * 0x100000
def dieCfg (d : Nat) : Nat := 0x01F010000000 + d * 0x100000
def memCfg (m : Nat) : Nat := 0x01F020000000 + m * 0x100000
def ioCfg (i : Nat) : Nat := 0x01F030000000 + i * 0x100000
def hwCfg (h : Nat) : Nat := 0x01F040000000 + h * 0x100000

/-- The stored word at an 8-aligned configuration address. -/
def State.cfgW (s : State) (a : Nat) : W64 := tget cfgReset s.cfg a
def State.setCfgW (s : State) (a : Nat) (w : W64) : State := { s with cfg := tput cfgReset s.cfg a w }
/-- A field of a configuration word. -/
def State.cfgF (s : State) (a lo n : Nat) : Nat := fld (s.cfgW a) lo n
def State.setCfgF (s : State) (a lo n v : Nat) : State := s.setCfgW a (setFld (s.cfgW a) lo n v)
/-- A count that saturates at the width of its field. -/
def State.bumpCfg (s : State) (a lo n k : Nat) : State := s.setCfgF a lo n (satAdd n (s.cfgF a lo n) k)

-- Mailbox blocks and BAR4 pages

def blkIndex : Blk → Nat
  | .pf => 0
  | .vf n => 1 + n.val
  | .i3c => 9

def mbxAddr (b : Blk) (off : Nat) : Nat := blkIndex b * 0x10000 + off
/-- BAR4 pages of partition p: journal page at 0x0000, doorbell page at 0x1000 (Table 16-4). -/
def bar4Addr (p : Nat) (off : Nat) : Nat := 0x100000 + p * 0x2000 + off

def State.mbxW (s : State) (a : Nat) : W64 := tget (fun _ => 0) s.mbx a
def State.setMbxW (s : State) (a : Nat) (w : W64) : State := { s with mbx := tput (fun _ => 0) s.mbx a w }
def State.mbxF (s : State) (a lo n : Nat) : Nat := fld (s.mbxW a) lo n
def State.setMbxF (s : State) (a lo n v : Nat) : State := s.setMbxW a (setFld (s.mbxW a) lo n v)
/-- Bytes of a mailbox block, stored as 8-byte words. -/
def State.mbxBytes (s : State) (a n : Nat) : List Byte :=
  (List.range n).map fun i => BitVec.ofNat 8 (fld (s.mbxW ((a + i) / 8 * 8)) (8 * ((a + i) % 8)) 8)
def State.setMbxBytes (s : State) (a : Nat) (bs : List Byte) : State :=
  (cut 8 bs).zipIdx.foldl (fun s p => s.setMbxW (a + 8 * p.2) (BitVec.ofNat 64 (leNat p.1))) s

-- Power domains (Table 1-4)

def unitKey : Unit52 → Nat
  | .compute x => x.val
  | .memory m => 34 + m.val
  | .io i => 46 + i.val
  | .heartwood h => 50 + h.val

def domKey : Domain → Nat
  | .core x pos => 4 * x.val + pos.val
  | .computeDie x => 136 + x.val
  | .router u => 170 + unitKey u
  | .memoryDie m => 222 + m.val
  | .fabricPort p => 234 + p.val
  | .hostPort h => 282 + h.val

def domOff : Dom := ⟨.off, none, 0, false⟩
def State.dom (s : State) (k : Nat) : Dom := tget (fun _ => domOff) s.doms k
def State.setDom (s : State) (k : Nat) (d : Dom) : State := { s with doms := tput (fun _ => domOff) s.doms k d }
def State.power (s : State) (k : Nat) : Power := (s.dom k).st

/-- The physical die behind a logical compute die (R17). -/
def State.physDie (s : State) (d : Nat) : Nat := ((s.mgmt.dieMap[d]?).map Fin.val).getD d
/-- The domain of a logical core. -/
def State.coreKey (s : State) (c : Nat) : Nat := 4 * s.physDie (c / 4) + c % 4
def State.dieKey (s : State) (d : Nat) : Nat := 136 + s.physDie d
def memKey (m : Nat) : Nat := 222 + m

-- Streams

/-- The index of a stream (R159). -/
def streamIx : Stream → Nat
  | .core c e => 4 * c.val + (match e with | .me => 0 | .ve => 1 | .mv0 => 2 | .mv1 => 3)
  | .die d e => 512 + 2 * d.val + (match e with | .xe => 0 | .ce => 1)

/-- The logical compute die of a stream. -/
def streamDie : Stream → Nat
  | .core c _ => c.val / 4
  | .die d _ => d.val

/-- Engine index (Table 5-1). -/
def engIndex : Stream → Nat
  | .core _ .me => 0
  | .core _ .ve => 1
  | .core _ .mv0 => 2
  | .core _ .mv1 => 3
  | .die _ .xe => 4
  | .die _ .ce => 5

/-- The logical core of a core stream; none for XE and CE. -/
def streamCore : Stream → Option Nat
  | .core c _ => some c.val
  | .die _ _ => none

/-- A stream index read back. -/
def ixDie (i : Nat) : Nat := if i < 512 then i / 16 else (i - 512) / 2
def ixEng (i : Nat) : Nat := if i < 512 then i % 4 else 4 + (i % 2)

def streamReset : StreamSt :=
  ⟨0, List.replicate 7 0, [], 0, .idle, 0, false, false, none, [], false, none, false, .idle, false, none, 0x10, 0⟩
def State.stream (s : State) (i : Nat) : StreamSt := tget (fun _ => streamReset) s.eng.streams i
def State.setStream (s : State) (i : Nat) (t : StreamSt) : State :=
  { s with eng := { s.eng with streams := tput (fun _ => streamReset) s.eng.streams i t } }

/-- X[i]; X0 reads 0 (R112). -/
def StreamSt.xr (t : StreamSt) (i : Nat) : W32 := if i == 0 then 0 else t.x.getD (i - 1) 0
/-- X[i] := v; a write to X0 is ignored (R112). -/
def StreamSt.xw (t : StreamSt) (i : Nat) (v : W32) : StreamSt :=
  if i == 0 then t else { t with x := t.x.set (i - 1) v }

def engStateCode : EngState → Nat
  | .idle => 0 | .run => 1 | .waitTally => 2 | .waitGc => 3 | .waitFetch => 4 | .waitBoundary => 5
  | .halted => 6 | .faulted => 7

/-- ENG_STATUS (Table 5-2). -/
def State.engStatus (s : State) (i : Nat) : W64 :=
  let t := s.stream i
  BitVec.ofNat 64 (engStateCode t.st + 8 * boolNat (t.lock != 0) + 16 * boolNat t.lockHeld
    + 32 * t.loops.length + 65536 * t.pc)

-- Tallies

def tallyZero : Tally := ⟨0, false⟩
def State.tally (s : State) (core t : Nat) : Tally := tget (fun _ => tallyZero) s.eng.tallies (1024 * core + t)
def State.setTally (s : State) (core t : Nat) (v : Tally) : State :=
  { s with eng := { s.eng with tallies := tput (fun _ => tallyZero) s.eng.tallies (1024 * core + t) v } }
def bankZero : Bank := ⟨0, []⟩
def State.bank (s : State) (core : Nat) : Bank := tget (fun _ => bankZero) s.eng.banks core
def State.setBank (s : State) (core : Nat) (b : Bank) : State :=
  { s with eng := { s.eng with banks := tput (fun _ => bankZero) s.eng.banks core b } }

-- Partitions

/-- The plate record of partition p, where it is configured (R469). -/
def State.platePart (s : State) (p : Nat) : Option PlatePart :=
  match s.mgmt.plate with
  | none => none
  | some pl => match pl.parts[p]? with
    | some r => if r.valid then some r else none
    | none => none

/-- The partition of a logical compute die. -/
def State.partOfDie (s : State) (d : Nat) : Option Part :=
  (List.finRange 8).find? fun p => match s.platePart p.val with
    | some r => r.dies.getLsbD d
    | none => false

def partReset : PartSt := PartSt.init
def State.part (s : State) (p : Nat) : PartSt := tget (fun _ => partReset) s.parts p
def State.setPart (s : State) (p : Nat) (t : PartSt) : State := { s with parts := tput (fun _ => partReset) s.parts p t }

/-- The cut tick of a `stop.at` that is pending (R565). -/
def PartSt.cutAt (t : PartSt) : Option Nat :=
  match t.stopAt with
  | none => none
  | some n =>
    if t.state == 4 then (if n < t.lc then some t.lc else none)
    else match t.bAt with
      | some b => if b ≤ n ∧ n < b + 32 then some (b + 32) else some n
      | none => some n

/-- The cut tick of a partition has come. -/
def PartSt.cutDue (t : PartSt) (gc : Nat) : Bool :=
  (t.state == 4 || t.state == 5 || t.state == 6) && match t.cutAt with | some n => decide (n ≤ gc) | none => false

/-- The units of a logical die are frozen by a cut (R566). -/
def State.frozenDie (s : State) (d : Nat) : Bool :=
  match s.partOfDie d with
  | some p => (s.part p.val).frozen || (s.part p.val).cutDue s.gc
  | none => false

/-- The stream stands within a locked sequence (R148). -/
def StreamSt.inLock (x : StreamSt) : Bool := x.lock != 0 || match x.flight with | some f => f.locked | none => false

/-- The longest deferral of a halt, 4,096 cycles of the partition's clock, in ticks (R564). -/
def PartSt.deferTicks (t : PartSt) : Nat := 5120 / (10 - min t.pace 7)

/-- A stream is frozen by a cut; a locked sequence defers that (R566). -/
def State.frozenStream (s : State) (i : Nat) : Bool :=
  match s.partOfDie (ixDie i) with
  | none => false
  | some p =>
    let t := s.part p.val
    let x := s.stream i
    let defers := x.inLock && match x.haltAt with
      | some (k, _) => decide (s.gc < k + t.deferTicks)
      | none => !t.frozen
    (t.frozen || t.cutDue s.gc) && !defers

-- Local memory (Table 10-1)

/-- Where a local address lies, with its offset there. -/
inductive Home where
  | hbm (m : Nat) (off : Nat)
  | well (m : Nat) (off : Nat)
  | core (c : Nat) (off : Nat)
  | cfg (off : Nat)
  | none
deriving DecidableEq, Repr

def homeOf (a : Nat) : Home :=
  if a < 0xC000000000 then .hbm (a / 0x1000000000) (a % 0x1000000000)
  else if 0x010000000000 ≤ a ∧ a < 0x0100C0000000 then
    .well ((a - 0x010000000000) / 0x10000000) ((a - 0x010000000000) % 0x10000000)
  else if 0x011000000000 ≤ a ∧ a < 0x011100000000 then
    .core ((a - 0x011000000000) / 0x2000000) ((a - 0x011000000000) % 0x2000000)
  else if 0x01F000000000 ≤ a ∧ a < 0x01F050000000 then .cfg (a - 0x01F000000000)
  else .none

def hbmBase (m : Nat) : Nat := m * 0x1000000000
def wellBase (m : Nat) : Nat := 0x010000000000 + m * 0x10000000
def coreBase (c : Nat) : Nat := 0x011000000000 + c * 0x2000000

/-- HBM_STATUS.RETIRED of a stack (Table 10-7). -/
def State.retired (s : State) (m : Nat) : Bool := s.cfgF (memCfg m + 0x70000) 2 1 == 1

/-- The n bytes from a are mapped data memory (R260, R261). -/
def State.mapped (s : State) (a n : Nat) : Bool :=
  match homeOf a with
  | .hbm m off => m < 12 && off + n ≤ 0xF80000000 && !s.retired m
  | .well m off => m < 12 && off + n ≤ 0x10000000
  | .core c off => c < s.nCores && off + n ≤ 0x1800000
  | .cfg _ => false
  | .none => false

/-- The n bytes from a lie in the ranges of a plate record (R471). -/
def inRanges (r : PlatePart) (a n : Nat) : Bool :=
  match homeOf a with
  | .hbm m off =>
    let h := fld r.hbm (2 * m) 2
    h == 3 || (h == 1 && off + n ≤ 0x7C0000000) || (h == 2 && 0x7C0000000 ≤ off)
  | .well m off =>
    let base := fld r.well (16 * m) 8 * 0x100000
    let size := (fld r.well (16 * m + 8) 8 + 1) * 0x100000
    r.wellEn.getLsbD m && base ≤ off && off + n ≤ base + size
  | .core c _ => r.dies.getLsbD (c / 4)
  | .cfg _ => false
  | .none => false

def State.inPart (s : State) (p : Nat) (a n : Nat) : Bool :=
  match s.platePart p with
  | some r => inRanges r a n
  | none => false

/-- The n bytes from a lie in HBM of partition p. -/
def State.inPartHbm (s : State) (p : Nat) (a n : Nat) : Bool :=
  match homeOf a with
  | .hbm _ _ => s.mapped a n && s.inPart p a n
  | _ => false

/-- The power domain that holds an address. -/
def State.domOf (s : State) (a : Nat) : Nat :=
  match homeOf a with
  | .hbm m _ => memKey m
  | .well m _ => memKey m
  | .core c _ => s.coreKey c
  | .cfg _ => 0
  | .none => 0

/-- How an access ends (R22, R261, R471). -/
inductive Access where
  | ok
  | sleeping (dom : Nat)
  | bad (isolation : Bool)
deriving DecidableEq, Repr

/-- An access of n bytes at a by a unit of partition p (no range check without one). -/
def State.access (s : State) (p : Option Part) (a n : Nat) : Access :=
  if n == 0 then .ok
  else
    let inside := match p with | some q => s.inPart q.val a n | none => true
    if !inside then
      .bad ((List.range 8).any fun q => (match p with | some q' => q != q'.val | none => true) && s.inPart q a n)
    else if !s.mapped a n then .bad false
    else match s.power (s.domOf a) with
      | .on => .ok
      | .sleep => .sleeping (s.domOf a)
      | .off => .bad false

/-- What an unlisted byte of memory reads as (log 2). -/
def memReset : Nat → Byte := fun _ => 0

/-- Memory in its canonical form: addresses strictly rising, and no byte listed that an unlisted address reads as. -/
def Memory.wf (m : List Host.Cell) : Bool := tblWf memReset m

def State.rd1 (s : State) (a : Nat) : Byte := tget memReset s.mem a
def State.wr1 (s : State) (a : Nat) (b : Byte) : State := { s with mem := tput memReset s.mem a b }
def State.rd (s : State) (a n : Nat) : List Byte := (List.range n).map fun i => s.rd1 (a + i)
def State.rdN (s : State) (a n : Nat) : Nat := leNat (s.rd a n)

def wrMem (m : List Host.Cell) : Nat → List Byte → List Host.Cell
  | _, [] => m
  | a, b :: t => wrMem (tput memReset m a b) (a + 1) t

/-- The 64 B lines that n bytes from a touch. -/
def linesOf (a n : Nat) : List Nat :=
  if n == 0 then [] else (List.range ((a + n - 1) / 64 - a / 64 + 1)).map fun i => a / 64 + i

/-- The 64 B lines that n bytes from a cover whole. -/
def wholeLines (a n : Nat) : List Nat := (linesOf a n).filter fun l => a ≤ 64 * l && 64 * l + 64 ≤ a + n

def State.poisoned (s : State) (a n : Nat) : Bool := (linesOf a n).any fun l => s.poison.contains l

def State.setPoison (s : State) (l : Nat) : State := { s with poison := nins s.poison l }

/-- A write: the bytes, and a full-line write clears the poison of its line (R285). -/
def State.wr (s : State) (a : Nat) (bs : List Byte) : State :=
  let ls := wholeLines a bs.length
  { s with mem := wrMem s.mem a bs, poison := s.poison.filter fun l => !ls.contains l }

def State.wrN (s : State) (a n v : Nat) : State := s.wr a (natLe n v)

-- Free values (log 3)

/-- The next n free bytes. -/
def State.drawBytes (s : State) (n : Nat) : List Byte × State :=
  ((List.range n).map fun i => Config.freeByte (s.freeCount + i), { s with freeCount := s.freeCount + n })

-- Error events and notices

def mkErr (cls : Fin 4) (kind : Fin 6) (unit sub code : Nat) : ErrEvent :=
  ⟨cls, false, none, kind, BitVec.ofNat 8 unit, BitVec.ofNat 8 sub, BitVec.ofNat 16 code, 0, 0xFFFF, 0, 0⟩

/-- A unit reports an error event; it reaches heartwood at ERROR_EVENT (R527). -/
def State.raise (s : State) (e : ErrEvent) : State :=
  { s with log := { s.log with raised := s.log.raised ++ [{ e with stamp := s.gc }] } }

/-- An error of an engine's stream: unit, sub-unit, logical name and partition filled in. -/
def State.engErr (s : State) (i : Nat) (cls : Fin 4) (code : Nat) : ErrEvent :=
  let d := ixDie i
  let pos := if i < 512 then (i / 4) % 4 else 0
  { mkErr cls 0 (s.physDie d) (8 * pos + ixEng i) code with
    part := s.partOfDie d
    logical := BitVec.ofNat 16 (if i < 512 then i / 4 else d) }

/-- What the block puts out. -/
def State.emit (s : State) (o : Output) : State := { s with out := s.out ++ [o] }

/-- The mandatory byte of an in-band interrupt for a bit of MBX_IRQ (R454); the source names none for PORT (log 8). -/
def ibiByte (bit : Nat) : Nat := if bit < 12 then 1 else if bit == 12 then 2 else if bit == 14 then 4 else 3

/-- The I3C port of the active die can request an interrupt: it has an address and its events are enabled. -/
def State.ibiReady (s : State) : Bool :=
  match s.mgmt.i3c[s.mgmt.active]? with
  | some c => c.addr.isSome && bitsAt c.events 0 1 == 1
  | none => false

/-- Sets a bit of MBX_IRQ (Table 16-7). An unmasked bit that becomes set raises the block's interrupt: an MSI-X vector
of a function, or an in-band interrupt of the I3C view, which stays pending until its cause is taken (R454). -/
def State.setIrq (s : State) (b : Blk) (bit : Nat) : State :=
  let a := mbxAddr b 0x18
  let was := s.mbxF a bit 1
  let s := s.setMbxF a bit 1 1
  if was == 1 || s.mbxF (mbxAddr b 0x20) bit 1 == 1 then s
  else match b with
    | .i3c =>
      let y := ibiByte bit
      let s := { s with mgmt := { s.mgmt with ibi := if s.mgmt.ibi.contains y then s.mgmt.ibi else s.mgmt.ibi ++ [y] } }
      if s.ibiReady then s.emit (.ibi y) else s
    | b => s.emit (.msix (blkIndex b) (if bit < 13 then 0 else 1))

/-- One notice into one event ring (R506): 64 slots, and EVT_LOST where the ring is full. -/
def State.postTo (s : State) (b : Blk) (bytes : List Byte) : State :=
  let a := mbxAddr b 0x38
  let prod := s.mbxF a 0 16
  let cons := s.mbxF a 16 16
  if (prod + 65536 - cons) % 65536 ≥ 64 then s.setMbxF a 32 32 (satAdd 32 (s.mbxF a 32 32) 1)
  else
    let s := s.setMbxBytes (mbxAddr b (0x1000 + 64 * (prod % 64))) bytes
    let s := s.setMbxF a 0 16 (prod + 1)
    s.setIrq b 12

/-- An isolation breach by a compute die. -/
def State.breach (s : State) (i : Nat) (addr : Nat) : State :=
  s.raise { s.engErr i 2 0x0308 with
    isolation := true, addr := addr, detail := BitVec.ofNat 64 (ixDie i + 0x10000) }

-- Count events (R135, R139)

/-- A count event leaves its source: outside the partition or the grade it is discarded and reported (R139). -/
def State.sendEvent (s : State) (e : CountEvent) : State :=
  let inside := e.die < s.nDies && (match e.part with | some p => s.partOfDie e.die == some p | none => true)
  if e.amount == 0 then s
  else if inside then { s with eng := { s.eng with events := s.eng.events ++ [e] } }
  else
    let s := { s with eng := { s.eng with evDiscards := s.eng.evDiscards + 1 } }
    s.raise { mkErr 2 0 (s.physDie e.srcDie) e.srcEng 0x0308 with
      isolation := true, part := e.part, logical := BitVec.ofNat 16 e.srcDie
      detail := BitVec.ofNat 64 (e.srcDie + 0x10000) }

-- Descriptors (Table 5-14)

def descAddr (core h : Nat) : Nat := coreCfg core + 0x10000 + 64 * h

/-- The 64 B of descriptor h; descriptor 0 reads as zero (R127). -/
def State.descBits (s : State) (core h : Nat) : Nat :=
  if h == 0 then 0
  else (List.range 8).foldl (fun a i => a + (s.cfgW (descAddr core h + 8 * i)).toNat * 2 ^ (64 * i)) 0

/-- Word k of descriptor h; writes to descriptor 0 are ignored (R127). -/
def State.setDescWord (s : State) (core h k : Nat) (v : W64) : State :=
  if h == 0 then s else s.setCfgW (descAddr core h + 8 * k) v

/-- A descriptor as its fields. -/
structure Desc where
  valid : Bool
  panel : Bool                 -- K-panel layout
  sr : Bool
  rotInv : Bool
  fmt : Nat
  rotN : Nat
  rotCol : Bool
  base : Nat
  stride : Nat
  rows : Nat
  cols : Nat
  live : Nat
  tid : Nat
  ts : W32
  sent : Nat                   -- sentinel slot address, 0 for none
  lrow0 : Nat
  lcol0 : Nat
  lwidth : Nat
deriving DecidableEq, Repr

def parseDesc (w : Nat) : Desc :=
  ⟨bitsAt w 0 1 == 1, bitsAt w 1 1 == 1, bitsAt w 2 1 == 1, bitsAt w 3 1 == 1, bitsAt w 4 4, bitsAt w 8 2,
   bitsAt w 10 1 == 1, bitsAt w 16 48, bitsAt w 64 32, bitsAt w 96 32, bitsAt w 128 32, bitsAt w 160 32,
   bitsAt w 192 32, BitVec.ofNat 32 (bitsAt w 224 32), 128 * bitsAt w 256 41, bitsAt w 320 64, bitsAt w 384 32,
   bitsAt w 416 32⟩

def State.desc (s : State) (core h : Nat) : Desc := parseDesc (s.descBits core h)

/-- The extent of the counted axis (R130). -/
def Desc.extent (d : Desc) : Nat := if d.panel then d.cols else d.rows
/-- The rotation size of ROT_N. -/
def Desc.rot (d : Desc) : Nat := if d.rotN == 0 then 0 else 8 * 2 ^ d.rotN
/-- The format of a descriptor whose FORMAT is valid. -/
def Desc.format (d : Desc) : Fmt := (fmtOf d.fmt).getD ⟨.raw, 0, .none, false⟩

/-- A descriptor may be used by a unit of partition p (R128, R129 rule 3). -/
def State.descOk (s : State) (p : Option Part) (d : Desc) : Bool :=
  d.valid && (fmtOf d.fmt).isSome
    && (match p with | some q => s.inPart q.val d.base 1 | none => true)
    && (d.format.numeric || (!d.sr && d.rotN == 0 && d.sent == 0))

/-- The bytes a row-layout tensor spans. -/
def Desc.span (d : Desc) : Nat :=
  if d.rows == 0 then 0 else (d.rows - 1) * d.stride + d.format.rowBytes d.cols

/-- INDEX of R132, modulo 2^64. -/
def Desc.index (d : Desc) (r c : Nat) : W64 := BitVec.ofNat 64 ((d.lrow0 + r) * d.lwidth + d.lcol0 + c)

/-- The packed bytes of row r (R32, R70). -/
def State.rowOf (s : State) (d : Desc) (r : Nat) : List Byte := s.rd (d.base + r * d.stride) (d.format.rowBytes d.cols)

/-- The scale code that covers element c of packed row bytes. -/
def scaleAt (f : Fmt) (cols : Nat) (row : List Byte) (c : Nat) : Nat :=
  if f.block == 0 then 0 else (row.getD (f.elemBytes cols + c / f.block) 0).toNat

-- Sentinels (R107, Table 4-6)

/-- What a run of writes or reads adds to a core's partial record. -/
structure SentAdd where
  sat : Nat
  flush : Nat
  nan : Nat
  inv : Nat
  elem : Nat
  amax : W32
deriving DecidableEq, Repr

def sentZero : SentAdd := ⟨0, 0, 0, 0, 0, 0⟩

def SentAdd.plus (a b : SentAdd) : SentAdd :=
  ⟨a.sat + b.sat, a.flush + b.flush, a.nan + b.nan, a.inv + b.inv, a.elem + b.elem,
   if a.amax.toNat < b.amax.toNat then b.amax else a.amax⟩

/-- One written element. -/
def sentWrite (w : Written) : SentAdd := ⟨boolNat w.sat, boolNat w.flush, boolNat w.nan, 0, 1, w.amax⟩

def sentSum (ws : List Written) : SentAdd := ws.foldl (fun a w => a.plus (sentWrite w)) sentZero

/-- The update of a core's partial record in a slot: 32-bit counts hold at their maximum and set OVF (R107). -/
def State.sentUpdate (s : State) (core slot : Nat) (a : SentAdd) : State :=
  if slot == 0 || a == sentZero then s
  else
    let p := slot + 128 + 64 * core
    let c0 := s.rdN p 4
    let c1 := s.rdN (p + 4) 4
    let c2 := s.rdN (p + 8) 4
    let c3 := s.rdN (p + 12) 4
    let el := s.rdN (p + 16) 8
    let mx := s.rdN (p + 24) 4
    let ovf := s.rdN (p + 28) 4
    let full : Nat := 0xFFFFFFFF
    let hit := (a.sat != 0 && full ≤ c0 + a.sat) || (a.flush != 0 && full ≤ c1 + a.flush)
      || (a.nan != 0 && full ≤ c2 + a.nan) || (a.inv != 0 && full ≤ c3 + a.inv)
    s.wr p (natLe 4 (satAdd 32 c0 a.sat) ++ natLe 4 (satAdd 32 c1 a.flush) ++ natLe 4 (satAdd 32 c2 a.nan)
      ++ natLe 4 (satAdd 32 c3 a.inv) ++ natLe 8 (el + a.elem) ++ natLe 4 (max mx a.amax.toNat)
      ++ natLe 4 (if hit then setBits ovf 0 1 1 else ovf))

end Sys2Proof.Machine
end

