-- ==== Sys2Proof/Machine/Trace.lean ====
section
/-! DEFINITION. Engine counters (Table 20-1) and trace rings (R556 to R559): the operations other meanings use. -/

namespace Sys2Proof.Machine

/-- The counter block of a stream (R550). -/
def ctrBase (i : Nat) : Nat :=
  if i < 512 then coreCfg (i / 4) + 0x1000 + 0x100 * (i % 4) else dieCfg ((i - 512) / 2) + 0x1000 + 0x100 * (i % 2)

/-- Adds k to a 64-bit counter slot of a stream. -/
def State.bumpCtr (s : State) (i off k : Nat) : State :=
  if k == 0 then s else s.setCfgW (ctrBase i + off) (s.cfgW (ctrBase i + off) + BitVec.ofNat 64 k)

/-- The register block of trace ring k of die d (R557). -/
def ringBase (d k : Nat) : Nat := dieCfg d + 0x2000 + 0x40 * k

/-- Bytes of a trace entry: header of Table 20-5, then the payload from byte 8. -/
def traceBytes (gc type eng : Nat) (payload : List Byte) : List Byte :=
  natLe 2 (type + 256 * eng) ++ natLe 6 gc ++ (payload ++ List.replicate 24 0).take 24

/-- Writes an entry into slot WRITTEN mod 2^n of a ring. -/
def State.ringPut (s : State) (d k : Nat) (bytes : List Byte) : State :=
  let b := ringBase d k
  let n := s.cfgF (b + 8) 48 5
  let base := s.cfgF (b + 8) 0 48
  let w := (s.cfgW (b + 0x10)).toNat
  (s.wr (base + 32 * (w % 2 ^ n)) bytes).setCfgW (b + 0x10) (BitVec.ofNat 64 (w + 1))

/-- P of R559. -/
def State.ringPost (s : State) (d k : Nat) : Nat :=
  let b := ringBase d k
  (2 ^ s.cfgF (b + 8) 48 5 - 1) * s.cfgF b 8 5 / 16

/-- One entry offered to a ring (R559): dropped where the ring is not armed, its type is masked, or FREEZE has filled. -/
def State.trace (s : State) (d k type eng : Nat) (payload : List Byte) : State :=
  let b := ringBase d k
  let st := s.cfgF b 0 2
  let n := s.cfgF (b + 8) 48 5
  if n == 0 || bitOf (s.cfgW (b + 0x38)) type == false then s
  else
    let bytes := traceBytes s.gc type eng payload
    let w := (s.cfgW (b + 0x10)).toNat
    if st == 1 then
      if s.cfgF b 2 1 == 1 && w ≥ 2 ^ n - 1 - s.ringPost d k then s.bumpCfg (b + 0x20) 32 32 1
      else s.ringPut d k bytes
    else if st == 2 then
      let s := s.ringPut d k bytes
      -- TRIG_AT is the MARK's index; P entries follow it
      if w + 1 ≥ (s.cfgW (b + 0x18)).toNat + 1 + s.ringPost d k then s.setCfgF b 0 2 3 else s
    else s

/-- The trigger of an armed ring (R559, item 4). -/
def State.ringTrigger (s : State) (d k : Nat) : State :=
  let b := ringBase d k
  if s.cfgF b 0 2 != 1 then s
  else
    let w := (s.cfgW (b + 0x10)).toNat
    let n := s.cfgF (b + 8) 48 5
    let kept := min w (2 ^ n - 1)
    let s := (s.ringPut d k (traceBytes s.gc 10 7 (natLe 4 (s.cfgF b 13 3) ++ natLe 4 0 ++ natLe 4 kept)))
    let s := s.setCfgW (b + 0x18) (BitVec.ofNat 64 w)
    s.setCfgF b 0 2 (if s.ringPost d k == 0 then 3 else 2)

/-- The ring of a stream: its core's engine ring, or the ring of the XE or the CE (R556). -/
def ringOf (i : Nat) : Nat × Nat := if i < 512 then (i / 16, (i / 4) % 4) else ((i - 512) / 2, 8 + i % 2)
/-- The fetch ring of a stream's cache. -/
def fetchRing (i : Nat) : Nat × Nat := if i < 512 then (i / 16, 4 + (i / 4) % 4) else ((i - 512) / 2, 10)

/-- An entry in a stream's ring. -/
def State.traceEng (s : State) (i type : Nat) (payload : List Byte) : State :=
  s.trace (ringOf i).1 (ringOf i).2 type (ixEng i) payload

-- Group blocks (Table 20-2)

/-- Adds k to the count in bits [64f + 63:64f] of a partition's group block. -/
def State.bumpGroup (s : State) (p f k : Nat) : State :=
  { s with mgmt := { s.mgmt with
    group := tput (fun _ => 0) s.mgmt.group (16 * p + f) (tget (fun _ => 0) s.mgmt.group (16 * p + f) + k) } }

-- Reports (Table 20-6) and notices (R506)

/-- The logical compute dies of partition p, ascending. -/
def State.diesOf (s : State) (p : Nat) : List Nat :=
  match s.platePart p with
  | some r => below 32 fun d => r.dies.getLsbD d
  | none => []

/-- A record or a notice of partition p in the report rings of its dies (log 9), then the triggers of kind `kind` that
it meets (R559, item 3). -/
def State.report (s : State) (p kind code seq : Nat) (hit : Nat → Bool) : State :=
  let ds := s.diesOf p
  let s := ds.foldl (fun s d =>
    s.trace d 11 9 7 (natLe 2 (boolNat (kind == 2)) ++ natLe 2 code ++ natLe 8 seq)) s
  ds.foldl (fun s d => (List.range 12).foldl (fun s k =>
    let b := ringBase d k
    if s.cfgF b 0 2 == 1 && s.cfgF b 13 3 == kind && hit (s.cfgW (b + 0x30)).toNat then s.ringTrigger d k else s) s) s

/-- A notice of type n with payload bytes from byte 16, posted to its rings (R506). -/
def State.notice (s : State) (p : Option Part) (n : Nat) (payload : List Byte) : State :=
  let window := match p with | some q => (s.part q.val).window | none => 0
  let w0 := n + (match p with | some q => q.val * 65536 | none => 0x80000)
  let bytes := natLe 4 w0 ++ natLe 4 window ++ natLe 8 s.gc ++ (payload ++ List.replicate 48 0).take 48
  let s := match p with | some q => s.postTo (.vf q) bytes | none => s.postTo .i3c bytes
  let s := s.postTo .pf bytes
  match p with
  | some q => s.report q.val 2 n s.gc fun v => v == n
  | none => s

end Sys2Proof.Machine
end

