-- ==== Sys2Proof/Machine/Issue.lean ====
section
/-! DEFINITION. How a stream issues an instruction (R112 to R122, R134 to R150): fetch, the faults decided before and
after the waits, the waits, the signals, loops and locked sequences, and what a fault does. -/

namespace Sys2Proof.Machine

abbrev IWord := BitVec 512

/-- The fault register of a stream. -/
def faultReg (i : Nat) : Nat :=
  if i < 512 then coreCfg (i / 4) + 0x108 + 8 * (i % 4)
  else dieCfg ((i - 512) / 2) + (if i % 2 == 0 then 0x110 else 0x140)

/-- CAUSE, VALID and PC, kept while VALID is set (R93). -/
def State.recordFault (s : State) (i cause pc : Nat) : State :=
  if s.cfgF (faultReg i) 8 1 == 1 then s
  else s.setCfgW (faultReg i) (BitVec.ofNat 64 (cause + 256 + 65536 * pc))

/-- An instruction of stream i at pc ends in a fault: register, UC record, and the stream stops (R93, R149). -/
def State.faultAt (s : State) (i cause pc : Nat) : State :=
  let s := s.recordFault i cause pc
  let s := s.raise { s.engErr i 2 (0x100 + cause) with addr := pc, detail := s.cfgW (faultReg i) }
  s.setStream i { s.stream i with st := .faulted, lock := 0, lockPast := false, lockHeld := false, granted := false, queue := false }

def State.fault (s : State) (i cause : Nat) : State := s.faultAt i cause (s.stream i).pc

-- Instruction fetch (R142 to R146)

/-- The key of a cache slot for line address a (R142). -/
def cacheKey (i a : Nat) : Nat :=
  if i < 512 then 4096 * (i / 4) + (a / 256) % 4096 else 0x80000 + 1024 * ((i - 512) / 2) + (a / 256) % 1024

def ilineReset : ILine := ⟨false, 0, [], none⟩
def State.iline (s : State) (k : Nat) : ILine := tget (fun _ => ilineReset) s.eng.icache k
def State.setIline (s : State) (k : Nat) (l : ILine) : State :=
  { s with eng := { s.eng with icache := tput (fun _ => ilineReset) s.eng.icache k l } }

/-- The partition of stream i. -/
def State.partOf (s : State) (i : Nat) : Option Part := s.partOfDie (ixDie i)

/-- An address range lies in HBM of the stream's partition. -/
def State.codeRange (s : State) (i a n : Nat) : Bool :=
  match s.partOf i with
  | some p => s.inPartHbm p.val a n
  | none => false

inductive Fetched where
  | range
  | miss
  | word (w : IWord)
deriving DecidableEq, Repr

/-- The instruction at the PC of stream i: from its cache line or its fetch buffer (R143, R145). -/
def State.fetch (s : State) (i : Nat) : Fetched :=
  let t := s.stream i
  let la := t.pc / 256 * 256
  let take (data : List Byte) : Fetched := .word (BitVec.ofNat 512 (leNat ((data.drop (t.pc % 256)).take 64)))
  if t.pc % 64 != 0 || !s.codeRange i t.pc 64 then .range
  else
    let l := s.iline (cacheKey i la)
    if l.valid && l.addr == la then take l.data
    else match t.fbuf with
      | some (a, data) => if a == la then take data else .miss
      | none => .miss

-- Fields of an instruction

def opOf (w : IWord) : Nat := fld w 0 8

/-- The opcode is defined and legal in the stream's class (R117). -/
def legalOp : Stream → Nat → Bool
  | .core _ .me, op => op < 0x0F || (0x20 ≤ op && op < 0x26)
  | .core _ .ve, op => op < 0x0F || (0x40 ≤ op && op < 0x4D)
  | .core _ _, op => op < 0x0F || op == 0x80
  | .die _ .xe, op => op < 0x0F || (0xA0 ≤ op && op < 0xA4)
  | .die _ .ce, op => op < 0x0F || (0xC0 ≤ op && op < 0xC5)

/-- A tally wait (Table 5-4). -/
structure Wait where
  tally : Nat
  pos : Nat
  amount : Nat
  keep : Bool
deriving DecidableEq, Repr

def waitAt (w : IWord) (lo : Nat) : Wait := ⟨fld w lo 10, fld w (lo + 10) 2, fld w (lo + 12) 8, fld w (lo + 20) 1 == 1⟩

/-- The waits of an instruction: those with an amount. TWAIT has six (R120). -/
def waitsOf (w : IWord) : List Wait :=
  (([16, 40] ++ (if opOf w == 1 then [128, 152, 176, 200] else [])).map (waitAt w)).filter fun x => x.amount != 0

/-- A signal (Table 5-5). -/
structure Sig where
  tally : Nat
  pos : Nat
  die : Nat
  remote : Bool
  amount : Nat
deriving DecidableEq, Repr

def sigAt (w : IWord) (lo : Nat) : Sig :=
  ⟨fld w lo 10, fld w (lo + 10) 2, fld w (lo + 12) 5, fld w (lo + 17) 1 == 1, fld w (lo + 18) 8⟩

/-- The signals of an instruction: those with an amount. SIGNAL has six (R120). -/
def sigsOf (w : IWord) : List Sig :=
  (([64, 96] ++ (if opOf w == 2 then [128, 160, 192, 224] else [])).map (sigAt w)).filter fun x => x.amount != 0

/-- Sends the signals of a completed instruction (R119, R135). -/
def State.sendSigs (s : State) (i : Nat) (w : IWord) : State :=
  (sigsOf w).foldl (fun s g => s.sendEvent
    ⟨if g.remote then g.die else ixDie i, g.pos, g.tally, g.amount, ixDie i, ixEng i, s.partOf i⟩) s

/-- The core a wait names: the die of the stream and the wait's position. -/
def waitCore (i : Nat) (x : Wait) : Nat := 4 * ixDie i + x.pos

/-- BAD_TALLY: a wait beyond the engine's reach, or a signal to a die beyond the grade (R139, Table 5-18). -/
def State.badTally (s : State) (i : Nat) (w : IWord) : Bool :=
  (i < 512 && (waitsOf w).any fun x => x.pos != (i / 4) % 4)
    || (sigsOf w).any fun g => g.remote && decide (s.nDies ≤ g.die)

/-- Opcodes a locked sequence may not hold (R149): LOOP to WEND. -/
def lockBars (op : Nat) : Bool := 0x05 ≤ op && op ≤ 0x0C

/-- The causes every opcode can meet before its waits are tested (R119). -/
def State.commonCauses (s : State) (i : Nat) (w : IWord) : List Nat :=
  let t := s.stream i
  (if s.badTally i w then [0x84] else [])
    ++ (if (t.lock != 0 && lockBars (opOf w)) || t.lockPast then [0x87] else [])

/-- The lowest cause of a list (R150). -/
def minCause : List Nat → Option Nat
  | [] => none
  | c :: t => some (t.foldl min c)

/-- The amounts of waits that name one tally add, KEEP waits included (R134). -/
def needOf (i : Nat) (ws : List Wait) (core tally : Nat) : Nat :=
  (ws.filter fun x => waitCore i x == core && x.tally == tally).foldl (fun a x => a + x.amount) 0

def State.waitsMet (s : State) (i : Nat) (ws : List Wait) : Bool :=
  ws.all fun x => needOf i ws (waitCore i x) x.tally ≤ (s.tally (waitCore i x) x.tally).value

def State.waitOvf (s : State) (i : Nat) (ws : List Wait) : Bool :=
  ws.any fun x => (s.tally (waitCore i x) x.tally).ovf
    || s.eng.badTallies.contains (1024 * waitCore i x + x.tally)

/-- Every non-KEEP wait subtracts its amount (R119). -/
def State.takeWaits (s : State) (i : Nat) (ws : List Wait) : State :=
  ws.foldl (fun s x =>
    if x.keep then s
    else
      let c := waitCore i x
      let v := s.tally c x.tally
      s.setTally c x.tally { v with value := v.value - x.amount }) s

/-- The streams whose engine index is lower and that may wait on the same tallies (R113, R136). -/
def rivals (i : Nat) : List Nat :=
  if i < 512 then (List.range (i % 4)).map fun e => i / 4 * 4 + e
  else ((List.range 16).map fun k => 16 * ixDie i + k) ++ (if i % 2 == 1 then [i - 1] else [])

/-- A lower engine index waits on one of these tallies and can be granted now: it goes first (R136). -/
def State.outranked (s : State) (i : Nat) (ws : List Wait) : Bool :=
  (rivals i).any fun j =>
    let t := s.stream j
    t.st == .waitTally && !t.granted && (match s.fetch j with
      | .word w =>
        let us := waitsOf w
        s.waitsMet j us && us.any fun u => ws.any fun x => waitCore j u == waitCore i x && u.tally == x.tally
      | _ => false)

-- Handles (R118)

/-- A 12-bit handle with X[HX] added: none for a null one, an error outside 1 to 4,095. -/
def handleOf (t : StreamSt) (w : IWord) (h : Nat) : Except Nat (Option Nat) :=
  if h == 0 then .ok none
  else
    let v := (h + (t.xr (fld w 8 3)).toNat) % 2 ^ 32
    if 1 ≤ v ∧ v ≤ 4095 then .ok (some v) else .error 0x81

def badHandle (t : StreamSt) (w : IWord) (h : Nat) : Bool :=
  match handleOf t w h with
  | .ok _ => false
  | .error _ => true

/-- The handle's index, 0 where null or bad. -/
def hIx (t : StreamSt) (w : IWord) (h : Nat) : Nat :=
  match handleOf t w h with
  | .ok (some v) => v
  | _ => 0

/-- The UC record of an engine access that ended in error (R261): ACCESS_ERROR, requester kind 0. -/
def State.accessError (s : State) (i addr : Nat) (iso : Bool) : State :=
  s.raise { s.engErr i 2 0x0208 with isolation := iso, addr := addr }

-- Retirement

/-- The PC after the end of loop bodies (R121): the innermost level first; true where a body's end was passed. -/
def settle : List Loop → Nat → Nat × List Loop × Bool
  | [], pc => (pc, [], false)
  | l :: ls, pc =>
    if pc == l.stop then
      if 1 < l.left then (l.first, { l with left := l.left - 1 } :: ls, true)
      else
        let r := settle ls pc
        (r.1, r.2.1, true)
    else (pc, l :: ls, false)

/-- The stream goes on at pc with these loop levels; one instruction of a locked sequence has issued (R148, R149). -/
def StreamSt.goTo (t : StreamSt) (pc : Nat) (loops : List Loop) : StreamSt :=
  let r := settle loops pc
  { t with pc := r.1, loops := r.2.1, lock := t.lock - 1, lockPast := r.2.2 && decide (1 < t.lock), st := .run,
           lockHeld := t.lockHeld && decide (1 < t.lock), granted := false, queue := false }

/-- The next instruction in line. -/
def StreamSt.next (t : StreamSt) : StreamSt := t.goTo (t.pc + 64) t.loops

/-- Adds one to a count that is kept by partition. -/
def bumpPart (t : Tbl Nat) (p : Option Part) (k : Nat) : Tbl Nat :=
  match p with
  | some q => tput (fun _ => 0) t q.val (tget (fun _ => 0) t q.val + k)
  | none => t

/-- A miss of a stream's cache: WAIT_FETCH, and counted for the window (R145). -/
def State.missAt (s : State) (i : Nat) : State :=
  let s := s.setStream i { s.stream i with st := .waitFetch }
  { s with eng := { s.eng with missIn := bumpPart s.eng.missIn (s.partOf i) 1 } }

/-- An access of a stream is held at a router until domain k is ON (R22). -/
def State.holdStream (s : State) (i k : Nat) : State :=
  let e := { s.eng with held := s.eng.held ++ [Held.mk (some i) none k none] }
  { s with eng := { e with heldIn := bumpPart s.eng.heldIn (s.partOf i) 1 } }

/-- What an instruction does once its waits have been satisfied. -/
inductive Ran where
  | fault (cause : Nat)
  | bad (cause addr : Nat) (isolation : Bool)  -- an access ended in error (R261)
  | asleep (dom : Nat)                 -- an access is held at a router (R22)
  | full                               -- no room in the queue of its operation (R125)
  | done (s : State)

/-- Ticks of SLEEP → ON of a domain (Table 18-3). -/
def wakeTicks (k : Nat) : Nat := if k < 136 then 500 else if k < 170 then 5000 else if k < 234 then 2500 else 25000

/-- A domain in SLEEP starts to enable; one whose disable still runs enables after it (R509, R510). -/
def State.startOn (s : State) (k : Nat) : State :=
  let d := s.dom k
  match d.going with
  | some .on => s
  | some _ => s.setDom k { d with queuedOn := true }
  | none => if d.st == .sleep then s.setDom k { d with going := some .on, doneAt := s.gc + wakeTicks k } else s

/-- A wake request meets the sleep agreement of partition p (R182): before the commit count it cancels the agreement, at
or after it is latched. -/
def PartSt.wakeAt (t : PartSt) (gc : Nat) : PartSt :=
  match t.sleep with
  | none => t
  | some x =>
    if x.done then { t with sleep := some { x with wake := some (x.wake.getD gc) } }
    else if x.commit ≤ gc then { t with sleep := some { x with wake := some (x.wake.getD gc) } }
    else { t with sleep := none, sleepCancels := t.sleepCancels + 1 }

/-- The partition whose sleep agreement has domain k among its participants. -/
def State.sleeper (s : State) (k : Nat) : Option Nat :=
  (List.range 8).find? fun p => match (s.part p).sleep with
    | some x => x.doms.contains k
    | none => false

/-- An access or a count event reaches a domain that takes part in a sleep agreement. -/
def State.sleepTouch (s : State) (k : Nat) : State :=
  match s.sleeper k with
  | some p => s.setPart p ((s.part p).wakeAt s.gc)
  | none => s

/-- An access waits for a sleeping domain: the domain's agreement is woken, or the domain itself (R22, R182). -/
def State.requestWake (s : State) (k : Nat) : State :=
  match s.sleeper k with
  | some p => s.setPart p ((s.part p).wakeAt s.gc)
  | none => s.startOn k

/-- The power domain of a stream's engine. -/
def State.engDom (s : State) (i : Nat) : Nat := if i < 512 then s.coreKey (i / 4) else s.dieKey (ixDie i)

/-- The stream may be asked for its next instruction. -/
def State.mayIssue (s : State) (i : Nat) : Bool :=
  let t := s.stream i
  (t.st == .run || t.st == .waitTally || t.st == .waitGc) && t.flight.isNone && !t.wend
    && s.power (s.engDom i) == .on && !(s.eng.held.any fun h => h.stream == some i)
    && ixDie i < s.nDies && !s.frozenStream i

/-- One attempt of a stream to issue its next instruction (R119). `mine` says that the word is of the row in question;
`pre` gives the row's own causes decided before the waits; `run` is its effect after them. -/
def issue (st : Stream) (mine : IWord → Bool) (pre : State → StreamSt → IWord → List Nat)
    (run : State → StreamSt → IWord → Ran) (s : State) : Option State :=
  let i := streamIx st
  let t := s.stream i
  if !s.mayIssue i then none
  else
    match s.fetch i with
    | .range => some (s.fault i 0x89)
    | .miss => some (s.missAt i)
    | .word w =>
      if !legalOp st (opOf w) then some (s.fault i 0x80)
      else if !mine w then none
      else
        match minCause (s.commonCauses i w ++ pre s t w) with
        | some c => some (s.fault i c)
        | none =>
          let ws := waitsOf w
          if !t.granted && s.waitOvf i ws then some (s.fault i 0x85)
          else if !t.granted && (!s.waitsMet i ws || s.outranked i ws) then
            some (s.setStream i { t with st := .waitTally })
          else
            let s := if t.granted then s else s.takeWaits i ws
            let t := { t with st := .run, granted := true }
            match run s t w with
            | .fault c => some (s.fault i c)
            | .bad c a iso => some ((s.accessError i a iso).fault i c)
            | .asleep k =>
              let s := s.setStream i t
              some ((s.holdStream i k).requestWake k)
            | .full => some (s.setStream i { t with queue := true })
            | .done s' => some s'

/-- The entry of an issued instruction in the stream's trace ring. -/
def State.traceIssue (s : State) (i : Nat) (t : StreamSt) (w : IWord) : State :=
  s.traceEng i 1 (natLe 6 t.pc ++ natLe 1 (opOf w) ++ natLe 4 t.window)

/-- A control instruction that retires and completes at issue: t is the stream after it (Table 5-7). -/
def finishNow (s : State) (i : Nat) (w : IWord) (old t : StreamSt) : State :=
  let s := (s.traceIssue i old w).setStream i t
  (s.sendSigs i w).bumpCtr i 0 1

/-- An engine instruction that occupies its engine for some cycles: the stream is after it, its signals come later. -/
def startFlight (s : State) (i : Nat) (w : IWord) (t : StreamSt) (busy quiet fallback : Nat) : State :=
  (s.traceIssue i t w).setStream i
    { t.next with
      lockHeld := t.lockHeld
      flight := some ⟨t.pc, w, 5 * (busy + quiet + fallback), busy, quiet, fallback, t.lock != 0⟩ }

end Sys2Proof.Machine
end

