-- ==== Sys2Proof/Machine/Control.lean ====
section
/-! DEFINITION. The control instructions (R120 to R122, R131, R144, R148, R161) and the events that end an
instruction's wait or its cycles. -/

namespace Sys2Proof.Machine

def noCauses (_ : State) (_ : StreamSt) (_ : IWord) : List Nat := []
def isOp (op : Nat) (w : IWord) : Bool := opOf w == op

/-- A control instruction whose stream afterwards is `f`. -/
def control (st : Stream) (op : Nat) (pre : State → StreamSt → IWord → List Nat)
    (f : StreamSt → IWord → StreamSt) (s : State) : Option State :=
  issue st (isOp op) pre (fun s t w => .done (finishNow s (streamIx st) w t (f t w))) s

/-- NOP, TWAIT, SIGNAL: waits and signals only (Table 5-8). -/
def execNop (st : Stream) (s : State) : Host.Outcome State Fault Refusal :=
  attempt s (control st 0 noCauses (fun t _ => t.next) s)
def execTwait (st : Stream) (s : State) : Host.Outcome State Fault Refusal :=
  attempt s (control st 1 noCauses (fun t _ => t.next) s)
def execSignal (st : Stream) (s : State) : Host.Outcome State Fault Refusal :=
  attempt s (control st 2 noCauses (fun t _ => t.next) s)

def immOf (w : IWord) : W32 := BitVec.ofNat 32 (fld w 160 32)

/-- X[XD] := IMM. -/
def execSetx (st : Stream) (s : State) : Host.Outcome State Fault Refusal :=
  attempt s (control st 3 noCauses (fun t w => (t.xw (fld w 128 3) (immOf w)).next) s)

/-- X[XD] := X[XD] + IMM modulo 2^32. -/
def execAddx (st : Stream) (s : State) : Host.Outcome State Fault Refusal :=
  attempt s (control st 4 noCauses
    (fun t w => (t.xw (fld w 128 3) (t.xr (fld w 128 3) + immOf w)).next) s)

/-- COUNT, or X[XC] where XC ≠ 0 (Table 5-8). -/
def loopCount (t : StreamSt) (w : IWord) : Nat :=
  if fld w 128 3 == 0 then fld w 160 32 else (t.xr (fld w 128 3)).toNat

def loopStop (t : StreamSt) (w : IWord) : Nat := t.pc + 64 + 64 * fld w 132 12

/-- LOOP_FAULT (R121): a fifth level, an empty body, or a body that ends beyond an enclosing one. -/
def loopCauses (_ : State) (t : StreamSt) (w : IWord) : List Nat :=
  if 4 ≤ t.loops.length || fld w 132 12 == 0 || (t.loops.any fun l => l.stop < loopStop t w) then [0x86] else []

def execLoop (st : Stream) (s : State) : Host.Outcome State Fault Refusal :=
  attempt s (control st 5 loopCauses (fun t w =>
    let n := loopCount t w
    if n == 0 then t.goTo (loopStop t w) t.loops
    else t.goTo (t.pc + 64) (⟨t.pc + 64, loopStop t w, n⟩ :: t.loops)) s)

/-- The target of a taken branch. -/
def branchTo (t : StreamSt) (w : IWord) : Nat :=
  (((t.pc : Int) + 64 * sext 32 (fld w 160 32)) % 2 ^ 48).toNat

/-- A branch inside a body lands in the same body, or just after it (R121). -/
def branchOk (t : StreamSt) (w : IWord) : Bool :=
  match t.loops with
  | [] => true
  | l :: _ => l.first ≤ branchTo t w && branchTo t w ≤ l.stop

/-- The stream after a taken branch: landing just after a body ends its level. -/
def branch (t : StreamSt) (w : IWord) : StreamSt :=
  match t.loops with
  | l :: ls => if branchTo t w == l.stop then t.goTo (branchTo t w) ls else t.goTo (branchTo t w) t.loops
  | [] => t.goTo (branchTo t w) []

def execJump (st : Stream) (s : State) : Host.Outcome State Fault Refusal :=
  attempt s (control st 6 (fun _ t w => if branchOk t w then [] else [0x86]) branch s)

/-- COND of BRX: 0 EQ, 1 NE, 2 LTU, 3 GEU. -/
def brxTaken (t : StreamSt) (w : IWord) : Bool :=
  let a := t.xr (fld w 128 3)
  let b := BitVec.ofNat 32 (fld w 192 32)
  match fld w 131 3 with
  | 0 => a == b
  | 1 => a != b
  | 2 => a.toNat < b.toNat
  | _ => b.toNat ≤ a.toNat

def execBrx (st : Stream) (s : State) : Host.Outcome State Fault Refusal :=
  attempt s (control st 7
    (fun _ t w => if 4 ≤ fld w 131 3 || (brxTaken t w && !branchOk t w) then [0x86] else [])
    (fun t w => if brxTaken t w then branch t w else t.next) s)

/-- WAITGC: below GC the stream waits in WAIT_GC (R122). -/
def waitGcIssue (st : Stream) (s : State) : Option State :=
  let i := streamIx st
  let t := s.stream i
  match s.fetch i with
  | .word w =>
    if s.mayIssue i && isOp 8 w && (minCause (s.commonCauses i w)).isNone
        && !s.waitOvf i (waitsOf w) && s.gc < fld w 128 64 then
      some (s.setStream i { t with st := .waitGc })
    else control st 8 noCauses (fun t _ => t.next) s
  | _ => control st 8 noCauses (fun t _ => t.next) s

def execWaitgc (st : Stream) (s : State) : Host.Outcome State Fault Refusal := attempt s (waitGcIssue st s)

/-- A stream in WAIT_GC sees the count at or above GC and issues its WAITGC (R122). -/
def execGcWaitSatisfied (st : Stream) (s : State) : Host.Outcome State Fault Refusal :=
  let i := streamIx st
  attempt s (if (s.stream i).st == .waitGc then
    match s.fetch i with
    | .word w => if isOp 8 w && fld w 128 64 ≤ s.gc then control st 8 noCauses (fun t _ => t.next) s else none
    | _ => none
  else none)

/-- PC_RANGE of FETCHAHEAD's own fields (Table 5-8). -/
def aheadCauses (i : Nat) (s : State) (_ : StreamSt) (w : IWord) : List Nat :=
  let a := fld w 128 48
  let n := fld w 176 13
  if a % 256 != 0 || n == 0 || 4096 < n || !s.codeRange i a (256 * n) then [0x89] else []

/-- FETCHAHEAD (R144): its lines fill and pin one by one at FETCHAHEAD_FILL_COMPLETE; its signals follow the last. -/
def execFetchahead (st : Stream) (s : State) : Host.Outcome State Fault Refusal :=
  let i := streamIx st
  attempt s (issue st (isOp 9) (aheadCauses i) (fun s t w =>
    let a := fld w 128 48
    let req : Ahead := ⟨(List.range (fld w 176 13)).map fun k => a + 256 * k, t.window + 1, w⟩
    let s := s.traceIssue i t w
    .done ((s.setStream i { t.next with ahead := t.ahead ++ [req] }).bumpCtr i 0 1)) s)

/-- LOCK: the next N instructions form a locked sequence; an N of 0 or above 64 is a breach (R148, R149). -/
def execLock (st : Stream) (s : State) : Host.Outcome State Fault Refusal :=
  attempt s (control st 0x0A
    (fun _ _ w => if fld w 128 7 == 0 || 64 < fld w 128 7 then [0x87] else [])
    (fun t w => { t.next with lock := fld w 128 7 }) s)

/-- HALT: the stream returns to IDLE (R115). -/
def execHalt (st : Stream) (s : State) : Host.Outcome State Fault Refusal :=
  attempt s (control st 0x0B noCauses (fun t _ => { t.next with st := .idle }) s)

/-- WEND: WAIT_BOUNDARY, once the stream's own FETCHAHEADs are complete (R161, R166). -/
def execWend (st : Stream) (s : State) : Host.Outcome State Fault Refusal :=
  attempt s (control st 0x0C
    (fun _ t w => if fld w 128 32 != t.window then [0x8A] else [])
    (fun t _ => if t.ahead.isEmpty then { t.next with st := .waitBoundary } else { t.next with wend := true }) s)

/-- The core and index of a 14-bit handle with X[HX] added to its low 12 bits (R118, R129); none where it is bad. -/
def handle14 (i : Nat) (t : StreamSt) (w : IWord) (h : Nat) : Option (Nat × Nat) :=
  match handleOf t w (h % 4096) with
  | .ok (some v) => some (4 * ixDie i + h / 4096, v)
  | _ => none

/-- BAD_HANDLE of DSET and DLIVE: null, out of range, or another core's from a core stream (R129). -/
def dsetCauses (i : Nat) (_ : State) (t : StreamSt) (w : IWord) : List Nat :=
  let h := fld w 128 14
  if (handle14 i t w h).isNone || (i < 512 && h / 4096 != (i / 4) % 4) then [0x81] else []

/-- DSET (R131): one word of the named descriptor. -/
def execDset (st : Stream) (s : State) : Host.Outcome State Fault Refusal :=
  let i := streamIx st
  attempt s (issue st (isOp 0x0D) (dsetCauses i) (fun s t w =>
    match handle14 i t w (fld w 128 14) with
    | some (c, v) =>
      .done (finishNow (s.setDescWord c v (fld w 144 3) (BitVec.ofNat 64 (fld w 192 64))) i w t t.next)
    | none => .fault 0x81) s)

/-- clamp(w − BIAS, 0, extent), formed exactly (Table 5-8). -/
def dliveValue (word bias extent : Nat) : Nat := (min (max ((word : Int) - sext 32 bias) 0) (extent : Int)).toNat

/-- The cause of an engine's own table for an operand access that ended in error (R283). -/
def accessCause (i : Nat) : Nat :=
  match ixEng i with
  | 0 => 0x0B
  | 1 => 0x05
  | 2 => 0x44
  | 3 => 0x44
  | 4 => 0x2C
  | _ => 0x68

/-- DLIVE: LIVE_ROWS of the named descriptor from a core-store word. -/
def execDlive (st : Stream) (s : State) : Host.Outcome State Fault Refusal :=
  let i := streamIx st
  attempt s (issue st (isOp 0x0E) (dsetCauses i) (fun s t w =>
    match handle14 i t w (fld w 128 14) with
    | some (c, v) =>
      let a := fld w 144 48
      match s.access (s.partOf i) a 4 with
      | .bad iso => .bad (accessCause i) a iso
      | .sleeping k => .asleep k
      | .ok =>
        if s.poisoned a 4 then .fault (accessCause i)
        else
          let d := s.desc c v
          let live := dliveValue (s.rdN a 4) (fld w 192 32) d.extent
          let s := s.setDescWord c v 2 (setFld (s.cfgW (descAddr c v + 16)) 32 32 live)
          .done (finishNow s i w t t.next)
    | none => .fault 0x81) s)

end Sys2Proof.Machine
end

