-- ==== Sys2Proof/Machine/Operands.lean ====
section
/-! DEFINITION. Operands of the compute engines: elements and scales of described tensors, the checks a descriptor and
its accesses meet, rows written through a conversion, and the write-set checker (R30 to R32, R70 to R72, R127 to R132,
R311). -/

namespace Sys2Proof.Machine

/-- How a list of accesses ends: a bad one first, then a sleeping one. -/
inductive Reach where
  | ok
  | sleeping (dom : Nat)
  | bad (addr : Nat) (isolation : Bool)
deriving DecidableEq, Repr

def Reach.join : Reach → Reach → Reach
  | .bad a i, _ => .bad a i
  | _, .bad a i => .bad a i
  | .sleeping k, _ => .sleeping k
  | .ok, r => r

/-- Every (address, length) of a list, by a unit of partition p. -/
def State.reach (s : State) (p : Option Part) : List (Nat × Nat) → Reach
  | [] => .ok
  | (a, n) :: t =>
    (match s.access p a n with
     | .ok => Reach.ok
     | .sleeping k => .sleeping k
     | .bad i => .bad a i).join (s.reach p t)

def State.anyPoison (s : State) (l : List (Nat × Nat)) : Bool := l.any fun r => s.poisoned r.1 r.2

-- Row layout

/-- The code of element c of row r. -/
def State.elem (s : State) (d : Desc) (r c : Nat) : Nat :=
  let b := d.format.enc.bits
  let row := d.base + r * d.stride
  if b < 8 then bitsAt (s.rd1 (row + c * b / 8)).toNat ((c * b) % 8) b else s.rdN (row + c * (b / 8)) (b / 8)

/-- The scale code that covers element c of row r; 0 without blocks. -/
def State.scale (s : State) (d : Desc) (r c : Nat) : Nat :=
  let f := d.format
  if f.block == 0 then 0 else (s.rd1 (d.base + r * d.stride + f.elemBytes d.cols + c / f.block)).toNat

/-- The bytes of row r that hold elements c0 to c0 + n − 1 and their block scales. -/
def Desc.rowParts (d : Desc) (r c0 n : Nat) : List (Nat × Nat) :=
  let f := d.format
  let b := f.enc.bits
  let row := d.base + r * d.stride
  if n == 0 then []
  else (row + c0 * b / 8, ((c0 + n) * b + 7) / 8 - c0 * b / 8)
    :: (if f.block == 0 then []
        else [(row + f.elemBytes d.cols + c0 / f.block, (c0 + n - 1) / f.block - c0 / f.block + 1)])

/-- The same for n rows from r0. -/
def Desc.blockParts (d : Desc) (r0 n c0 m : Nat) : List (Nat × Nat) :=
  ((List.range n).map fun k => d.rowParts (r0 + k) c0 m).flatten

-- K-panel layout (R71); P is the panel's row count

def panelBk (f : Fmt) : Nat := if f.block != 0 then f.block else if f.enc == .bf16 then 8 else if f.enc == .fp32 then 8 else 32
def panelEb (f : Fmt) : Nat := f.elemBytes (panelBk f)

/-- Address of block b of row r of a panel. -/
def panelElemAddr (d : Desc) (pp b r : Nat) : Nat := d.base + (b * pp + r) * panelEb d.format
/-- Address of that block's scale: after the elements of the nb = COLS / Bk blocks (log 20). -/
def panelScaleAddr (d : Desc) (pp b r : Nat) : Nat :=
  d.base + (d.cols / panelBk d.format) * pp * panelEb d.format + b * pp + r

def State.panelElem (s : State) (d : Desc) (pp r k : Nat) : Nat :=
  let bk := panelBk d.format
  codeAt d.format.enc (s.rd (panelElemAddr d pp (k / bk) r) (panelEb d.format)) (k % bk)

def State.panelScale (s : State) (d : Desc) (pp r k : Nat) : Nat :=
  if d.format.block == 0 then 0 else (s.rd1 (panelScaleAddr d pp (k / panelBk d.format) r)).toNat

/-- The bytes of a panel row's blocks b0 to b1. -/
def panelParts (d : Desc) (pp r b0 b1 : Nat) : List (Nat × Nat) :=
  ((List.range (b1 + 1 - b0)).map fun k =>
    (panelElemAddr d pp (b0 + k) r, panelEb d.format)
      :: (if d.format.block == 0 then [] else [(panelScaleAddr d pp (b0 + k) r, 1)])).flatten

-- Checks

/-- A row-layout descriptor holds together: base and stride aligned, stride at least a packed row (R70, R129). -/
def Desc.rowShape (d : Desc) : Bool :=
  d.base % 64 == 0 && (d.rows ≤ 1 || (d.stride % 64 == 0 && d.format.rowBytes d.cols ≤ d.stride))

/-- The causes an operand's descriptor meets: INVALID_DESCRIPTOR and LIVE_RANGE (R128 to R130), and the engine's access
cause for a descriptor with an uncorrected error (R283). -/
def State.descCauses (s : State) (i core h : Nat) (d : Desc) (panel counted : Bool) : List Nat :=
  (if s.eng.badDescs.contains (4096 * core + h) then [accessCause i] else [])
    ++ (if !s.descOk (s.partOf i) d || d.panel != panel
          || (!panel && !d.rowShape) || (panel && d.stride != 0) then [0x82] else [])
    ++ (if counted && d.extent < d.live then [0x83] else [])

/-- The causes of the handles, null ones apart, that give no readable descriptor: a poisoned one, VALID = 0 or an invalid
FORMAT (R129 rule 3). Such an operand has no other field, so no cause is judged from its fields (log 62). -/
def State.unread (s : State) (i core : Nat) (hs : List Nat) : List Nat :=
  ((hs.filter fun h => h != 0).map fun h =>
    if s.eng.badDescs.contains (4096 * core + h) then [accessCause i]
    else if !(s.desc core h).valid || (fmtOf (s.desc core h).fmt).isNone then [0x82] else []).flatten

/-- The FP32 reading of element c of row r (R587). -/
def State.read32 (s : State) (d : Desc) (r c : Nat) : W32 := decode32 d.format d.ts (s.elem d r c) (s.scale d r c)

/-- The invalid codes and signed scales that reading columns c0 to c0 + n − 1 of a row meets (R31). -/
def State.invalidIn (s : State) (d : Desc) (r c0 n : Nat) : Nat :=
  let f := d.format
  let els := ((List.range n).filter fun k => f.enc.invalid (s.elem d r (c0 + k))).length
  let bs := if f.block == 0 || n == 0 then 0
    else ((List.range ((c0 + n - 1) / f.block - c0 / f.block + 1)).filter fun b =>
      f.scale.invalid (s.scale d r ((c0 / f.block + b) * f.block))).length
  els + bs

/-- Counts invalid reads of some rows through a core's sentinel port. -/
def State.countInvalid (s : State) (core : Nat) (d : Desc) (rows : List Nat) (c0 n : Nat) : State :=
  if d.sent == 0 || d.fmt != 3 && d.fmt != 9 then s
  else s.sentUpdate core d.sent { sentZero with inv := rows.foldl (fun a r => a + s.invalidIn d r c0 n) 0 }

-- Conversion into a described tensor (R45 to R51, R72)

/-- The rounding of element (r, c) of a tensor (R49, R132). -/
def roundingOf (d : Desc) (seed : W64) (stepNo : W32) (r c : Nat) : Rounding :=
  if d.sr then .sr (gen seed (BitVec.ofNat 32 d.tid) (d.index r c) stepNo) else .rne

/-- One block of values x at row r from column c: its scale code and its elements. -/
def convBlock (d : Desc) (seed : W64) (stepNo : W32) (r c : Nat) (xs : List W32) : Nat × List Written :=
  let f := d.format
  let sc := blockScale f d.ts xs
  (sc, xs.zipIdx.map fun p => convElem f (f.scale.val sc) d.ts (roundingOf d seed stepNo r (c + p.2)) p.1)

/-- Writes element codes at row r from column c (c even for 4-bit and a multiple of 4 for 2-bit codes). -/
def State.putCodes (s : State) (d : Desc) (r c : Nat) (codes : List Nat) : State :=
  let b := d.format.enc.bits
  let a := d.base + r * d.stride + c * b / 8
  let bytes := packCodes d.format.enc codes
  -- a trailing partial byte keeps its other elements
  let extra := (codes.length * b) % 8
  if extra == 0 then s.wr a bytes
  else
    let last := bytes.length - 1
    let old := (s.rd1 (a + last)).toNat
    let new := (bytes.getD last 0).toNat
    s.wr a (bytes.take last ++ [BitVec.ofNat 8 (old / 2 ^ extra * 2 ^ extra + new % 2 ^ extra)])

def State.putScale (s : State) (d : Desc) (r c code : Nat) : State :=
  let f := d.format
  if f.block == 0 then s else s.wr (d.base + r * d.stride + f.elemBytes d.cols + c / f.block) [BitVec.ofNat 8 code]

/-- A run of values converted into row r from column c, block by block; what it adds to the sentinel is returned. -/
def State.putRow (s : State) (d : Desc) (seed : W64) (stepNo : W32) (r c : Nat) (xs : List W32) : State × SentAdd :=
  let f := d.format
  let blk := if f.block == 0 then max xs.length 1 else f.block
  (cut blk xs).zipIdx.foldl (fun (a : State × SentAdd) p =>
    let c0 := c + blk * p.2
    let cv := convBlock d seed stepNo r c0 p.1
    let codes := cv.2.map Written.code
    -- the rest of a partial block takes element code 0 (R72)
    let codes := if f.block == 0 then codes else (codes ++ List.replicate f.block 0).take f.block
    (((a.1.putCodes d r c0 codes).putScale d r c0 cv.1), a.2.plus (sentSum cv.2))) (s, sentZero)

/-- A run of +0 elements: element code 0 and block scale 0x00, counted by no sentinel (R97, R72). -/
def State.putZeros (s : State) (d : Desc) (r c n : Nat) : State :=
  let f := d.format
  let m := if f.block == 0 then n else (n + f.block - 1) / f.block * f.block
  let s := s.putCodes d r c (List.replicate m 0)
  if f.block == 0 then s
  else (List.range (m / f.block)).foldl (fun s b => s.putScale d r (c + b * f.block) 0) s

-- The write-set checker (R311)

def overlaps (a n b m : Nat) : Bool := a < b + m && b < a + n && n != 0 && m != 0

/-- The range of a channel's registers (Table 11-6). -/
def chanReg (core ch off : Nat) : Nat := coreCfg core + 0x400 + 32 * ch + off

/-- A range enters a core's checker: each overlap of a write with another range is a hit. -/
def State.wsEnter (s : State) (r : WsRange) : State :=
  let hits := s.eng.wset.filter fun o =>
    o.core == r.core && o.chan != r.chan && (o.write || r.write) && overlaps r.base r.len o.base o.len
  let ch := if r.chan == 32 then 0 else r.chan
  let s := hits.foldl (fun s o =>
    let s := s.bumpCfg (chanReg r.core ch 0x18) 0 32 1
    let key := 64 * r.core + ch
    if s.eng.wsNoted.contains key then s
    else
      let s := { s with eng := { s.eng with wsNoted := nins s.eng.wsNoted key } }
      s.notice (s.partOfDie (r.core / 4)) 8
        ([BitVec.ofNat 8 r.core, BitVec.ofNat 8 r.chan, BitVec.ofNat 8 o.chan] ++ List.replicate 5 0
          ++ natLe 8 r.base ++ natLe 8 r.len ++ natLe 8 o.base ++ natLe 8 o.len)) s
  { s with eng := { s.eng with wset := s.eng.wset ++ [r] } }

/-- The ranges of a channel (or of the ME, 32) leave the checker. -/
def State.wsLeave (s : State) (core chan : Nat) : State :=
  { s with eng := { s.eng with wset := s.eng.wset.filter fun o => !(o.core == core && o.chan == chan) } }

/-- The bounding range of a list of accesses. -/
def boundOf : List (Nat × Nat) → Nat × Nat
  | [] => (0, 0)
  | l =>
    let lo := l.foldl (fun a r => min a r.1) (l.headD (0, 0)).1
    let hi := l.foldl (fun a r => max a (r.1 + r.2)) 0
    (lo, hi - lo)

end Sys2Proof.Machine
end

