-- ==== Sys2Proof/Machine/Net.lean ====
section
/-! DEFINITION. Nodes and transport contexts as messages see them (R335 to R337, Tables 12-5 and 12-6), and what the
block puts out. -/

namespace Sys2Proof.Machine

/-- The device's node ID. -/
def State.node (s : State) : Nat := s.cfgF (ioCfg 0) 0 14
def State.nodeAssigned (s : State) : Bool := s.cfgF (ioCfg 0) 14 1 == 1

def ctxA (n : Nat) : Nat := ioCfg 0 + 0x80000 + 32 * n
def State.ctxValid (s : State) (n : Nat) : Bool := s.cfgF (ctxA n) 0 1 == 1
def State.ctxPart (s : State) (n : Nat) : Nat := s.cfgF (ctxA n) 1 3
/-- 0 UP, 1 SUSPECT, 2 TORN. -/
def State.ctxState (s : State) (n : Nat) : Nat := s.cfgF (ctxA n) 8 3

/-- The register block of a port (R319). -/
def portA (p : Nat) : Nat := ioCfg (p / 12) + 0x10000 + 0x100 * (p % 12)
/-- LINK: 0 DOWN, 1 TRAINING, 2 UP, 3 UP_SPARED, 4 FAILED. -/
def State.link (s : State) (p : Nat) : Nat := s.cfgF (portA p + 8) 0 3
def State.linkUp (s : State) (p : Nat) : Bool := s.link p == 2 || s.link p == 3
/-- PORTS of a context. -/
def State.ctxPorts (s : State) (n : Nat) : Nat := s.cfgF (ctxA n) 32 32 + 2 ^ 32 * s.cfgF (ctxA n + 8) 0 16
/-- The usable ports of a context, ascending (R338). -/
def State.usable (s : State) (n : Nat) : List Nat := below 48 fun p => bitsAt (s.ctxPorts n) p 1 == 1 && s.linkUp p

/-- The port a message to node n takes: round-robin over the usable ports (R338); 63 to the device itself. -/
def State.msgPort (s : State) (n : Nat) : Fin 64 × State :=
  if n == s.node then (63, s)
  else
    let l := s.usable n
    let k := tget (fun _ => 0) s.net.rr n
    let s := { s with net := { s.net with rr := tput (fun _ => 0) s.net.rr n (k + 1) } }
    (Fin.ofNat 64 (l.getD (k % max l.length 1) 63), s)

/-- Frames of a message of n bytes, header included (R321). -/
def framesOf (n : Nat) : Nat := max 1 ((n + 4095) / 4096)
/-- A stream: the traffic of one context on one port (R338). -/
def netKey (n p : Nat) : Nat := 48 * n + p
def State.txSeq (s : State) (k : Nat) : Nat := tget (fun _ => 0) s.net.txSeq k
def State.rxSeq (s : State) (k : Nat) : Nat := tget (fun _ => 0) s.net.rxSeq k
def State.setTxSeq (s : State) (k v : Nat) : State :=
  { s with net := { s.net with txSeq := tput (fun _ => 0) s.net.txSeq k (v % 2 ^ 32) } }
def State.setRxSeq (s : State) (k v : Nat) : State :=
  { s with net := { s.net with rxSeq := tput (fun _ => 0) s.net.rxSeq k (v % 2 ^ 32) } }
/-- The frames of a REQUEST message take their numbers in the stream (R339); a message of the device itself has none. -/
def State.countTx (s : State) (n p bytes : Nat) : State :=
  if 48 ≤ p then s else s.setTxSeq (netKey n p) (s.txSeq (netKey n p) + framesOf bytes)
def State.countRx (s : State) (n p bytes : Nat) : State :=
  if 48 ≤ p then s else s.setRxSeq (netKey n p) (s.rxSeq (netKey n p) + framesOf bytes)

/-- A node belongs to partition p: this device itself, or the peer of a context of the partition. -/
def State.nodeIn (s : State) (p : Option Part) (n : Nat) : Bool :=
  n == s.node || (match p with | some q => s.ctxValid n && s.ctxPart n == q.val | none => false)

/-- The requests outstanding on context n. -/
def State.reqsOf (s : State) (n : Nat) : List Req := s.net.reqs.filter fun r => r.node == n && r.use != .evict

/-- The context becomes SUSPECT, with its record (R354). -/
def State.suspect (s : State) (n : Nat) : State :=
  if s.ctxState n != 0 then s
  else
    let s := s.setCfgF (ctxA n) 8 3 1
    let oldest := match s.reqsOf n with | r :: _ => r.seq | [] => 0
    s.raise { mkErr 2 3 0 0xFF 0x0306 with
      part := some (Fin.ofNat 8 (s.ctxPart n)), detail := BitVec.ofNat 64 (n + 2 ^ 32 * oldest) }

/-- The context of another device has no usable port: what would be sent on it makes it SUSPECT (R340 step 4, R354). -/
def State.noPort (s : State) (n : Nat) : Bool := n != s.node && (s.usable n).isEmpty

/-- An answer from the target returns a SUSPECT context to UP (R354). -/
def State.heard (s : State) (n : Nat) : State :=
  if n != s.node && s.ctxState n == 1 then s.setCfgF (ctxA n) 8 3 0 else s

/-- How a message to node n of partition p can go: now, after the context recovers, or a fabric cause (R245, R354). -/
inductive Way where
  | go
  | wait
  | bad (cause : Nat)
deriving DecidableEq, Repr

def State.wayTo (s : State) (p : Option Part) (n : Nat) : Way :=
  if n == s.node then .go
  else if !s.nodeIn p n then .bad 0x55
  else match s.ctxState n with
    | 2 => .bad 0x54
    | 1 => .wait
    | _ => .go

/-- A frame from node n that no context lets in (R337): dropped, counted, and an isolation breach. -/
def State.isolationDrop (s : State) (n : Nat) (kind unit : Nat) : State :=
  let s := s.bumpCfg (ioCfg 0 + 0x28) 0 32 1
  s.raise { mkErr 2 (Fin.ofNat 6 kind) unit 0xFF 0x0308 with isolation := true, detail := BitVec.ofNat 64 n }

/-- The breach record of a message from outside a partition (R224). -/
def State.nodeBreach (s : State) (p : Option Part) (d n : Nat) : State :=
  s.raise { mkErr 2 0 (s.physDie d) 0xFF 0x0308 with
    isolation := true, part := p, logical := BitVec.ofNat 16 d, detail := BitVec.ofNat 64 n }

/-- The STEP of R49 of a partition. -/
def State.stepOf (s : State) (p : Option Part) : Nat := match p with | some q => (s.part q.val).stepNo.toNat | none => 0

/-- Header and payload bytes of a message. -/
def msgHdrBytes (m : Msg) : List Byte := natLe 32 m.hdr.toNat
/-- The CRC of a message: header bytes 0 to 27, then the payload (R221). -/
def msgCrc (m : Msg) : W32 := crc32c ((msgHdrBytes m).take 28 ++ m.payload)
def msgCrcOk (m : Msg) : Bool := fld m.hdr 224 32 == (msgCrc m).toNat
/-- The message with its CRC set. -/
def msgSealed (m : Msg) : Msg := { m with hdr := setFld m.hdr 224 32 (msgCrc m).toNat }

/-- The MSG trace entry (Table 20-6) in the ring of an XE or a CE. -/
def State.traceMsg (s : State) (i : Nat) (received cmsg : Bool) (node : Nat) (m : Msg) : State :=
  s.traceEng i 7 (natLe 4 (boolNat received + 2 * fld m.hdr 0 4 + 32 * boolNat cmsg + 64 * node) ++ natLe 4 0
    ++ (msgHdrBytes m).take 16)

/-- Poison mask of n bytes read from a: bit k for payload bytes 64k to 64k + 63 (R343). -/
def State.pmaskOf (s : State) (a n : Nat) : Nat :=
  ((List.range ((n + 63) / 64)).filter fun k => s.poisoned (a + 64 * k) (min 64 (n - 64 * k))).foldl
    (fun m k => m + 2 ^ k) 0

/-- Payload bytes written at a, with the poison of a mask that starts at payload byte `o`. -/
def State.wrMasked (s : State) (a : Nat) (bs : List Byte) (o mask : Nat) : State :=
  let s := s.wr a bs
  (List.range bs.length).foldl (fun s j => if bitsAt mask ((o + j) / 64) 1 == 1 then s.setPoison ((a + j) / 64) else s) s

/-- The same where no poison can be set. -/
def State.wrPay (s : State) (a : Nat) (bs : List Byte) (o mask : Nat) : State :=
  if mask == 0 then s.wr a bs else s.wrMasked a bs o mask

end Sys2Proof.Machine
end

