-- ==== Sys2Proof/Machine/Journal.lean ====
section
/-! DEFINITION. The replay journal as its writers see it (R423 to R427): entries, ingress fingerprints, and the entries
recorded for a replay (R429 to R432). -/

namespace Sys2Proof.Machine

def State.jnlOpen (s : State) (p : Nat) : Bool := s.mbxF (bar4Addr p 0x20) 0 1 == 1
def State.jnlWrite (s : State) (p : Nat) : Nat := (s.mbxW (bar4Addr p 0x10)).toNat
def State.jnlRead (s : State) (p : Nat) : Nat := (s.mbxW (bar4Addr p 0x18)).toNat
def State.jnlSize (s : State) (p : Nat) : Nat := 2 ^ s.mbxF (bar4Addr p 0x08) 0 5
def State.jnlFree (s : State) (p : Nat) : Nat := s.jnlSize p - (s.jnlWrite p - s.jnlRead p)
/-- The address of slot n. -/
def State.jnlSlot (s : State) (p n : Nat) : Nat := (s.mbxW (bar4Addr p 0)).toNat + 64 * (n % s.jnlSize p)

/-- One 64 B slot. -/
def State.jnlPut (s : State) (p : Nat) (bytes : List Byte) : State :=
  let n := s.jnlWrite p
  (s.wr (s.jnlSlot p n) ((bytes ++ List.replicate 64 0).take 64)).setMbxW (bar4Addr p 0x10) (BitVec.ofNat 64 (n + 1))

/-- The header of Table 15-7. -/
def jnlHeader (p type follow window stepNo seq : Nat) : List Byte :=
  natLe 4 (type + 256 * p + 2048 * follow) ++ natLe 4 window ++ natLe 4 stepNo ++ natLe 8 seq ++ natLe 4 0

/-- An entry of window w with payload bytes from byte 24, and its continuation (R425). -/
def State.journalFor (s : State) (p w type : Nat) (payload cont : List Byte) : State :=
  if !s.jnlOpen p then s
  else
    let t := s.part p
    let rest := cut 64 cont
    let slots := if type == 7 then t.proofSlots ++ [s.jnlWrite p] else t.proofSlots
    let s := s.jnlPut p (jnlHeader p type rest.length w (if t.state == 4 then t.step0 else t.stepNo).toNat t.jseq ++ payload)
    let s := rest.foldl (fun s b => s.jnlPut p b) s
    s.setPart p { s.part p with jseq := t.jseq + 1, proofSlots := slots }

/-- An entry of the window that the partition is in. -/
def State.journal (s : State) (p type : Nat) (payload cont : List Byte) : State :=
  s.journalFor p (s.part p).window type payload cont

-- Ingress (R427)

inductive IngressClass where
  | x | c | st
deriving DecidableEq, Repr

/-- Adds a frame's fingerprint to its class. -/
def State.ingress (s : State) (p : Option Part) (k : IngressClass) (key : List Byte) (payCrc : Nat) : State :=
  match p with
  | none => s
  | some q =>
    let f := (crc32c key).toNat * 2 ^ 32 + payCrc
    let t := s.part q.val
    let g := t.ingress
    let g := match k with
      | .x => { g with xn := g.xn + 1, xs := (g.xs + f) % 2 ^ 64 }
      | .c => { g with cn := g.cn + 1, cs := (g.cs + f) % 2 ^ 64 }
      | .st => { g with sn := g.sn + 1, ss := (g.ss + f) % 2 ^ 64 }
    s.setPart q.val { t with ingress := g }

-- Recorded entries of a replay

/-- Slot k of the recorded journal. -/
def State.recSlot (s : State) (r : Replay) (k : Nat) : Nat := s.rdN (r.base + 64 * k) 64

/-- Headed entries of the recorded journal from slot k on, as slot and header word. -/
def State.recEntries (s : State) (r : Replay) : Nat → Nat → List (Nat × Nat)
  | 0, _ => []
  | f + 1, k =>
    if r.slots ≤ k then []
    else
      let e := s.recSlot r k
      (k, e) :: s.recEntries r f (k + 1 + bitsAt e 11 3)

/-- The recorded entries that a replay uses, in order. -/
def State.recorded (s : State) (r : Replay) : List (Nat × Nat) := s.recEntries r r.slots r.from_

def recType (e : Nat) : Nat := bitsAt e 0 8
def recWindow (e : Nat) : Nat := bitsAt e 32 32
def recStep (e : Nat) : Nat := bitsAt e 64 32
def recSeq (e : Nat) : Nat := bitsAt e 96 64
/-- Payload field of an entry, by byte offset and length. -/
def recF (e off n : Nat) : Nat := bitsAt e (8 * off) (8 * n)

/-- A divergence of a replay (R432): cause 1 INPUT, 2 INGRESS, 3 PROOF. Only the first of a cause is reported. -/
def State.diverge (s : State) (p : Part) (cause cls recNo : Nat) : State :=
  let t := s.part p.val
  match t.replay with
  | none => s
  | some r =>
    if r.seen.contains cause then s.setPart p.val { t with replay := some { r with later := r.later + 1 } }
    else
      let s := s.setPart p.val { t with replay := some { r with seen := nins r.seen cause }, replayDue := t.replayDue || r.stopOn }
      let own := t.jseq
      let s := s.notice (some p) 13 (natLe 8 (cause + 256 * cls) ++ natLe 8 recNo ++ natLe 8 own)
      s.journal p.val 9 (natLe 4 (cause + 256 * cls) ++ natLe 8 recNo) []

/-- A PROOF entry (R402), compared with the recorded one where the partition replays (R431). -/
def State.journalProof (s : State) (p : Part) (g opseq id r : Nat) (digest : List Byte) : State :=
  let s := s.journal p.val 7 (natLe 2 g ++ natLe 2 opseq ++ natLe 4 id ++ natLe 4 r) digest
  let t := s.part p.val
  match t.replay with
  | none => s
  | some rp =>
    match (s.recorded rp).find? fun x => recType x.2 == 7 && recStep x.2 == t.stepNo.toNat && recF x.2 24 2 == g
        && recF x.2 26 2 == opseq with
    | none => s
    | some (k, e) => if (s.rd (rp.base + 64 * (k + 1)) 32) == digest then s else s.diverge p 3 0 (recSeq e)

end Sys2Proof.Machine
end

