-- ==== Sys2Proof/Machine/Pool.lean ====
section
/-! DEFINITION. The buffer-pool managers (R246 to R259): regions, owners, cells and chains; grants, waiters, releases and
the spill ring. -/

namespace Sys2Proof.Machine

/-- The record of region r on memory die m (Table 9-1). -/
def regA (m r : Nat) : Nat := memCfg m + 0x40000 + 64 * r
/-- The record of owner o on memory die m (Table 9-4). -/
def ownA (m o : Nat) : Nat := memCfg m + 0x50000 + 32 * o
def regKey (m r : Nat) : Nat := 64 * m + r

def State.wellCells (s : State) (m r : Nat) : Nat := s.cfgF (regA m r) 32 32
def State.wellBase (s : State) (m r : Nat) : Nat := s.cfgF (regA m r + 8) 0 48
def State.spillBase (s : State) (m r : Nat) : Nat := s.cfgF (regA m r + 16) 0 48
def State.spillCells (s : State) (m r : Nat) : Nat := s.cfgF (regA m r + 24) 0 32
def State.ringBase (s : State) (m r : Nat) : Nat := s.cfgF (regA m r + 24) 32 32 + 2 ^ 32 * s.cfgF (regA m r + 32) 0 16
def State.freeWell (s : State) (m r : Nat) : Nat := s.cfgF (regA m r + 32) 32 32
def State.freeSpill (s : State) (m r : Nat) : Nat := s.cfgF (regA m r + 40) 0 32
def State.resOpen (s : State) (m r : Nat) : Nat := s.cfgF (regA m r + 40) 32 32
def State.cacheShare (s : State) (m r : Nat) : Nat := s.cfgF (regA m r) 16 10

def State.setFreeWell (s : State) (m r v : Nat) : State := s.setCfgF (regA m r + 32) 32 32 v
def State.setFreeSpill (s : State) (m r v : Nat) : State := s.setCfgF (regA m r + 40) 0 32 v
def State.setResOpen (s : State) (m r v : Nat) : State := s.setCfgF (regA m r + 40) 32 32 v

def emptyList : Nat → List Nat := fun _ => []
def State.pops (s : State) (k : Nat) : List Nat := tget emptyList s.pool.pops k
def State.setPops (s : State) (k : Nat) (l : List Nat) : State :=
  { s with pool := { s.pool with pops := tput emptyList s.pool.pops k l } }
def State.rels (s : State) (k : Nat) : List Nat := tget emptyList s.pool.rels k
def State.setRels (s : State) (k : Nat) (l : List Nat) : State :=
  { s with pool := { s.pool with rels := tput emptyList s.pool.rels k l } }
def State.nodeHead (s : State) (k : Nat) : Nat := tget (fun _ => 0) s.pool.heads k
def State.setNodeHead (s : State) (k a : Nat) : State :=
  { s with pool := { s.pool with heads := tput (fun _ => 0) s.pool.heads k a } }
def State.spillCache (s : State) (k : Nat) : List Nat := tget emptyList s.pool.caches k
def State.setSpillCache (s : State) (k : Nat) (l : List Nat) : State :=
  { s with pool := { s.pool with caches := tput emptyList s.pool.caches k l } }
def noReqs : Nat → List PoolReq := fun _ => []
def State.waiters (s : State) (k : Nat) : List PoolReq := tget noReqs s.pool.waiters k
/-- The waiter queue of region r of die m, and its count in the region record. -/
def State.setWaiters (s : State) (m r : Nat) (l : List PoolReq) : State :=
  ({ s with pool := { s.pool with waiters := tput noReqs s.pool.waiters (regKey m r) l } }).setCfgF (regA m r + 48) 0 32 l.length

-- Home map (R252)

/-- W of a WIDTH code (Table 9-3). -/
def stripeWidth : Nat → Option Nat
  | 0 => some 1 | 1 => some 2 | 2 => some 3 | 3 => some 4 | 4 => some 6 | 5 => some 12
  | _ => none

/-- The home map entry of owner o on compute die d. -/
def State.homeEntry (s : State) (d o : Nat) : Nat :=
  let a := dieCfg d + 0x30000 + o
  s.cfgF (a / 8 * 8) (8 * (a % 8)) 8

/-- The dies of owner o's stripe, in order; empty where it is not homed. -/
def State.stripe (s : State) (d o : Nat) : List Nat :=
  let e := s.homeEntry d o
  match stripeWidth (bitsAt e 4 3) with
  | some w => if bitsAt e 0 4 < 12 then (List.range w).map fun i => (bitsAt e 0 4 + i) % 12 else []
  | none => []

/-- The memory die that serves owner o for a key. -/
def State.homeDie (s : State) (d o key : Nat) : Option Nat :=
  let l := s.stripe d o
  if l.isEmpty then none else l[key % l.length]?

/-- Reserved minimum of an owner over its stripe (R252). -/
def State.ownerMin (s : State) (d o : Nat) : Nat := ((s.stripe d o).map fun m => s.cfgF (ownA m o) 32 32).sum

-- Free cells (R250, R251)

/-- The next free well cell of a region, as its index: from the pop batch, from the head batch node, or from the release
batch when the list is empty (log 30). -/
def State.popWell (s : State) (m r : Nat) : Option (Nat × State) :=
  let k := regKey m r
  match s.pops k with
  | i :: t => some (i, s.setPops k t)
  | [] =>
    let h := s.nodeHead k
    if h != 0 then
      let n := min (s.rdN (h + 16) 4) 59
      let l := ((List.range n).map fun j => s.rdN (h + 20 + 4 * j) 4) ++ [(h - s.wellBase m r) / 256]
      match l with
      | i :: t => some (i, (s.setPops k t).setNodeHead k (s.rdN h 6))
      | [] => none
    else match s.rels k with
      | i :: t => some (i, (s.setRels k []).setPops k t)
      | [] => none

def State.popWells (m r : Nat) : Nat → State → List Nat → Option (List Nat × State)
  | 0, s, l => some (l.reverse, s)
  | n + 1, s, l => match s.popWell m r with
    | some (i, s') => State.popWells m r n s' (i :: l)
    | none => none

/-- RING_FAULT (Table 9-7): a refill returned an index outside SPILL_CELLS or a cell already free; the region stops
granting spill cells. -/
def State.ringFault (s : State) (m r idx : Nat) : State :=
  let s := { s with pool := { s.pool with dead := nins s.pool.dead (regKey m r) } }
  s.raise { mkErr 2 1 m 0xFF 0x0209 with
    part := some (Fin.ofNat 8 (s.cfgF (regA m r) 1 3)), detail := BitVec.ofNat 64 (r + 2 ^ 32 * idx) }

/-- Entries of the free-index ring that are not in the cache. -/
def State.ringCount (s : State) (m r : Nat) : Nat := s.freeSpill m r - (s.spillCache (regKey m r)).length

/-- A refill of the spill cache: 64 entries from RING_HEAD (R251), or a ring fault. -/
def State.refill (s : State) (m r : Nat) : State :=
  let k := regKey m r
  let cells := s.spillCells m r
  let n := min 64 (s.ringCount m r)
  let head := s.cfgF (regA m r + 48) 32 32
  let got := (List.range n).map fun j => s.rdN (s.ringBase m r + 4 * ((head + j) % cells)) 4
  let cache := s.spillCache k
  let bad := got.zipIdx.find? fun p =>
    cells ≤ p.1 || cache.contains p.1 || (got.take p.2).contains p.1
      || bitsAt (s.rdN (s.spillBase m r + 256 * p.1) 8) 48 1 == 1
  match bad with
  | some p => s.ringFault m r p.1
  | none => (s.setSpillCache k (cache ++ got)).setCfgF (regA m r + 48) 32 32 ((head + n) % max cells 1)

/-- Refills until the cache holds n entries, the ring is empty, or a fault stops it. -/
def State.refillTo (m r n : Nat) : Nat → State → State
  | 0, s => s
  | f + 1, s =>
    if n ≤ (s.spillCache (regKey m r)).length || s.ringCount m r == 0 || s.pool.dead.contains (regKey m r) then s
    else State.refillTo m r n f (s.refill m r)

/-- A free spill cell goes back: to the cache, after 64 entries went to RING_TAIL where the share is full (R251). -/
def State.pushSpill (s : State) (m r idx : Nat) : State :=
  let k := regKey m r
  let cache := s.spillCache k
  let share := s.cacheShare m r
  let full := share ≤ cache.length
  let out := if share == 0 then [idx] else if full then cache.drop (cache.length - min 64 cache.length) else []
  let keep := if share == 0 then cache
    else if full then cache.take (cache.length - min 64 cache.length) ++ [idx] else cache ++ [idx]
  let tail := s.cfgF (regA m r + 56) 0 32
  let cells := max (s.spillCells m r) 1
  let s := out.zipIdx.foldl (fun s p => s.wrN (s.ringBase m r + 4 * ((tail + p.2) % cells)) 4 p.1) s
  let s := s.setCfgF (regA m r + 56) 0 32 ((tail + out.length) % cells)
  (s.setSpillCache k keep).setFreeSpill m r (s.freeSpill m r + 1)

/-- Header bits of a batch node. -/
def nodeHeader (r next : Nat) : Nat := next + 2 ^ 51 + 2 ^ 76 * r

/-- A free well cell goes to the release batch, or becomes a batch node at the head of the list (R250). -/
def State.pushWell (s : State) (m r idx : Nat) : State :=
  let k := regKey m r
  let l := s.rels k
  let s := s.setFreeWell m r (s.freeWell m r + 1)
  if l.length < 59 then s.setRels k (l ++ [idx])
  else
    let a := s.wellBase m r + 256 * idx
    let s := s.wr a (natLe 16 (nodeHeader r (s.nodeHead k)) ++ natLe 4 59 ++ (l.map (natLe 4)).flatten)
    (s.setNodeHead k a).setRels k []

-- Grants (R249, R253)

inductive Grant where
  | limit
  | wait
  | take (fromMin well spill : Nat)
deriving DecidableEq, Repr

def cellsFor (bytes : Nat) : Nat := (bytes + 239) / 240

/-- grant(o, n) of R253. -/
def State.grant (s : State) (m o n : Nat) : Grant :=
  let r := s.cfgF (ownA m o) 2 6
  let used := s.cfgF (ownA m o + 8) 32 32
  let mn := s.cfgF (ownA m o) 32 32
  let mx := s.cfgF (ownA m o + 8) 0 32
  if mx < n then .limit
  else
    let res := min n (mn - used)
    let sh := n - res
    let shared := s.freeWell m r - s.resOpen m r
    if mx < used + n then .wait
    else if shared < sh && (s.cfgF (ownA m o) 1 1 == 0 || s.pool.dead.contains (regKey m r)
        || s.freeSpill m r < sh - shared) then .wait
    else .take res (n - (sh - shared)) (sh - shared)

/-- The chain's headers, linked in order (R249). -/
def State.linkChain (s : State) (o r bytes : Nat) (cells : List (Nat × Bool)) : State :=
  let n := cells.length
  cells.zipIdx.foldl (fun s p =>
    let last := p.2 + 1 == n
    let next := if last then 0 else ((cells[p.2 + 1]?).map Prod.fst).getD 0
    let len := if last then bytes - 240 * (n - 1) else 240
    s.wrN p.1.1 16 (next + 2 ^ 48 + 2 ^ 49 * boolNat last + 2 ^ 50 * boolNat p.1.2 + 2 ^ 56 * len + 2 ^ 64 * o
      + 2 ^ 76 * r + 2 ^ 82 * (s.gc % 2 ^ 46))) s

/-- The cells of a grant: addresses, with the spill flag. -/
def State.takeCells (s : State) (m r well spill : Nat) : Option (List (Nat × Bool) × State) :=
  match State.popWells m r well s [] with
  | none => none
  | some (ws, s) =>
    let k := regKey m r
    let s := State.refillTo m r spill (spill / 64 + 2) s
    let cache := s.spillCache k
    if cache.length < spill then none
    else
      let s1 := s.setSpillCache k (cache.take (cache.length - spill))
      some (ws.map (fun i => (s.wellBase m r + 256 * i, false))
        ++ (cache.drop (cache.length - spill)).reverse.map (fun i => (s.spillBase m r + 256 * i, true)), s1)

/-- The SPILL notice: one per owner per window (R251). -/
def State.spillNotice (s : State) (p : Part) (m r o : Nat) : State :=
  let key := 8 * o + p.val
  if s.pool.spillNoted.contains key then s
  else
    let s := { s with pool := { s.pool with spillNoted := nins s.pool.spillNoted key } }
    s.notice (some p) 6 ([BitVec.ofNat 8 m, BitVec.ofNat 8 r] ++ natLe 2 o ++ natLe 4 (s.cfgF (ownA m o + 16) 32 32))

/-- How an allocation ends at its manager. -/
inductive Alloc where
  | head (a : Nat) (s : State)
  | wait
  | bad (cause : Nat) (isolation : Bool)

/-- The owner's record on die m lets a unit of partition p allocate (R259). -/
def State.ownerBad (s : State) (p : Option Part) (m o : Nat) : Option Bool :=
  let r := s.cfgF (ownA m o) 2 6
  if s.cfgF (ownA m o) 0 1 == 0 || s.cfgF (regA m r) 0 1 == 0 then some false
  else match p with
    | some q => if s.cfgF (regA m r) 1 3 == q.val then none else some true
    | none => some true

/-- A request at the manager of die m (R249, R253): all its cells at once, or none. -/
def State.allocAt (s : State) (p : Option Part) (m o bytes : Nat) : Alloc :=
  match s.ownerBad p m o with
  | some iso => .bad 0x30 iso
  | none =>
    let r := s.cfgF (ownA m o) 2 6
    let n := cellsFor bytes
    if bytes == 0 || 0xFFFFF < bytes then .bad 0x31 false
    else match s.grant m o n with
      | .limit => .bad 0x31 false
      | .wait => .wait
      | .take res well spill =>
        match s.takeCells m r well spill with
        | none => .wait
        | some (cells, s) =>
          let s := s.linkChain o r bytes cells
          let s := (s.setFreeWell m r (s.freeWell m r - well)).setFreeSpill m r (s.freeSpill m r - spill)
          let s := s.setResOpen m r (s.resOpen m r - res)
          let used := s.cfgF (ownA m o + 8) 32 32 + n
          let s := s.setCfgF (ownA m o + 8) 32 32 used
          let s := s.setCfgF (ownA m o + 16) 0 32 (max used (s.cfgF (ownA m o + 16) 0 32))
          let s := s.setCfgF (ownA m o + 16) 32 32 (s.cfgF (ownA m o + 16) 32 32 + spill)
          let s := match p with
            | some q => if spill == 0 then s else s.spillNotice q m r o
            | none => s
          .head ((cells.headD (0, false)).1) s

/-- Waiters of every region of die m. -/
def State.dieWaiters (s : State) (m : Nat) : Nat := ((List.range 64).map fun r => (s.waiters (regKey m r)).length).sum

/-- A request that cannot be granted joins its region's queue and counts in WAITS; none where the die's 256 places are
taken, and the source holds it back (R254). -/
def State.queueReq (s : State) (m : Nat) (q : PoolReq) : Option State :=
  let r := s.cfgF (ownA m q.owner) 2 6
  if 256 ≤ s.dieWaiters m then none
  else
    let s := s.setWaiters m r (s.waiters (regKey m r) ++ [q])
    some (s.bumpCfg (ownA m q.owner + 24) 0 32 1)

/-- A pool error of a stream's operation: its fault register and the record of Table 9-7. -/
def State.poolFault (s : State) (i cause : Nat) (iso : Bool) : State :=
  let pc := (s.stream i).pc
  let s := s.recordFault i cause pc
  let s := s.raise { s.engErr i (if cause == 0x33 then 1 else 2) (0x100 + cause) with
    isolation := iso, addr := pc, detail := s.cfgW (faultReg i) }
  s.setStream i { s.stream i with st := .faulted, lock := 0, lockPast := false, lockHeld := false, granted := false, queue := false }

/-- POOL_ALLOCATE (R249, R253): a bare request of a stream's engine; its head address is kept with the request. -/
def poolAllocate (st : Stream) (o bytes key : Nat) (s : State) : Option State :=
  let i := streamIx st
  let p := s.partOf i
  if ixDie i ≥ s.nDies || s.power (s.engDom i) != .on || s.frozenDie (ixDie i) then none
  else match s.homeDie (ixDie i) o key with
    | none => some (s.poolFault i 0x30 false)
    | some m =>
      match s.allocAt p m o bytes with
      | .bad c iso => some (s.poolFault i c iso)
      | .head a s => some { s with pool := { s.pool with granted := s.pool.granted ++ [(⟨i, o, bytes, key, 0⟩, a)] } }
      | .wait => s.queueReq m ⟨i, o, bytes, key, 0⟩

def execPoolAllocate (st : Stream) (owner : Fin 4096) (bytes key : Nat) (s : State) : Host.Outcome State Fault Refusal :=
  attempt s (poolAllocate st owner.val bytes key s)

-- Releases (R256)

/-- The enabled region of a die that has a cell at address a: region, spill flag, index. -/
def State.cellAt (s : State) (a : Nat) : Option (Nat × Nat × Bool × Nat) :=
  let m? := match homeOf a with
    | .hbm m _ => if m < 12 then some m else none
    | .well m _ => if m < 12 then some m else none
    | _ => none
  match m? with
  | none => none
  | some m => (List.range 64).findSome? fun r =>
    if s.cfgF (regA m r) 0 1 == 0 then none
    else
      let wb := s.wellBase m r
      let sb := s.spillBase m r
      if wb ≤ a && a < wb + 256 * s.wellCells m r && (a - wb) % 256 == 0 then some (m, r, false, (a - wb) / 256)
      else if sb ≤ a && a < sb + 256 * s.spillCells m r && (a - sb) % 256 == 0 then some (m, r, true, (a - sb) / 256)
      else none

/-- One allocated cell is released: STATE 0, its owner's USED, and the region's free cells. -/
def State.freeCell (s : State) (m r : Nat) (spill : Bool) (idx a : Nat) : State :=
  let h := s.rdN a 16
  let o := bitsAt h 64 12
  let s := s.wrN a 16 (setBits h 48 1 0)
  let used := s.cfgF (ownA m o + 8) 32 32 - 1
  let s := s.setCfgF (ownA m o + 8) 32 32 used
  let s := if used < s.cfgF (ownA m o) 32 32 then s.setResOpen m r (s.resOpen m r + 1) else s
  if spill then (s.setCfgF (ownA m o + 16) 32 32 (s.cfgF (ownA m o + 16) 32 32 - 1)).pushSpill m r idx
  else s.pushWell m r idx

/-- The cells of a chain in order, or the address at which its headers stop holding together (R259). -/
def State.walkCells (s : State) (m r : Nat) : Nat → Nat → Option Nat → List Nat → Except (Nat × List Nat) (List Nat)
  | 0, a, _, seen => .error (a, seen.reverse)
  | f + 1, a, own, seen =>
    let h := s.rdN a 16
    let here := match s.cellAt a with | some (m', r', _, _) => m' == m && r' == r | none => false
    let o := bitsAt h 64 12
    if !here || s.poisoned a 16 || bitsAt h 48 1 == 0 || bitsAt h 76 6 != r
        || (match own with | some x => x != o | none => false) || seen.contains a then .error (a, seen.reverse)
    else if bitsAt h 49 1 == 1 then .ok ((a :: seen).reverse)
    else State.walkCells s m r f (bitsAt h 0 48) (some o) (a :: seen)

/-- The chain that starts at head, for a requester of any partition: die, region and cells. -/
def State.chainOf (s : State) (head : Nat) : Option (Nat × Nat × Except (Nat × List Nat) (List Nat)) :=
  match s.cellAt head with
  | none => none
  | some (m, r, _, _) => some (m, r, s.walkCells m r 4400 head none [])

def State.freeCells (s : State) (l : List Nat) : State :=
  l.foldl (fun s a => match s.cellAt a with
    | some (m, r, sp, i) => s.freeCell m r sp i a
    | none => s) s

/-- POOL_CHAIN's effect on the pool: the bad cell is withheld, the cells read so far are released (Table 9-7). -/
def State.quarantine (s : State) (m r a : Nat) (good : List Nat) : State :=
  let s := match s.cellAt a with
    | some (m', r', _, _) =>
      if m' == m && r' == r && bitsAt (s.rdN a 16) 48 1 == 1 then s.bumpCfg (regA m r + 56) 32 32 1 else s
    | none => s
  s.freeCells good

/-- How a release ends. -/
inductive Release where
  | done (s : State)
  | bad (cause : Nat) (isolation : Bool) (s : State)

/-- A release by a unit of partition p: one cell, or the chain from its head (R256). -/
def State.release (s : State) (p : Option Part) (a : Nat) (chain : Bool) : Release :=
  match s.chainOf a with
  | none => .bad 0x32 false s
  | some (m, r, walk) =>
    if (match p with | some q => s.cfgF (regA m r) 1 3 != q.val | none => true) then .bad 0x32 true s
    else if !s.poisoned a 16 && bitsAt (s.rdN a 16) 48 1 == 0 then .bad 0x32 false s
    else if !chain then
      if s.poisoned a 16 then .bad 0x33 false (s.quarantine m r a []) else .done (s.freeCells [a])
    else match walk with
      | .ok cells => .done (s.freeCells cells)
      | .error (b, good) => .bad 0x33 false (s.quarantine m r b good)

def poolRelease (st : Stream) (a : Nat) (chain : Bool) (s : State) : Option State :=
  let i := streamIx st
  if ixDie i ≥ s.nDies || s.power (s.engDom i) != .on || s.frozenDie (ixDie i) then none
  else match s.release (s.partOf i) a chain with
    | .done s => some s
    | .bad c iso s => some (s.poolFault i c iso)

def execPoolRelease (st : Stream) (addr : Nat) (chain : Bool) (s : State) : Host.Outcome State Fault Refusal :=
  attempt s (poolRelease st addr chain s)

/-- SPILL_CACHE_REFILL (R251): the cached entries have fallen below a quarter of the share. -/
def execSpillCacheRefill (m : MDie) (r : Fin 64) (s : State) : Host.Outcome State Fault Refusal :=
  let k := regKey m.val r.val
  attempt s (if s.cfgF (regA m.val r.val) 0 1 == 1 && 4 * (s.spillCache k).length < s.cacheShare m.val r.val
      && s.ringCount m.val r.val != 0 && !s.pool.dead.contains k then some (s.refill m.val r.val) else none)

/-- Formatting of an enabled region at job load (R247): cells zero, nodes of 60 consecutive cells, ring full (log 30). -/
def State.formatRegion (s : State) (m r : Nat) : State :=
  let k := regKey m r
  let n := s.wellCells m r
  let base := s.wellBase m r
  let sc := s.spillCells m r
  let sb := s.spillBase m r
  let inside (c : Host.Cell) : Bool := (base ≤ c.1 && c.1 < base + 256 * n) || (sb ≤ c.1 && c.1 < sb + 256 * sc)
  let s := { s with
    mem := s.mem.filter (fun c => !inside c)
    poison := s.poison.filter fun l => !inside (64 * l, 0) }
  let s := (List.range ((n + 59) / 60)).foldl (fun s q =>
    let i0 := 60 * q
    let idx := (List.range (min 59 (n - i0 - 1))).map fun j => i0 + 1 + j
    let next := if i0 + 60 < n then base + 256 * (i0 + 60) else 0
    s.wr (base + 256 * i0) (natLe 16 (nodeHeader r next) ++ natLe 4 idx.length ++ (idx.map (natLe 4)).flatten)) s
  let s := (List.range sc).foldl (fun s i => s.wrN (s.ringBase m r + 4 * i) 4 i) s
  let s := ((((s.setPops k []).setRels k []).setNodeHead k (if n == 0 then 0 else base)).setSpillCache k []).setWaiters m r []
  let s := { s with pool := { s.pool with dead := ndel s.pool.dead k } }
  let s := (s.setFreeWell m r n).setFreeSpill m r sc
  let s := (s.setCfgF (regA m r + 48) 32 32 0).setCfgW (regA m r + 56) 0
  let own := below 4096 fun o => s.cfgF (ownA m o) 0 1 == 1 && s.cfgF (ownA m o) 2 6 == r
  let s := own.foldl (fun s o =>
    ((s.setCfgF (ownA m o + 8) 32 32 0).setCfgW (ownA m o + 16) 0).setCfgW (ownA m o + 24) 0) s
  s.setResOpen m r (own.map fun o => s.cfgF (ownA m o) 32 32).sum

/-- The owners of die m whose VALID is set, ascending. -/
def State.ownersOn (s : State) (m : Nat) : List Nat :=
  (s.cfg.filter fun x => decide (ownA m 0 ≤ x.1) && decide (x.1 < ownA m 4096) && (x.1 - ownA m 0) % 32 == 0 && bitOf x.2 0).map
    fun x => (x.1 - ownA m 0) / 32

/-- What breaks R247 in the enabled regions of die m. `taken` holds the ledger and the declared well ranges. -/
def State.poolPlanBad (s : State) (m : Nat) (taken : List (Nat × Nat)) : Bool :=
  let rs := below 64 fun r => s.cfgF (regA m r) 0 1 == 1
  let spans := (rs.map fun r =>
    (s.wellBase m r, 256 * s.wellCells m r) ::
      (if s.spillCells m r == 0 then [] else [(s.spillBase m r, 256 * s.spillCells m r), (s.ringBase m r, 4 * s.spillCells m r)])).flatten
  let inWell (a n : Nat) : Bool := match homeOf a with | .well m' o => m' == m && o + n ≤ 0x10000000 | _ => false
  let inHbm (a n : Nat) : Bool := match homeOf a with | .hbm m' o => m' == m && o + n ≤ 0xF80000000 | _ => false
  let shapes := rs.any fun r =>
    s.wellCells m r < 60 || s.wellBase m r % 256 != 0 || !inWell (s.wellBase m r) (256 * s.wellCells m r)
      || 512 < s.cacheShare m r
      || (s.spillCells m r != 0 && (s.spillCells m r % 64 != 0 || s.spillBase m r % 256 != 0 || s.ringBase m r % 256 != 0
        || !inHbm (s.spillBase m r) (256 * s.spillCells m r) || !inHbm (s.ringBase m r) (4 * s.spillCells m r)))
  let owners := s.ownersOn m
  shapes || 512 < (rs.map fun r => s.cacheShare m r).sum
    || (spans.zipIdx.any fun p => ((spans.drop (p.2 + 1)) ++ taken).any fun q => overlaps p.1.1 p.1.2 q.1 q.2)
    || (rs.any fun r => s.wellCells m r <
        ((owners.filter fun o => s.cfgF (ownA m o) 2 6 == r).map fun o => s.cfgF (ownA m o) 32 32).sum)
    || owners.any fun o => s.cfgF (ownA m o + 8) 0 32 < s.cfgF (ownA m o) 32 32

end Sys2Proof.Machine
end

