-- ==== Sys2Proof/Machine/Routing.lean ====
section
/-! DEFINITION. Route assignment and the route ledger (R185 to R212): segment records, entries, and the pure function
from gate records and masks to routes. -/

namespace Sys2Proof.Machine

/-- A segment record (Table 7-3). -/
structure Seg where
  addr : Nat
  raw : Nat
  used : Bool
  top2 : Bool
  spill : Bool
  exitTest : Bool
  masked : Bool
  e : Nat
  cf16 : Nat
  state : Nat
  base : Nat
  t : Nat
  q : Nat
  prev : Nat
  exitBase : Nat
  exitSlice : Nat
  exitStride : Nat
  stepNo : Nat
deriving DecidableEq, Repr

def parseSeg (addr w : Nat) : Seg :=
  ⟨addr, w, bitsAt w 0 1 == 1, bitsAt w 1 1 == 1, bitsAt w 2 1 == 1, bitsAt w 3 1 == 1, bitsAt w 4 1 == 1,
   bitsAt w 8 6 + 1, bitsAt w 16 5, bitsAt w 24 2, bitsAt w 32 21, bitsAt w 64 32, bitsAt w 96 16, bitsAt w 112 16,
   bitsAt w 128 48, bitsAt w 176 16, bitsAt w 192 16, bitsAt w 448 32⟩

def State.seg (s : State) (a : Nat) : Seg := parseSeg a (s.rdN a 64)

/-- Routing width k (R187). -/
def Seg.k (g : Seg) : Nat := if g.top2 then 2 else 1
/-- Local experts of a device. -/
def Seg.e8 (g : Seg) : Nat := g.e / 8
def Seg.nmask (g : Seg) : Nat := if g.masked then (g.t + 63) / 64 else 0
/-- NENT of R204. -/
def Seg.nent (g : Seg) : Nat := g.nmask + g.k * g.t + g.e8
def Seg.routeIx (g : Seg) (t j : Nat) : Nat := g.base + g.nmask + g.k * t + j
def Seg.landIx (g : Seg) (i : Nat) : Nat := g.base + g.nmask + g.k * g.t + i

/-- Q of R186. -/
def quotaOf (cf16 t k e : Nat) : Nat :=
  let d := 256 * e
  if d == 0 then 0 else 16 * (((16 + cf16) * t * k + d - 1) / d)
def Seg.quota (g : Seg) : Nat := quotaOf g.cf16 g.t g.k g.e
/-- C = 8 × Q. -/
def Seg.c (g : Seg) : Nat := 8 * g.q

/-- A USED record breaks Table 7-3 or R186, or its entries leave the range given as first entry and count (R203). -/
def Seg.bad (g : Seg) (range : Nat × Nat) : Bool :=
  bitsAt g.raw 5 3 != 0 || bitsAt g.raw 14 2 != 0 || bitsAt g.raw 21 3 != 0 || bitsAt g.raw 26 6 != 0
    || bitsAt g.raw 53 11 != 0 || bitsAt g.raw 208 48 != 0 || bitsAt g.raw 480 32 != 0
    || (g.spill && g.top2) || g.e % 8 != 0 || 16 < g.cf16 || g.t == 0 || 65536 < g.t || 8192 < g.quota
    || (g.exitTest && !g.masked) || (!g.exitTest && g.exitSlice != 0)
    || g.base < range.1 || range.1 + range.2 < g.base + g.nent

/-- LEDGER_ADDR of the plate (R201). -/
def State.ledgerAddr (s : State) : Nat := match s.mgmt.plate with | some p => p.ledgerAddr | none => 0
/-- A partition's range of entry indices. -/
def State.ledgerRange (s : State) (p : Option Part) : Nat × Nat :=
  match s.mgmt.plate, p with
  | some pl, some q => pl.ledgerRanges.getD q.val (0, 0)
  | _, _ => (0, 0)
def State.entA (s : State) (i : Nat) : Nat := s.ledgerAddr + 16 * i

/-- The ledger's causes of an operation's record: not USED or outside the range (Table 7-9). -/
def State.segCauses (s : State) (p : Option Part) (g : Seg) : List Nat :=
  if !g.used || g.bad (s.ledgerRange p) then [0x10] else []

/-- A gate record (Table 4-4). -/
structure Gate where
  exp0 : Nat
  exp1 : Nat
  pad : Bool
  nanScore : Bool
  w0 : Nat
  w1 : Nat
deriving DecidableEq, Repr

def parseGate (w : Nat) : Gate :=
  ⟨bitsAt w 0 8, bitsAt w 8 8, bitsAt w 16 1 == 1, bitsAt w 17 1 == 1, bitsAt w 32 32, bitsAt w 64 32⟩

/-- The T gate records from address a. -/
def State.gates (s : State) (a t : Nat) : List Gate := (List.range t).map fun k => parseGate (s.rdN (a + 16 * k) 16)

/-- Outcomes of Table 7-4. -/
inductive RouteOut where
  | sent | spilled | dropped | exited | pad
deriving DecidableEq, Repr

def RouteOut.code : RouteOut → Nat
  | .sent => 0 | .spilled => 1 | .dropped => 2 | .exited => 3 | .pad => 4
def RouteOut.admitted : RouteOut → Bool
  | .sent => true
  | .spilled => true
  | _ => false

/-- A decided route. -/
structure Route where
  out : RouteOut
  expert : Nat
  first : Nat
  slot : Nat
deriving DecidableEq, Repr

/-- One choice of a token tried against the quota: `used` counts admitted rows by expert. -/
def tryRoute (q : Nat) (used : List Nat) (g : Gate) (masked : Bool) (e first : Nat) (ok : RouteOut) : List Nat × Route :=
  if g.pad then (used, ⟨.pad, 0, first, 0⟩)
  else if masked then (used, ⟨.exited, 0, first, 0⟩)
  else if used.getD e 0 < q then (used.set e (used.getD e 0 + 1), ⟨ok, e, first, 0⟩)
  else (used, ⟨.dropped, e, first, 0⟩)

/-- pass(0) of R187: every token's first choice, in token order. -/
def pass0 (q : Nat) : List Nat → List (Gate × Bool) → List Nat × List Route
  | used, [] => (used, [])
  | used, (g, m) :: t =>
    let r := tryRoute q used g m g.exp0 g.exp0 .sent
    let rest := pass0 q r.1 t
    (rest.1, r.2 :: rest.2)

/-- pass(1) for top-2: every token's second choice. -/
def pass1Top2 (q : Nat) : List Nat → List (Gate × Bool) → List Nat × List Route
  | used, [] => (used, [])
  | used, (g, m) :: t =>
    let r := tryRoute q used g m g.exp1 g.exp1 .sent
    let rest := pass1Top2 q r.1 t
    (rest.1, r.2 :: rest.2)

/-- pass(1) for SPILL: a dropped first choice tries the runner-up. -/
def pass1Spill (q : Nat) : List Nat → List ((Gate × Bool) × Route) → List Nat × List Route
  | used, [] => (used, [])
  | used, ((g, m), r0) :: t =>
    let r := if r0.out == .dropped then tryRoute q used g m g.exp1 r0.first .spilled else (used, r0)
    let rest := pass1Spill q r.1 t
    (rest.1, r.2 :: rest.2)

/-- number_slots of R187: a row's position among the admitted rows of its expert. -/
def numberSlots : List Nat → List Route → List Nat × List Route
  | n, [] => (n, [])
  | n, r :: t =>
    if r.out.admitted then
      let rest := numberSlots (n.set r.expert (n.getD r.expert 0 + 1)) t
      (rest.1, { r with slot := n.getD r.expert 0 } :: rest.2)
    else
      let rest := numberSlots n t
      (rest.1, r :: rest.2)

/-- assign() of R187: routes in token then choice order, and the admitted rows of each expert. -/
def assignRoutes (top2 spill : Bool) (q e : Nat) (gs : List (Gate × Bool)) : List Nat × List Route :=
  let zero := List.replicate e 0
  let p0 := pass0 q zero gs
  let routes :=
    if top2 then ((p0.2.zip (pass1Top2 q p0.1 gs).2).map fun x => [x.1, x.2]).flatten
    else if spill then (pass1Spill q p0.1 (gs.zip p0.2)).2
    else p0.2
  numberSlots zero routes

/-- ROUTE_INPUT (Table 7-9). -/
def gateBad (g : Gate) (top2 spill : Bool) (e : Nat) : Bool :=
  !g.pad && (e ≤ g.exp0 || ((top2 || spill) && (g.exp1 == 0xFF || e ≤ g.exp1)) || (top2 && g.exp1 == g.exp0))

/-- WEIGHT of R190 for choice j. -/
def routeWeight (g : Gate) (j : Nat) (o : RouteOut) : Nat :=
  match o with
  | .sent => if j == 0 then g.w0 else g.w1
  | .spilled => g.w1
  | _ => 0

/-- A route entry (Table 7-4). EXPERT has no stated value for EXITED and PAD: it is the byte given (log 3). -/
def routeEntry (g : Gate) (r : Route) (j t stepNo free : Nat) : Nat :=
  let ex := match r.out with | .exited => free | .pad => free | _ => r.expert
  1 + 4 * j + 8 * r.out.code + 64 * boolNat g.nanScore + 2 ^ 8 * (ex % 64) + 2 ^ 14 * (r.first % 64)
    + 2 ^ 20 * (r.slot % 8192) + 2 ^ 48 * (stepNo % 65536) + 2 ^ 64 * routeWeight g j r.out + 2 ^ 96 * t

/-- A landing entry (Table 7-5). -/
def landingEntry (expert stepNo : Nat) (counts : List Nat) : Nat :=
  2 + 4 * expert + 2 ^ 8 * (stepNo % 256) + (counts.zipIdx.map fun c => c.1 * 2 ^ (16 + 14 * c.2)).sum

/-- A mask entry (Table 7-6) of 64 tokens. -/
def maskEntry (stepNo : Nat) (bits : List Bool) : Nat :=
  3 + 2 ^ 16 * (stepNo % 65536) + (bits.zipIdx.map fun b => boolNat b.1 * 2 ^ (64 + b.2)).sum

/-- The first rows of the sources (R194). -/
def sourceBases (counts : List Nat) : List Nat := (List.range 8).map fun s => (counts.take s).sum

/-- The address and bit of token t's exit flag (R197). -/
def Seg.exitAt (g : Seg) (t : Nat) : Nat × Nat :=
  (g.exitBase + t / g.exitSlice * g.exitStride + t % g.exitSlice / 8, t % 8)

/-- EXIT_INPUT (Table 7-9): the slices' shape or place. -/
def State.exitBad (s : State) (p : Option Part) (g : Seg) : Bool :=
  g.exitSlice == 0 || g.exitSlice % 8 != 0 || g.exitStride % 64 != 0 || g.exitStride < g.exitSlice / 8 + 64
    || (List.range ((g.t + g.exitSlice - 1) / g.exitSlice)).any fun k =>
      let a := g.exitBase + k * g.exitStride
      let n := g.exitSlice / 8
      (match p with | some q => !s.inPart q.val a n | none => true) || !s.mapped a n || s.poisoned a n

/-- The cumulative mask of R198; a padding token is never set (R106). -/
def State.exitMask (s : State) (g : Seg) (prev : Option Seg) (gates : List Gate) : List Bool :=
  gates.zipIdx.map fun x =>
    let t := x.2
    let old := match prev with
      | some h => h.masked && decide (t < h.t) && bitsAt (s.rdN (s.entA (h.base + t / 64)) 16) (64 + t % 64) 1 == 1
      | none => false
    let new := g.exitTest && bitsAt (s.rd1 (g.exitAt t).1).toNat (g.exitAt t).2 1 == 1
    !x.1.pad && (old || new)

/-- Entries of a segment are in use (R206). -/
def State.ledgerBusy (s : State) (g : Seg) : Bool := s.xch.ledger.any fun r => overlaps r.1 r.2 g.base g.nent

/-- The causes of an assignment (Table 7-9), for the gate records at `ga`. -/
def State.assignCauses (s : State) (p : Option Part) (g : Seg) (prev : Option Seg) (ga : Nat) : List Nat :=
  (if s.ledgerBusy g then [0x11] else [])
    ++ (match prev with
        | some h => (if h.state != 1 then [0x12] else [])
            ++ (if h.masked && (List.range h.nmask).any fun i =>
                  s.poisoned (s.entA (h.base + i)) 16 || bitsAt (s.rdN (s.entA (h.base + i)) 16) 0 2 != 3 then [0x16] else [])
        | none => [])
    ++ (if s.poisoned ga (16 * g.t) || (s.gates ga g.t).any fun x => gateBad x g.top2 g.spill g.e then [0x14] else [])
    ++ (if g.exitTest && s.exitBad p g then [0x15] else [])

/-- The counts that assignment writes into the record, and adds to the group block (R191, R553). -/
def State.segCounts (s : State) (part : Option Part) (g : Seg) (stepNo : Nat) (routes : List Route)
    (gates : List Gate) (mask : List Bool) : State :=
  let n (o : RouteOut) : Nat := (routes.filter fun r => r.out == o).length
  let cnt (l : List Bool) : Nat := (l.filter fun b => b).length
  let live := cnt (gates.map fun x : Gate => !x.pad)
  let s := match part with
    | some p => (((((s.bumpGroup p.val 0 (n .sent)).bumpGroup p.val 1 (n .spilled)).bumpGroup p.val 2 (n .dropped)).bumpGroup
        p.val 3 (cnt mask)).bumpGroup p.val 4 (cnt (gates.map Gate.nanScore))).bumpGroup p.val 5 live
    | none => s
  s.wr (g.addr + 32) (natLe 4 (n .sent) ++ natLe 4 (n .spilled) ++ natLe 4 (n .dropped) ++ natLe 4 (cnt mask)
    ++ natLe 4 (cnt (gates.map Gate.nanScore)) ++ natLe 4 live ++ natLe 4 stepNo)

/-- STATE of a segment record. -/
def State.setSegState (s : State) (a st : Nat) : State := s.wrN a 8 (setBits (s.rdN a 8) 24 2 st)

/-- Route assignment (R187 to R192, R206): entries in use, mask and route entries, counts, FORWARD; the admitted rows of
each expert are returned for the COUNT messages. -/
def State.assign (s : State) (p : Option Part) (g : Seg) (prev : Option Seg) (ga stepNo : Nat) : State × List Nat :=
  let gates := s.gates ga g.t
  let mask := s.exitMask g prev gates
  let r := assignRoutes g.top2 g.spill g.q g.e (gates.zip mask)
  let free := s.drawBytes r.2.length
  let s := { free.2 with xch := { free.2.xch with ledger := (g.base, g.nent) :: free.2.xch.ledger } }
  let s := (List.range g.nmask).foldl (fun s i =>
    s.wrN (s.entA (g.base + i)) 16 (maskEntry stepNo ((mask.drop (64 * i)).take 64))) s
  let s := r.2.zipIdx.foldl (fun s x =>
    let t := x.2 / g.k
    let j := x.2 % g.k
    s.wrN (s.entA (g.routeIx t j)) 16
      (routeEntry (gates.getD t ⟨0, 0, true, false, 0, 0⟩) x.1 j t stepNo (free.1.getD x.2 0).toNat)) s
  let s := s.segCounts p g stepNo r.2 gates mask
  (s.setSegState g.addr 1, r.1)

/-- The replay checks of an entry (R207, R211): kind, poison and, with a step, its stamp. -/
def State.entryCause (s : State) (i kind : Nat) (stamp : Option Nat) : List Nat :=
  let a := s.entA i
  let w := s.rdN a 16
  if s.poisoned a 16 || bitsAt w 0 2 != kind then [0x16]
  else match stamp with
    | some st =>
      if kind == 1 && bitsAt w 48 16 != st % 65536 then [0x13]
      else if kind == 2 && bitsAt w 8 8 != st % 256 then [0x13]
      else []
    | none => []

end Sys2Proof.Machine
end

