-- ==== Sys2Proof/Machine/Exchange.lean ====
section
/-! DEFINITION. The exchange engines (R213 to R245): operations, messages, landing, return, stash, visits and close. -/

namespace Sys2Proof.Machine

def xeIx (d : Nat) : Nat := 512 + 2 * d
/-- Exchange queue q of die d (Table 8-2). -/
def xqA (d q : Nat) : Nat := dieCfg d + 0x20000 + 256 * q
def State.xqEnabled (s : State) (d q : Nat) : Bool := s.cfgF (xqA d q) 0 1 == 1
def State.xqCredits (s : State) (d q : Nat) : Nat := s.cfgF (xqA d q) 8 8
def State.xqNode (s : State) (d q slot : Nat) : Nat := s.cfgF (xqA d q + 64 + 8 * slot) 0 14
def State.xqDie (s : State) (d q slot : Nat) : Nat := s.cfgF (xqA d q + 64 + 8 * slot) 14 5
def State.xqQueue (s : State) (d q slot : Nat) : Nat := s.cfgF (xqA d q + 64 + 8 * slot) 19 8

-- Fields of an XE instruction (Table 5-13)

def xRoutes (w : IWord) : Nat := fld w 128 14
def xSrc (w : IWord) : Nat := fld w 142 14
def xDst (w : IWord) : Nat := fld w 156 14
def xQueue (w : IWord) : Nat := fld w 170 8
def xOwner (w : IWord) : Nat := fld w 178 12
def xLayer (w : IWord) : Nat := fld w 190 8
def xMb (w : IWord) : Nat := fld w 198 8
def xDir (w : IWord) : Nat := fld w 206 1
def nullH (h : Nat) : Bool := h % 4096 == 0

-- The operations held

def State.xop (s : State) (id : Nat) : Option XOp := s.xch.ops.find? fun o => o.id == id
def State.setXop (s : State) (o : XOp) : State :=
  { s with xch := { s.xch with ops := s.xch.ops.map fun x => if x.id == o.id then o else x } }
def State.dropXop (s : State) (id : Nat) : State :=
  { s with xch := { s.xch with ops := s.xch.ops.filter fun x => x.id != id } }

/-- An operation ends in a fault (R245): XE_FAULT with its instruction, and no further message. -/
def State.xFail (s : State) (o : XOp) (cause : Nat) (iso : Bool) : State :=
  let i := xeIx o.die
  let s := s.recordFault i cause o.pc
  let s := s.raise { s.engErr i (if cause == 0x33 then 1 else 2) (0x100 + cause) with
    isolation := iso, addr := o.pc, detail := s.cfgW (faultReg i) }
  let s := s.setStream i { s.stream i with st := .faulted, lock := 0, lockPast := false, lockHeld := false, granted := false, queue := false }
  if o.unacked.isEmpty then s.dropXop o.id else s.setXop { o with failed := true, todo := [] }

/-- An access of an accepted operation ended in error. -/
def State.xAccess (s : State) (o : XOp) (addr : Nat) (iso : Bool) : State :=
  (s.accessError (xeIx o.die) addr iso).xFail o 0x2C false

-- Closing (R206, R232)

/-- Every landing chain of a segment that is still as granted is released; a pool error stops there. -/
def releaseSeg (p : Option Part) : List (Nat × Nat × Nat) → State → Except (Nat × Bool × State) State
  | [], s => .ok s
  | (_, head, stamp) :: t, s =>
    let h := s.rdN head 16
    if bitsAt h 48 1 == 1 && bitsAt h 82 46 == stamp then
      match s.release p head true with
      | .done s => releaseSeg p t s
      | .bad c iso s => .error (c, iso, s)
    else releaseSeg p t s

/-- The segment's entries are free, its cells released, its STATE FREE; XCLOSE completes. -/
def State.closeSeg (s : State) (o : XOp) : State :=
  let g := s.seg o.seg
  let p := s.partOfDie o.die
  let mine := s.xch.cells.filter fun c => c.1 == o.seg
  match releaseSeg p mine s with
  | .error (c, iso, s) => s.xFail o c iso
  | .ok s =>
    let s := { s with xch := { s.xch with
      cells := s.xch.cells.filter fun c => c.1 != o.seg
      slices := s.xch.slices.filter fun x => x.1 != o.seg
      ledger := s.xch.ledger.filter fun r => !overlaps r.1 r.2 g.base g.nent } }
    ((s.setSegState o.seg 0).dropXop o.id).sendSigs (xeIx o.die) o.word

/-- A close of a segment runs once no other operation on it is left. -/
def State.closeCheck (s : State) (seg : Nat) : State :=
  if s.xch.ops.any fun o => o.seg == seg && o.role != .close && !o.failed then s
  else match s.xch.ops.find? fun o => o.seg == seg && o.role == .close with
    | some o => s.closeSeg o
    | none => s

/-- An operation completes: its signals go (Table 5-7). -/
def State.xDone (s : State) (o : XOp) : State := ((s.dropXop o.id).sendSigs (xeIx o.die) o.word).closeCheck o.seg

/-- A failed operation also ends what a close waits for. -/
def State.xEnd (s : State) (o : XOp) (cause : Nat) (iso : Bool) : State := (s.xFail o cause iso).closeCheck o.seg
def State.xEndAccess (s : State) (o : XOp) (addr : Nat) (iso : Bool) : State := (s.xAccess o addr iso).closeCheck o.seg

-- Sending (R216, R218, R220 to R224)

/-- The message an operation sends (Table 8-3). -/
def State.xMsg (s : State) (o : XOp) (x : XOut) : Msg :=
  let w := o.word
  let p := s.partOfDie o.die
  let body := if x.mtype == 2 then x.body else s.rd x.addr x.len
  let h := x.mtype + 16 * o.dir + 32 * s.mgmt.slot + 2 ^ 8 * xLayer w + 2 ^ 16 * xMb w + 2 ^ 24 * (s.stepOf p % 65536)
    + 2 ^ 40 * x.expert + 2 ^ 46 * x.choice + 2 ^ 48 * x.q + 2 ^ 64 * x.token
    + 2 ^ 80 * s.xqQueue o.die (xQueue w) x.slot + 2 ^ 88 * x.fmt + 2 ^ 96 * xOwner w + 2 ^ 108 * x.attempt
    + 2 ^ 128 * body.length
  msgSealed ⟨BitVec.ofNat 256 h, body, if x.mtype == 2 then 0 else s.pmaskOf x.addr x.len, 63⟩

/-- Messages of a queue to a slot that await their answer (R218). -/
def State.creditsOut (s : State) (d q slot : Nat) : Nat :=
  ((s.xch.ops.filter fun o => o.die == d && xQueue o.word == q).map fun o =>
    (o.unacked.filter fun x => x.mtype != 2 && x.slot == slot).length).sum

/-- One attempt to send message x of operation o. -/
inductive Sending where
  | sent (s : State)
  | wait (s : State)
  | bad (cause addr : Nat) (isolation : Bool)

def State.trySend (s : State) (o : XOp) (x : XOut) : Sending :=
  let q := xQueue o.word
  let p := s.partOfDie o.die
  let n := s.xqNode o.die q x.slot
  if x.mtype != 2 && s.xqCredits o.die q ≤ s.creditsOut o.die q x.slot then .wait s
  else match s.wayTo p n with
    | .wait => .wait s
    | .bad c => .bad c 0 false
    | .go =>
      match if x.mtype == 2 then Reach.ok else s.reach p [(x.addr, x.len)] with
      | .bad a iso => .bad 0x2C a iso
      | .sleeping k => .wait (s.requestWake k)
      | .ok =>
        if s.noPort n then .wait (s.suspect n)
        else
        let m := s.xMsg o x
        let r := s.msgPort n
        let m := { m with port := r.1 }
        .sent (((r.2.countTx n m.port.val (32 + m.payload.length)).emit (.xmsg n (some (s.xqDie o.die q x.slot)) m)).traceMsg (xeIx o.die) false false n m)

/-- Sends what can go of an operation's list, in order; a message without credit is passed by those behind it. -/
def pumpList (id : Nat) : List XOut → List XOut → State → State
  | [], kept, s =>
    match s.xop id with
    | some o => s.setXop { o with todo := kept.reverse }
    | none => s
  | x :: t, kept, s =>
    match s.xop id with
    | none => s
    | some o =>
      match s.trySend o x with
      | .wait s => pumpList id t (x :: kept) s
      | .sent s => pumpList id t kept (s.setXop { o with unacked := o.unacked ++ [x] })
      | .bad c a iso => if a != 0 then s.xEndAccess o a iso else s.xEnd o c iso

/-- An operation is complete when nothing is left to send or to be answered (Table 8-7). -/
def State.sendCheck (s : State) (id : Nat) : State :=
  match s.xop id with
  | some o => if (o.role == .send || o.role == .back) && !o.failed && o.todo.isEmpty && o.unacked.isEmpty then s.xDone o else s
  | none => s

def State.pump (s : State) (id : Nat) : State :=
  match s.xop id with
  | some o => if o.failed then s else (pumpList id o.todo [] s).sendCheck id
  | none => s

/-- Every operation of a die sends what it now can. -/
def State.pumpDie (s : State) (d : Nat) : State :=
  (s.xch.ops.filter fun o => o.die == d).foldl (fun s o => s.pump o.id) s

/-- An answer: header bytes 0 to 15 of the message, MTYPE and ORIG replaced, no payload (R221). -/
def State.xAnswer (s : State) (n : Nat) (m : Msg) (mtype : Nat) : State :=
  let h := setBits (setBits (m.hdr.toNat % 2 ^ 128) 0 4 mtype) 92 4 (fld m.hdr 0 4)
  let r := s.msgPort n
  r.2.emit (.xmsg n none { msgSealed ⟨BitVec.ofNat 256 h, [], 0, 63⟩ with port := r.1 })

/-- The ACK of a message, which counts it as ingress where it came from another device (R427). -/
def State.xAck (s : State) (o : XOp) (n : Nat) (m : Msg) : State :=
  let s := if n == s.node then s
    else s.ingress (s.partOfDie o.die) .x ((msgHdrBytes m).take 12) (crc32c m.payload).toNat
  s.xAnswer n m 4

-- Landing (R227 to R231)

/-- Header word of a landing area (Table 8-4). -/
def landHeader (live done seen expert step16 landed : Nat) (counts : List Nat) : Nat :=
  live + 2 ^ 32 * done + 2 ^ 34 * seen + 2 ^ 42 * expert + 2 ^ 48 * (step16 % 65536) + 2 ^ 64 * landed
    + (counts.zipIdx.map fun c => c.1 * 2 ^ (96 + 14 * c.2)).sum

def XOp.area (o : XOp) (k : Nat) : Nat := o.base + k * o.stride
def headCounts (h : Nat) : List Nat := (List.range 8).map fun s => bitsAt h (96 + 14 * s) 14
def headSeen (h : Nat) : Nat := bitsAt h 34 8
def headLanded (h : Nat) : Nat := bitsAt h 64 32

/-- First expert of the device (R185). -/
def State.expert0 (s : State) (g : Seg) : Nat := s.mgmt.slot * g.e8

/-- The area of a local expert, as its index among the operation's areas. -/
def XOp.areaOf (o : XOp) (expert e0 : Nat) : Option Nat :=
  if expert < e0 + o.row0 then none
  else if expert - e0 - o.row0 < o.rows then some (expert - e0 - o.row0) else none

/-- The payload into a chain's cells, in order (R228). -/
def fillChain : Nat → State → Nat → List Byte → Nat → Nat → State
  | 0, s, _, _, _, _ => s
  | f + 1, s, a, bs, o, mask =>
    let h := s.rdN a 16
    let len := bitsAt h 56 8
    let s := s.wrPay (a + 16) (bs.take len) o mask
    if bitsAt h 49 1 == 1 then s else fillChain f s (bitsAt h 0 48) (bs.drop len) (o + len) mask

/-- A row has its cells: payload, staging entry, LANDED, ACK (R228 steps 2 to 5). -/
def State.landed (s : State) (o : XOp) (k : Nat) (src : Nat) (m : Msg) (head : Nat) : State :=
  let g := s.seg o.seg
  let sl := fld m.hdr 5 3
  let q := fld m.hdr 48 13
  let s := fillChain 4400 s head m.payload 0 m.pmask
  let s := { s with xch := { s.xch with cells := s.xch.cells ++ [(o.seg, head, bitsAt (s.rdN head 16) 82 46)] } }
  let s := s.wrN (o.area k + 64 + 16 * (sl * g.q + q)) 16
    (head + 2 ^ 48 + 2 ^ 50 * sl + 2 ^ 53 * fld m.hdr 46 1 + 2 ^ 64 * fld m.hdr 64 16)
  let s := s.wrN (o.area k + 8) 4 (s.rdN (o.area k + 8) 4 + 1)
  s.xAck o src m

/-- A landing row waits for the head the pool is asked for. -/
def State.landWait (s : State) (o o' : XOp) (src : Nat) (m : Msg) (i own md : Nat) : Option State :=
  let id := s.xch.nextId
  let s1 : State := { s with xch := { s.xch with
    nextId := id + 1, waits := s.xch.waits ++ [LandWait.mk id o.id src m] } }
  (s1.setXop o').queueReq md (PoolReq.mk (xeIx o.die) own m.payload.length i (id + 1))

/-- The number of a staged row: its area, its slot and its row. -/
def landMark (k sl q : Nat) : Nat := (k * 8 + sl) * 8192 + q

/-- A ROW at its landing receive (R228, R229); none where its request cannot even be queued. -/
def State.landRow (s : State) (o : XOp) (src : Nat) (m : Msg) : Option State :=
  let g := s.seg o.seg
  let p := s.partOfDie o.die
  let sl := fld m.hdr 5 3
  let q := fld m.hdr 48 13
  match o.areaOf (fld m.hdr 40 6) (s.expert0 g) with
  | none => some (s.xEnd o 0x23 false)
  | some k =>
    if g.q ≤ q then some (s.xEnd o 0x23 false)
    else if o.dir == 1 && (headCounts (s.rdN (o.area k) 64)).getD sl 0 ≤ q then some (s.xEnd o 0x25 false)
    else
      let mark := landMark k sl q
      if o.staged.contains mark then some (s.xEnd o 0x24 false)
      else
        let i := o.row0 + k
        let own := fld m.hdr 96 12
        match s.homeDie o.die own i with
        | none => some (s.xEnd o 0x30 false)
        | some md =>
          let o' := { o with staged := nins o.staged mark }
          match s.allocAt p md own m.payload.length with
          | .bad c iso => some (s.xEnd o c iso)
          | .head a s => some ((s.setXop o').landed o' k src m a)
          | .wait => s.landWait o o' src m i own md

/-- A COUNT at its landing receive (R222, R229). -/
def State.landCount (s : State) (o : XOp) (src : Nat) (m : Msg) : State :=
  let g := s.seg o.seg
  let v := leNat (m.payload.take 16)
  let sl := fld m.hdr 5 3
  let counts := (List.range g.e8).map fun i => bitsAt v (14 * i) 14
  let seen := (List.range o.rows).any fun k => bitsAt (headSeen (s.rdN (o.area k) 64)) sl 1 == 1
  if o.dir == 1 || bitsAt v 112 16 != g.q || counts.any (fun c => g.q < c) || seen then s.xEnd o 0x25 false
  else
    let s := (List.range o.rows).foldl (fun s k =>
      let h := s.rdN (o.area k) 64
      s.wrN (o.area k) 64 (setBits (setBits h (34 + sl) 1 1) (96 + 14 * sl) 14 (counts.getD (o.row0 + k) 0))) s
    s.xAck o src m

-- Return (R234)

/-- The return receive has every route's row: zero rows, weights, done. -/
def State.retCheck (s : State) (o : XOp) : State :=
  let g := s.seg o.seg
  let n := g.k * g.t
  let routes := (List.range n).map fun r => s.rdN (s.entA (g.routeIx (r / g.k) (r % g.k))) 16
  let want := (routes.filter fun e => bitsAt e 3 3 < 2).length
  if o.staged.length < want then s
  else
    let f := (fmtOf o.fmt).getD ⟨.raw, 0, .none, false⟩
    let s := (below n fun r => 2 ≤ bitsAt (routes.getD r 0) 3 3).foldl (fun s r =>
      s.wr (o.base + r * o.stride) (List.replicate (f.rowBytes o.cols) 0)) s
    let s := if o.dir == 1 then s else
      routes.zipIdx.foldl (fun s e => s.wrN (o.wbase + e.2 / g.k * o.wstride + 4 * (e.2 % g.k)) 4 (bitsAt e.1 64 32)) s
    s.xDone o

/-- A RETURN at its receive (R234). -/
def State.placeReturn (s : State) (o : XOp) (src : Nat) (m : Msg) : State :=
  let g := s.seg o.seg
  let t := fld m.hdr 64 16
  let j := fld m.hdr 46 1
  let r := g.k * t + j
  let e := s.rdN (s.entA (g.routeIx t j)) 16
  let f := (fmtOf o.fmt).getD ⟨.raw, 0, .none, false⟩
  if g.t ≤ t || g.k ≤ j || 2 ≤ bitsAt e 3 3 || bitsAt e 8 6 != fld m.hdr 40 6 || bitsAt e 20 13 != fld m.hdr 48 13
      || o.staged.contains r then s.xEnd o 0x27 false
  else if fld m.hdr 88 4 != o.fmt || m.payload.length != f.rowBytes o.cols then s.xEnd o 0x21 false
  else
    let p := s.partOfDie o.die
    match s.reach p [(o.base + r * o.stride, m.payload.length)] with
    | .bad a iso => s.xEndAccess o a iso
    | _ =>
      let s := s.wrPay (o.base + r * o.stride) m.payload 0 m.pmask
      let o := { o with staged := nins o.staged r }
      ((s.setXop o).xAck o src m).retCheck o

-- Receiving (R219, R223, R224)

/-- The segment record that a message names, where it names one. -/
def State.msgSeg (s : State) (d : Nat) (m : Msg) : Option Nat :=
  let b := s.cfgF (dieCfg d + 0x120) 0 48
  let nmb := s.cfgF (dieCfg d + 0x120) 48 8
  let layer := fld m.hdr 8 8
  let mb := fld m.hdr 16 8
  if nmb ≤ mb then none else some (b + 64 * (layer * nmb + mb))

/-- The open receive of die d for a message. -/
def State.receiveOf (s : State) (d seg : Nat) (m : Msg) : Option XOp :=
  let role := if fld m.hdr 0 4 == 3 then XRole.ret else XRole.landing
  s.xch.ops.find? fun o => o.die == d && o.seg == seg && o.dir == fld m.hdr 4 1 && o.role == role

/-- REJECT of R224. -/
def State.rejects (s : State) (d : Nat) (m : Msg) : Bool :=
  fld m.hdr 0 4 != 2 && (match s.msgSeg d m with
    | none => true
    | some a => (s.seg a).state == 0 || !(s.seg a).used
        || fld m.hdr 24 16 != s.stepOf (s.partOfDie d) % 65536 || !s.xqEnabled d (fld m.hdr 80 8))

/-- Bytes of messages that wait in a die's exchange receive buffer. -/
def State.bufBytes (s : State) (d : Nat) : Nat :=
  ((s.xch.buf.filter fun b => b.die == d).map fun b => 32 + b.m.payload.length).sum

/-- A ROW, COUNT or RETURN that passed its checks, at its receive or into the buffer; none where the buffer is full. -/
def State.xTake (s : State) (d src : Nat) (m : Msg) : Option State :=
  match (s.msgSeg d m).bind fun a => s.receiveOf d a m with
  | none =>
    if 0x40000 < s.bufBytes d + 32 + m.payload.length then none
    else some { s with xch := { s.xch with buf := s.xch.buf ++ [⟨d, src, m⟩] } }
  | some o =>
    if o.failed then some s
    else match fld m.hdr 0 4 with
      | 1 => s.landRow o src m
      | 2 => some (s.landCount o src m)
      | _ => some (s.placeReturn o src m)

/-- The die of an exchange engine can act. -/
def State.xeAwake (s : State) (d : Nat) : Bool :=
  d < s.nDies && s.power (s.dieKey d) == .on && !s.frozenDie d

/-- A ROW, COUNT or RETURN arrives at die d. -/
def xArrive (mtype src d : Nat) (m : Msg) (s : State) : Option State :=
  let p := s.partOfDie d
  if fld m.hdr 0 4 != mtype || !s.xeAwake d then none
  else
    let s := s.traceMsg (xeIx d) true false src m
    if !msgCrcOk m then
      let s := s.raise { mkErr 0 0 (s.physDie d) 0xFF 0x0305 with
        part := p, logical := BitVec.ofNat 16 d, detail := BitVec.ofNat 64 (m.port.val + 2 ^ 16 * fld m.hdr 80 8) }
      some (if mtype == 2 then s else s.xAnswer src m 5)
    else if src != s.node && (!s.ctxValid src || s.ctxState src == 2) then some (s.isolationDrop src 0 (s.physDie d))
    else
    let s := s.countRx src m.port.val (32 + m.payload.length)
    if !s.nodeIn p src then some ((s.nodeBreach p d src).xAnswer src m 6)
    else if s.rejects d m then some (s.xAnswer src m 6)
    else s.xTake d src m

def execXmsgRow (src : Node) (d : CDie) (m : Msg) (s : State) : Host.Outcome State Fault Refusal :=
  attempt s (xArrive 1 src.val d.val m s)
def execXmsgCount (src : Node) (d : CDie) (m : Msg) (s : State) : Host.Outcome State Fault Refusal :=
  attempt s (xArrive 2 src.val d.val m s)
def execXmsgReturn (src : Node) (d : CDie) (m : Msg) (s : State) : Host.Outcome State Fault Refusal :=
  attempt s (xArrive 3 src.val d.val m s)

/-- An answer's bytes 0 to 15 are those of the message sent (R221). -/
def State.answers (s : State) (o : XOp) (x : XOut) (m : Msg) : Bool :=
  let sent := (s.xMsg o x).hdr.toNat % 2 ^ 128
  m.hdr.toNat % 2 ^ 128 == setBits (setBits sent 0 4 (fld m.hdr 0 4)) 92 4 x.mtype

/-- The operation and message of die d that an answer from node n concerns. -/
def State.answered (s : State) (d n : Nat) (m : Msg) : Option (XOp × XOut) :=
  s.xch.ops.findSome? fun o =>
    if o.die != d then none
    else (o.unacked.find? fun x => s.xqNode d (xQueue o.word) x.slot == n && s.answers o x m).map fun x => (o, x)

/-- An ACK, NACK or REJECT returns its credit (R218) and acts on the operation. -/
def xAnswerArrive (mtype src d : Nat) (m : Msg) (s : State) : Option State :=
  if fld m.hdr 0 4 != mtype || !s.xeAwake d || !msgCrcOk m then none
  else match s.answered d src m with
    | none => none
    | some (o, x) =>
      let s := (s.heard src).traceMsg (xeIx d) true false src m
      let o := { o with unacked := o.unacked.erase x }
      let s := s.setXop o
      if o.failed then some ((if o.unacked.isEmpty then s.dropXop o.id else s).pumpDie d)
      else if mtype == 4 then some ((s.sendCheck o.id).pumpDie d)
      else if mtype == 6 then some ((s.xEnd o 0x28 false).pumpDie d)
      else if x.attempt == 3 then some ((s.xEnd o 0x26 false).pumpDie d)
      else some ((s.setXop { o with todo := { x with attempt := x.attempt + 1 } :: o.todo }).pumpDie d)

def execXmsgAck (src : Node) (d : CDie) (m : Msg) (s : State) : Host.Outcome State Fault Refusal :=
  attempt s (xAnswerArrive 4 src.val d.val m s)
def execXmsgNack (src : Node) (d : CDie) (m : Msg) (s : State) : Host.Outcome State Fault Refusal :=
  attempt s (xAnswerArrive 5 src.val d.val m s)
def execXmsgReject (src : Node) (d : CDie) (m : Msg) (s : State) : Host.Outcome State Fault Refusal :=
  attempt s (xAnswerArrive 6 src.val d.val m s)

-- Waiting landings (R228, R254)

/-- A chain granted to a landing that waited. -/
def State.waitLanded (s : State) (id head : Nat) : State :=
  match s.xch.waits.find? fun w => w.id == id with
  | none => s
  | some w =>
    let s := { s with xch := { s.xch with waits := s.xch.waits.filter fun x => x.id != id } }
    match s.xop w.op with
    | none => s
    | some o =>
      match o.areaOf (fld w.m.hdr 40 6) (s.expert0 (s.seg o.seg)) with
      | some k => if o.failed then s else s.landed o k w.src w.m head
      | none => s

-- Completion of an expert (R230, R231, R238 to R241)

/-- The stash record of layer l and local expert i (R238). -/
def State.stashA (s : State) (d l i : Nat) : Nat := s.cfgF (dieCfg d + 0x130) 0 48 + 256 * (8 * l + i)

/-- One operand of a stash record (R239): a cause, or the state after its update. -/
def State.stashOperand (s : State) (d ra o mb nmb c live : Nat) : Except Nat State :=
  let a := ra + 64 + 48 * o
  let e := s.rdN a 48
  let fill := bitsAt e 160 32
  if mb != bitsAt e 192 8 then .error 0x2A
  else if s.rdN (ra + 4) 4 < fill + c then .error 0x2B
  else
    let view := bitsAt e 16 14
    let core := 4 * d + view / 4096
    let h := view % 4096
    let s := s.setDescWord core h 0 (setFld (s.cfgW (descAddr core h)) 16 48 (bitsAt e 64 48 + fill * bitsAt e 128 32))
    let s := s.setDescWord core h 5 (BitVec.ofNat 64 (mb * c))
    let s := s.setDescWord core h 2 (setFld (s.cfgW (descAddr core h + 16)) 32 32 live)
    let s := (s.wrN (a + 20) 4 (fill + live)).wrN (a + 24) 1 (mb + 1)
    let tot := bitsAt e 30 14
    if mb + 1 == nmb && tot % 4096 != 0 then
      let tc := 4 * d + tot / 4096
      .ok (s.setDescWord tc (tot % 4096) 2 (setFld (s.cfgW (descAddr tc (tot % 4096) + 16)) 32 32 (fill + live)))
    else .ok s

def stashOperands (d ra mb nmb c live : Nat) : List Nat → State → Except (Nat × State) State
  | [], s => .ok s
  | o :: t, s => match s.stashOperand d ra o mb nmb c live with
    | .ok s => stashOperands d ra mb nmb c live t s
    | .error x => .error (x, s)

/-- The stash updates of a landing (R239): the operands whose ODIR is its direction, with FILL and NEXT_MB of every operand
0 where the record is of another step. -/
def State.stashUpdate (s : State) (o : XOp) (i live : Nat) : Except (Nat × State) State :=
  let g := s.seg o.seg
  let ra := s.stashA o.die (xLayer o.word) i
  let stepNo := s.stepOf (s.partOfDie o.die)
  let ops := below 4 fun k =>
    bitsAt (s.rdN (ra + 64 + 48 * k) 2) 0 1 == 1 && bitsAt (s.rdN (ra + 64 + 48 * k) 2) 1 1 == o.dir
  if bitsAt (s.rd1 ra).toNat 0 1 == 0 || ops.isEmpty then .ok s
  else
    let s := if s.rdN (ra + 8) 4 == stepNo then s else
      (List.range 4).foldl (fun s k => (s.wrN (ra + 64 + 48 * k + 20) 4 0).wrN (ra + 64 + 48 * k + 24) 1 0)
        (s.wrN (ra + 8) 4 stepNo)
    stashOperands o.die ra (xMb o.word) (s.cfgF (dieCfg o.die + 0x120) 48 8) g.c live ops s

/-- The visit bit of local expert i (R241). -/
def State.visit (s : State) (d l i stepNo : Nat) : State :=
  let a := s.cfgF (dieCfg d + 0x128) 0 48 + 16 * l
  let cur := s.rdN a 16
  let old := if bitsAt cur 32 32 == stepNo then bitsAt cur 0 8 else 0
  s.wrN a 16 (setBits old i 1 1 + 2 ^ 32 * stepNo)

/-- The row map of an area from its staging table (R230 step 2). -/
def State.writeRowMap (s : State) (a q : Nat) (counts : List Nat) : State :=
  let live := counts.sum
  let bases := sourceBases counts
  let map := a + 64 + 128 * q
  let s := (List.range 8).foldl (fun s sl =>
    (List.range (counts.getD sl 0)).foldl (fun s k =>
      s.wr (map + 16 * (bases.getD sl 0 + k)) (s.rd (a + 64 + 16 * (sl * q + k)) 16)) s) s
  (List.range (8 * q - live)).foldl (fun s k =>
    s.wrN (map + 16 * (live + k)) 16 (if live + k < 16 * ((live + 15) / 16) then 2 ^ 49 else 0)) s

/-- LANDING_COMPLETE: area k of operation `id` is complete (R230, R231). -/
def landComplete (id k : Nat) (s : State) : Option State :=
  match s.xop id with
  | none => none
  | some o =>
    if o.role != .landing || o.failed || o.rows ≤ k || o.done.contains k || !s.xeAwake o.die then none
    else
      let g := s.seg o.seg
      let a := o.area k
      let h := s.rdN a 64
      let counts := headCounts h
      let live := counts.sum
      if headSeen h != 0xFF || headLanded h != live then none
      else
        let i := o.row0 + k
        let ex := s.expert0 g + i
        let stepNo := s.stepOf (s.partOfDie o.die)
        let s := if o.dir == 1 then s else s.wrN (s.entA (g.landIx i)) 16 (landingEntry ex stepNo counts)
        let s := s.writeRowMap a g.q counts
        match s.stashUpdate o i live with
        | .error (c, s) => some (s.xEnd o c false)
        | .ok s =>
          let s := if o.dir == 1 || live == 0 then s else s.visit o.die (xLayer o.word) i stepNo
          let s := s.wrN a 64 (landHeader live 1 0xFF ex stepNo live counts)
          let o := { o with done := nins o.done k }
          let s := s.setXop o
          some (if o.done.length == o.rows then s.xDone o else s)

def execLandingComplete (op : Nat) (i : Fin 8) (s : State) : Host.Outcome State Fault Refusal :=
  attempt s (landComplete op i.val s)

-- Acceptance (R213 to R217, Table 8-1)

/-- BAD_HANDLE of fields that are not null but leave the table with X[HX] added. -/
def xHandles (i : Nat) (t : StreamSt) (w : IWord) : List Nat :=
  if [xRoutes w, xSrc w, xDst w].any fun h => !nullH h && (handle14 i t w h).isNone then [0x81] else []

/-- XCH_ROLE by the null handles of Table 8-1. -/
def roleCause (role : XRole) (w : IWord) : List Nat :=
  let r := nullH (xRoutes w)
  let a := nullH (xSrc w)
  let d := nullH (xDst w)
  let ok := match role with
    | .send => !r && !a && d
    | .landing => r && a && !d
    | .ret => !r && !d && (if xDir w == 0 then !a else a)
    | .back => !r && !a && d
    | .close => r && a && d && xDir w == 1
  if ok then [] else [0x20]

/-- States that allow an operation (Table 7-7). -/
def segAllows (role : XRole) (dir state : Nat) : Bool :=
  match role, dir, state with
  | .send, 0, 0 => true
  | .send, 0, 1 => true
  | .landing, 0, 1 => true
  | .ret, 0, 1 => true
  | .back, 0, 1 => true
  | .send, 1, 1 => true
  | .landing, 1, 1 => true
  | .ret, 1, 1 => true
  | .close, 1, 1 => true
  | .send, 1, 2 => true
  | .landing, 1, 2 => true
  | .ret, 1, 2 => true
  | .back, 1, 2 => true
  | .close, 1, 2 => true
  | _, _, _ => false

/-- The core and descriptor of a handle field. -/
def State.xDesc (s : State) (i : Nat) (t : StreamSt) (w : IWord) (h : Nat) : Nat × Nat × Desc :=
  let x := (handle14 i t w h).getD (4 * ixDie i, 0)
  (x.1, x.2, s.desc x.1 x.2)

def State.xDescCauses (s : State) (i : Nat) (x : Nat × Nat × Desc) (raw : Bool) : List Nat :=
  s.descCauses i x.1 x.2.1 x.2.2 false true ++ (if raw && x.2.2.fmt != 0 then [0x82] else [])

/-- The handle gives a readable descriptor, so that its fields are judged (log 62). -/
def State.xGiven (s : State) (i : Nat) (x : Nat × Nat × Desc) : Bool := (s.unread i x.1 [x.2.1]).isEmpty

/-- INVALID_DESCRIPTOR and LIVE_RANGE of a route slice. Its BASE is a ledger entry (R214), and the ledger lies in wells
outside every partition's share (Table 16-16), so an entry of the partition's own entries (R201) counts as one of its
ranges, and BASE is not held to the 64 B of Table 5-14 (log 63). -/
def State.xSliceDesc (s : State) (i : Nat) (x : Nat × Nat × Desc) : List Nat :=
  let d := x.2.2
  let r := s.ledgerRange (s.partOf i)
  let mine := s.entA r.1 ≤ d.base && d.base < s.entA (r.1 + r.2)
  let ok := s.descOk (if mine then none else s.partOf i) d && !d.panel && d.fmt == 0
  (if s.eng.badDescs.contains (4096 * x.1 + x.2.1) then [accessCause i] else [])
    ++ (if ok then [] else [0x82]) ++ (if d.extent < d.live then [0x83] else [])

/-- XCH_SLICE (R214). -/
def State.sliceCause (s : State) (g : Seg) (dir : Nat) (d : Desc) (whole : Bool) : List Nat :=
  let seen := s.xch.slices.any fun x => x.1 == g.addr && x.2.1 == dir && overlaps x.2.2.1 x.2.2.2 d.lrow0 d.rows
  if d.base != s.entA (g.routeIx d.lrow0 0) || d.rows == 0 || g.t < d.lrow0 + d.rows
      || (whole && (d.lrow0 != 0 || d.rows != g.t)) || (!whole && seen) then [0x29] else []

/-- Causes of the entries of tokens lo to lo + n − 1. -/
def State.routeCauses (s : State) (g : Seg) (lo n : Nat) (stamp : Option Nat) : List Nat :=
  ((List.range (g.k * n)).map fun r => s.entryCause (g.routeIx (lo + r / g.k) (r % g.k)) 1 stamp).flatten

/-- ROW messages of a send, in order (R226, R236). -/
def State.rowMsgs (s : State) (g : Seg) (dir lo n : Nat) (src : Desc) : List XOut :=
  let len := src.format.rowBytes src.cols
  (List.range (g.k * n)).filterMap fun r =>
    let t := lo + r / g.k
    let j := r % g.k
    let e := s.rdN (s.entA (g.routeIx t j)) 16
    if bitsAt e 3 3 < 2 then
      let row := if dir == 1 then g.k * t + j else t
      let ex := bitsAt e 8 6
      some ⟨ex / max g.e8 1, 1, ex, j, bitsAt e 20 13, t, src.base + row * src.stride, len, src.fmt, 0, []⟩
    else none

/-- COUNT messages of an assignment, one per slot (R222, R225). -/
def countMsgs (g : Seg) (counts : List Nat) : List XOut :=
  (List.range 8).map fun d =>
    let v := (List.range g.e8).foldl (fun a i => a + counts.getD (d * g.e8 + i) 0 * 2 ^ (14 * i)) (g.q * 2 ^ 112)
    ⟨d, 2, 0, 0, 0, 0, 0, 16, 0, 0, natLe 16 v⟩

/-- Insertion by token, then choice, then row address (R216). -/
def insMsg (x : XOut) : List XOut → List XOut
  | [] => [x]
  | y :: t =>
    let lt := x.token < y.token || (x.token == y.token && (x.choice < y.choice || (x.choice == y.choice && x.addr < y.addr)))
    if lt then x :: y :: t else y :: insMsg x t

/-- RETURN messages of an XRETURN over the areas that ROUTES names (R233). -/
def State.returnMsgs (s : State) (g : Seg) (areas src : Desc) : List XOut :=
  let len := src.format.rowBytes src.cols
  let all := ((List.range areas.rows).map fun i =>
    let a := areas.base + i * areas.stride
    let h := s.rdN a 64
    let bases := sourceBases (headCounts h)
    (List.range g.c).filterMap fun r =>
      let e := s.rdN (a + 64 + 128 * g.q + 16 * r) 16
      if bitsAt e 48 2 == 1 then
        let sl := bitsAt e 50 3
        some (⟨sl, 3, bitsAt h 42 6, bitsAt e 53 1, r - bases.getD sl 0, bitsAt e 64 16,
          src.base + (i * g.c + r) * src.stride, len, src.fmt, 0, []⟩ : XOut)
      else none).flatten
  all.foldr insMsg []

/-- The operation that an instruction starts. -/
def newXop (s : State) (role : XRole) (d seg : Nat) (t : StreamSt) (w : IWord) (todo : List XOut) (dst : Desc)
    (wts : Desc) : XOp :=
  ⟨s.xch.nextId, d, t.pc, w, role, seg, xDir w, false, todo, [], dst.base, dst.stride, dst.rows, dst.lrow0, dst.fmt,
   dst.cols, wts.base, wts.stride, [], []⟩

/-- An accepted operation joins the list; its instruction retires, its signals follow at completion (Table 5-7). -/
def State.accept (s : State) (i : Nat) (t : StreamSt) (w : IWord) (o : XOp) : State :=
  let s := ((s.traceIssue i t w).setStream i t.next).bumpCtr i 0 4
  { s with xch := { s.xch with ops := s.xch.ops ++ [o], nextId := s.xch.nextId + 1 } }

/-- Messages that waited for a receive of die d are taken again in their order (R219). -/
def State.replayBuf (s : State) (d : Nat) : State :=
  let mine := s.xch.buf.filter fun b => b.die == d
  let s := { s with xch := { s.xch with buf := s.xch.buf.filter fun b => b.die != d } }
  mine.foldl (fun s b => (s.xTake d b.src b.m).getD
    { s with xch := { s.xch with buf := s.xch.buf ++ [b] } }) s

def emptyDesc : Desc := parseDesc 0

/-- The segment record of an XE instruction (R202). -/
def State.xeRecord (s : State) (i : Nat) (w : IWord) : Nat :=
  let d := ixDie i
  let nmb := s.cfgF (dieCfg d + 0x120) 48 8
  s.cfgF (dieCfg d + 0x120) 0 48 + 64 * (xLayer w * nmb + xMb w)

/-- A forward XSEND assigns its segment while that is FREE (R192). -/
def assigns (role : XRole) (w : IWord) (g : Seg) : Bool := role == .send && xDir w == 0 && g.state == 0

/-- What an XE instruction breaks (Tables 7-9 and 8-10); a is its segment record. -/
def State.xeCauses (s : State) (role : XRole) (i ga : Nat) (t : StreamSt) (w : IWord) (a : Nat) : List Nat :=
  let d := ixDie i
  let p := s.partOf i
  let g := s.seg a
  let dir := xDir w
  let stepNo := s.stepOf p
  let stamp := if dir == 1 then some stepNo else none
  let rt := s.xDesc i t w (xRoutes w)
  let sr := s.xDesc i t w (xSrc w)
  let ds := s.xDesc i t w (xDst w)
  let rd := rt.2.2
  let sd := sr.2.2
  let dd := ds.2.2
  let prevG := if g.prev == 0xFFFF then none
    else some (s.seg (s.cfgF (dieCfg d + 0x120) 0 48 + 64 * g.prev))
  let closing := s.xch.ops.any fun o => o.seg == a && o.role == .close
  let q := xQueue w
  let queueBad := role != .close
    && (!s.xqEnabled d q || ((role == .send || role == .back) && s.xqCredits d q == 0))
  let second := s.xch.ops.any fun o => o.role == role && o.seg == a && o.dir == dir && !o.failed
  let long := s.xGiven i sr && decide (1048575 < sd.format.rowBytes sd.cols)
  let sliced := s.xGiven i rt
  (if s.poisoned a 64 then [0x16] else []) ++ s.segCauses p g
    ++ (if !segAllows role dir g.state || closing then [0x12] else [])
    ++ (if dir == 1 && role != .close && g.stepNo != stepNo then [0x13] else [])
    ++ (if queueBad then [0x22] else [])
    ++ (match role with
        | .send => (if sliced then s.sliceCause g dir rd false else []) ++ (if long then [0x21] else [])
            ++ s.xSliceDesc i rt ++ s.xDescCauses i sr false
            ++ (if assigns role w g then s.assignCauses p g prevG ga
                else if sliced then s.routeCauses g rd.lrow0 rd.rows stamp else [])
        | .landing => (if second || (s.xGiven i ds && (dd.rows == 0 || decide (g.e8 < dd.lrow0 + dd.rows)
                || decide (min dd.cols dd.stride < 64 + 256 * g.q)))
              then [0x20] else []) ++ s.xDescCauses i ds true
            ++ (if dir == 0 then [] else
                ((List.range dd.rows).map fun k => s.entryCause (g.landIx (dd.lrow0 + k)) 2 stamp).flatten)
        | .ret => (if second then [0x20] else []) ++ (if sliced then s.sliceCause g dir rd true else [])
            ++ s.xSliceDesc i rt ++ s.xDescCauses i ds false ++ (if dir == 0 then s.xDescCauses i sr false else [])
            ++ s.routeCauses g 0 g.t stamp
        | .back => (if long then [0x21] else []) ++ s.xDescCauses i rt true ++ s.xDescCauses i sr false
            ++ (if sliced && (List.range rd.rows).any fun k => bitsAt (s.rdN (rd.base + k * rd.stride) 8) 32 1 == 0
                then [0x20] else [])
        | .close => [])

/-- What an XE instruction reads or writes at once. -/
def State.xeAreas (s : State) (role : XRole) (i ga : Nat) (t : StreamSt) (w : IWord) (a : Nat) : List (Nat × Nat) :=
  let g := s.seg a
  let rd := (s.xDesc i t w (xRoutes w)).2.2
  let dd := (s.xDesc i t w (xDst w)).2.2
  match role with
  | .landing => (List.range dd.rows).map fun k => (dd.base + k * dd.stride, 64 + 256 * g.q)
  | .back => (List.range rd.rows).map fun k => (rd.base + k * rd.stride, 64 + 256 * g.q)
  | .send => if assigns role w g then [(ga, 16 * g.t)] else []
  | _ => []

/-- An XE operation begins: assignment, the messages to send, the landing areas, the operation itself. -/
def State.xeStart (s : State) (role : XRole) (i ga : Nat) (t : StreamSt) (w : IWord) (a : Nat) : State :=
  let d := ixDie i
  let p := s.partOf i
  let g := s.seg a
  let dir := xDir w
  let stepNo := s.stepOf p
  let rd := (s.xDesc i t w (xRoutes w)).2.2
  let sd := (s.xDesc i t w (xSrc w)).2.2
  let dd := (s.xDesc i t w (xDst w)).2.2
  let prevG := if g.prev == 0xFFFF then none
    else some (s.seg (s.cfgF (dieCfg d + 0x120) 0 48 + 64 * g.prev))
  let s := if dir == 1 && g.state == 1 && role != .close then s.setSegState a 2 else s
  match role with
  | .send =>
    let r := if assigns role w g then s.assign p g prevG ga stepNo else (s, [])
    let s := r.1
    let todo := (if assigns role w g then countMsgs g r.2 else []) ++ s.rowMsgs g dir rd.lrow0 rd.rows sd
    let s := { s with xch := { s.xch with slices := (a, dir, rd.lrow0, rd.rows) :: s.xch.slices } }
    let o := newXop s .send d a t w todo emptyDesc emptyDesc
    (s.accept i t w o).pump o.id
  | .back =>
    let o := newXop s .back d a t w (s.returnMsgs g rd sd) emptyDesc emptyDesc
    (s.accept i t w o).pump o.id
  | .landing =>
    let o := newXop s .landing d a t w [] dd emptyDesc
    let s := (List.range dd.rows).foldl (fun s k =>
      let counts := if dir == 0 then List.replicate 8 0
        else (List.range 8).map fun x => bitsAt (s.rdN (s.entA (g.landIx (dd.lrow0 + k))) 16) (16 + 14 * x) 14
      s.wrN (o.area k) 64 (landHeader 0 0 (if dir == 0 then 0 else 0xFF) 0 0 0 counts)) s
    (s.accept i t w o).replayBuf d
  | .ret =>
    let o := newXop s .ret d a t w [] dd (if dir == 0 then sd else emptyDesc)
    ((s.accept i t w o).retCheck o).replayBuf d
  | .close =>
    let o := newXop s .close d a t w [] emptyDesc emptyDesc
    (s.accept i t w o).closeCheck a

/-- An XE instruction after its waits. `ga` is where a forward XSEND's gate records lie (log 33). -/
def runXe (role : XRole) (i ga : Nat) (s : State) (t : StreamSt) (w : IWord) : Ran :=
  let p := s.partOf i
  if 16 ≤ (s.xch.ops.filter fun o => o.die == ixDie i && !o.failed).length then .full
  else if s.cfgF (dieCfg (ixDie i) + 0x120) 48 8 ≤ xMb w then .fault 0x10
  else
    let a := s.xeRecord i w
    match s.reach p [(a, 64)] with
    | .bad b iso => .bad 0x2C b iso
    | .sleeping k => .asleep k
    | .ok =>
      match minCause (s.xeCauses role i ga t w a) with
      | some c => .fault c
      | none =>
        match s.reach p (s.xeAreas role i ga t w a) with
        | .bad b iso => .bad 0x2C b iso
        | .sleeping k => .asleep k
        | .ok => .done (s.xeStart role i ga t w a)

def execXe (role : XRole) (mine : IWord → Bool) (ga : Nat) (st : Stream) (s : State) : Option State :=
  issue st mine (fun _ t w => xHandles (streamIx st) t w ++ roleCause role w) (runXe role (streamIx st) ga) s

/-- XSEND, forward (R192, R225, R226). -/
def execXsendForward (st : Stream) (gates : Nat) (s : State) : Host.Outcome State Fault Refusal :=
  attempt s (execXe .send (fun w => isOp 0xA0 w && xDir w == 0) gates st s)
/-- XSEND, backward (R236). -/
def execXsendBackward (st : Stream) (s : State) : Host.Outcome State Fault Refusal :=
  attempt s (execXe .send (fun w => isOp 0xA0 w && xDir w == 1) 0 st s)
/-- XRECV with ROUTES null (R227). -/
def execXrecvLanding (st : Stream) (s : State) : Host.Outcome State Fault Refusal :=
  attempt s (execXe .landing (fun w => isOp 0xA1 w && nullH (xRoutes w)) 0 st s)
/-- XRECV with ROUTES set (R234). -/
def execXrecvReturn (st : Stream) (s : State) : Host.Outcome State Fault Refusal :=
  attempt s (execXe .ret (fun w => isOp 0xA1 w && !nullH (xRoutes w)) 0 st s)
/-- XRETURN (R233). -/
def execXreturn (st : Stream) (s : State) : Host.Outcome State Fault Refusal :=
  attempt s (execXe .back (isOp 0xA2) 0 st s)
/-- XCLOSE (R206, R232). -/
def execXclose (st : Stream) (s : State) : Host.Outcome State Fault Refusal :=
  attempt s (execXe .close (isOp 0xA3) 0 st s)

end Sys2Proof.Machine
end

