-- ==== Sys2Proof/Machine/Link.lean ====
section
/-! DEFINITION. The link layer of the ports (R316 to R334): units, acknowledgement and replay, credits, lane sparing, and
the frames a port sends and reassembles. -/

namespace Sys2Proof.Machine

/-- MODE: 0 DOWN, 1 NATIVE, 2 ETH. -/
def State.portMode (s : State) (p : Nat) : Nat := s.cfgF (portA p) 0 2
def State.portSpan (s : State) (p : Nat) : Bool := s.cfgF (portA p) 2 1 == 1
def State.setLinkState (s : State) (p v : Nat) : State := s.setCfgF (portA p + 8) 0 3 v
/-- A frame that a port drops: counted (R317, R320, R321). -/
def State.dropFrame (s : State) (p : Nat) : State := s.bumpCfg (portA p + 0x28) 0 32 1

/-- Receive credits of a class, in units of 64 B (R328). -/
def creditsFull : List Nat := [128, 128, 3968, 3968]
def linkReset : LinkSt := ⟨[], 0, [], 0, false, 0, 0, [], creditsFull, none, 0⟩
def State.lnk (s : State) (p : Nat) : LinkSt := tget (fun _ => linkReset) s.net.links p
def State.setLnk (s : State) (p : Nat) (l : LinkSt) : State :=
  { s with net := { s.net with links := tput (fun _ => linkReset) s.net.links p l } }

/-- The bytes of a frame: header, payload, padding and frame CRC (R320). -/
def frameBytes (f : Frame) : List Byte :=
  let body := natLe 48 f.hdr.toNat ++ f.payload ++ List.replicate ((4 - f.payload.length % 4) % 4) 0
  body ++ natLe 4 (crc32c body).toNat

/-- The frame that bytes hold, where its CRC is right. -/
def frameOf (bs : List Byte) : Option Frame :=
  let body := bs.take (bs.length - 4)
  let hdr : BitVec 384 := BitVec.ofNat 384 (leNat (bs.take 48))
  if bs.length < 52 || leNat (bs.drop (bs.length - 4)) != (crc32c body).toNat then none
  else some ⟨hdr, (bs.drop 48).take (if fld hdr 2 6 == 1 || fld hdr 2 6 == 4 then 0 else fld hdr 40 13)⟩

def fClass (f : Frame) : Nat := fld f.hdr 0 2
def fOp (f : Frame) : Nat := fld f.hdr 2 6
def fSrc (f : Frame) : Nat := fld f.hdr 8 14
def fDst (f : Frame) : Nat := fld f.hdr 22 14
def fStatus (f : Frame) : Nat := fld f.hdr 36 3
def fLen (f : Frame) : Nat := fld f.hdr 40 13
def fAddr (f : Frame) : Nat := fld f.hdr 64 48
def fSeq (f : Frame) : Nat := fld f.hdr 128 32
def fPmask (f : Frame) : Nat := fld f.hdr 256 64

/-- A unit tag (Table 12-4). -/
def unitTag (cls lsn len : Nat) : W64 := BitVec.ofNat 64 (4 * cls + 16 + 32 + 256 * lsn + 2 ^ 24 * len)
def unitCrc (tag : W64) (data : List Byte) : W32 := crc32c (natLe 8 tag.toNat ++ data)

/-- Bytes of the replay store (R327, R333). -/
def State.storeLimit (s : State) (p : Nat) : Nat := if s.portSpan p then s.cfgF (portA p + 0x20) 48 7 * 2 ^ 20 else 2 ^ 19
def storeBytes (l : LinkSt) : Nat := (l.store.map fun u => u.2.2.length + 12).sum

/-- The first frame of the highest class that is ready, with the rest (R322, R324). -/
def takeFrame (q : List (Nat × List Byte)) : Option ((Nat × List Byte) × List (Nat × List Byte)) :=
  match (List.range 4).filterMap fun c => q.find? fun x => x.1 == c with
  | [] => none
  | x :: _ => some (x, q.erase x)

/-- Sends frames, each as one unit, while credits, the replay store and the lanes allow (R324, R327, R328). -/
def linkPump (p : Nat) : Nat → State → State
  | 0, s => s
  | f + 1, s =>
    let l := s.lnk p
    match takeFrame l.txq with
    | none => s
    | some ((c, bs), rest) =>
      let need := (bs.length + 12 + 63) / 64
      let span := s.portSpan p
      if s.gc < l.blockedUntil || !s.linkUp p || (!span && l.credits.getD c 0 < need)
          || s.storeLimit p < storeBytes l + bs.length + 12 then s
      else
        let tag := unitTag c l.txLsn bs.length
        let l := { l with
          txq := rest, txLsn := (l.txLsn + 1) % 65536, store := l.store ++ [(l.txLsn, tag, bs)]
          credits := if span then l.credits else l.credits.set c (l.credits.getD c 0 - need) }
        linkPump p f ((s.setLnk p l).emit (.data p tag bs (unitCrc tag bs)))

/-- A frame is given to a port to send. -/
def State.sendFrame (s : State) (p : Nat) (f : Frame) : State :=
  if !s.nodeAssigned then s
  else match s.portMode p with
    | 1 =>
      let l := s.lnk p
      linkPump p 4096 (s.setLnk p { l with txq := l.txq ++ [(fClass f, frameBytes f)] })
    | 2 => s.emit (.frame p f)
    | _ => s

/-- A control unit is sent. -/
def State.sendCtl (s : State) (p ctype : Nat) (body : Nat) : State := s.emit (.control p ctype (BitVec.ofNat 64 body))

/-- ACK of everything before the expected LSN (R326). -/
def State.sendAck (s : State) (p : Nat) : State :=
  let l := s.lnk p
  (s.setLnk p { l with sinceAck := 0, ackAt := s.gc }).sendCtl p 1 ((l.rxLsn + 65535) % 65536)

/-- One NAK that names the expected LSN (R326). -/
def State.sendNak (s : State) (p : Nat) : State :=
  let l := s.lnk p
  if l.nakOut then s else (s.setLnk p { l with nakOut := true }).sendCtl p 2 l.rxLsn

def State.native (s : State) (p : Nat) : Bool := s.portMode p == 1 && s.linkUp p

/-- A data unit in order is accepted: its bytes join the frame of its class, an ACK goes where 64 are owed, the port drains its
buffer and gives the credits back (R328), and a frame that is whole arrives or is dropped by its CRC. -/
def State.unitTaken (s : State) (p : Nat) (tag : W64) (data : List Byte) : State :=
  let l := s.lnk p
  let c := fld tag 2 2
  let before := if fld tag 4 1 == 1 then [] else ((l.parts.find? fun x => x.1 == c).map fun x => x.2).getD []
  let bytes := before ++ data.take (fld tag 24 13)
  let others := l.parts.filter fun x => x.1 != c
  let last := fld tag 5 1 == 1
  let l := { l with
    rxLsn := (l.rxLsn + 1) % 65536, nakOut := false, sinceAck := l.sinceAck + 1
    parts := if last then others else others ++ [(c, bytes)] }
  let s := s.setLnk p l
  let s := if 64 ≤ l.sinceAck then s.sendAck p else s
  let s := if s.portSpan p then s else s.sendCtl p 3 (c + 4 * ((data.length + 12 + 63) / 64))
  if !last then s
  else match frameOf bytes with
    | some f => { s with net := { s.net with arrived := s.net.arrived ++ [(p, f)] } }
    | none => (s.dropFrame p).raise { mkErr 0 3 (p / 12) p 0x0305 with detail := BitVec.ofNat 64 (p + 0x200) }

/-- DATA_UNIT (R325, R326, R334). -/
def dataUnit (p : Nat) (tag : W64) (data : List Byte) (crc : W32) (s : State) : Option State :=
  if !s.native p then none
  else if unitCrc tag data != crc then some ((s.bumpCfg (portA p + 0x18) 32 32 1).sendNak p)
  else if fld tag 0 2 != 0 || fld tag 8 16 != (s.lnk p).rxLsn then some (s.sendNak p)
  else some (s.unitTaken p tag data)

def execDataUnit (pt : Port) (tag : W64) (data : List Byte) (crc : W32) (s : State) : Host.Outcome State Fault Refusal :=
  attempt s (dataUnit pt.val tag data crc s)

/-- ACK (R326): everything up to its LSN leaves the replay store. -/
def unitAckIn (p : Nat) (lsn : W16) (s : State) : Option State :=
  let l := s.lnk p
  if !s.native p then none
  else
    let n := l.store.findIdx fun u => u.1 == lsn.toNat
    if l.store.length ≤ n then none
    else some (linkPump p 4096 (s.setLnk p { l with store := l.store.drop (n + 1) }))

def execUnitAck (pt : Port) (lsn : W16) (s : State) : Host.Outcome State Fault Refusal := attempt s (unitAckIn pt.val lsn s)

/-- NAK (R327): the replay store is sent again from the named LSN. -/
def unitNakIn (p : Nat) (lsn : W16) (s : State) : Option State :=
  let l := s.lnk p
  if !s.native p then none
  else
    let n := l.store.findIdx fun u => u.1 == lsn.toNat
    if l.store.length ≤ n then none
    else
      -- the NAK also says that everything before its LSN was accepted
      let l := { l with store := l.store.drop n }
      let s := (s.setLnk p l).bumpCfg (portA p + 0x18) 0 32 1
      some (l.store.foldl (fun s u => s.emit (.data p u.2.1 u.2.2 (unitCrc u.2.1 u.2.2))) s)

def execUnitNak (pt : Port) (lsn : W16) (s : State) : Host.Outcome State Fault Refusal := attempt s (unitNakIn pt.val lsn s)

/-- CREDIT (R328). -/
def creditIn (p c n : Nat) (s : State) : Option State :=
  let l := s.lnk p
  if !s.native p || s.portSpan p then none
  else some (linkPump p 4096 (s.setLnk p { l with
    credits := l.credits.set c (min (l.credits.getD c 0 + n) (creditsFull.getD c 0)) }))

def execCredit (pt : Port) (cls : Fin 4) (count : Nat) (s : State) : Host.Outcome State Fault Refusal :=
  attempt s (creditIn pt.val cls.val count s)

/-- ECHO (R323) is answered with its own count. -/
def execEcho (pt : Port) (count : W64) (s : State) : Host.Outcome State Fault Refusal :=
  attempt s (if s.native pt.val then some (s.sendCtl pt.val 6 count.toNat) else none)

/-- ECHO_REPLY gives RTT_TICKS (R323). -/
def execEchoReply (pt : Port) (count : W64) (s : State) : Host.Outcome State Fault Refusal :=
  attempt s (if s.native pt.val then some (s.setCfgF (portA pt.val + 8) 32 32 (s.gc - count.toNat)) else none)

/-- At least one ACK every 256 ticks (R326). -/
def execLinkAckTimer (pt : Port) (s : State) : Host.Outcome State Fault Refusal :=
  attempt s (if s.native pt.val && (s.lnk pt.val).ackAt + 256 ≤ s.gc then some (s.sendAck pt.val) else none)

-- Lane sparing (R318)

/-- Lane 4 serves: a tray port whose spare is wired, none spared yet. -/
def State.spareFree (s : State) (p : Nat) : Bool :=
  p % 12 < 7 && s.cfgF (portA p) 3 1 == 1 && s.link p == 2 && (s.lnk p).spare.isNone
    && !s.net.deadSpares.contains p

/-- The switch to lane 4 is agreed for count t. -/
def State.armSpare (s : State) (p lane t : Nat) : State := s.setLnk p { s.lnk p with spare := some (lane, t) }

/-- SPARE from the far end. -/
def execSpare (pt : Port) (lane : Fin 4) (t : Nat) (s : State) : Host.Outcome State Fault Refusal :=
  attempt s (if s.native pt.val && s.spareFree pt.val then some (s.armSpare pt.val lane.val t) else none)

/-- The traffic of `lane` is on lane 4 from count t, with its record. -/
def State.laneSwitched (s : State) (p lane t : Nat) : State :=
  let s := s.setLnk p { s.lnk p with spare := none, blockedUntil := t + 64 }
  let s := (s.setLinkState p 3).setCfgF (portA p + 8) 3 3 lane
  s.raise { mkErr 0 3 (p / 12) p 0x0303 with detail := BitVec.ofNat 64 (lane + 2 ^ 32 * (t % 2 ^ 32)) }

/-- The switch count has come: the lane's traffic is on lane 4, and no unit is carried for 64 ticks. -/
def spareSwitch (p : Nat) (s : State) : Option State :=
  match (s.lnk p).spare with
  | none => none
  | some (lane, t) =>
    if s.gc < t then none else some (s.laneSwitched p lane t)

def execSpareSwitch (pt : Port) (s : State) : Host.Outcome State Fault Refusal := attempt s (spareSwitch pt.val s)

end Sys2Proof.Machine
end

