-- ==== Sys2Proof/Machine/Records.lean ====
section
/-! DEFINITION. Error records, alarms and holds (R523 to R536): the holding FIFO, coalescing, the record log, the flash
log, ALARM frames, and how a partition enters HELD. -/

namespace Sys2Proof.Machine

/-- A register of heartwood that only the active die shows: it is kept at the address of die 0 (R526). -/
def hwReg (off : Nat) : Nat := hwCfg 0 + off

-- Frames of the device itself

/-- A frame of this device to node n. -/
def State.mkFrame (s : State) (cls op n : Nat) (payload : List Byte) : Frame :=
  ⟨BitVec.ofNat 384 (cls + 4 * op + 2 ^ 8 * s.node + 2 ^ 22 * n + 2 ^ 40 * payload.length), payload⟩

/-- A frame of class ALARM or BEACON leaves by the lowest usable port of its context. -/
def State.sendFirst (s : State) (n : Nat) (f : Frame) : State :=
  match s.usable n with
  | [] => s
  | p :: _ => s.sendFrame p f

-- Alarms

/-- The events that raise an alarm (R530). -/
def isAlarm (e : ErrEvent) : Bool :=
  e.cls == 3 || (e.cls == 2 && [0x0306, 0x0308, 0x0404, 0x0504, 0x0307].contains e.code.toNat)

/-- PART and DEV of an event. -/
def evPart (e : ErrEvent) : Nat := match e.part with | some p => p.val | none => 0

/-- Payload of an ALARM frame (Table 19-4). -/
def State.alarmPayload (s : State) (e : ErrEvent) (suppressed : Nat) : List Byte :=
  natLe 4 (s.node + 2 ^ 14 * e.cls.val + 2 ^ 16 * evPart e + 2 ^ 19 * boolNat e.part.isNone) ++ natLe 4 e.code.toNat
    ++ natLe 8 (match e.part with | some p => (s.part p.val).tag.toNat | none => 0) ++ natLe 8 e.stamp
    ++ natLe 4 suppressed ++ natLe 4 ((s.cfgW (hwReg 0x5000)).toNat)

/-- One ALARM frame to node n, at most one per CODE and node in 2,500 ticks (R530). -/
def State.alarmTo (s : State) (e : ErrEvent) (n : Nat) : State :=
  let code := e.code.toNat
  let same (a : Nat × Nat × Nat × Nat) : Bool := a.1 == code && a.2.1 == n
  let others := s.log.alarms.filter fun a => !same a
  let put (s : State) (t k : Nat) : State := { s with log := { s.log with alarms := others ++ [(code, n, t, k)] } }
  let send (s : State) (k : Nat) : State :=
    (((put s s.gc 0).bumpCfg (hwReg 0x5030) 0 32 1)).sendFirst n (s.mkFrame 0 0x0C n (s.alarmPayload e k))
  match s.log.alarms.find? same with
  | none => send s 0
  | some (_, _, t, k) =>
    if s.gc < t + 2500 then (put s t (k + 1)).bumpCfg (hwReg 0x5030) 32 32 1 else send s k

/-- A partition in a state from LOADED on (R474: a job is loaded). -/
def State.hasJob (s : State) (p : Nat) : Bool := [3, 4, 5, 6, 7].contains (s.part p).state

/-- An alarm: interrupt bits, ALARM frames, and for an FA record FAULT_N and FAULTED (R523, R530). -/
def State.alarm (s : State) (e : ErrEvent) : State :=
  let s := (s.setIrq .pf 13).setIrq .i3c 13
  let s := match e.part with | some p => s.setIrq (.vf p) 13 | none => s
  let ps := match e.part with | some p => [p.val] | none => below 8 s.hasJob
  let nodes := (ps.map fun p => match (s.part p).job with | some j => j.alarmNodes.map Fin.val | none => []).flatten
  let s := nodes.foldl (fun s n => s.alarmTo e n) s
  if e.cls == 3 then { s with mgmt := { s.mgmt with faultN := true, devState := 9 } } else s

-- The holding FIFO

abbrev EvKey := Nat × Nat × Nat × Nat × Nat

/-- The key of an event (R527). -/
def evKey (e : ErrEvent) : EvKey :=
  (e.kind.val, e.unit.toNat, e.sub.toNat, e.code.toNat, match e.part with | some p => p.val | none => 8)

/-- One more event of an entry's key (R529, case 1). -/
def FifoEnt.more (x : FifoEnt) (e : ErrEvent) : FifoEnt :=
  { x with
    coalesced := true, instances := satAdd 32 x.instances 1, last := e.stamp
    ev := { x.ev with logical := e.logical, addr := e.addr, detail := e.detail } }

/-- FIFO_LEVEL and FIFO_PEAK. -/
def State.setLevel (s : State) : State :=
  let n := s.log.fifo.length
  let s := s.setCfgF (hwReg 0x5028) 0 9 n
  s.setCfgF (hwReg 0x5028) 16 9 (max n (s.cfgF (hwReg 0x5028) 16 9))

def State.setFifo (s : State) (l : List FifoEnt) : State := ({ s with log := { s.log with fifo := l } }).setLevel

/-- A count of lost events of a class (R528). -/
def State.lose (s : State) (cls : Fin 4) (k : Nat) : State :=
  let a := hwReg (0x5008 + 8 * cls.val)
  s.setCfgW a (s.cfgW a + BitVec.ofNat 64 k)

/-- The limit of a class in the FIFO. -/
def classLimit (cls : Fin 4) : Nat := if cls.val < 2 then 192 else if cls.val == 2 then 240 else 256

/-- A key enters the recent-key table. -/
def State.noteKey (s : State) (k : EvKey) : State :=
  { s with log := { s.log with recent := ((k, s.gc) :: s.log.recent.filter fun r => r.1 != k).take 64 } }

/-- The place of the newest entry that p takes. -/
def newest (l : List FifoEnt) (p : FifoEnt → Bool) : Option Nat :=
  (List.range l.length).reverse.find? fun i => match l[i]? with | some x => p x | none => false

/-- A new entry takes its place, or displaces one, or waits, or is lost (R528). -/
def State.enqueue (s : State) (x : FifoEnt) : State :=
  let l := s.log.fifo
  if l.length < classLimit x.ev.cls then (s.setFifo (l ++ [x])).noteKey (evKey x.ev)
  else if x.ev.cls == 3 then
    let victim := match newest l fun y => y.ev.cls.val < 2 with
      | some i => some i
      | none => newest l fun y => y.ev.cls == 2
    match victim with
    | some i =>
      let s := match l[i]? with | some y => s.lose y.ev.cls y.instances | none => s
      (s.setFifo (l.eraseIdx i ++ [x])).noteKey (evKey x.ev)
    | none =>
      let w := s.log.endpoint
      let same (y : FifoEnt) : Bool := evKey y.ev == evKey x.ev
      if w.any same then
        { s with log := { s.log with endpoint := w.map fun y => if same y then y.more x.ev else y } }
      else { s with log := { s.log with endpoint := w ++ [x] } }
  else s.lose x.ev.cls 1

/-- The wear index that an event counts for (Table 19-10). -/
def wearIndex (e : ErrEvent) : Nat :=
  let u := e.unit.toNat
  match e.kind.val with
  | 0 => u
  | 1 => 34 + u
  | 2 => 46 + u
  | 3 => if e.code == 0x0303 || e.code == 0x0305 then 62 + e.sub.toNat else 58 + u
  | 4 => 110 + u
  | _ => 112

/-- Corrected events of a unit (R544). -/
def State.wearEvent (s : State) (e : ErrEvent) : State :=
  if e.cls != 0 || e.kind.val == 5 then s
  else
    let i := wearIndex e
    { s with mgmt := { s.mgmt with
      wearCe := tput (fun _ => 0) s.mgmt.wearCe i (tget (fun _ => 0) s.mgmt.wearCe i + 1)
      wearAt := s.mgmt.wearAt ++ [(i, s.gc)] } }

/-- An event at heartwood (R527 to R530). -/
def State.takeEvent (s : State) (e : ErrEvent) : State :=
  let s := if isAlarm e then s.alarm e else s
  let s := s.wearEvent e
  let k := evKey e
  let open_ (x : FifoEnt) : Bool := x.coalesced && evKey x.ev == k
  if s.log.fifo.any open_ then
    (s.setFifo (s.log.fifo.map fun x => if open_ x then x.more e else x)).setCfgW (hwReg 0x5020)
      (s.cfgW (hwReg 0x5020) + 1)
  else
    let hot := s.log.recent.any fun r => r.1 == k && s.gc ≤ r.2 + 2500
    s.enqueue ⟨e, hot, 1, e.stamp, e.stamp⟩

/-- The SEQ that the record of an event in the FIFO will have, by its key: heartwood writes in FIFO order (R527). -/
def State.seqOf (s : State) (e : ErrEvent) : Nat :=
  let l := s.log.fifo
  (s.cfgW (hwReg 0x5000)).toNat + ((newest l fun x => evKey x.ev == evKey e).getD l.length)

/-- ERROR_EVENT: an event reaches heartwood; none names the oldest one that a unit of the model has raised. -/
def errorEvent (e : Option ErrEvent) (s : State) : Option State :=
  match e with
  | some e => some (s.takeEvent e)
  | none => match s.log.raised with
    | [] => none
    | e :: t => some (({ s with log := { s.log with raised := t } }).takeEvent e)

def execErrorEvent (e : Option ErrEvent) (s : State) : Host.Outcome State Fault Refusal := attempt s (errorEvent e s)

-- Records

/-- An error record (Table 19-1). -/
def recordBytes (x : FifoEnt) (seq : Nat) : List Byte :=
  let e := x.ev
  let body := natLe 4 (e.cls.val + 4 * boolNat e.isolation + 8 * boolNat x.coalesced + 16 * evPart e
      + 128 * boolNat e.part.isNone + 256 * e.kind.val + 2 ^ 16 * e.unit.toNat + 2 ^ 24 * e.sub.toNat)
    ++ natLe 4 e.code.toNat ++ natLe 8 x.first ++ natLe 8 x.last ++ natLe 4 x.instances ++ natLe 4 e.logical.toNat
    ++ natLe 8 (e.addr % 2 ^ 48) ++ natLe 8 seq ++ natLe 8 e.detail.toNat
  body ++ natLe 4 (crc32c body).toNat ++ natLe 4 seq

/-- Entry x of the FIFO, with `rest` behind it, becomes a record. -/
def State.writeRecord (s : State) (x : FifoEnt) (rest : List FifoEnt) : State :=
  let seq := (s.cfgW (hwReg 0x5000)).toNat
  let r : BitVec 512 := BitVec.ofNat 512 (leNat (recordBytes x seq))
  let s := { s with log := { s.log with
    records := tput (fun _ => 0) s.log.records (seq % 16384) r
    lastWrite := some s.gc
    flashDue := if 2 ≤ x.ev.cls.val then s.log.flashDue ++ [(r, s.gc)] else s.log.flashDue } }
  let s := (s.setFifo rest).setCfgW (hwReg 0x5000) (BitVec.ofNat 64 (seq + 1))
  let s := match s.log.endpoint with
    | [] => s
    | w :: ws => ({ s with log := { s.log with endpoint := ws } }).enqueue w
  match x.ev.part with
  | some p => s.report p.val 1 x.ev.code.toNat seq fun v => decide (v ≤ x.ev.cls.val)
  | none => s

/-- The last record is at least 40 ticks old. -/
def State.recordDue (s : State) : Bool := match s.log.lastWrite with | none => true | some t => decide (t + 40 ≤ s.gc)

/-- RECORD_WRITE: the head of the FIFO becomes a record, at most every 40 ticks (R525 to R528). -/
def recordWrite (s : State) : Option State :=
  match s.log.fifo with
  | [] => none
  | x :: rest => if !s.recordDue then none else some (s.writeRecord x rest)

def execRecordWrite (s : State) : Host.Outcome State Fault Refusal := attempt s (recordWrite s)

/-- Ticks of one second. -/
def oneSecond : Nat := 250000000

/-- FLASH_APPEND: records that have waited 10 s are dropped; then the oldest is appended, at most 64 in a second, while
the log's 1 MiB has room (R526, R547). -/
def flashAppend (s : State) : Option State :=
  let (late, live) := (s.log.flashDue.filter fun x => x.2 + 10 * oneSecond ≤ s.gc,
    s.log.flashDue.filter fun x => !decide (x.2 + 10 * oneSecond ≤ s.gc))
  let recent := s.log.appends.filter fun t => s.gc < t + oneSecond
  let s' := ({ s with log := { s.log with flashDue := live, appends := recent } }).bumpCfg (hwReg 0x5028) 32 32 late.length
  match live with
  | [] => if late.isEmpty then none else some s'
  | (r, _) :: rest =>
    if 64 ≤ recent.length || 16384 ≤ s'.log.flash.length then (if late.isEmpty then none else some s')
    else some { s' with log := { s'.log with flashDue := rest, appends := recent ++ [s.gc], flash := s'.log.flash ++ [r] } }

def execFlashAppend (s : State) : Host.Outcome State Fault Refusal := attempt s (flashAppend s)

-- Holds (R535, R536)

def holdCode : HoldReason → Nat
  | .envelope => 1 | .hang => 2 | .stackRetired => 3 | .tornDown => 4 | .norm => 5 | .proof => 6 | .regulator => 7
  | .journal => 8 | .replay => 9

/-- The HOLD record, for a hold that no other record reports. -/
def holdEvent (s : State) (p : Part) (reason : Nat) : ErrEvent :=
  { mkErr 2 4 s.mgmt.active 0xFF 0x0508 with part := some p, stamp := s.gc, detail := BitVec.ofNat 64 reason }

/-- Partition p enters HELD for a reason: its record (e, or a HOLD record), then the notice (R535). -/
def State.hold (s : State) (p : Part) (reason : Nat) (e : Option ErrEvent) : State :=
  let ev := match e with | some e => { e with stamp := s.gc } | none => holdEvent s p reason
  let s := s.takeEvent ev
  let t := s.part p.val
  if t.holds.any fun h => h.reason == reason then s
  else
    let seq := s.seqOf ev
    let s := s.setPart p.val { t with state := 6, holds := t.holds ++ [⟨reason, s.gc, seq, false⟩] }
    s.notice (some p) 14 (natLe 8 reason ++ natLe 8 seq ++ natLe 8 t.plan.hang)

/-- A hold reason is answered. -/
def PartSt.release (t : PartSt) (reason : Nat) : PartSt := { t with holds := t.holds.filter fun h => h.reason != reason }

end Sys2Proof.Machine
end

