-- ==== Sys2Proof/Machine/Fabric.lean ====
section
/-! DEFINITION. Memory semantics of the fabric (R335 to R357): streams and their recovery, region keys, loads, stores and
atomics at the home, the requester's side, the far cache and its directory, and failures of lanes and ports. -/

namespace Sys2Proof.Machine

def fKey (f : Frame) : Nat := fld f.hdr 160 32
def fAop (f : Frame) : Nat := fld f.hdr 60 4
def fLtag (f : Frame) : Nat := fld f.hdr 112 16
def fReplayed (f : Frame) : Bool := fld f.hdr 53 1 == 1
def fOrigPort (f : Frame) : Nat := fld f.hdr 54 6
def fOrigSeq (f : Frame) : Nat := fld f.hdr 320 32
def fNocache (f : Frame) : Bool := fld f.hdr 39 1 == 1

-- Regions (R341, R342)

/-- A fabric region (Table 12-7). -/
structure Region where
  part : Nat
  permR : Bool
  permW : Bool
  permA : Bool
  cache : Bool
  size : Nat
  base : Nat
  key : Nat
  dir : Nat
  readers : List (Option Nat)
deriving DecidableEq, Repr

def regionBase : Nat := ioCfg 0 + 0x40000

def parseRegion (w : Nat) : Region where
  part := bitsAt w 1 3
  permR := bitsAt w 4 1 == 1
  permW := bitsAt w 5 1 == 1
  permA := bitsAt w 6 1 == 1
  cache := bitsAt w 7 1 == 1
  size := 2 ^ bitsAt w 8 6
  base := bitsAt w 16 48
  key := bitsAt w 64 32
  dir := bitsAt w 96 48
  readers := (List.range 8).map fun j => if bitsAt w (272 + j) 1 == 1 then some (bitsAt w (160 + 14 * j) 14) else none

/-- The 64 B of a configuration entry as a number. -/
def State.cfg64 (s : State) (a : Nat) : Nat :=
  (List.range 8).foldl (fun n k => n + 2 ^ (64 * k) * (s.cfgW (a + 8 * k)).toNat) 0

/-- The regions in use: those whose VALID is set. -/
def State.regions (s : State) : List Region :=
  (s.cfg.filter fun x => decide (regionBase ≤ x.1) && decide (x.1 < regionBase + 0x10000) && (x.1 - regionBase) % 64 == 0
    && bitOf x.2 0).map fun x => parseRegion (s.cfg64 x.1)

def Region.holds (r : Region) (a n : Nat) : Bool := decide (r.base ≤ a) && decide (a + n ≤ r.base + r.size)

/-- The region of partition q that contains a range. -/
def State.regionOf (s : State) (q a n : Nat) : Option Region := s.regions.find? fun r => r.part == q && r.holds a n

inductive RegionCheck where
  | ok (r : Region)
  | bad (status : Nat) (breach : Bool)
deriving DecidableEq, Repr

/-- The checks of R342, in order. -/
def State.checkRegion (s : State) (q : Nat) (f : Frame) (n : Nat) (perm : Region → Bool) : RegionCheck :=
  let other := s.regions.any fun r => r.part != q && r.holds (fAddr f) n
  match s.regionOf q (fAddr f) n with
  | none => .bad 2 other
  | some r => if r.key != fKey f then .bad 1 other else if !perm r then .bad 3 other else .ok r

/-- The UC record of a refused request (R342). -/
def State.refusalEvent (s : State) (p : Nat) (f : Frame) (breach : Bool) : State :=
  let q := s.ctxPart (fSrc f)
  let e := { mkErr 2 3 (p / 12) p (if breach then 0x0308 else 0x0208) with
    isolation := breach, part := some (Fin.ofNat 8 q), addr := fAddr f }
  s.raise { e with detail := BitVec.ofNat 64 (if breach then fSrc f else 2 + 256 * fSrc f) }

-- Responses

/-- A response to frame f (Table 12-2). -/
def State.respHdr (s : State) (op status : Nat) (f : Frame) (payload : List Byte) : Frame :=
  let g := s.mkFrame 2 op (fSrc f) payload
  ⟨setFld (setFld g.hdr 36 3 status) 128 32 (fSeq f), payload⟩

def State.respond (s : State) (p op status : Nat) (f : Frame) (payload : List Byte) (pmask : Nat) : State :=
  let g := s.respHdr op status f payload
  s.sendFrame p ⟨setFld g.hdr 256 64 pmask, g.payload⟩

-- What lets a frame in (R317, R320, R321, R337)

/-- The frame has left the port's buffer. -/
def State.takeArrived (s : State) (p : Nat) (f : Frame) : State :=
  { s with net := { s.net with arrived := s.net.arrived.erase (p, f) } }

/-- The port can bring a frame. -/
def State.portLive (s : State) (p : Nat) : Bool := s.portMode p != 0 && s.linkUp p && s.nodeAssigned

/-- The partition of the frame's context is cut: its frames are captured (R567). -/
def State.frozenFor (s : State) (f : Frame) : Bool :=
  s.ctxValid (fSrc f) && (s.part (s.ctxPart (fSrc f))).frozen

/-- A frame of operation op and class cls goes to `k` where it is addressed to this device, well formed, and of a context
that lets it in; else it is dropped and counted. None where the port brings no such frame. -/
def State.letIn (s : State) (p op cls : Nat) (f : Frame) (k : State → Option State) : Option State :=
  if !s.portLive p || fOp f != op then none
  else
    let s := s.takeArrived p f
    let len := if op == 1 || op == 4 then 0 else fLen f
    if fDst f != s.node || fClass f != cls || fStatus f > 5 || f.payload.length != len || 4096 < fLen f then
      some (s.dropFrame p)
    else if !s.ctxValid (fSrc f) || s.ctxState (fSrc f) == 2 then some (s.isolationDrop (fSrc f) 3 (p / 12))
    else k s

-- Streams at the home (R339, R340)

/-- Where a request stands in its stream. -/
inductive Turn where
  | now                        -- its turn: to be applied
  | again                      -- already applied
  | early                      -- RESYNC
  | gone                       -- its stream was left by REPLAYED requests
deriving DecidableEq, Repr

/-- a lies ahead of b in sequence numbers of 32 bits. -/
def seqAhead (a b : Nat) : Bool := let d := (a + 2 ^ 32 - b) % 2 ^ 32; decide (0 < d) && decide (d < 2 ^ 31)

def State.turn (s : State) (p : Nat) (f : Frame) : Turn :=
  let k := netKey (fSrc f) p
  if !fReplayed f && s.net.moved.contains k then .gone
  else if seqAhead (fSeq f) (s.rxSeq k) then .early
  else if fSeq f != s.rxSeq k then .again
  else if fReplayed f && seqAhead (s.rxSeq (netKey (fSrc f) (fOrigPort f))) (fOrigSeq f) then .again
  else .now

/-- The stream numbers after a request in its turn, or one that only its original stream had applied. -/
def State.pastTurn (s : State) (p : Nat) (f : Frame) : State :=
  let k := netKey (fSrc f) p
  let s := if fSeq f == s.rxSeq k then s.setRxSeq k (fSeq f + 1) else s
  if !fReplayed f then s
  else
    let o := netKey (fSrc f) (fOrigPort f)
    let s := { s with net := { s.net with moved := nins s.net.moved o } }
    if seqAhead (s.rxSeq o) (fOrigSeq f) then s else s.setRxSeq o (fOrigSeq f + 1)

/-- RESYNC carries the expected number (R339). -/
def State.sendResync (s : State) (p : Nat) (f : Frame) : State :=
  let g := s.mkFrame 2 0x2F (fSrc f) []
  s.sendFrame p ⟨setFld g.hdr 128 32 (s.rxSeq (netKey (fSrc f) p)), []⟩

/-- A request in its stream: applied in its turn, answered again without applying, or met with RESYNC (R339, R340).
`apply` and `again` answer; none from them leaves the request waiting. -/
def State.inTurn (s : State) (p : Nat) (f : Frame) (apply again : State → Option State) : Option State :=
  match s.turn p f with
  | .now => (apply s).map fun s => s.pastTurn p f
  | .again => (again (s.bumpCfg (ioCfg 0 + 0x28) 32 32 1)).map fun s => s.pastTurn p f
  | .early => some (s.sendResync p f)
  | .gone => some s

-- Requests this device makes (R338, R340, R346)

def State.setReqs (s : State) (l : List Req) : State := { s with net := { s.net with reqs := l } }
/-- OUTSTANDING of context n. -/
def State.countOut (s : State) (n : Nat) : State := s.setCfgF (ctxA n + 16) 32 32 (s.reqsOf n).length
/-- RETRIES of context n. -/
def State.countRetry (s : State) (n k : Nat) : State := s.bumpCfg (ctxA n + 24) 0 32 k

/-- The port of a request to an address (R338). -/
def State.reqPort (s : State) (n a : Nat) : Option Nat :=
  let l := s.usable n
  if l.isEmpty then none else l[a / 4096 % l.length]?

/-- Until every moved request of a block has been answered, the block takes no new request (R340). -/
def State.blockMoved (s : State) (n a : Nat) : Bool :=
  s.net.reqs.any fun r => r.node == n && !r.tried.isEmpty && fAddr r.frame / 4096 == a / 4096

/-- A context has room for a request (R346). -/
def State.roomFor (s : State) (n : Nat) : Bool :=
  (s.reqsOf n).length < s.cfgF (ctxA n) 16 16 && s.net.reqs.length < 2097152

/-- A request leaves on a port and is tracked; f carries everything but SEQ. -/
def State.track (s : State) (n p : Nat) (f : Frame) (use : ReqUse) : State :=
  let k := netKey n p
  let q := s.txSeq k
  let f : Frame := ⟨setFld f.hdr 128 32 q, f.payload⟩
  let s := (s.setTxSeq k (q + 1)).setReqs (s.net.reqs ++ [⟨n, p, q, f, use, s.gc, 0, []⟩])
  (s.countOut n).sendFrame p f

/-- A request frame: operation, address, LEN, region key of the context, payload. -/
def State.reqFrame (s : State) (op n a len : Nat) (payload : List Byte) : Frame :=
  let g := s.mkFrame 3 op n payload
  ⟨setFld (setFld (setFld g.hdr 40 13 len) 64 48 a) 160 32 (s.cfgF (ctxA n + 8) 32 32), payload⟩

/-- A request to node n, where its context can take it now; else its issuer waits (R346). -/
def State.issueReq (s : State) (op n a len : Nat) (payload : List Byte) (use : ReqUse) : Option State :=
  if s.ctxState n != 0 || !s.roomFor n || s.blockMoved n a then none
  else match s.reqPort n a with
    | none => none
    | some p => some (s.track n p (s.reqFrame op n a len payload) use)

/-- An EVICT or INVAL to node n: it waits for no room. With no usable port it counts as sent on the context's lowest port,
and the context's recovery carries it on. -/
def State.issueTag (s : State) (op n a ltag : Nat) (use : ReqUse) : State :=
  let f := s.reqFrame op n a 0 []
  let f : Frame := ⟨setFld (setFld f.hdr 112 16 ltag) 160 32 0, []⟩
  match s.reqPort n a with
  | some p => s.track n p f use
  | none => match below 48 fun p => bitsAt (s.ctxPorts n) p 1 == 1 with
    | p :: _ => (s.track n p f use).suspect n
    | [] => s

/-- One request sent again on its own port with its own SEQ. -/
def State.resendReq (s : State) (r : Req) : State :=
  let l := s.net.reqs.map fun x =>
    if x.node == r.node && x.port == r.port && x.seq == r.seq then { x with resends := x.resends + 1, sentAt := s.gc } else x
  ((s.setReqs l).countRetry r.node 1).sendFrame r.port r.frame

/-- One request moved to another port: its own SEQ there, REPLAYED and its original place (R340). -/
def State.moveReq (s : State) (r : Req) (p : Nat) : State :=
  let k := netKey r.node p
  let q := s.txSeq k
  let h := setFld r.frame.hdr 128 32 q
  let h := if fReplayed r.frame then h
    else setFld (setFld (setFld h 53 1 1) 54 6 r.port) 320 32 r.seq
  let f : Frame := ⟨h, r.frame.payload⟩
  let l := s.net.reqs.map fun x =>
    if x.node == r.node && x.port == r.port && x.seq == r.seq then
      { x with port := p, seq := q, frame := f, resends := 0, sentAt := s.gc, tried := nins r.tried r.port }
    else x
  (((s.setReqs l).setTxSeq k (q + 1)).countRetry r.node 1).sendFrame p f

/-- Every unanswered request of a stream moves to the stream of another usable port; with none left the context becomes
SUSPECT (R340, R354). -/
def State.moveStream (s : State) (n p : Nat) : State :=
  let mine := s.net.reqs.filter fun r => r.node == n && r.port == p
  let tried := mine.foldl (fun l r => r.tried.foldl nins l) [p]
  if mine.isEmpty then s
  else match (s.usable n).find? fun x => !tried.contains x with
    | none => s.suspect n
    | some x => mine.foldl (fun s r => s.moveReq r x) s

/-- Every unanswered request of a stream is sent again from the oldest, or after three resends of one moves (R340). -/
def State.resendStream (s : State) (n p : Nat) : State :=
  let mine := s.net.reqs.filter fun r => r.node == n && r.port == p
  if (mine.any fun r => decide (3 ≤ r.resends)) || !(s.usable n).contains p then s.moveStream n p
  else mine.foldl State.resendReq s

/-- REQUEST_TIMEOUT: a request of the stream has had no response within RTO. -/
def requestTimeout (n p : Nat) (s : State) : Option State :=
  let rto := s.cfgF (ctxA n + 16) 0 32
  let late := (s.reqsOf n).any fun r => r.port == p && decide (r.sentAt + rto ≤ s.gc)
  if s.ctxState n != 0 || !late then none else some (s.resendStream n p)

def execRequestTimeout (n : Node) (pt : Port) (s : State) : Host.Outcome State Fault Refusal :=
  attempt s (requestTimeout n.val pt.val s)

-- The directory (R350 to R352)

def Region.entry (r : Region) (a : Nat) : Nat := r.dir + 4 * ((a - r.base) / 256)

/-- The sharer bits that count as set (R350). -/
def State.sharers (s : State) (r : Region) (e : Nat) : Nat :=
  if bitsAt e 25 7 == (s.part r.part).stepNo.toNat % 128 then bitsAt e 16 8 else 0

/-- The directory entries of the lines that a write to a cacheable region touches. -/
def Region.entries (r : Region) (a n : Nat) : List Nat :=
  if !r.cache || n == 0 then []
  else (List.range ((a + n - 1) / 256 - a / 256 + 1)).map fun i => 256 * (a / 256 + i)

/-- One line of a write (R351): LTAG, INV_OPEN and sharers, and an INVAL to each former sharer. -/
def State.invalLine (s : State) (r : Region) (id : Nat) (line : Nat) : State :=
  let d := r.entry line
  let e := s.rdN d 4
  let sh := s.sharers r e
  if sh == 0 then s
  else
    let tag := (bitsAt e 0 16 + 1) % 65536
    let s := s.wrN d 4 (setBits (setBits (setBits e 0 16 tag) 16 8 0) 24 1 1)
    let nodes := (r.readers.zipIdx.filter fun x => bitsAt sh x.2 1 == 1).filterMap fun x => x.1
    let s := nodes.foldl (fun s n => s.issueTag 6 n line tag (.inval id)) s
    let l := s.net.invs.map fun w =>
      if w.id == id then { w with entries := w.entries ++ [d], left := w.left + nodes.length } else w
    { s with net := { s.net with invs := l } }

/-- The answer of a write waits until every sharer has answered its INVAL (R351). -/
def State.afterWrite (s : State) (p : Nat) (r : Region) (a n : Nat) (answer : Frame) : State :=
  let id := s.net.nextInv
  let s := { s with net := { s.net with nextInv := id + 1, invs := s.net.invs ++ [⟨id, [], 0, p, answer⟩] } }
  let s := (r.entries a n).foldl (fun s line => s.invalLine r id line) s
  if s.net.invs.any fun w => w.id == id && !w.entries.isEmpty then s
  else
    let s := { s with net := { s.net with invs := s.net.invs.filter fun w => w.id != id } }
    s.sendFrame p answer

/-- A write's invalidations that are all answered (R351, item 4). -/
def State.invsDone (s : State) : State :=
  s.net.invs.foldl (fun s w =>
    if w.left != 0 then s
    else
      let s := w.entries.foldl (fun s d => s.wrN d 4 (setBits (s.rdN d 4) 24 1 0)) s
      let s := { s with net := { s.net with invs := s.net.invs.filter fun x => x.id != w.id } }
      s.sendFrame w.port w.answer) s

/-- The write of a duplicate is still waiting for its invalidations. -/
def State.answerHeld (s : State) (p : Nat) (f : Frame) : Bool :=
  s.net.invs.any fun w => w.port == p && fDst w.answer == fSrc f && fSeq w.answer == fSeq f

-- The home (R342 to R344, R350)

/-- An access to home memory: none while it waits for a sleeping domain. -/
inductive HomeAcc where
  | ok
  | wait (dom : Nat)
  | bad
deriving DecidableEq, Repr

def State.homeAcc (s : State) (l : List (Nat × Nat)) : HomeAcc :=
  l.foldl (fun r x => if r != .ok then r else match s.access none x.1 x.2 with
    | .ok => .ok
    | .sleeping k => .wait k
    | .bad _ => .bad) .ok

/-- The partition of a frame's context. -/
def State.framePart (s : State) (f : Frame) : Part := Fin.ofNat 8 (s.ctxPart (fSrc f))

/-- LOAD at the home. `first`: a refusal is recorded. -/
def homeLoad (p : Nat) (f : Frame) (first : Bool) (s : State) : Option State :=
  match s.checkRegion (s.ctxPart (fSrc f)) f (fLen f) fun r => r.permR with
  | .bad st br => some ((if first then s.refusalEvent p f br else s).respond p 0x21 st f [] 0)
  | .ok _ => match s.homeAcc [(fAddr f, fLen f)] with
    | .wait k => some (s.requestWake k)
    | .bad => some ((if first then s.refusalEvent p f false else s).respond p 0x21 2 f [] 0)
    | .ok => some (s.respond p 0x21 0 f (s.rd (fAddr f) (fLen f)) (s.pmaskOf (fAddr f) (fLen f)))

/-- A frame that waits for a sleeping domain is not applied: only the wake is asked for (R22). -/
def State.homeGate (s : State) (p : Nat) (f : Frame) (l : List (Nat × Nat)) (k : Option State) : Option State :=
  match s.homeAcc l with
  | .wait d => some ({ s with net := { s.net with arrived := s.net.arrived ++ [(p, f)] } }.requestWake d)
  | _ => k

def loadIn (p : Nat) (f : Frame) (s : State) : Option State :=
  s.letIn p 1 3 f fun s =>
    if fLen f == 0 then some (s.dropFrame p)
    else s.homeGate p f [(fAddr f, fLen f)] (s.inTurn p f (homeLoad p f true) (homeLoad p f false))

def unlessFrozen (f : Frame) (k : State → Option State) (s : State) : Option State := if s.frozenFor f then none else k s

def execLoad (pt : Port) (f : Frame) (s : State) : Host.Outcome State Fault Refusal :=
  attempt s (unlessFrozen f (loadIn pt.val f) s)

/-- NOTIFY: the CE of the named compute die raises the event (R343). -/
def State.notify (s : State) (f : Frame) : State :=
  let g := fld f.hdr 192 32
  let die := bitsAt g 12 5
  s.sendEvent ⟨die, bitsAt g 10 2, bitsAt g 0 10, bitsAt g 18 8, die, 5, some (s.framePart f)⟩

/-- The ingress key of class S (Table 15-9). -/
def ingressS (f : Frame) (n : Nat) : List Byte := natLe 6 (fAddr f) ++ natLe 2 n ++ natLe 2 (fSrc f)

/-- The write of STORE f into region r. -/
def State.homeWrite (s : State) (p : Nat) (f : Frame) (r : Region) : State :=
  let s := s.wrPay (fAddr f) f.payload 0 (fPmask f)
  let s := s.ingress (some (s.framePart f)) .st (ingressS f (fLen f)) (crc32c f.payload).toNat
  let s := s.notify f
  s.afterWrite p r (fAddr f) (fLen f) (s.respHdr 0x22 0 f [])

def homeStore (p : Nat) (f : Frame) (s : State) : Option State :=
  match s.checkRegion (s.ctxPart (fSrc f)) f (fLen f) fun r => r.permW with
  | .bad st br => some ((s.refusalEvent p f br).respond p 0x22 st f [] 0)
  | .ok r =>
    if s.homeAcc [(fAddr f, fLen f)] != .ok then some ((s.refusalEvent p f false).respond p 0x22 2 f [] 0)
    else some (s.homeWrite p f r)

/-- A STORE answered again (R340). -/
def storeAgain (p : Nat) (f : Frame) (s : State) : Option State :=
  if s.answerHeld p f then some s
  else some (s.respond p 0x22 (match s.checkRegion (s.ctxPart (fSrc f)) f (fLen f) fun r => r.permW with
    | .bad st _ => st | .ok _ => 0) f [] 0)

def storeIn (p : Nat) (f : Frame) (s : State) : Option State :=
  s.letIn p 2 3 f fun s =>
    if fLen f == 0 then some (s.dropFrame p)
    else s.homeGate p f [(fAddr f, fLen f)] (s.inTurn p f (homeStore p f) (storeAgain p f))

def execStore (pt : Port) (f : Frame) (s : State) : Host.Outcome State Fault Refusal :=
  attempt s (unlessFrozen f (storeIn pt.val f) s)

/-- Width of an atomic (Table 12-8). -/
def aopWidth (a : Nat) : Nat := if a == 0 then 4 else 8

/-- The value an atomic stores. -/
def aopValue (aop old a b : Nat) : Nat :=
  match aop with
  | 0 => (old + a) % 2 ^ 32
  | 1 => (old + a) % 2 ^ 64
  | 2 => a
  | 3 => if old == a then b else old
  | 4 => Nat.land old a
  | 5 => Nat.lor old a
  | 6 => Nat.xor old a
  | 7 => max old a
  | _ => min old a

def isWell (a n : Nat) : Bool := match homeOf a with | .well _ off => decide (off + n ≤ 0x10000000) | _ => false

def State.setAtomic (s : State) (p : Nat) (f : Frame) (old : Nat) : State :=
  { s with net := { s.net with atomics := tput (fun _ => (0, 0)) s.net.atomics (netKey (fSrc f) p) (fSeq f + 1, old) } }

/-- An atomic that is not performed: UNSUPPORTED. -/
def aopBad (f : Frame) : Bool :=
  let n := aopWidth (fAop f)
  8 < fAop f || !isWell (fAddr f) n || fAddr f % n != 0 || f.payload.length < (if fAop f == 3 then 16 else n)

/-- The read and write of ATOMIC f in region r. -/
def State.homeModify (s : State) (p : Nat) (f : Frame) (r : Region) : State :=
  let n := aopWidth (fAop f)
  let old := s.rdN (fAddr f) n
  let a := leNat (f.payload.take n)
  let b := leNat ((f.payload.drop 8).take 8)
  let was := s.poisoned (fAddr f) n
  let s := s.wrN (fAddr f) n (aopValue (fAop f) old a b)
  let s := if fPmask f % 2 == 1 then s.setPoison (fAddr f / 64) else s
  let s := s.ingress (some (s.framePart f)) .st (ingressS f (fAop f)) (crc32c f.payload).toNat
  let s := s.setAtomic p f old
  let g := s.respHdr 0x23 0 f (natLe 8 old)
  s.afterWrite p r (fAddr f) n ⟨setFld g.hdr 256 64 (boolNat was), g.payload⟩

def homeAtomic (p : Nat) (f : Frame) (s : State) : Option State :=
  let n := aopWidth (fAop f)
  match s.checkRegion (s.ctxPart (fSrc f)) f (fLen f) fun r => r.permA with
  | .bad st br => some ((s.refusalEvent p f br).respond p 0x23 st f [] 0)
  | .ok r =>
    if aopBad f then some (s.respond p 0x23 5 f [] 0)
    else if s.homeAcc [(fAddr f, n)] != .ok then some ((s.refusalEvent p f false).respond p 0x23 2 f [] 0)
    else some (s.homeModify p f r)

/-- An ATOMIC answered again returns the stored result (R340). -/
def atomicAgain (p : Nat) (f : Frame) (s : State) : Option State :=
  let k := netKey (fSrc f) (if fReplayed f then fOrigPort f else p)
  let r := tget (fun _ => (0, 0)) s.net.atomics k
  if s.answerHeld p f then some s
  else if r.1 == (if fReplayed f then fOrigSeq f else fSeq f) + 1 then some (s.respond p 0x23 0 f (natLe 8 r.2) 0)
  else match s.checkRegion (s.ctxPart (fSrc f)) f (fLen f) fun r => r.permA with
    | .bad st _ => some (s.respond p 0x23 st f [] 0)
    | .ok _ => some (s.respond p 0x23 5 f [] 0)

def atomicIn (p : Nat) (f : Frame) (s : State) : Option State :=
  s.letIn p 3 3 f fun s =>
    s.homeGate p f [(fAddr f, aopWidth (fAop f))] (s.inTurn p f (homeAtomic p f) (atomicAgain p f))

def execAtomic (pt : Port) (f : Frame) (s : State) : Host.Outcome State Fault Refusal :=
  attempt s (unlessFrozen f (atomicIn pt.val f) s)

/-- The reader slot of a node. -/
def Region.slotOf (r : Region) (n : Nat) : Option Nat := r.readers.findIdx? fun x => x == some n

/-- FILL f is served from region r: a slot of the directory takes the reader, or NOCACHE goes with the line. -/
def State.homeGive (s : State) (p : Nat) (f : Frame) (r : Region) : State :=
  let line := fAddr f / 256 * 256
  let data := s.rd line 256
  let pm := s.pmaskOf line 256
  let e := if r.cache then s.rdN (r.entry line) 4 else 0
  let plain :=
    let s := s.bumpCfg (ioCfg 0 + 0x20) 32 32 1
    let g := s.respHdr 0x24 0 f data
    s.sendFrame p ⟨setFld (setFld g.hdr 39 1 1) 256 64 pm, data⟩
  match r.slotOf (fSrc f) with
  | some j =>
    if r.cache && bitsAt e 24 1 == 0 then
      let sh := setBits (s.sharers r e) j 1 1
      let s := s.wrN (r.entry line) 4 (setBits (setBits e 16 8 sh) 25 7 (s.part r.part).stepNo.toNat)
      let g := s.respHdr 0x24 0 f data
      s.sendFrame p ⟨setFld (setFld g.hdr 112 16 (bitsAt e 0 16)) 256 64 pm, data⟩
    else plain
  | none => plain

def homeFill (p : Nat) (f : Frame) (first : Bool) (s : State) : Option State :=
  match s.checkRegion (s.ctxPart (fSrc f)) f 1 fun r => r.permR with
  | .bad st br => some ((if first then s.refusalEvent p f br else s).respond p 0x24 st f [] 0)
  | .ok r =>
    if s.homeAcc [(fAddr f / 256 * 256, 256)] != .ok then
      some ((if first then s.refusalEvent p f false else s).respond p 0x24 2 f [] 0)
    else some (s.homeGive p f r)

def fillIn (p : Nat) (f : Frame) (s : State) : Option State :=
  s.letIn p 4 3 f fun s =>
    s.homeGate p f [(fAddr f / 256 * 256, 256)] (s.inTurn p f (homeFill p f true) (homeFill p f false))

def execFill (pt : Port) (f : Frame) (s : State) : Host.Outcome State Fault Refusal :=
  attempt s (unlessFrozen f (fillIn pt.val f) s)

/-- EVICT (R352): its sender's bit is cleared where the tags agree. -/
def homeEvict (f : Frame) (s : State) : State :=
  let stale := s.bumpCfg (ioCfg 0 + 0x20) 0 32 1
  match s.regionOf (s.ctxPart (fSrc f)) (fAddr f) 1 with
  | none => stale
  | some r =>
    match r.slotOf (fSrc f) with
    | some j =>
      let d := r.entry (fAddr f)
      let e := s.rdN d 4
      if r.cache && bitsAt e 0 16 == fLtag f then s.wrN d 4 (setBits e (16 + j) 1 0) else stale
    | none => stale

def evictIn (p : Nat) (f : Frame) (s : State) : Option State :=
  s.letIn p 5 3 f fun s => s.inTurn p f (fun s => some (homeEvict f s)) some

def execEvict (pt : Port) (f : Frame) (s : State) : Host.Outcome State Fault Refusal :=
  attempt s (unlessFrozen f (evictIn pt.val f) s)

-- The far cache (R348, R349)

def State.fcSets (s : State) : Nat := s.cfgF (ioCfg 0 + 0x18) 48 7 * 2 ^ 20 / 2304
def State.fcSet (s : State) (n line : Nat) : Nat := (line + 4099 * n) % max s.fcSets 1
def State.fcLine (s : State) (k : Nat) : Option FcLine := tget (fun _ => none) s.net.fc k
def State.setFc (s : State) (k : Nat) (l : Option FcLine) : State :=
  { s with net := { s.net with fc := tput (fun _ => none) s.net.fc k l } }
/-- The way that holds a line. -/
def State.fcFind (s : State) (n line : Nat) : Option (Nat × FcLine) :=
  (List.range 8).findSome? fun w =>
    let k := 8 * s.fcSet n line + w
    match s.fcLine k with
    | some l => if l.node == n && l.line == line then some (k, l) else none
    | none => none

/-- Data at a load's destination. -/
def State.landLoad (s : State) (w : FcWait) (data : List Byte) (pmask : Nat) : State :=
  s.wrPay w.dst ((data.drop w.off).take w.len) w.off pmask

/-- The next way after the last one filled that is not FILLING. -/
def State.victim (s : State) (set : Nat) : Option Nat :=
  let at_ := tget (fun _ => 0) s.net.fcNext set
  ((List.range 8).map fun i => (at_ + i) % 8).find? fun w => match s.fcLine (8 * set + w) with
    | some l => !l.filling
    | none => true

/-- A load through the far cache, its context and lengths already checked. -/
def State.fcLoad (s : State) (n a len stream dst : Nat) : Option State :=
  let line := a / 256
  let w : FcWait := ⟨stream, a % 256, len, dst⟩
  let plain := s.issueReq 1 n a len [] (.load stream dst)
  match s.fcFind n line with
  | some (k, l) =>
    if l.filling then some (s.setFc k (some { l with waiting := l.waiting ++ [w] }))
    else some (s.landLoad w l.data l.pmask)
  | none =>
    match s.victim (s.fcSet n line) with
    | none => plain
    | some way =>
      let k := 8 * s.fcSet n line + way
      if s.ctxState n != 0 || !s.roomFor n || s.blockMoved n a then none
      else
        let s := match s.fcLine k with
          | some l => s.issueTag 5 l.node (256 * l.line) l.ltag .evict
          | none => s
        let s := s.setFc k (some ⟨n, line, s.ctxPart n, true, false, 0, [], 0, [w]⟩)
        s.issueReq 4 n (256 * line) 256 [] .fill

/-- FAR_CACHE_LOAD: a LOAD of an XE or a CE (R343, R349, Table 12-11). -/
def farCacheLoad (st : Stream) (n a len dst : Nat) (s : State) : Option State :=
  let i := streamIx st
  if i < 512 || s.power (s.engDom i) != .on || s.frozenDie (ixDie i) then none
  else if s.ctxState n == 2 then some (s.fault i 0x54)
  else if !s.ctxValid n || some (Fin.ofNat 8 (s.ctxPart n)) != s.partOf i then some (s.fault i 0x55)
  else if len == 0 || 4096 < len then some (s.fault i 0x56)
  else if s.ctxState n == 0 && s.noPort n then some (s.suspect n)
  else match s.access (s.partOf i) dst len with
    | .sleeping k => some ((s.holdStream i k).requestWake k)
    | .bad iso => some (s.accessError i dst iso)
    | .ok =>
      if s.cfgF (ctxA n) 6 1 == 1 && s.fcSets != 0 && a % 256 + len ≤ 256 then s.fcLoad n a len i dst
      else s.issueReq 1 n a len [] (.load i dst)

def execFarCacheLoad (st : Stream) (n : Node) (addr len dst : Nat) (s : State) : Host.Outcome State Fault Refusal :=
  attempt s (farCacheLoad st n.val addr len dst s)

/-- INVAL at the far cache (R349): answered at once. -/
def invalApply (p : Nat) (f : Frame) (first : Bool) (s : State) : Option State :=
  match s.fcFind (fSrc f) (fAddr f / 256) with
  | none => some (s.respond p 0x26 2 f [] 0)
  | some (k, l) =>
    let s := if !first then s else if l.filling then s.setFc k (some { l with doomed := true }) else s.setFc k none
    some (s.respond p 0x26 0 f [] 0)

def invalIn (p : Nat) (f : Frame) (s : State) : Option State :=
  s.letIn p 6 3 f fun s => s.inTurn p f (invalApply p f true) (invalApply p f false)

def execInval (pt : Port) (f : Frame) (s : State) : Host.Outcome State Fault Refusal :=
  attempt s (unlessFrozen f (invalIn pt.val f) s)

-- Responses at the requester

/-- The request that a response answers. -/
def State.reqOf (s : State) (p : Nat) (f : Frame) : Option Req :=
  s.net.reqs.find? fun r => r.node == fSrc f && r.port == p && r.seq == fSeq f

/-- An answered request leaves the tracker; the EVICTs its stream sent before it have arrived; the context is UP (R354). -/
def State.answerReq (s : State) (r : Req) : State :=
  let l := s.net.reqs.filter fun x => !(x.node == r.node && x.port == r.port
    && (x.seq == r.seq || (x.use == .evict && seqAhead r.seq x.seq)))
  let s := (s.setReqs l).countOut r.node
  if s.ctxState r.node == 1 then s.setCfgF (ctxA r.node) 8 3 0 else s

/-- The fault of a response that ends in error (Table 12-11). -/
def statusCause (st : Nat) : Nat := match st with | 1 => 0x50 | 2 => 0x51 | 3 => 0x52 | 4 => 0x54 | _ => 0x53

/-- A response frame of operation op to a request whose use `k` takes. -/
def State.answer (s : State) (p op : Nat) (f : Frame) (k : State → ReqUse → Option State) : Option State :=
  s.letIn p op 2 f fun s =>
    match s.reqOf p f with
    | none => some s
    | some r => k (s.answerReq r) r.use

/-- LOAD_DATA lands at the destination the issuer named. -/
def loadDataIn (p : Nat) (f : Frame) (s : State) : Option State :=
  s.answer p 0x21 f fun s u => match u with
    | .load i dst => some (if fStatus f == 0 then s.wrPay dst f.payload 0 (fPmask f) else s.fault i (statusCause (fStatus f)))
    | _ => none

def execLoadData (pt : Port) (f : Frame) (s : State) : Host.Outcome State Fault Refusal :=
  attempt s (unlessFrozen f (loadDataIn pt.val f) s)

def storeAckIn (p : Nat) (f : Frame) (s : State) : Option State :=
  s.answer p 0x22 f fun s u => match u with
    | .store i => some (if fStatus f == 0 then s else s.fault i (statusCause (fStatus f)))
    | _ => none

def execStoreAck (pt : Port) (f : Frame) (s : State) : Host.Outcome State Fault Refusal :=
  attempt s (unlessFrozen f (storeAckIn pt.val f) s)

def atomicDataIn (p : Nat) (f : Frame) (s : State) : Option State :=
  s.answer p 0x23 f fun s u => match u with
    | .atomic i dst =>
      some (if fStatus f == 0 then s.wrPay dst f.payload 0 (fPmask f) else s.fault i (statusCause (fStatus f)))
    | _ => none

def execAtomicData (pt : Port) (f : Frame) (s : State) : Host.Outcome State Fault Refusal :=
  attempt s (unlessFrozen f (atomicDataIn pt.val f) s)

/-- FILL_DATA (Table 12-9): the waiting loads are served; the line is kept unless NOCACHE or DOOMED. -/
def fillData (f : Frame) (s : State) : State :=
  match s.fcFind (fSrc f) (fAddr f / 256) with
  | none => s
  | some (k, l) =>
    if fStatus f != 0 then (l.waiting.foldl (fun s w => s.fault w.stream (statusCause (fStatus f))) s).setFc k none
    else
      let s := l.waiting.foldl (fun s w => s.landLoad w f.payload (fPmask f)) s
      if fNocache f || l.doomed then s.setFc k none
      else
        let s := s.setFc k (some { l with filling := false, ltag := fLtag f, data := f.payload, pmask := fPmask f, waiting := [] })
        { s with net := { s.net with fcNext := tput (fun _ => 0) s.net.fcNext (k / 8) ((k % 8 + 1) % 8) } }

def fillDataIn (p : Nat) (f : Frame) (s : State) : Option State :=
  let line := (s.reqOf p f).map fun r => fAddr r.frame
  s.answer p 0x24 f fun s u => match u with
    | .fill => some (fillData ⟨setFld f.hdr 64 48 (line.getD 0), f.payload⟩ s)
    | _ => none

def execFillData (pt : Port) (f : Frame) (s : State) : Host.Outcome State Fault Refusal :=
  attempt s (unlessFrozen f (fillDataIn pt.val f) s)

/-- INVAL_ACK: the last one clears INV_OPEN and releases the write's answer (R351). -/
def invalAckIn (p : Nat) (f : Frame) (s : State) : Option State :=
  s.answer p 0x26 f fun s u => match u with
    | .inval id =>
      let l := s.net.invs.map fun w => if w.id == id then { w with left := w.left - 1 } else w
      some ({ s with net := { s.net with invs := l } }.invsDone)
    | _ => none

def execInvalAck (pt : Port) (f : Frame) (s : State) : Host.Outcome State Fault Refusal :=
  attempt s (unlessFrozen f (invalAckIn pt.val f) s)

/-- The stream to node n on port p goes on from number q of RESYNC. -/
def State.resynced (s : State) (n p q : Nat) : State :=
  let l := s.net.reqs.filter fun r => !(r.node == n && r.port == p && r.use == .evict && seqAhead q r.seq)
  let s := s.setReqs l
  let s := if s.ctxState n == 1 then s.setCfgF (ctxA n) 8 3 0 else s
  s.resendStream n p

/-- RESYNC: every unanswered request of the stream is sent again; EVICTs before the expected number have arrived. -/
def resyncIn (p : Nat) (f : Frame) (s : State) : Option State :=
  s.letIn p 0x2F 2 f fun s =>
    some (s.resynced (fSrc f) p (fSeq f))

def execResync (pt : Port) (f : Frame) (s : State) : Host.Outcome State Fault Refusal :=
  attempt s (unlessFrozen f (resyncIn pt.val f) s)

-- ALARM from another device (R532)

/-- ALARM of another device, of payload w, is recorded and told to the host. -/
def State.alarmed (s : State) (w : Nat) : State :=
  let origin := bitsAt w 0 14
  (s.setIrq .pf 13).raise { mkErr 0 5 (origin % 256) 0xFF 0x0309 with
    detail := BitVec.ofNat 64 (origin + 2 ^ 16 * bitsAt w 32 16) }

def alarmIn (p : Nat) (f : Frame) (s : State) : Option State :=
  s.letIn p 0x0C 0 f fun s =>
    some (s.alarmed (leNat f.payload))

def execAlarm (pt : Port) (f : Frame) (s : State) : Host.Outcome State Fault Refusal := attempt s (alarmIn pt.val f s)

-- Lanes and ports (R318, R319, R457, R274)

/-- The contexts with requests on a port. -/
def State.nodesOn (s : State) (p : Nat) : List Nat :=
  (s.net.reqs.filter fun r => r.port == p).foldl (fun l r => nins l r.node) []

/-- The port leaves the usable set: its requests move (R340). -/
def State.leavePort (s : State) (p : Nat) : State := (s.nodesOn p).foldl (fun s n => s.moveStream n p) s

/-- The port is DOWN, with a UC record: cause 1 a second lane failure, 2 no spare, 3 the device's own node ID. -/
def State.takeDown (s : State) (p cause : Nat) : State :=
  let s := s.setLinkState p 0
  let s := s.raise { mkErr 2 3 (p / 12) p 0x0304 with detail := BitVec.ofNat 64 (p + 256 * cause) }
  s.leavePort p

/-- LANE_FAILURE (R318): SPARE is sent where a spare is free; otherwise the port goes down. -/
def laneFailure (p lane : Nat) (s : State) : Option State :=
  if !s.linkUp p then none
  else if s.spareFree p && lane < 4 then
    let t := s.gc + 1024
    some ((s.armSpare p lane t).sendCtl p 4 (lane + 256 * t))
  else
    -- lane 4 works only where it carries traffic: a failure of an idle spare takes the spare, not the port
    if lane == 4 && s.link p != 3 then
      some { s with net := { s.net with deadSpares := nins s.net.deadSpares p } }
    else some (s.takeDown p (if s.link p == 3 || (s.lnk p).spare.isSome then 1 else 2))

def execLaneFailure (pt : Port) (lane : Fin 5) (s : State) : Host.Outcome State Fault Refusal :=
  attempt s (laneFailure pt.val lane.val s)

/-- PORT_DOWN (R318): a further lane of a port without a spare left has failed. -/
def portDown (p : Nat) (s : State) : Option State :=
  if !s.linkUp p || s.spareFree p then none
  else some (s.takeDown p (if s.link p == 3 || (s.lnk p).spare.isSome then 1 else 2))

def execPortDown (pt : Port) (s : State) : Host.Outcome State Fault Refusal := attempt s (portDown pt.val s)

/-- A port on which training can end: switched on, in mode NATIVE or ETH, not held, and not UP. -/
def State.canTrain (s : State) (p : Nat) : Bool :=
  s.power (234 + p) == .on && s.portMode p != 0 && s.portMode p != 3 && !s.net.heldPorts.contains p && !s.linkUp p

/-- LINK_TRAINING_COMPLETE (R319, R457): LINK goes UP with PEER_NODE, or stays DOWN on the device's own node ID. -/
def linkTrained (p n : Nat) (s : State) : Option State :=
  if !s.canTrain p then none
  else if s.portMode p == 1 then
    let t := s.setCfgF (portA p + 8) 16 14 n
    if s.nodeAssigned && n == s.node then
      some ({ t with net := { t.net with heldPorts := nins t.net.heldPorts p } }.takeDown p 3)
    else some ((t.setLnk p linkReset).setLinkState p 2)
  else some ((s.setLnk p linkReset).setLinkState p 2)

def execLinkTrainingComplete (pt : Port) (peer : Node) (s : State) : Host.Outcome State Fault Refusal :=
  attempt s (linkTrained pt.val peer.val s)

/-- D2D_LINK_FAILURE (R274): a lane of a die-to-die module fails. Its repair is queued for a boundary while the module has
one of its 4 redundant lanes left; otherwise the link is lost, which is fatal. -/
def d2dFailure (u : Unit52) (link module lane : Nat) (s : State) : Option State :=
  let k := unitKey u
  let key := (k * 6 + link) * 16 + module
  let (kind, unit) : Fin 6 × Nat := match u with
    | .compute x => (0, x.val) | .memory m => (1, m.val) | .io i => (3, i.val) | .heartwood h => (4, h.val)
  let queued := (s.net.d2d.filter fun x => x.1 == k && x.2.1 == link && x.2.2.1 == module).length
  if s.net.d2dLost.contains (k, link) then none
  else if tget (fun _ => 0) s.net.d2dUsed key + queued < 4 then
    some { s with net := { s.net with d2d := s.net.d2d ++ [(k, link, module, lane)] } }
  else
    let s := { s with net := { s.net with d2dLost := s.net.d2dLost ++ [(k, link)] } }
    some (s.raise { mkErr 3 kind unit link 0x0302 with detail := BitVec.ofNat 64 link })

def execD2dLinkFailure (u : Unit52) (link : Fin 6) (module : Fin 16) (lane : Fin 64) (s : State) :
    Host.Outcome State Fault Refusal :=
  attempt s (d2dFailure u link.val module.val lane.val s)

end Sys2Proof.Machine
end

