-- ==== Sys2Proof/Machine/Collective.lean ====
section
/-! DEFINITION. The collective engines (R358 to R383) and the proof digests (R398 to R402). -/

namespace Sys2Proof.Machine

def ceIx (d : Nat) : Nat := 513 + 2 * d
/-- Group queue g (R358). -/
def cgA (g : Nat) : Nat := dieCfg (g / 64) + 0x60000 + 256 * (g % 64)
def State.cgEnabled (s : State) (g : Nat) : Bool := s.cfgF (cgA g) 0 1 == 1
def State.cgPart (s : State) (g : Nat) : Nat := s.cfgF (cgA g) 1 3
def State.cgCredits (s : State) (g : Nat) : Nat := s.cfgF (cgA g) 8 8
def State.cgSize (s : State) (g : Nat) : Nat := s.cfgF (cgA g) 16 14 + 1
def State.cgOwner (s : State) (g : Nat) : Nat := s.cfgF (cgA g) 32 12
def State.cgMembers (s : State) (g : Nat) : Nat := s.cfgF (cgA g) 48 16 + 2 ^ 16 * s.cfgF (cgA g + 8) 0 32
def State.cgVisit (s : State) (g : Nat) : Nat := s.cfgF (cgA g + 8) 32 32 + 2 ^ 32 * s.cfgF (cgA g + 16) 0 16
def State.cgVisitBit (s : State) (g : Nat) : Nat := s.cfgF (cgA g + 16) 16 3
def State.cgOpseq (s : State) (g : Nat) : Nat := s.cfgF (cgA g + 16) 32 16

-- Groups, units and delegates (R359 to R367)

/-- A group: its member entries (Table 13-2). -/
structure Grp where
  ents : List Nat
deriving DecidableEq, Repr

def Grp.r (g : Grp) : Nat := g.ents.length
def Grp.node (g : Grp) (m : Nat) : Nat := bitsAt (g.ents.getD m 0) 0 14
def Grp.queue (g : Grp) (m : Nat) : Nat := bitsAt (g.ents.getD m 0) 14 11
def Grp.starts (g : Grp) (l m : Nat) : Bool := if l == 4 then m == 0 else bitsAt (g.ents.getD m 0) (25 + l) 1 == 1
def Grp.gate (g : Grp) (m hall : Nat) : Nat := bitsAt (g.ents.getD m 0) (32 + 14 * hall) 14

def State.grp (s : State) (g : Nat) : Grp :=
  ⟨(List.range (s.cgSize g)).map fun m => s.rdN (s.cgMembers g + 16 * m) 16⟩

/-- The last start of a unit of level l at or below m. -/
def Grp.first (g : Grp) (l : Nat) : Nat → Nat
  | 0 => 0
  | m + 1 => if g.starts l (m + 1) then m + 1 else g.first l m

/-- The end of the unit of level l that holds the member before m. -/
def Grp.stop (g : Grp) (l : Nat) : Nat → Nat → Nat
  | 0, m => m
  | f + 1, m => if g.r ≤ m || g.starts l m then m else g.stop l f (m + 1)

/-- The unit of level l that holds m: first member and size (R360). -/
def Grp.unit (g : Grp) (l m : Nat) : Nat × Nat :=
  let f := g.first l m
  (f, g.stop l g.r (m + 1) - f)

def Grp.hall (g : Grp) (m : Nat) : Nat := (below (m + 1) fun k => g.starts 3 k).length - 1

/-- The levels of STAGES, ascending. -/
def stagesOf (x : Nat) : List Nat := below 5 fun l => bitsAt x l 1 == 1
/-- The highest set level below l. -/
def lowerOf (stages : List Nat) (l : Nat) : Option Nat := (stages.filter fun k => k < l).getLast?
/-- The sub-unit of stage l that holds m (R367). -/
def Grp.sub (g : Grp) (stages : List Nat) (l m : Nat) : Nat × Nat :=
  match lowerOf stages l with
  | some k => g.unit k m
  | none => (m, 1)
/-- The sub-units of a unit at stage l. -/
def Grp.subs (g : Grp) (stages : List Nat) (l : Nat) (u : Nat × Nat) : List (Nat × Nat) :=
  ((List.range u.2).filter fun k => match lowerOf stages l with
    | some j => g.starts j (u.1 + k)
    | none => true).map fun k => g.sub stages l (u.1 + k)

def inUnit (u : Nat × Nat) (m : Nat) : Bool := u.1 ≤ m && m < u.1 + u.2
/-- The delegate of R366. -/
def deleg (r : Nat) (u : Nat × Nat) : Nat := u.1 + (r + u.1 * u.2 - u.1) % u.2

/-- J of R364. -/
def levels (r : Nat) : Nat := if r ≤ 1 then 0 else Nat.log2 (r - 1) + 1

/-- The largest level of a node that starts at a and ends by b. -/
def nodeAt (r a b : Nat) : Nat → Nat
  | 0 => 0
  | j + 1 => if a % 2 ^ (j + 1) == 0 && min (a + 2 ^ (j + 1)) r ≤ b then j + 1 else nodeAt r a b j

/-- D(a, b) of R365. -/
def decompose (r : Nat) : Nat → Nat → Nat → List (Nat × Nat)
  | 0, _, _ => []
  | f + 1, a, b =>
    if b ≤ a then []
    else
      let j := nodeAt r a b (levels r)
      (j, a / 2 ^ j) :: decompose r f (min (a + 2 ^ j) r) b

def nodesOf (r : Nat) (u : Nat × Nat) : List (Nat × Nat) := decompose r u.2 u.1 (u.1 + u.2)

-- Operations

inductive CKind where
  | gather | scatter | allred | bcast | digest
deriving DecidableEq, Repr

def ckind (w : IWord) : CKind :=
  match opOf w with
  | 0xC0 => .gather
  | 0xC1 => .scatter
  | 0xC2 => .allred
  | 0xC3 => .bcast
  | _ => .digest

def CKind.reduces (k : CKind) : Bool := k == .scatter || k == .allred
def CKind.gathers (k : CKind) : Bool := k != .scatter
/-- OP of Table 13-5. -/
def CKind.op (k : CKind) (gather : Bool) : Nat :=
  match k with
  | .scatter => 0
  | .gather => 1
  | .allred => if gather then 3 else 2
  | .bcast => 4
  | .digest => 5

def cSrc (w : IWord) : Nat := fld w 128 14
def cDst (w : IWord) : Nat := fld w 142 14
def cGroup (w : IWord) : Nat := fld w 156 11
def cStages (w : IWord) : Nat := fld w 167 5
def cChunk (w : IWord) : Nat := fld w 176 8
def cMember (w : IWord) : Nat := fld w 184 32

def COp.kind (o : COp) : CKind := ckind o.word
def COp.group (o : COp) : Nat := cGroup o.word
def COp.member (o : COp) : Nat := cMember o.word
def COp.stages (o : COp) : List Nat := stagesOf (cStages o.word)

/-- S of R363. -/
def shardSize (n r : Nat) : Nat := 256 * ((n + 256 * r - 1) / (256 * r))
def shardLen (n r k : Nat) : Nat := min ((k + 1) * shardSize n r) n - k * shardSize n r

/-- First byte and length of shard k of an operation over r members. -/
def COp.shard (o : COp) (r k : Nat) : Nat × Nat :=
  if o.kind == .digest then (32 * k, 32) else (k * shardSize o.bytes r, shardLen o.bytes r k)
def COp.chunks (o : COp) (r k : Nat) : Nat := ((o.shard r k).2 + 2 ^ cChunk o.word - 1) / 2 ^ cChunk o.word
/-- First byte, in the whole operand, and length of a chunk. -/
def COp.chunk (o : COp) (r k q : Nat) : Nat × Nat :=
  let x := o.shard r k
  (x.1 + q * 2 ^ cChunk o.word, min (2 ^ cChunk o.word) (x.2 - q * 2 ^ cChunk o.word))
/-- The owner that a shard's gather starts from. -/
def COp.owner (o : COp) (k : Nat) : Nat := if o.kind == .bcast then 0 else k

/-- The byte range of n operand bytes from o, row by row (R363). -/
def operandRuns (x : Nat × Nat × Nat × Nat) : Nat → Nat → Nat → List (Nat × Nat)
  | 0, _, _ => []
  | f + 1, o, n =>
    let b := x.2.2.2
    if n == 0 || b == 0 then []
    else
      let k := min n (b - o % b)
      (x.1 + (o / b) * x.2.1 + o % b, k) :: operandRuns x f (o + k) (n - k)

def runsIn (x : Nat × Nat × Nat × Nat) (o n : Nat) : List (Nat × Nat) := operandRuns x (x.2.2.1 + 1) o n
def State.rdRuns (s : State) (l : List (Nat × Nat)) : List Byte := (l.map fun r => s.rd r.1 r.2).flatten

/-- Writes bytes over runs with the poison of a mask. -/
def State.wrRuns (s : State) : List (Nat × Nat) → List Byte → Nat → Nat → State
  | [], _, _, _ => s
  | (a, n) :: t, bs, o, mask => (s.wrPay a (bs.take n) o mask).wrRuns t (bs.drop n) (o + n) mask

/-- Poison mask of an operand's bytes. -/
def State.runMask (s : State) (l : List (Nat × Nat)) : Nat :=
  if s.anyPoison l then
    let bytes := (l.map fun r => (List.range r.2).map fun k => r.1 + k).flatten
    ((List.range ((bytes.length + 63) / 64)).filter fun k =>
      ((bytes.drop (64 * k)).take 64).any fun a => s.poison.contains (a / 64)).foldl (fun m k => m + 2 ^ k) 0
  else 0

-- What an operation owes (R367, R370, R372)

/-- The member that holds a gathered shard in the unit of level l around m, when `o` holds it in the unit above: the one
that received it, or the unit's delegate (log 41). -/
def Grp.actor (g : Grp) (o own l m : Nat) : Nat :=
  let u := g.unit l m
  if inUnit u o then o else deleg own u

/-- Stage by stage downwards: the stage and the member that acts in m's unit there. -/
def Grp.actors (g : Grp) (own m : Nat) : List Nat → Nat → List (Nat × Nat)
  | [], _ => []
  | l :: t, o =>
    let a := g.actor o own l m
    (l, a) :: g.actors own m t a

/-- Sends of the reduction at stage l. -/
def COp.reduceSends (o : COp) (g : Grp) (l : Nat) : List COut :=
  let m := o.member
  let v := g.sub o.stages l m
  let u := g.unit l m
  ((List.range g.r).map fun r =>
    if deleg r v == m && deleg r u != m then
      ((List.range (o.chunks g.r r)).map fun q =>
        (nodesOf g.r v).map fun n => (COut.mk false l r q n.1 n.2 (deleg r u))).flatten
    else []).flatten

/-- Sends of the gather at stage l. -/
def COp.gatherSends (o : COp) (g : Grp) (l : Nat) : List COut :=
  let m := o.member
  let u := g.unit l m
  ((List.range g.r).map fun r =>
    let own := o.owner r
    if (g.actors own m o.stages.reverse own).any fun x => x.1 == l && x.2 == m then
      ((List.range (o.chunks g.r r)).map fun q =>
        ((g.subs o.stages l u).filter fun v => !inUnit v m).map fun v => (COut.mk true l r q 0 0 (deleg own v))).flatten
    else []).flatten

def COp.sends (o : COp) (g : Grp) : List COut :=
  (if o.kind.reduces then (o.stages.map fun l => o.reduceSends g l).flatten else [])
    ++ (if o.kind.gathers then (o.stages.reverse.map fun l => o.gatherSends g l).flatten else [])

/-- Messages this member relays as a gate (R373): span sends of other halls' members to its hall that name it. -/
def COp.relayCount (o : COp) (g : Grp) : Nat :=
  let m := o.member
  let h := g.hall m
  if !o.stages.contains 4 then 0
  else
    ((List.range g.r).map fun x =>
      if g.hall x == h || g.gate x h != m then 0
      else
        let ox := { o with word := BitVec.ofNat 512 (setBits o.word.toNat 184 32 x) }
        let outs := (if o.kind.reduces then ox.reduceSends g 4 else [])
          ++ (if o.kind.gathers then ox.gatherSends g 4 else [])
        (outs.filter fun c => c.dest != m && g.hall c.dest == h).length).sum

-- Records

def State.cop (s : State) (id : Nat) : Option COp := s.ce.ops.find? fun o => o.id == id
def State.setCop (s : State) (o : COp) : State :=
  { s with ce := { s.ce with ops := s.ce.ops.map fun x => if x.id == o.id then o else x } }
def State.dropCop (s : State) (id : Nat) : State := { s with ce := { s.ce with ops := s.ce.ops.filter fun x => x.id != id } }
/-- The operation that runs on queue g. -/
def State.runningCop (s : State) (g : Nat) : Option COp := s.ce.ops.find? fun o => o.group == g && o.begun

/-- An operation ends in a fault (R382): no further message; the queue's later operations never begin (R362). -/
def State.cFail (s : State) (o : COp) (cause : Nat) : State :=
  let i := ceIx o.die
  let s := s.recordFault i cause o.pc
  let s := s.raise { s.engErr i 2 (0x100 + cause) with addr := o.pc, detail := s.cfgW (faultReg i) }
  let s := s.setStream i { s.stream i with st := .faulted, lock := 0, lockPast := false, lockHeld := false, granted := false, queue := false }
  s.setCop { o with failed := true, todo := [], resend := [] }

def State.cAccess (s : State) (o : COp) (addr : Nat) (iso : Bool) : State :=
  (s.accessError (ceIx o.die) addr iso).cFail o 0x68

-- Answers (R376)

def State.cSend (s : State) (i n : Nat) (m : Msg) : State :=
  let r := s.msgPort n
  let m := { m with port := r.1 }
  let s := if fld m.hdr 0 4 < 4 then r.2.countTx n m.port.val (32 + m.payload.length) else r.2
  (s.emit (.cmsg n m)).traceMsg i false true n m

def cmsgSealed (h : Nat) (pay : List Byte) (mask : Nat) : Msg :=
  let h := setBits h 160 32 (crc32c pay).toNat
  let h := setBits h 224 32 (crc32c ((natLe 32 h).take 28)).toNat
  ⟨BitVec.ofNat 256 h, pay, mask, 63⟩

/-- Both CRCs of a message hold (R375). -/
def cmsgCrcOk (m : Msg) : Bool :=
  fld m.hdr 224 32 == (crc32c ((msgHdrBytes m).take 28)).toNat && fld m.hdr 160 32 == (crc32c m.payload).toNat

/-- An answer copies header bytes 0 to 15 and replaces MTYPE. -/
def State.cAnswer (s : State) (i n : Nat) (m : Msg) (mtype : Nat) : State :=
  s.cSend i n (cmsgSealed (setBits (m.hdr.toNat % 2 ^ 128) 0 4 mtype) [] 0)

/-- The cells of used messages are released and their ACKs sent; a pool cause ends the operation. -/
def State.cAck (s : State) (id : Nat) : List (Nat × Msg × Nat) → State
  | [] => s
  | (n, m, head) :: t =>
    match s.cop id with
    | none => s
    | some o =>
      let p := s.partOfDie o.die
      let go (s : State) : State :=
        let s := if n == s.node then s else s.ingress p .c ((msgHdrBytes m).take 16) (fld m.hdr 160 32)
        (s.cAnswer (ceIx o.die) n m 4).cAck id t
      if head == 0 then go s
      else match s.release p head true with
        | .done s => go s
        | .bad c _ s => s.cFail o c

-- The reduction (R364 to R369)

/-- Element-wise sum of two nodes; an absent one is +0. -/
def addNodes : Option (List Byte) → Option (List Byte) → Option (List Byte)
  | none, none => none
  | some x, none => some (((cut 4 x).map fun a => natLe 4 (fadd (BitVec.ofNat 32 (leNat a)) 0#32).toNat).flatten)
  | none, some y => some (((cut 4 y).map fun a => natLe 4 (fadd (BitVec.ofNat 32 (leNat a)) 0#32).toNat).flatten)
  | some x, some y => some ((((cut 4 x).zip (cut 4 y)).map fun a =>
      natLe 4 (fadd (BitVec.ofNat 32 (leNat a.1)) (BitVec.ofNat 32 (leNat a.2))).toNat).flatten)

def canonBytes (x : List Byte) : List Byte :=
  ((cut 4 x).map fun a => natLe 4 (canon (BitVec.ofNat 32 (leNat a))).toNat).flatten

/-- Nodes of one chunk, and messages that have been used. -/
abbrev Nodes := List CVal × List (Nat × Msg × Nat)

def Nodes.find (v : Nodes) (j i : Nat) : Option CVal := v.1.find? fun x => x.j == j && x.i == i
def Nodes.drop (v : Nodes) (j i : Nat) : List CVal := v.1.filter fun x => !(x.j == j && x.i == i)

/-- value(j, i) of R367, as far as what has arrived allows. -/
def buildNode (r : Nat) : Nat → Nat → Nodes → Nodes
  | 0, _, v => v
  | j + 1, i, v =>
    if (v.find (j + 1) i).isSome then v
    else
      let v := buildNode r j (2 * i) v
      if r ≤ (2 * i + 1) * 2 ^ j then
        match v.find j (2 * i) with
        | some x => ({ x with j := j + 1, i := i } :: v.drop j (2 * i), v.2)
        | none => v
      else
        let v := buildNode r j (2 * i + 1) v
        match v.find j (2 * i), v.find j (2 * i + 1) with
        | some x, some y =>
          let rest : Nodes := (v.drop j (2 * i), [])
          (⟨x.shard, x.chunk, j + 1, i, addNodes x.body y.body, 0, []⟩ :: rest.drop j (2 * i + 1), v.2 ++ x.owed ++ y.owed)
        | _, _ => v

def COp.done (o : COp) (r q : Nat) : Nat :=
  match o.at_.find? fun x => x.1 == r && x.2.1 == q with
  | some x => x.2.2
  | none => 0

/-- The reduction of one chunk goes on as far as it can: the operation, and the messages used. -/
def COp.advance (g : Grp) (r q : Nat) : Nat → COp → COp × List (Nat × Msg × Nat)
  | 0, o => (o, [])
  | f + 1, o =>
    let k := o.done r q
    match o.stages[k]? with
    | none => (o, [])
    | some l =>
      let u := g.unit l o.member
      if deleg r u != o.member then (o, [])
      else
        let mine := o.vals.filter fun x => x.shard == r && x.chunk == q
        let others := o.vals.filter fun x => !(x.shard == r && x.chunk == q)
        let ns := nodesOf g.r u
        let v := ns.foldl (fun v n => buildNode g.r n.1 n.2 v) (mine, [])
        let o' := { o with vals := others ++ v.1 }
        if ns.all fun n => (v.find n.1 n.2).isSome then
          let x := { o' with at_ := (r, q, k + 1) :: o'.at_.filter fun a => !(a.1 == r && a.2.1 == q) }
          let y := x.advance g r q f
          (y.1, v.2 ++ y.2)
        else (o', v.2)

-- Writing DST

/-- Writes a chunk into DST: the whole operand, or the member's shard of a reduce-scatter. -/
def State.cWrite (s : State) (o : COp) (g : Grp) (r q : Nat) (bs : List Byte) (mask : Nat) : Except (Nat × Bool) (State × COp) :=
  let at0 := (o.chunk g.r r q).1
  let off := if o.kind == .scatter then at0 - (o.shard g.r r).1 else at0
  let runs := runsIn o.dst off bs.length
  match s.reach (s.partOfDie o.die) runs with
  | .bad a iso => .error (a, iso)
  | _ => .ok (s.wrRuns runs bs 0 mask, { o with missing := o.missing - bs.length })

/-- The root of a chunk that has been formed at its owner (R368, R369). -/
def State.cRoot (s : State) (g : Grp) (id r q : Nat) : State :=
  match s.cop id with
  | none => s
  | some o =>
    if o.done r q < o.stages.length then s
    else match o.vals.find? fun x => x.shard == r && x.chunk == q with
      | none => s
      | some x =>
        let bs := x.body.getD (List.replicate (o.chunk g.r r q).2 0)
        match s.cWrite o g r q bs 0 with
        | .error (a, iso) => s.cAccess o a iso
        | .ok (s, o) =>
          let o := { o with
            vals := o.vals.filter fun y => !(y.shard == r && y.chunk == q)
            held := if o.kind == .allred then o.held ++ [⟨r, q, 0, 0, some bs, 0, []⟩] else o.held }
          (s.setCop o).cAck id x.owed

/-- A chunk of a reduction after something arrived. -/
def State.cAdvance (s : State) (g : Grp) (id r q : Nat) : State :=
  match s.cop id with
  | none => s
  | some o =>
    let x := o.advance g r q 6
    ((s.setCop x.1).cAck id x.2).cRoot g id r q

-- Sending (R372 to R376)

/-- Unanswered messages of queue g to a node's queue. -/
def State.cOut (s : State) (g n q : Nat) : Nat :=
  ((s.ce.ops.filter fun o => o.group == g).map fun o => (o.sent.filter fun x => x.node == n && fld x.m.hdr 12 11 == q).length).sum

/-- The message of an item (R374): the member it goes to next, and its header and payload. -/
def State.cMsg (s : State) (o : COp) (g : Grp) (x : COut) (v : CVal) : Nat × Msg :=
  let m := o.member
  let h := g.hall x.dest
  let via := if x.stage == 4 && h != g.hall m then g.gate m h else x.dest
  let body := v.body.getD []
  let mtype := if x.gather then 3 else if v.body.isNone then 2 else 1
  let hdr := mtype + 16 * o.kind.op x.gather + 128 * x.stage + 1024 * boolNat (via != x.dest) + 2 ^ 12 * g.queue via
    + 2 ^ 23 * m + 2 ^ 37 * x.dest + 2 ^ 64 * x.shard + 2 ^ 78 * x.chunk + 2 ^ 94 * x.j + 2 ^ 98 * x.i
    + 2 ^ 112 * o.opseq + 2 ^ 132 * body.length + 2 ^ 192 * (s.stepOf (s.partOfDie o.die) % 65536)
  (via, cmsgSealed hdr body v.pmask)

/-- What an item needs is there. -/
def COp.ready (o : COp) (x : COut) : Option CVal :=
  if x.gather then o.held.find? fun v => v.shard == x.shard && v.chunk == x.chunk
  else if o.stages[o.done x.shard x.chunk]? == some x.stage then
    o.vals.find? fun v => v.shard == x.shard && v.chunk == x.chunk && v.j == x.j && v.i == x.i
  else none

inductive CSending where
  | sent (s : State)
  | wait (s : State)
  | bad (cause : Nat)

/-- One message to a node goes if it has credit and a way. -/
def State.cTry (s : State) (o : COp) (n : Nat) (m : Msg) (spanGate : Bool) : CSending :=
  if spanGate && n != s.node && s.ctxValid n && s.cfgF (ctxA n) 4 2 != 3 then .bad 0x63
  else if s.cgCredits o.group ≤ s.cOut o.group n (fld m.hdr 12 11) then .wait s
  else match s.wayTo (s.partOfDie o.die) n with
    | .wait => .wait s
    | .bad c => .bad c
    | .go =>
      if s.noPort n then .wait (s.suspect n)
      else
      let s := s.bumpCfg (cgA o.group + 24) 0 32 1
      let s := if fld m.hdr 0 4 == 2 then s.bumpCfg (cgA o.group + 32) 0 32 1 else s
      .sent (s.cSend (ceIx o.die) n m)

/-- Messages to be sent again, or relayed, as far as they can go. -/
def cPumpAgain (id : Nat) : List CSent → List CSent → State → State
  | [], kept, s =>
    match s.cop id with
    | some o => s.setCop { o with resend := kept.reverse }
    | none => s
  | x :: t, kept, s =>
    match s.cop id with
    | none => s
    | some o =>
      match s.cTry o x.node x.m false with
      | .wait s => cPumpAgain id t (x :: kept) s
      | .bad c => s.cFail o c
      | .sent s => cPumpAgain id t kept (s.setCop { o with sent := o.sent ++ [x] })

/-- Items in their order; in one stage none passes another (R372). -/
def cPumpList (g : Grp) (id : Nat) : List COut → List COut → List (Bool × Nat) → State → State
  | [], kept, _, s =>
    match s.cop id with
    | some o => s.setCop { o with todo := kept.reverse }
    | none => s
  | x :: t, kept, shut, s =>
    match s.cop id with
    | none => s
    | some o =>
      let lane := (x.gather, x.stage)
      let stay (s : State) : State := cPumpList g id t (x :: kept) (lane :: shut) s
      if shut.contains lane then cPumpList g id t (x :: kept) shut s
      else match o.ready x with
        | none => stay s
        | some v =>
          let y := s.cMsg o g x v
          let n := g.node y.1
          match s.cTry o n y.2 (x.stage == 4 && g.hall x.dest != g.hall o.member) with
          | .wait s => stay s
          | .bad c => s.cFail o c
          | .sent s =>
            let o := { o with
              sent := o.sent ++ [⟨x, n, y.2, if x.gather then [] else v.owed, false⟩]
              vals := if x.gather then o.vals else o.vals.filter fun z => z != v }
            cPumpList g id t kept shut (s.setCop o)

/-- Held chunks that nothing more needs are let go, and answered (R376). -/
def State.cFree (s : State) (id : Nat) : State :=
  match s.cop id with
  | none => s
  | some o =>
    let needed (v : CVal) : Bool :=
      (o.todo.any fun x => x.gather && x.shard == v.shard && x.chunk == v.chunk)
        || (o.sent.any fun x => x.out.gather && !x.relay && x.out.shard == v.shard && x.out.chunk == v.chunk)
        || (o.resend.any fun x => x.out.gather && !x.relay && x.out.shard == v.shard && x.out.chunk == v.chunk)
    let free := o.held.filter fun v => !needed v
    (s.setCop { o with held := o.held.filter needed }).cAck id ((free.map fun v => v.owed).flatten)

-- Completion (R381) and proofs (R398 to R402)

/-- The digest that the most members hold; among values held equally often, the lowest-numbered member's. -/
def reference (ds : List (List Byte)) : List Byte :=
  let count (x : List Byte) : Nat := (ds.filter fun y => y == x).length
  ds.foldl (fun best x => if count best < count x then x else best) (ds.headD [])

/-- The comparison of a due CDIGEST (R401, R402). -/
def State.compare (s : State) (p : Part) (o : COp) (r : Nat) : State :=
  let all := s.rdRuns (runsIn o.dst 0 (32 * r))
  let ds := cut 32 all
  let g := o.group
  let entry := s.cfgW (dieCfg o.die + 0x70000 + 8 * (g % 64))
  let cls := fld entry 0 2
  let pid := fld entry 16 32
  let t := s.part p.val
  let ref := reference ds
  let bad := below ds.length fun k => ds.getD k [] != ref
  let zero := List.replicate 32 (0 : Byte)
  let gate := (ds.any fun d => d == zero) && ds.any fun d => d != zero
  let s := if cls != 1 then s
    else if bad.isEmpty then
      { s with ce := { s.ce with proofOk := tput (fun _ => 0) s.ce.proofOk o.die (tget (fun _ => 0) s.ce.proofOk o.die + 1) } }
    else
      let s := s.notice (some p) 9 (natLe 4 t.stepNo.toNat ++ natLe 2 g ++ natLe 2 o.opseq ++ natLe 4 pid
        ++ natLe 2 bad.length ++ natLe 2 (bad.headD 0 + 2 ^ 14 * boolNat (bad.contains o.member) + 2 ^ 15 * boolNat gate)
        ++ [0, 0] ++ ref)
      s.setPart p.val { t with proofDue := t.proofDue || t.proofHold }
  if cls == 1 || cls == 2 then s.journalProof p g o.opseq pid r (sha256 all) else s

/-- The operation completes once it owes nothing (R381): its signals go. -/
def State.cCheck (s : State) (id : Nat) : State :=
  match s.cop id with
  | none => s
  | some o =>
    if o.failed || !o.begun || !o.todo.isEmpty || !o.sent.isEmpty || !o.resend.isEmpty || !o.held.isEmpty || !o.vals.isEmpty
        || o.missing != 0 || o.relays != 0 then s
    else
      let s := (s.dropCop id).sendSigs (ceIx o.die) o.word
      match s.partOfDie o.die with
      | some p => if o.kind == .digest && o.due then s.compare p o (s.cgSize o.group) else s
      | none => s

/-- An operation sends what it can, frees what it can, and completes if it can. -/
def State.cPump (s : State) (id : Nat) : State :=
  match s.cop id with
  | none => s
  | some o =>
    if o.failed || !o.begun then s
    else
      let s := cPumpAgain id o.resend [] s
      let g := s.grp o.group
      let s := match s.cop id with
        | some o => if o.failed then s else cPumpList g id o.todo [] [] s
        | none => s
      (s.cFree id).cCheck id

def State.cPumpAll (s : State) (d : Nat) : State :=
  (s.ce.ops.filter fun o => o.die == d).foldl (fun s o => s.cPump o.id) s

-- Receiving (R373 to R377)

/-- A message of stage l, for chunk q of shard r, is one that its sender owes this member. -/
def COp.expects (o : COp) (g : Grp) (m : Msg) : Bool :=
  let l := fld m.hdr 7 3
  let x := fld m.hdr 23 14
  let r := fld m.hdr 64 14
  let q := fld m.hdr 78 16
  let gather := fld m.hdr 0 4 == 3
  let me := o.member
  let u := g.unit l me
  let v := g.sub o.stages l x
  o.stages.contains l && (if gather then o.kind.gathers else o.kind.reduces) && fld m.hdr 4 3 == o.kind.op gather && x < g.r && x != me && r < g.r && q < o.chunks g.r r
    && inUnit u x && fld m.hdr 37 14 == me
    && fld m.hdr 132 20 == m.payload.length
    && m.payload.length == (if fld m.hdr 0 4 == 2 then 0 else (o.chunk g.r r q).2)
    && (if gather then
          let own := o.owner r
          let w := g.sub o.stages l me
          (g.actors own x o.stages.reverse own).any (fun a => a.1 == l && a.2 == x) && !inUnit w x && deleg own w == me
        else
          deleg r v == x && deleg r u == me && (nodesOf g.r v).contains (fld m.hdr 94 4, fld m.hdr 98 14))

def msgNode (m : Msg) : Nat × Nat × Nat × Nat × Nat :=
  (boolNat (fld m.hdr 0 4 == 3), fld m.hdr 64 14, fld m.hdr 78 16, fld m.hdr 94 4, fld m.hdr 98 14)

/-- A message that has landed, with its chain's head (R376). -/
def State.cLanded (s : State) (g : Grp) (id src : Nat) (m : Msg) (head : Nat) : State :=
  match s.cop id with
  | none => s
  | some o =>
    if o.failed then s
    else
      let s := if head == 0 then s else fillChain 4400 s head m.payload 0 m.pmask
      let r := fld m.hdr 64 14
      let q := fld m.hdr 78 16
      let owed := [(src, m, head)]
      if fld m.hdr 10 1 == 1 then
        -- a gate sends it on over its own hall
        let dest := fld m.hdr 37 14
        let h := setBits (setBits m.hdr.toNat 10 1 0) 12 11 (g.queue dest)
        let h := setBits h 224 32 (crc32c ((natLe 32 h).take 28)).toNat
        let fwd : Msg := ⟨BitVec.ofNat 256 h, m.payload, m.pmask, 63⟩
        let s := s.bumpCfg (cgA o.group + 32) 32 32 1
        let x : CSent := ⟨⟨fld m.hdr 0 4 == 3, 4, r, q, 0, 0, dest⟩, g.node dest, fwd, owed, true⟩
        (s.setCop { o with resend := o.resend ++ [x] }).cPump id
      else if fld m.hdr 0 4 == 3 then
        match s.cWrite o g r q m.payload m.pmask with
        | .error (a, iso) => s.cAccess o a iso
        | .ok (s, o) => (s.setCop { o with held := o.held ++ [⟨r, q, 0, 0, some m.payload, m.pmask, owed⟩] }).cPump id
      else if m.pmask != 0 then s.cFail o 0x68
      else
        let body := if fld m.hdr 0 4 == 2 then none else some m.payload
        let o := { o with vals := o.vals ++ [⟨r, q, fld m.hdr 94 4, fld m.hdr 98 14, body, 0, owed⟩] }
        ((s.setCop o).cAdvance g id r q).cPump id

/-- A partial's bytes get their well lines at the home: it lands, waits for a head, or fails the receive. -/
def State.cLandAlloc (s : State) (g : Grp) (o o' : COp) (src : Nat) (m : Msg) (own md : Nat) : Option State :=
  match s.allocAt (s.partOfDie o.die) md own m.payload.length with
  | .bad c _ => some (s.cFail o c)
  | .head a s => some ((s.setCop o').cLanded g o.id src m a)
  | .wait =>
    let id := s.xch.nextId
    let s1 : State := { s with
      xch := { s.xch with nextId := id + 1 }
      ce := { s.ce with waits := s.ce.waits ++ [CWait.mk id o.id src m] } }
    (s1.setCop o').queueReq md (PoolReq.mk (ceIx o.die) own m.payload.length (fld m.hdr 64 14) (id + 1))

/-- A message for the operation that runs: checked, given cells, and used (R376, R377). None: no room for its request. -/
def State.cTake (s : State) (o : COp) (src : Nat) (m : Msg) : Option State :=
  let g := s.grp o.group
  let relay := fld m.hdr 10 1 == 1
  if o.failed then some s
  else if relay && (o.relays == 0 || g.r ≤ fld m.hdr 37 14) then some (s.cFail o 0x66)
  else if !relay && !o.expects g m then some (s.cFail o 0x66)
  else if !relay && o.got.contains (msgNode m) then some ((s.cAnswer (ceIx o.die) src m 6).cFail o 0x67)
  else
    let o' := if relay then o else { o with got := o.got ++ [msgNode m] }
    if m.payload.isEmpty then some ((s.setCop o').cLanded g o.id src m 0)
    else
      let own := s.cgOwner o.group
      match s.homeDie o.die own (fld m.hdr 64 14) with
      | none => some (s.cFail o 0x30)
      | some md => s.cLandAlloc g o o' src m own md

def State.cBufBytes (s : State) (d : Nat) : Nat :=
  ((s.ce.buf.filter fun b => b.die == d).map fun b => 32 + b.m.payload.length).sum

/-- A is behind b, modulo 2^16. -/
def behind16 (a b : Nat) : Bool := let x := (b + 65536 - a) % 65536; 0 < x && x < 32768

/-- A NODE, ABSENT or DATA message arrives, to be used here or relayed. -/
def cArrive (ok : Msg → Bool) (src : Nat) (m : Msg) (s : State) : Option State :=
  let g := fld m.hdr 12 11
  let d := g / 64
  let i := ceIx d
  let p := s.partOfDie d
  if !ok m || !s.xeAwake d then none
  else
    let s := s.traceMsg i true true src m
    if !cmsgCrcOk m then
      let s := s.raise { mkErr 0 0 (s.physDie d) 0xFF 0x0305 with
        part := p, logical := BitVec.ofNat 16 d, detail := BitVec.ofNat 64 (m.port.val + 0x100 + 2 ^ 16 * g) }
      some (s.cAnswer i src m 5)
    else if src != s.node && (!s.ctxValid src || s.ctxState src == 2) then some (s.isolationDrop src 0 (s.physDie d))
    else
    let s := s.countRx src m.port.val (32 + m.payload.length)
    if !s.nodeIn p src then some ((s.nodeBreach p d src).cAnswer i src m 6)
    else if fld m.hdr 192 16 != s.stepOf p % 65536 || !s.cgEnabled g then some (s.cAnswer i src m 6)
    else
      let seq := fld m.hdr 112 16
      let run := s.runningCop g
      let now := match run with | some o => o.opseq | none => s.cgOpseq g
      if behind16 seq now then some (s.cAnswer i src m 6)
      else match run.filter fun o => o.opseq == seq with
        | some o => s.cTake o src m
        | none =>
          if 0x40000 < s.cBufBytes d + 32 + m.payload.length then none
          else some { s with ce := { s.ce with buf := s.ce.buf ++ [⟨d, src, m⟩] } }

def direct (mtype : Nat) (m : Msg) : Bool := fld m.hdr 0 4 == mtype && fld m.hdr 10 1 == 0

def execCmsgNode (src : Node) (m : Msg) (s : State) : Host.Outcome State Fault Refusal :=
  attempt s (cArrive (direct 1) src.val m s)
def execCmsgAbsent (src : Node) (m : Msg) (s : State) : Host.Outcome State Fault Refusal :=
  attempt s (cArrive (direct 2) src.val m s)
def execCmsgData (src : Node) (m : Msg) (s : State) : Host.Outcome State Fault Refusal :=
  attempt s (cArrive (direct 3) src.val m s)
def execCmsgRelay (src : Node) (m : Msg) (s : State) : Host.Outcome State Fault Refusal :=
  attempt s (cArrive (fun m => 1 ≤ fld m.hdr 0 4 && fld m.hdr 0 4 ≤ 3 && fld m.hdr 10 1 == 1) src.val m s)

/-- The operation and sent message that an answer from node n concerns: header bytes 0 to 15 but for MTYPE. -/
def State.cAnswered (s : State) (n : Nat) (m : Msg) : Option (COp × CSent) :=
  s.ce.ops.findSome? fun o =>
    (o.sent.find? fun x => x.node == n
      && setBits (x.m.hdr.toNat % 2 ^ 128) 0 4 (fld m.hdr 0 4) == m.hdr.toNat % 2 ^ 128).map fun x => (o, x)

/-- An ACK, NACK or REJECT (R376). -/
def cAnswerArrive (mtype src : Nat) (m : Msg) (s : State) : Option State :=
  if fld m.hdr 0 4 != mtype || !cmsgCrcOk m then none
  else match s.cAnswered src m with
    | none => none
    | some (o, x) =>
      if !s.xeAwake o.die then none
      else
        let s := (s.heard src).traceMsg (ceIx o.die) true true src m
        let o := { o with sent := o.sent.erase x }
        let s := s.setCop o
        let s :=
          if o.failed then s
          else if mtype == 4 then
            if x.relay then (s.setCop { o with relays := o.relays - 1 }).cAck o.id x.owed else s.cAck o.id x.owed
          else if mtype == 6 then
            if x.relay then
              let s := s.setCop { o with relays := o.relays - 1 }
              x.owed.foldl (fun s w =>
                let s := s.cAnswer (ceIx o.die) w.1 w.2.1 6
                if w.2.2 == 0 then s else match s.release (s.partOfDie o.die) w.2.2 true with
                  | .done s => s
                  | .bad c _ s => s.cFail o c) s
            else s.cFail o 0x65
          else if fld x.m.hdr 128 2 == 3 then s.cFail o 0x64
          else
            let h := setBits x.m.hdr.toNat 128 2 (fld x.m.hdr 128 2 + 1)
            let h := setBits h 224 32 (crc32c ((natLe 32 h).take 28)).toNat
            let s := s.bumpCfg (cgA o.group + 24) 32 32 1
            s.setCop { o with resend := o.resend ++ [{ x with m := { x.m with hdr := BitVec.ofNat 256 h } }] }
        some (s.cPumpAll o.die)

def execCmsgAck (src : Node) (m : Msg) (s : State) : Host.Outcome State Fault Refusal := attempt s (cAnswerArrive 4 src.val m s)
def execCmsgNack (src : Node) (m : Msg) (s : State) : Host.Outcome State Fault Refusal := attempt s (cAnswerArrive 5 src.val m s)
def execCmsgReject (src : Node) (m : Msg) (s : State) : Host.Outcome State Fault Refusal := attempt s (cAnswerArrive 6 src.val m s)

-- Beginning an operation (R362, R363, R369, R370)

/-- The contribution is absent (R369). -/
def State.isAbsent (s : State) (g stepNo : Nat) : Bool :=
  let a := s.cgVisit g
  a != 0 && (let e := s.rdN a 16
    let visited := if bitsAt e 32 32 == stepNo then bitsAt e 0 8 else 0
    bitsAt visited (s.cgVisitBit g) 1 == 0)

/-- The chunks of shard r, each with its bytes in SRC from offset `base`. -/
def COp.srcChunks (o : COp) (n r base : Nat) : List (Nat × List (Nat × Nat)) :=
  (List.range (o.chunks n r)).map fun q =>
    (q, runsIn o.src ((o.chunk n r q).1 - base) (o.chunk n r q).2)

/-- The live extent of a CDIGEST's tensor. -/
def COp.liveRows (o : COp) : List (Nat × Nat) := (List.range o.live).map fun r => (o.src.1 + r * o.src.2.1, o.src.2.2.2)

/-- The 16 bytes before the live extent in a digest. -/
def Desc.digestHead (d : Desc) : List Byte :=
  natLe 4 d.tid ++ natLe 4 d.fmt ++ natLe 4 (if d.format.ts then d.ts.toNat else 0) ++ natLe 4 d.live

/-- The digest of R398, or zero bytes where the step is not due. -/
def State.digestOf (s : State) (o : COp) : List Byte :=
  if !o.due then List.replicate 32 0 else sha256 (o.head ++ s.rdRuns o.liveRows)

/-- The operation's own data: nodes of a reduction, chunks of a gather, and the runs of memory they are read from. -/
def State.cOwn (s : State) (o : COp) (g : Grp) : List CVal × List CVal :=
  let m := o.member
  if o.kind.reduces then
    (((List.range g.r).map fun r => (o.srcChunks g.r r 0).map fun c =>
      CVal.mk r c.1 0 m (if o.absent then none else some (canonBytes (s.rdRuns c.2))) 0 []).flatten, [])
  else match o.kind with
    | .digest => ([], [⟨m, 0, 0, 0, some (s.digestOf o), 0, []⟩])
    | .bcast =>
      if m != 0 then ([], [])
      else ([], ((List.range g.r).map fun r => (o.srcChunks g.r r 0).map fun c =>
        CVal.mk r c.1 0 0 (some (s.rdRuns c.2)) (s.runMask c.2) []).flatten)
    | _ => ([], (o.srcChunks g.r m (o.shard g.r m).1).map fun c => CVal.mk m c.1 0 0 (some (s.rdRuns c.2)) (s.runMask c.2) [])

/-- Own gathered chunks go into DST first. -/
def cOwnWrites (g : Grp) (id : Nat) : List CVal → State → State
  | [], s => s
  | v :: t, s =>
    match s.cop id with
    | none => s
    | some o =>
      if o.failed then s
      else match s.cWrite o g v.shard v.chunk (v.body.getD []) v.pmask with
        | .error (a, iso) => s.cAccess o a iso
        | .ok (s, o) => cOwnWrites g id t (s.setCop { o with held := o.held ++ [v] })

/-- Messages of this operation that waited in the buffer, in their order (R377). -/
def State.cReplay (s : State) (g id opseq : Nat) : State :=
  let mine (b : XWait) : Bool := fld b.m.hdr 12 11 == g && fld b.m.hdr 112 16 == opseq
  let todo := s.ce.buf.filter mine
  let s := { s with ce := { s.ce with buf := s.ce.buf.filter fun b => !mine b } }
  todo.foldl (fun s b =>
    match s.cop id with
    | none => s
    | some o => (s.cTake o b.src b.m).getD { s with ce := { s.ce with buf := s.ce.buf ++ [b] } }) s

/-- An operation as it begins on queue g: absent or due, with its OPSEQ. -/
def State.cePrepared (s : State) (o : COp) (g : Nat) : COp :=
  let absent := o.kind.reduces && s.isAbsent g (s.stepOf (s.partOfDie o.die))
  let due := o.kind == .digest && s.cfgF (dieCfg o.die + 0x148) 0 1 == 1
  { o with absent := absent, due := due, opseq := s.cgOpseq g }

/-- What a prepared operation reads of its SRC. -/
def COp.reads (o : COp) : List (Nat × Nat) :=
  if o.kind == .digest then (if o.due then o.liveRows else [])
  else if o.absent then [] else runsIn o.src 0 (o.src.2.2.1 * o.src.2.2.2)

/-- A prepared operation begins: OPSEQ advances, its own parts are taken, and messages that waited for it are used. -/
def State.ceStart (s : State) (o : COp) (g : Nat) : State :=
  let gr := s.grp g
  let s := s.setCfgF (cgA g + 16) 32 16 (o.opseq + 1)
  let own := s.cOwn o gr
  let o := { o with
    begun := true, vals := own.1, todo := o.sends gr, relays := o.relayCount gr
    missing := if o.kind == .scatter then (o.shard gr.r o.member).2 else if o.kind == .digest then 32 * gr.r else o.bytes }
  let s := cOwnWrites gr o.id own.2 (s.setCop o)
  let s := if o.kind.reduces then
      (own.1.map fun v => (v.shard, v.chunk)).foldl (fun s x => s.cAdvance gr o.id x.1 x.2) s
    else s
  (s.cPump o.id).cReplay g o.id o.opseq

/-- CE_OPERATION_BEGIN on queue g. -/
def ceBegin (g : Nat) (s : State) : Option State :=
  match s.ce.ops.find? fun o => o.group == g with
  | none => none
  | some o =>
    if o.begun || o.failed || !s.xeAwake o.die then none
    else
      let o := s.cePrepared o g
      match s.reach (s.partOfDie o.die) o.reads with
      | .bad a iso => some (s.cAccess o a iso)
      | .sleeping k => some (s.requestWake k)
      | .ok =>
        if (o.kind.reduces || o.kind == .digest) && s.anyPoison o.reads then some (s.cFail o 0x68)
        else some (s.ceStart o g)

def execCeOperationBegin (g : Fin 2048) (s : State) : Host.Outcome State Fault Refusal := attempt s (ceBegin g.val s)

-- Acceptance (R358, R361 to R363, R371)

/-- STAGES obeys R371: its highest level has exactly one unit. -/
def Grp.stagesOk (g : Grp) (x : Nat) : Bool :=
  match (stagesOf x).getLast? with
  | none => false
  | some l => g.unit l 0 == (0, g.r)

/-- The member entry m names this node and this queue (R361). -/
def State.memberOk (s : State) (g : Grp) (q m : Nat) : Bool := m < g.r && g.node m == s.node && g.queue m == q

/-- An operand of a CE instruction: none for a null handle. -/
def operandOf (h : Nat) (x : Nat × Nat × Desc) : Option Desc := if nullH h then none else some x.2.2

def Desc.packed (d : Desc) : Nat := d.rows * d.format.rowBytes d.cols
def Desc.shape (d : Desc) : Nat × Nat × Nat × Nat := (d.base, d.stride, d.rows, d.format.rowBytes d.cols)

/-- N of R363. -/
def cBytes (k : CKind) (src dst : Option Desc) : Nat :=
  match if k.reduces then src else dst with
  | some d => d.packed
  | none => 0

/-- An operand holds exactly n bytes, null where n is 0. -/
def holdsBytes (n : Nat) : Option Desc → Bool
  | none => n == 0
  | some d => n != 0 && d.packed == n

def isFmt (f : Nat) : Option Desc → Bool
  | none => true
  | some d => d.fmt == f

/-- Tables 13-3 and R363 hold. -/
def cSizes (k : CKind) (r m chunk : Nat) (src dst : Option Desc) : Bool :=
  let n := cBytes k src dst
  12 ≤ chunk && chunk ≤ 19 && (shardSize n r + 2 ^ chunk - 1) / 2 ^ chunk ≤ 65536 &&
  (match k with
   | .scatter => src.isSome && isFmt 1 src && isFmt 1 dst && holdsBytes (shardLen n r m) dst
   | .allred => src.isSome && isFmt 1 src && isFmt 1 dst && dst.isSome && holdsBytes n dst
      && (match src, dst with
          | some a, some b => !((runsIn a.shape 0 n).any fun x => (runsIn b.shape 0 n).any fun y => overlaps x.1 x.2 y.1 y.2)
          | _, _ => true)
   | .gather => dst.isSome && holdsBytes (shardLen n r m) src
   | .bcast => dst.isSome && (if m == 0 then src.isSome && holdsBytes n src else src.isNone)
   | .digest => src.isSome && dst.isSome && isFmt 0 dst && n == 32 * r)

/-- What a CE instruction breaks once its group is known (R361 to R363, R371). -/
def State.ceCauses (s : State) (i : Nat) (t : StreamSt) (w : IWord) : List Nat :=
  let g := cGroup w
  let gr := s.grp g
  let sx := s.xDesc i t w (cSrc w)
  let dx := s.xDesc i t w (cDst w)
  let src := operandOf (cSrc w) sx
  let dst := operandOf (cDst w) dx
  (if gr.stagesOk (cStages w) then [] else [0x60]) ++ (if s.memberOk gr g (cMember w) then [] else [0x61])
    ++ (if s.xGiven i sx && s.xGiven i dx && !cSizes (ckind w) gr.r (cMember w) (cChunk w) src dst then [0x62] else [])
    ++ (if s.anyPoison [(s.cgMembers g, 16 * s.cgSize g)] then [0x68] else [])
    ++ (if src.isSome then s.xDescCauses i sx false else []) ++ (if dst.isSome then s.xDescCauses i dx false else [])

/-- A CE operation joins its queue; its instruction retires (Table 5-7). -/
def State.ceAccept (s : State) (i : Nat) (t : StreamSt) (w : IWord) : State :=
  let src := operandOf (cSrc w) (s.xDesc i t w (cSrc w))
  let dst := operandOf (cDst w) (s.xDesc i t w (cDst w))
  let shape (x : Option Desc) : Nat × Nat × Nat × Nat := match x with | some y => y.shape | none => (0, 0, 0, 0)
  let o : COp := ⟨s.xch.nextId, ixDie i, t.pc, w, false, false, 0, false, false, cBytes (ckind w) src dst, shape src,
    shape dst, (src.map Desc.digestHead).getD [], ((src.map fun x => x.live).getD 0), [], [], [], [], [], [], [], 0, 0⟩
  let s := ((s.traceIssue i t w).setStream i t.next).bumpCtr i 0 4
  { s with
    xch := { s.xch with nextId := s.xch.nextId + 1 }
    ce := { s.ce with ops := s.ce.ops ++ [o] } }

/-- The instruction's queue is no queue of its die and partition that may run (R358). -/
def State.ceQueueBad (s : State) (i : Nat) (w : IWord) : Bool :=
  let g := cGroup w
  g / 64 != ixDie i || !s.cgEnabled g || (match s.partOf i with | some q => q.val != s.cgPart g | none => true)

/-- A CE instruction after its waits. -/
def runCe (i : Nat) (s : State) (t : StreamSt) (w : IWord) : Ran :=
  if 16 ≤ (s.ce.ops.filter fun o => o.die == ixDie i && !o.failed).length then .full
  else if s.ceQueueBad i w then .fault 0x60
  else
    match s.reach (s.partOf i) [(s.cgMembers (cGroup w), 16 * s.cgSize (cGroup w))] with
    | .bad a iso => .bad 0x68 a iso
    | .sleeping z => .asleep z
    | .ok =>
      match minCause (s.ceCauses i t w) with
      | some c => .fault c
      | none => .done (s.ceAccept i t w)

/-- BAD_HANDLE of the two handle fields. -/
def cHandles (i : Nat) (t : StreamSt) (w : IWord) : List Nat :=
  if [cSrc w, cDst w].any fun h => !nullH h && (handle14 i t w h).isNone then [0x81] else []

def execCe (op : Nat) (st : Stream) (s : State) : Option State :=
  issue st (isOp op) (fun _ t w => cHandles (streamIx st) t w) (runCe (streamIx st)) s

/-- CREDSCAT (R367). -/
def execCredscat (st : Stream) (s : State) : Host.Outcome State Fault Refusal := attempt s (execCe 0xC1 st s)
/-- CALLRED (R370). -/
def execCallred (st : Stream) (s : State) : Host.Outcome State Fault Refusal := attempt s (execCe 0xC2 st s)
/-- CGATHER (R370). -/
def execCgather (st : Stream) (s : State) : Host.Outcome State Fault Refusal := attempt s (execCe 0xC0 st s)
/-- CBCAST (R370). -/
def execCbcast (st : Stream) (s : State) : Host.Outcome State Fault Refusal := attempt s (execCe 0xC3 st s)
/-- CDIGEST (R370, R398). -/
def execCdigest (st : Stream) (s : State) : Host.Outcome State Fault Refusal := attempt s (execCe 0xC4 st s)

-- Waiting landings of both kinds of engine (R228, R254, R377)

/-- A chain granted to a message that waited. -/
def State.cWaitLanded (s : State) (id head : Nat) : State :=
  match s.ce.waits.find? fun w => w.id == id with
  | none => s
  | some w =>
    let s := { s with ce := { s.ce with waits := s.ce.waits.filter fun x => x.id != id } }
    match s.cop w.op with
    | none => s
    | some o => s.cLanded (s.grp o.group) w.op w.src w.m head

/-- Waiters of a region granted in queue order, up to the first that cannot be (R254). -/
def grantWaiters (m r : Nat) : Nat → State → State
  | 0, s => s
  | f + 1, s =>
    match s.waiters (regKey m r) with
    | [] => s
    | q :: t =>
      if s.frozenDie (ixDie q.stream) then s else match s.allocAt (s.partOf q.stream) m q.owner q.bytes with
      | .wait => s
      | .bad c iso => grantWaiters m r f ((s.setWaiters m r t).poolFault q.stream c iso)
      | .head a s =>
        let s := s.setWaiters m r t
        let s := if q.use == 0 then { s with pool := { s.pool with granted := s.pool.granted ++ [(q, a)] } }
          else if s.ce.waits.any fun w => w.id == q.use - 1 then s.cWaitLanded (q.use - 1) a
          else s.waitLanded (q.use - 1) a
        grantWaiters m r f s

def execPoolWaiterGrant (m : MDie) (r : Fin 64) (s : State) : Host.Outcome State Fault Refusal :=
  attempt s (if s.power (memKey m.val) != .on then none else some (grantWaiters m.val r.val 256 s))

-- A SUSPECT context (R354)

/-- SUSPECT_RESEND: the oldest request of a SUSPECT context, every 65,536 ticks, on any usable port (R354). With no request
tracked, the exchange and collective messages that wait for the context go (log 64). -/
def suspectResend (n : Nat) (s : State) : Option State :=
  match s.reqsOf n, s.usable n with
  | r :: _, u :: us =>
    if s.ctxState n != 1 || s.gc < r.sentAt + 65536 then none
    else some (if (u :: us).contains r.port then s.resendReq r else s.moveReq r u)
  | [], _ :: _ =>
    if s.ctxState n != 1 then none
    else
      let t := (List.range 32).foldl (fun s d => (s.pumpDie d).cPumpAll d) (s.setCfgF (ctxA n) 8 3 0)
      if t.out.length == s.out.length then none else some (t.setCfgF (ctxA n) 8 3 1)
  | _, _ => none

def execSuspectResend (n : Node) (s : State) : Host.Outcome State Fault Refusal := attempt s (suspectResend n.val s)

end Sys2Proof.Machine
end

