-- ==== Sys2Proof/Machine/Time.lean ====
section
/-! DEFINITION. The global count across dies and devices (R406 to R417): discipline, count states, PTP, beacons, and the
count copies of the logic dies. -/

namespace Sys2Proof.Machine

-- Count registers (Table 15-1)

def State.gcState (s : State) : Nat := s.cfgF (hwReg 0x2008) 0 3
def State.gcSrc (s : State) : Nat := s.cfgF (hwReg 0x2008) 4 6
def State.gcErr (s : State) : Nat := s.cfgF (hwReg 0x2008) 32 32

/-- A partition is ARMED, RUNNING or HELD. -/
def State.anyActive (s : State) : Bool := (List.range 8).any fun p => [4, 5, 6].contains (s.part p).state

/-- The device's bound of R415, in 1/16 tick. -/
def State.gcBound (s : State) : Nat := if s.time.role == 3 then 25 * 16 else if s.time.role == 2 then 21 * 16 else 0

/-- The configured partitions. -/
def State.configured (s : State) : List Part := (List.finRange 8).filter fun p => (s.platePart p.val).isSome

/-- A change of count state: a TIME notice to every partition, and a record of LOST (R416). -/
def State.setGcState (s : State) (v : Nat) : State :=
  let old := s.gcState
  if old == v then s
  else
    let s := s.setCfgF (hwReg 0x2008) 0 3 v
    let s := if v == 2 then s.setCfgW (hwReg 0x2018) (BitVec.ofNat 64 s.gc) else s
    let body := natLe 1 old ++ natLe 1 v ++ natLe 2 s.gcSrc ++ natLe 4 s.gcErr ++ natLe 4 (s.cfgF (hwReg 0x2010) 0 32)
    let s := s.configured.foldl (fun s p => s.notice (some p) 11 body) s
    if v == 4 then
      s.takeEvent { mkErr 0 4 s.mgmt.active 0xFF 0x0503 with stamp := s.gc, detail := BitVec.ofNat 64 s.gcErr }
    else s

/-- The master count has moved by d against the copies of the other logic dies (R408). -/
def State.shiftCopies (s : State) (d : Int) : State :=
  let l := below 52 fun k => k != 50 + s.mgmt.active
  { s with time := { s.time with copies := l.foldl (fun c k => tput (fun _ => 0) c k (tget (fun _ => 0) c k - d)) s.time.copies } }

/-- The count steps forward by n ticks, or will hold for n ticks. -/
def State.stepCount (s : State) (n : Nat) : State := { s with gc := s.gc + n }.shiftCopies n
def State.holdCount (s : State) (n : Nat) : State :=
  { s with time := { s.time with hold := s.time.hold + n } }.shiftCopies (-(n : Int))

/-- How the count follows a measured offset in 1/16 tick (R407): a realignment while LOCKING or LOST with no partition
active, else a correction of one tick, at most one in 256 ticks. -/
def State.discipline (s : State) (off : Int) : State :=
  let t := s.time
  if (s.gcState == 1 || s.gcState == 4) && !s.anyActive then
    if 16 ≤ off then s.stepCount (off / 16).toNat
    else if off ≤ -16 then s.holdCount (-off / 16).toNat
    else s
  else if decide (16 ≤ off) || decide (off ≤ -16) then
    let free := match t.corrAt with | none => true | some c => decide (c + 256 ≤ s.gc)
    if !free then s
    else
      let s := s.bumpCfg (hwReg 0x2010) 32 32 1
      let s := { s with time := { s.time with corrAt := some s.gc } }
      if 0 < off then s.stepCount 1 else s.holdCount 1
  else s

/-- The port the device takes its time from now (R411): the primary, or the second while the primary has been silent for
2^20 ticks. -/
def State.heardAt (s : State) (p : Nat) : Nat := max s.time.since (tget (fun _ => 0) s.time.last p)

/-- The source's port, the steps, the estimate and the offset that an update leaves in the registers (R411, R414). -/
def State.timeSample (s : State) (p : Nat) (off : Int) (steps : Option Nat) : State :=
  let s := s.setCfgF (hwReg 0x2008) 4 6 p
  let w := Config.freeWord s.freeCount
  let s := { s with freeCount := s.freeCount + 1 }
  let s := s.setCfgF (hwReg 0x2008) 16 8 (match steps with | some n => n + 1 | none => fld w 32 8)
  let s := s.setCfgF (hwReg 0x2008) 32 32 (fld w 0 32)
  s.setCfgF (hwReg 0x2010) 0 32 (off % 2 ^ 32).toNat

/-- The run of consecutive updates within 32 ticks. -/
def State.timeRun (s : State) (off : Int) : State :=
  { s with time := { s.time with
    run := if decide (-32 ≤ off) && decide (off ≤ 32) then s.time.run + 1 else 0 } }

/-- The state of the count after an update (R416), and its discipline. -/
def State.timeState (s : State) (off : Int) : State :=
  let s := if s.gcState == 0 then s.setGcState 1 else s
  let inBound := decide (s.gcErr ≤ s.gcBound)
  let s := if 16 ≤ s.time.run && inBound && s.gcState != 2 then s.setGcState 2
    else if !inBound && (s.gcState == 2 || s.gcState == 3) then s.setGcState 4
    else s
  s.discipline off

/-- An update from a SOURCE port: offset in 1/16 tick, and the sender's hops and error where it gives them. What GC_STEPS
and GC_ERR_EST become is left open (log 10). -/
def State.timeUpdate (s : State) (p : Nat) (off : Int) (steps : Option Nat) : State :=
  let first := match s.time.sources with | a :: _ => a | [] => 63
  let quiet := decide (s.heardAt first + 2 ^ 20 ≤ s.gc)
  let s := { s with time := { s.time with last := tput (fun _ => 0) s.time.last p s.gc } }
  if p != first && !quiet then s
  else
    (((s.timeSample p off steps).timeRun off).timeState off)

/-- SOURCE_TIMEOUT (R411, R416): the source in use has delivered no update for 2^20 ticks. -/
def sourceTimeout (s : State) : Option State :=
  let live := s.time.sources.filter fun p => s.gc < s.heardAt p + 2 ^ 20 && decide (0 < tget (fun _ => 0) s.time.last p)
  if s.gcSrc == 63 || s.gc < s.heardAt s.gcSrc + 2 ^ 20 then none
  else match live with
    | p :: _ => some (s.setCfgF (hwReg 0x2008) 4 6 p)
    | [] => if s.gcState == 2 then some ({ s with time := { s.time with growAt := s.gc } }.setGcState 3) else none

def execSourceTimeout (s : State) : Host.Outcome State Fault Refusal := attempt s (sourceTimeout s)

/-- ERR_EST_GROWTH (R416): in HOLDOVER the estimate grows by 1/16 tick every 16,384 ticks. -/
def errEstGrowth (s : State) : Option State :=
  if s.gcState != 3 || s.gc < s.time.growAt + 16384 then none
  else
    let s := { s with time := { s.time with growAt := s.time.growAt + 16384 } }
    let s := s.bumpCfg (hwReg 0x2008) 32 32 1
    some (if s.gcBound < s.gcErr then s.setGcState 4 else s)

def execErrEstGrowth (s : State) : Host.Outcome State Fault Refusal := attempt s (errEstGrowth s)

-- Port roles (Table 15-2)

def timeA (p : Nat) : Nat := portA p + 0x30
def State.tRole (s : State) (p : Nat) : Nat := s.cfgF (timeA p) 0 2
def State.tPtp (s : State) (p : Nat) : Bool := s.cfgF (timeA p) 2 1 == 1
/-- ASYM in 1/16 tick. -/
def State.tAsym (s : State) (p : Nat) : Int := sext 16 (s.cfgF (timeA p) 16 16)

def State.beaconPort (s : State) (p role : Nat) : Bool := s.native p && s.tRole p == role && !s.tPtp p
def State.ptpPort (s : State) (p role : Nat) : Bool := s.portMode p == 2 && s.linkUp p && s.tRole p == role && s.tPtp p
    && s.nodeAssigned

-- Beacons between devices (R413, R417)

/-- BEACON: rx is the receive timestamp in 1/256 tick. -/
def beaconIn (p : Nat) (f : Frame) (rx : Nat) (s : State) : Option State :=
  if !s.portLive p || fOp f != 9 then none
  else
    let s := s.takeArrived p f
    if fDst f != s.node || fClass f != 1 || f.payload.length != 32 || fLen f != 32 then some (s.dropFrame p)
    else
      let w := leNat f.payload
      let state := bitsAt w 80 3
      if !s.beaconPort p 1 || (state != 2 && state != 3) || bitsAt w 112 14 != s.time.root then some s
      else
        let delay : Int := 128 * s.cfgF (portA p + 8) 32 32 + 16 * s.tAsym p
        let off : Int := ((256 * bitsAt w 0 64 + bitsAt w 64 8 : Nat) : Int) + delay - rx
        some (s.timeUpdate p (off / 16) (some (bitsAt w 72 8)))

def execBeacon (pt : Port) (f : Frame) (rx : Nat) (s : State) : Host.Outcome State Fault Refusal :=
  attempt s (beaconIn pt.val f rx s)

/-- The tick from which a port may send its next BEACON or Sync. -/
def State.sendDue (s : State) (p period : Nat) : Bool :=
  let t := tget (fun _ => 0) s.time.sentAt p
  t == 0 || decide (t - 1 + period ≤ s.gc)

def State.noteSent (s : State) (p : Nat) : State :=
  { s with time := { s.time with
    sentAt := tput (fun _ => 0) s.time.sentAt p (s.gc + 1)
    bseq := tput (fun _ => 0) s.time.bseq p ((tget (fun _ => 0) s.time.bseq p + 1) % 65536) } }

/-- The payload of BEACON (Table 15-4), its TX_FRAC given. -/
def State.beaconBody (s : State) (p : Nat) (frac : List Byte) : List Byte :=
  let root := if s.time.role == 1 then s.node else s.time.root
  natLe 8 s.gc ++ frac ++ natLe 1 (s.cfgF (hwReg 0x2008) 16 8) ++ natLe 2 s.gcState
    ++ natLe 2 (tget (fun _ => 0) s.time.bseq p) ++ natLe 2 root ++ natLe 4 s.gcErr ++ List.replicate 12 0

/-- A BEACON leaves port p. -/
def State.beaconOut (s : State) (p : Nat) : State :=
  let d := s.drawBytes 1
  (d.2.noteSent p).sendFrame p (d.2.mkFrame 1 9 (d.2.cfgF (portA p + 8) 16 14) (d.2.beaconBody p d.1))

/-- BEACON_SEND: TX_FRAC is the port's own measure within the tick, a free value (log 3). -/
def beaconSend (p : Nat) (s : State) : Option State :=
  if !s.beaconPort p 2 || !s.nodeAssigned || !s.sendDue p 16384 then none
  else some (s.beaconOut p)

def execBeaconSend (pt : Port) (s : State) : Host.Outcome State Fault Refusal := attempt s (beaconSend pt.val s)

-- PTP (R412)

def State.ptp (s : State) (p : Nat) : Option PtpSt := tget (fun _ => none) s.time.ptp p
def State.setPtp (s : State) (p : Nat) (x : Option PtpSt) : State :=
  { s with time := { s.time with ptp := tput (fun _ => none) s.time.ptp p x } }

/-- The count in 1/16 tick, as a transmit timestamp (log 11). -/
def State.stamp16 (s : State) : Int := 16 * (s.gc : Int)

/-- Sync with its origin time known: a Delay_Req leaves. -/
def State.sendDelayReq (s : State) (p : Nat) (x : PtpSt) : State :=
  (s.setPtp p (some { x with t3 := some s.stamp16 })).emit (.ptp p 1 x.seq s.stamp16)

def ptpSync (p : Nat) (twoStep : Bool) (seq : W16) (t1 t2 : Int) (s : State) : Option State :=
  if !s.ptpPort p 1 then none
  else if twoStep then some (s.setPtp p (some ⟨seq, none, t2, none⟩))
  else some (s.sendDelayReq p ⟨seq, some t1, t2, none⟩)

def execPtpSync (pt : Port) (twoStep : Bool) (seq : W16) (t1 t2 : Int) (s : State) : Host.Outcome State Fault Refusal :=
  attempt s (ptpSync pt.val twoStep seq t1 t2 s)

def ptpFollowUp (p : Nat) (seq : W16) (t1 : Int) (s : State) : Option State :=
  match s.ptp p with
  | some x => if s.ptpPort p 1 && x.seq == seq && x.t1.isNone then some (s.sendDelayReq p { x with t1 := some t1 }) else none
  | none => none

def execPtpFollowUp (pt : Port) (seq : W16) (t1 : Int) (s : State) : Host.Outcome State Fault Refusal :=
  attempt s (ptpFollowUp pt.val seq t1 s)

/-- Delay_Req on a SERVE port: answered with its arrival time. -/
def ptpDelayReq (p : Nat) (seq : W16) (rx : Int) (s : State) : Option State :=
  if s.ptpPort p 2 then some (s.emit (.ptp p 9 seq rx)) else none

def execPtpDelayReq (pt : Port) (seq : W16) (rx : Int) (s : State) : Host.Outcome State Fault Refusal :=
  attempt s (ptpDelayReq pt.val seq rx s)

/-- Delay_Resp: the offset of the source by the end-to-end mechanism, ASYM included. -/
def ptpDelayResp (p : Nat) (seq : W16) (t4 : Int) (s : State) : Option State :=
  match s.ptp p with
  | some ⟨q, some t1, t2, some t3⟩ =>
    if s.ptpPort p 1 && q == seq then
      let mean := ((t2 - t1) + (t4 - t3)) / 2
      some ((s.setPtp p none).timeUpdate p (t1 - t2 + mean + s.tAsym p) none)
    else none
  | _ => none

def execPtpDelayResp (pt : Port) (seq : W16) (t4 : Int) (s : State) : Host.Outcome State Fault Refusal :=
  attempt s (ptpDelayResp pt.val seq t4 s)

/-- Sync every 2^−10 s, in two steps. -/
def ptpSyncSend (p : Nat) (s : State) : Option State :=
  if !s.ptpPort p 2 || !s.sendDue p 244141 then none
  else
    let seq := BitVec.ofNat 16 (tget (fun _ => 0) s.time.bseq p)
    some (((s.noteSent p).emit (.ptp p 0 seq s.stamp16)).emit (.ptp p 8 seq s.stamp16))

def execPtpSyncSend (pt : Port) (s : State) : Host.Outcome State Fault Refusal := attempt s (ptpSyncSend pt.val s)

-- Count copies of the logic dies (R408)

/-- COUNT_BEACON_SEND: every 256 ticks to every other logic die. -/
def countBeaconSend (s : State) : Option State :=
  if !s.mgmt.supply || s.gc < s.time.beaconAt + 256 then none
  else some { s with time := { s.time with
    beaconAt := s.gc, owing := below 52 fun k => k != 50 + s.mgmt.active } }

def execCountBeaconSend (s : State) : Host.Outcome State Fault Refusal := attempt s (countBeaconSend s)

/-- COUNT_BEACON_RECEIVE: the die's copy agrees with the master again. -/
def countBeaconReceive (u : Unit52) (s : State) : Option State :=
  let k := unitKey u
  if !s.time.owing.contains k then none
  else some { s with time := { s.time with
    owing := ndel s.time.owing k, copies := tput (fun _ => 0) s.time.copies k 0 } }

def execCountBeaconReceive (u : Unit52) (s : State) : Host.Outcome State Fault Refusal :=
  attempt s (countBeaconReceive u s)

end Sys2Proof.Machine
end

