-- ==== Sys2Proof/Machine/Reply.lean ====
section
/-! DEFINITION. Command rings and responses (R446 to R451, R474 to R478): entries, final and PENDING responses, and the
COMMAND entries of the journal. -/

namespace Sys2Proof.Machine

-- Rings (Tables 16-5 and 16-7)

/-- The register of a command ring, CMD_PROD and CMD_CONS; RSP_PROD and RSP_CONS stand 8 bytes on. -/
def ringA (b : Blk) (k : Nat) : Nat := mbxAddr b (0x100 + 0x10 * k)
def pairsOf : Blk → Nat
  | .pf => 12
  | .vf _ => 2
  | .i3c => 4

def State.cmdProd (s : State) (b : Blk) (k : Nat) : Nat := s.mbxF (ringA b k) 0 16
def State.cmdCons (s : State) (b : Blk) (k : Nat) : Nat := s.mbxF (ringA b k) 16 16
def State.rspProd (s : State) (b : Blk) (k : Nat) : Nat := s.mbxF (ringA b k + 8) 0 16
def State.rspCons (s : State) (b : Blk) (k : Nat) : Nat := s.mbxF (ringA b k + 8) 16 16

def cmdSlot (b : Blk) (k i : Nat) : Nat := mbxAddr b (0x2000 + 0x800 * k + 64 * (i % 16))
def rspSlot (b : Blk) (k i : Nat) : Nat := mbxAddr b (0x2400 + 0x800 * k + 64 * (i % 16))

/-- Entry i of a command ring. -/
def State.cmdEntry (s : State) (b : Blk) (k i : Nat) : BitVec 512 :=
  BitVec.ofNat 512 (leNat (s.mbxBytes (cmdSlot b k i) 64))

-- Entries (Table 16-8)

def entCode (e : BitVec 512) : Nat := fld e 0 16
def entPart (e : BitVec 512) : Nat := fld e 32 3
def entDev (e : BitVec 512) : Bool := bitOf e 35
def entPlen (e : BitVec 512) : Nat := fld e 40 6
/-- n payload bytes from byte o, as a number. -/
def payF (e : BitVec 512) (o n : Nat) : Nat := fld e (64 + 8 * o) (8 * n)

-- Status codes (Table 16-11)

def stOk : Nat := 0
def stPending : Nat := 1
def stBusy : Nat := 2
def stBadArgs : Nat := 3
def stState : Nat := 4
def stRights : Nat := 5
def stFailed : Nat := 6

/-- STATE of a response: the code of the addressed device or partition (R451). -/
def State.entState (s : State) (e : BitVec 512) : Nat :=
  if entDev e then s.mgmt.devState else (s.part (entPart e)).state

/-- A response entry (Table 16-9). -/
def rspBytes (e : BitVec 512) (final : Bool) (status state : Nat) (blocked : Option Nat) (accept : Nat)
    (result : List Byte) : List Byte :=
  natLe 4 (fld e 0 32)
    ++ natLe 4 (entPart e + 8 * boolNat (entDev e) + 16 * boolNat final + 256 * status + 2 ^ 16 * state
      + match blocked with | some p => 2 ^ 20 * p + 2 ^ 23 | none => 0)
    ++ natLe 8 accept ++ (result ++ List.replicate 48 0).take 48

/-- A response is written, RSP_PROD advances and bit k of RSP is set (R448). -/
def State.putResponse (s : State) (b : Blk) (k : Nat) (bytes : List Byte) : State :=
  let n := s.rspProd b k
  let s := (s.setMbxBytes (rspSlot b k n) bytes).setMbxF (ringA b k + 8) 0 16 (n + 1)
  s.setIrq b k

/-- The result of a FAILED response: the reason in byte 47 (R478). -/
def failResult (reason : Nat) : List Byte := List.replicate 47 0 ++ natLe 1 reason

/-- The final response of a command. -/
def State.final (s : State) (b : Blk) (k : Nat) (e : BitVec 512) (status accept : Nat) (result : List Byte) : State :=
  s.putResponse b k (rspBytes e true status (s.entState e) none accept result)

/-- The final response of a pending command, which then owes nothing. -/
def State.finish (s : State) (c : PendCmd) (status : Nat) (result : List Byte) : State :=
  let s := { s with mgmt := { s.mgmt with cmds := s.mgmt.cmds.filter fun d => d.id != c.id } }
  s.final c.blk c.pair c.entry status c.accept result

/-- Every pending command that p takes ends FAILED with a reason (R478). -/
def State.endCmds (s : State) (p : PendCmd → Bool) (reason : Nat) : State :=
  (s.mgmt.cmds.filter p).foldl (fun s c => s.finish c stFailed (failResult reason)) s

/-- The pending commands of a code for partition p. -/
def State.pendingOf (s : State) (code p : Nat) : List PendCmd :=
  s.mgmt.cmds.filter fun c => entCode c.entry == code && !entDev c.entry && entPart c.entry == p

/-- A pending command acts on partition p: its own, or every one for a device-scope stop (R502). -/
def ofPart (p : Nat) (c : PendCmd) : Bool := !entDev c.entry && entPart c.entry == p

-- Stops (R502)

/-- Partition p leaves its `stop.at`: cut at a count in a window, or for a reason. A device-scope stop ends when the last
of its partitions has left it; its first number holds a bit for each. -/
def State.endStops (s : State) (p reason : Nat) (cut : Option (Nat × Nat)) : State :=
  let fin (s : State) (c : PendCmd) : State :=
    match cut with
    | some (n, w) => s.finish c stOk (natLe 8 n ++ natLe 4 w)
    | none => s.finish c stFailed (failResult reason)
  let s := s.setPart p { s.part p with stopAt := none }
  let s := (s.pendingOf 0x0901 p).foldl fin s
  (s.mgmt.cmds.filter fun c => entCode c.entry == 0x0901 && entDev c.entry && bitsAt (c.data.headD 0) p 1 == 1).foldl
    (fun s c =>
      let m := c.data.headD 0 - 2 ^ p
      if m == 0 then fin s c
      else { s with mgmt := { s.mgmt with cmds := s.mgmt.cmds.map fun d => if d.id == c.id then { d with data := [m] } else d } }) s

-- COMMAND entries (Table 15-8)

/-- REQUESTER of a COMMAND entry: 0 host, 1 I3C, 2 fabric manager. -/
def requesterCode (b : Blk) (k : Nat) : Nat :=
  match b with
  | .pf => if k < 4 then 0 else 2
  | .vf _ => 0
  | .i3c => 1

/-- A COMMAND entry at acceptance; `effect` is its effect window, none for all ones. -/
def State.journalCommand (s : State) (b : Blk) (k p : Nat) (e : BitVec 512) (status : Nat) (effect : Option Nat) : State :=
  s.journal p 2 (natLe 8 s.gc ++ natLe 1 (requesterCode b k) ++ natLe 1 status ++ natLe 2 0
    ++ natLe 4 (effect.getD 0xFFFFFFFF)) (natLe 64 e.toNat)

/-- The window at whose opening a command accepted now takes effect: the next one while the partition has windows. -/
def State.effectWindow (s : State) (p : Nat) : Option Nat :=
  let t := s.part p
  match t.state with
  | 4 => some 0
  | 5 => some (t.window + 1)
  | 6 => some (t.window + 1)
  | _ => none

/-- The window opened by the next boundary that advances STEP (R421, R488). -/
def stepWindow (t : PartSt) : Option Nat :=
  let next := if t.state == 4 then 1 else t.window + 1
  match t.job with
  | some j => j.steps.find? fun w => decide (next ≤ w)
  | none => none

/-- The window at whose opening a latched command of a code takes effect: variant sets and proof settings wait for a step
boundary, norm bounds for the check (Tables 17-3 and 17-8). -/
def State.effectOf (s : State) (p code : Nat) : Option Nat :=
  let t := s.part p
  match s.effectWindow p with
  | none => none
  | some w =>
    if code == 0x0206 then stepWindow t
    else if code == 0x0703 then (if t.state == 4 then some 0 else stepWindow t)
    else if code == 0x0701 then
      (match t.job.bind JobImage.norm with
        | some nc => if w ≤ nc.window + 1 then some (nc.window + 1) else none
        | none => none)
    else some w

/-- A latched command of partition p is accepted: it replaces one of its code that still waits, whose COMMAND entry then
carries an effect window of all ones (R477). -/
def State.latch (s : State) (b : Blk) (k p : Nat) (e : BitVec 512) : State :=
  let t := s.part p
  let code := entCode e
  let s := match t.latched.find? fun x => x.1 == code with
    | some (_, slot, _) => if s.jnlOpen p then s.wrN (s.jnlSlot p slot + 36) 4 0xFFFFFFFF else s
    | none => s
  let slot := s.jnlWrite p
  let s := s.journalCommand b k p e stOk (s.effectOf p code)
  let t := s.part p
  match s.effectOf p code with
  | some _ => s.setPart p { t with latched := t.latched.filter (fun x => x.1 != code) ++ [(code, slot, s.gc)] }
  | none => s

end Sys2Proof.Machine
end

