-- ==== Sys2Proof/Machine/Plates.lean ====
section
/-! DEFINITION. Plates and overlays (R463 to R471): checks, the registers they govern, and measurements (R460). -/

namespace Sys2Proof.Machine

-- Measurements (R460)

/-- A measurement extends register i. -/
def State.measure (s : State) (i : Nat) (digest : List Byte) : State :=
  { s with mgmt := { s.mgmt with meas := s.mgmt.meas.set i (sha384 (s.mgmt.meas.getD i zeros48 ++ digest)) } }

-- Registers that overlays may name (R467)

/-- The RW bits of a word of a transport context, by its offset in the entry (Table 12-6). -/
def ctxMask (off : Nat) : Nat :=
  match off with
  | 0 => 0xFFFFFFFFFFFF007F
  | 8 => 0xFFFFFFFF0000FFFF
  | 16 => 0xFFFFFFFF
  | _ => 0

/-- The RW bits of a word of a fabric region entry (Table 12-7). -/
def regionMask (off : Nat) : Nat :=
  match off with
  | 0 => 0xFFFFFFFFFFFF3FFF
  | 8 => 0xFFFFFFFFFFFFFFFF
  | 16 => 0xFFFFFFFF0000FFFF
  | 24 => 0xFFFFFFFFFFFFFFFF
  | 32 => 0xFFFFFF
  | _ => 0

/-- The RW bits of a port register, MODE left out (R467, Table 12-1). -/
def portMask (off : Nat) : Nat :=
  match off with
  | 0 => 0xFFFFFFFF00FFFF1C
  | 0x20 => 0x7FFFFFFFFFFFFF
  | _ => 0

/-- The bits of the word at `a` that an overlay of a partition, or of the device, may name (R467). -/
def State.overlayBits (s : State) (part : Option Nat) (a : Nat) : Nat :=
  if a % 8 != 0 then 0
  else match part with
    | some p =>
      if coreCfg 0 ≤ a ∧ a < coreCfg 128 ∧ a % 0x100000 = 0x100 then
        (match s.partOfDie ((a - coreCfg 0) / 0x100000 / 4) with
          | some q => if q.val = p then 0xF0030 else 0
          | none => 0)
      else if ctxA 0 ≤ a ∧ a < ctxA 16384 then
        (let n := (a - ctxA 0) / 32
         if s.ctxPart n = p then ctxMask (a % 32) else 0)
      else if regionBase ≤ a ∧ a < regionBase + 0x10000 then
        (if s.cfgF (a - a % 64) 1 3 = p then regionMask (a % 64) else 0)
      else 0
    | none => if ioCfg 0 ≤ a ∧ a < ioCfg 4 ∧ 0x10000 ≤ a % 0x100000 ∧ a % 0x100000 < 0x10C00 then portMask (a % 256) else 0

-- Fields under overlays (R468)

/-- Entries of the overlays in force, in order of application. -/
def State.overlayEntries (s : State) : List (Nat × W64 × W64) :=
  (s.mgmt.overlayOrder.map fun h => match s.mgmt.overlays[h]? with
    | some (some o) => if o.phase == 0 then [] else o.entries
    | _ => []).flatten

/-- The word at `a` with the overlays in force laid over its value v. -/
def State.laidOver (s : State) (a : Nat) (v : W64) : W64 :=
  s.overlayEntries.foldl (fun v e => if e.1 == a then (v &&& ~~~e.2.1) ||| (e.2.2 &&& e.2.1) else v) v

/-- A word that a plate or a job image writes: it lands beneath the overlays in force. -/
def State.setGoverned (s : State) (a : Nat) (v : W64) : State :=
  match tget (fun _ => none) s.mgmt.baseCfg a with
  | none => s.setCfgW a v
  | some _ => { s with mgmt := { s.mgmt with baseCfg := tput (fun _ => none) s.mgmt.baseCfg a (some v) } }.setCfgW a (s.laidOver a v)

/-- The word at `a` recomputed after a change of the overlays in force; fields that no overlay may name keep their value. -/
def State.recompute (s : State) (part : Option Nat) (a : Nat) : State :=
  let base := match tget (fun _ => none) s.mgmt.baseCfg a with
    | some v => v
    | none => s.cfgW a
  let named := s.overlayEntries.any fun e => e.1 == a
  let m := BitVec.ofNat 64 (s.overlayBits part a)
  let v := (s.cfgW a &&& ~~~m) ||| (s.laidOver a base &&& m)
  { s with mgmt := { s.mgmt with
    baseCfg := tput (fun _ => none) s.mgmt.baseCfg a (if named then some base else none) } }.setCfgW a v

def State.setOverlay (s : State) (h : Nat) (o : Option Overlay) : State :=
  { s with mgmt := { s.mgmt with overlays := s.mgmt.overlays.set h o } }

/-- Overlay h comes into force; MEAS2 is extended. -/
def State.overlayOn (s : State) (h : Nat) : State :=
  match s.mgmt.overlays[h]? with
  | some (some o) =>
    let s := s.setOverlay h (some { o with phase := 1 })
    let s := { s with mgmt := { s.mgmt with overlayOrder := s.mgmt.overlayOrder ++ [h] } }
    let s := o.entries.foldl (fun s e => s.recompute o.part e.1) s
    s.measure 2 o.digest
  | _ => s

/-- Overlay h leaves force; MEAS2 is extended by its digest followed by 0xFF. -/
def State.overlayOff (s : State) (h : Nat) : State :=
  match s.mgmt.overlays[h]? with
  | some (some o) =>
    let s := s.setOverlay h none
    let s := { s with mgmt := { s.mgmt with overlayOrder := s.mgmt.overlayOrder.filter fun k => k != h } }
    let s := o.entries.foldl (fun s e => s.recompute o.part e.1) s
    s.measure 2 (sha384 (o.digest ++ [0xFF]))
  | _ => s

/-- The overlays of partition p that wait for its boundary, in take order, then their commands' final responses (R468).
Handles taken for an apply and handles being removed each owe one response, whose entry names the overlay. -/
def State.overlaysDue (s : State) (p : Nat) : State :=
  (s.mgmt.cmds.filter fun c => ofPart p c && (entCode c.entry == 0x0403 || entCode c.entry == 0x0404)
      && decide (c.accept < s.gc)).foldl (fun s c =>
    let h := c.data.getD 0 0
    let s := if entCode c.entry == 0x0403 then s.overlayOn h else s.overlayOff h
    let w := natLe 4 (c.data.getD 1 0)
    s.finish c stOk (if entCode c.entry == 0x0403 then natLe 4 h ++ w else w)) s

-- Plates

/-- Ranges of a partition that are whole MiB of a well: die, base and size. -/
def plateWells (r : PlatePart) : List (Nat × Nat × Nat) :=
  (below 12 fun m => r.wellEn.getLsbD m).map fun m => (m, fld r.well (16 * m) 8, fld r.well (16 * m + 8) 8 + 1)

def meets (a b : Nat × Nat × Nat) : Bool := a.1 == b.1 && a.2.1 < b.2.1 + b.2.2 && b.2.1 < a.2.1 + a.2.2

/-- HBM halves of a partition, as bits 2s and 2s + 1. -/
def partsMeet (a b : PlatePart) : Bool :=
  (a.dies &&& b.dies) != 0 || (a.hbm &&& b.hbm) != 0 || (plateWells a).any fun x => (plateWells b).any fun y => meets x y

/-- Ledger ranges: two that meet, of partitions the plate configures (R201, R470). -/
def pairsOk {α : Type} (bad : α → α → Bool) : List α → Bool
  | [] => true
  | a :: t => !(t.any fun b => bad a b) && pairsOk bad t

/-- R201 of the LEDGER section: a 32 MiB aligned range in a well, and ranges that do not meet. -/
def ledgerOk (pl : Plate) : Bool :=
  let l := pl.ledgerRanges.filter fun r => r.2 != 0
  (l.isEmpty || (pl.ledgerAddr % 2 ^ 25 == 0 && isWell pl.ledgerAddr (2 ^ 25)))
    && l.all (fun r => decide (r.1 + r.2 ≤ 2 ^ 21))
    && pairsOk (fun a b => decide (a.1 < b.1 + b.2) && decide (b.1 < a.1 + a.2)) l

/-- The checks of R463 to R470 on a plate's contents. -/
def State.plateOk (s : State) (pl : Plate) : Bool :=
  let ps := pl.parts.filter fun r => r.valid
  pl.magic == 0x45544C50 && pl.version == 1 && pl.order == s.order && decide (s.mgmt.plateSeq ≤ pl.seq)
    && pl.serial == s.mgmt.serial && decide (pl.parts.length ≤ 8)
    && decide (s.nDies ≤ pl.dieMap.length) && pairsOk (fun a b : Fin 34 => a == b) pl.dieMap
    && pairsOk partsMeet ps
    && ps.all (fun r => r.dies != 0 && decide (r.dies.toNat < 2 ^ s.nDies)
      && (plateWells r).all fun w => decide (w.2.1 + w.2.2 ≤ 256)
        && pl.wellReserved.all fun v => !(v.1.val == w.1 && decide (v.2.1 < (w.2.1 + w.2.2) * 2 ^ 20)
          && decide (w.2.1 * 2 ^ 20 < v.2.1 + v.2.2)))
    && ledgerOk pl && pl.ports.all (fun x => fld x.1 0 2 != 3)

/-- The ME_MODE bits that a plate governs (R92). -/
def plateModeBits : Nat := 0x1F0F

/-- The compute-die map in force: the FACTORY map with the repair log's grafts over it (R17, R465). -/
def State.mapOf (s : State) (pl : Plate) : List (Fin 34) :=
  s.mgmt.graftLog.foldl (fun l g => l.set g.1 (Fin.ofNat 34 g.2)) pl.dieMap

/-- Link training starts where the plate names a mode (R461, R319). -/
def State.startPort (s : State) (p : Nat) : State :=
  if s.power (234 + p) != .on then s
  else s.setLinkState p (if s.portMode p == 0 then 0 else if s.linkUp p then s.link p else 1)

/-- A port's registers as a plate gives them. -/
def State.platePorts (s : State) (pl : Plate) : State :=
  (List.range 48).foldl (fun s p =>
    let w := pl.ports.getD p (s.cfgW (portA p), s.cfgW (portA p + 0x20))
    let s := if fld w.1 0 2 == s.portMode p then s else s.setLinkState p 0
    let s := (s.setGoverned (portA p) w.1).setGoverned (portA p + 0x20) w.2
    s.startPort p) s

/-- The plate's cores get the MODES of their partition. -/
def State.plateModes (s : State) (pl : Plate) : State :=
  (List.range s.nCores).foldl (fun s c =>
    let m := match s.partOfDie (c / 4) with
      | some p => (pl.modes.getD p.val 0).toNat
      | none => 0
    s.setGoverned (coreCfg c + 0x100) (BitVec.ofNat 64 m &&& BitVec.ofNat 64 plateModeBits)) s

/-- A plate is put in force (R465): every register it governs, its slot active, every configured partition READY, and
MEAS1 extended. -/
def State.applyPlate (s : State) (x : PlateSlot) (slot : Nat) : State :=
  let pl := x.plate
  let n := (pl.parts.filter fun r => r.valid).length
  let s := { s with mgmt := { s.mgmt with
    plate := some pl
    plateDigest := x.digest
    dieMap := s.mapOf pl
    coppice := (pl.coppice.map Fin.val).filter fun x =>
      !s.mgmt.failedDies.contains x && !s.mgmt.graftLog.any fun g => g.2 == x
    plateSlot := slot
    plateSeq := pl.seq } }
  let s := { s with parts := [] }
  let s := (List.range 8).foldl (fun s p =>
    if (s.platePart p).isSome then
      s.setPart p { PartSt.init with state := 2, plan := planDefault n, cap := s.pw.cap }
    else s) s
  let s := (s.plateModes pl).platePorts pl
  let s := (pl.fabric.zipIdx).foldl (fun s w => s.setCfgW (ioCfg 0 + 8 + 8 * w.2) w.1) s
  s.measure 1 x.digest

/-- The slot that starts: the active one, or the other where it is not valid (R464). -/
def State.validPlate (s : State) (i : Nat) : Option PlateSlot :=
  match s.mgmt.plates[i]? with
  | some (some x) => if x.good && s.plateOk x.plate then some x else none
  | _ => none

def State.bootPlate (s : State) : Option (PlateSlot × Nat) :=
  match s.validPlate s.mgmt.plateSlot with
  | some x => some (x, s.mgmt.plateSlot)
  | none => (s.validPlate (1 - s.mgmt.plateSlot)).map fun x => (x, 1 - s.mgmt.plateSlot)

end Sys2Proof.Machine
end

