-- ==== Sys2Proof/Machine/Teardown.lean ====
section
/-! DEFINITION. Teardown of a partition (R355, R485): its contexts, its outstanding requests, and the hold that follows. -/

namespace Sys2Proof.Machine

/-- The nodes of the valid contexts of partition p, ascending. -/
def State.contexts (s : State) (p : Nat) : List Nat :=
  (s.cfg.filter fun x => decide (ctxA 0 ≤ x.1) && decide (x.1 < ctxA 16384) && (x.1 - ctxA 0) % 32 == 0
    && fld x.2 0 1 == 1 && fld x.2 1 3 == p).map fun x => (x.1 - ctxA 0) / 32

/-- Step 1: every context of the partition becomes TORN. -/
def State.tearContexts (s : State) (p : Nat) : State :=
  (s.contexts p).foldl (fun s n => s.setCfgF (ctxA n) 8 3 2) s

/-- Step 2: one TEARDOWN frame on every port of every context. -/
def State.sendTeardown (s : State) (p : Nat) : State :=
  let tag := natLe 8 (s.part p).tag.toNat
  (s.contexts p).foldl (fun s n =>
    (below 48 fun q => bitsAt (s.ctxPorts n) q 1 == 1 && s.portLive q).foldl (fun s q =>
      s.sendFrame q (s.mkFrame 0 0x0B n tag)) s) s

/-- An outstanding request ends with STATUS TORN_DOWN: its stream faults with FAB_TORN (Table 12-11). -/
def State.tearReq (s : State) (r : Req) : State :=
  match r.use with
  | .load i _ => s.fault i 0x54
  | .store i => s.fault i 0x54
  | .atomic i _ => s.fault i 0x54
  | .fill =>
    match s.fcFind r.node (fAddr r.frame / 256) with
    | some (k, l) => l.waiting.foldl (fun s w => s.fault w.stream 0x54) (s.setFc k none)
    | none => s
  | .inval id => { s with net := { s.net with invs := s.net.invs.filter fun x => x.id != id } }
  | .evict => s

/-- Step 3: every outstanding request of the partition ends; the number of them is the second part. -/
def State.tearRequests (s : State) (p : Nat) : State × Nat :=
  let mine := s.net.reqs.filter fun r => s.ctxPart r.node == p
  let s1 := s.setReqs (s.net.reqs.filter fun r => s.ctxPart r.node != p)
  let s1 := mine.foldl (fun s r => (s.tearReq r).setCfgF (ctxA r.node + 16) 32 32 0) s1
  let inP (d : Nat) : Bool := match s.partOfDie d with | some q => q.val == p | none => false
  let xs := s1.xch.ops.filter fun o => inP o.die && !o.unacked.isEmpty
  let s1 := xs.foldl (fun s o => s.xEnd { o with unacked := [] } 0x54 false) s1
  let cs := s1.ce.ops.filter fun o => inP o.die && !o.sent.isEmpty && !o.failed
  let s1 := cs.foldl (fun s o => s.cFail { o with sent := [] } 0x54) s1
  (s1, mine.length + (xs.map fun o => o.unacked.length).sum + (cs.map fun o => o.sent.length).sum)

/-- The record of a teardown. -/
def State.tornEvent (s : State) (p : Part) : ErrEvent :=
  { mkErr 2 4 s.mgmt.active 0xFF 0x0307 with part := some p, detail := (s.part p.val).tag }

/-- Partition p is torn down (R355, steps 1 to 5). A partition that has stopped stays STOPPED. -/
def State.tearDown (s : State) (p : Part) : State × Nat :=
  let t := s.part p.val
  let s := s.sendTeardown p.val
  let s := s.tearContexts p.val
  let (s, n) := s.tearRequests p.val
  let s := s.setPart p.val { s.part p.val with tornDown := true, sleep := none }
  let s := s.endStops p.val 6 none
  let s := (s.pendingOf 0x0205 p.val).foldl (fun s c => s.finish c stFailed (failResult 2)) s
  (if t.state == 7 then s.takeEvent { s.tornEvent p with stamp := s.gc } else s.hold p 4 (some (s.tornEvent p)), n)

/-- A TEARDOWN frame acts once on a partition whose launch carries its job tag; any other is dropped and counted. -/
def teardownIn (p : Nat) (f : Frame) (s : State) : Option State :=
  s.letIn p 0x0B 0 f fun s =>
    let q : Part := Fin.ofNat 8 (s.ctxPart (fSrc f))
    let t := s.part q.val
    let tag := BitVec.ofNat 64 (leNat f.payload)
    if f.payload.length == 8 && t.tag == tag && [4, 5, 6, 7].contains t.state && !t.tornDown then some (s.tearDown q).1
    else some (s.dropFrame p)

def execTeardown (pt : Port) (f : Frame) (s : State) : Host.Outcome State Fault Refusal :=
  attempt s (teardownIn pt.val f s)

/-- A P command of partition p ends with a reason, but not the command itself (R478). -/
def State.endPartCmds (s : State) (p : Nat) (keep : Nat) (reason : Nat) : State :=
  s.endCmds (fun c => ofPart p c && c.id != keep) reason

end Sys2Proof.Machine
end

