-- ==== Sys2Proof/Machine/Pace.lean ====
section
/-! DEFINITION. The pace manager's arithmetic: window records (R158), the energy account (R512 to R517) and the choice of
a variant (R169). -/

namespace Sys2Proof.Machine

-- Window records (Tables 6-6 and 6-7)

/-- The address of the record of window w in the set in force. -/
def PartSt.record (t : PartSt) (w : Nat) : Nat :=
  (match t.job with | some j => j.sets.getD t.set 0 | none => 0) + 256 * w

/-- Field [lo + n − 1:lo] of the header of window w. -/
def State.winF (s : State) (t : PartSt) (w lo n : Nat) : Nat := bitsAt (s.rdN (t.record w) 64) lo n
def State.nVar (s : State) (t : PartSt) (w : Nat) : Nat := s.winF t w 32 2 + 1
def State.lastWin (s : State) (t : PartSt) (w : Nat) : Bool := s.winF t w 34 1 == 1
def State.hbmBand (s : State) (t : PartSt) (w : Nat) : Nat := s.winF t w 35 2
def State.tailW (s : State) (t : PartSt) (w : Nat) : Nat := s.winF t w 176 16
def State.meetSet (s : State) (t : PartSt) (w : Nat) : Nat := s.winF t w 192 16
def State.activeCores (s : State) (t : PartSt) (w : Nat) : Nat := s.winF t w 256 128
/-- MC(w) (R157). -/
def State.mc (s : State) (t : PartSt) (w : Nat) : Nat := t.lc + s.winF t w 64 64

/-- A variant entry (Table 6-7). -/
structure Variant where
  valid : Bool
  pace : Nat
  sleepSet : Nat
  finish : Nat
  energy : Nat
  entry : Nat
deriving DecidableEq, Repr

def parseVariant (w : Nat) : Variant :=
  ⟨bitsAt w 0 1 == 1, bitsAt w 1 3, bitsAt w 4 2, bitsAt w 32 32, bitsAt w 64 32, bitsAt w 96 48⟩
def State.variantOf (s : State) (t : PartSt) (w v : Nat) : Variant := parseVariant (s.rdN (t.record w + 64 + 48 * v) 48)

-- Paces (Table 6-5)

/-- Core clock in units of 200 MHz. -/
def clockOf (q : Nat) : Nat := 10 - q
/-- The quiet credit of a gated tile-cycle: energy per FP4 MAC in 0.1 fJ. -/
def macEnergy (q : Nat) : Nat := [280, 250, 225, 200, 180, 165, 150, 140].getD q 140

-- Sensors (R514)

def tempOf (s : State) (unit sensor : Nat) : Int := tget (fun _ => 0) s.pw.temps (6 * unit + sensor)

def maxInt (l : List Int) : Int := l.foldl max (l.headD 0)

/-- The hottest compute-die temperature of a partition, in quarter degrees. -/
def State.hottest (s : State) (p : Nat) : Int :=
  maxInt ((s.diesOf p).map fun d => maxInt ((List.range 6).map fun k => tempOf s (s.physDie d) k))

/-- Whole degrees in a byte. -/
def degrees (q : Int) : Nat := (q / 4).toNat % 256

-- What slows a partition (R518, R519)

/-- An I/O die has a port that the partition may use. -/
def State.usesIo (s : State) (p i : Nat) : Bool :=
  match s.platePart p with
  | some r => (List.range 12).any fun j => r.ports.getLsbD (12 * i + j)
  | none => false

/-- The partition has a range on memory die m. -/
def State.usesMem (s : State) (p m : Nat) : Bool :=
  match s.platePart p with
  | some r => fld r.hbm (2 * m) 2 != 0 || r.wellEn.getLsbD m
  | none => false

/-- A thermal clamp on unit k (by unitKey; stacks from 52) slows partition p. -/
def State.clampSlows (s : State) (p k : Nat) : Bool :=
  if k < 34 then (s.diesOf p).any fun d => s.physDie d == k
  else if k < 46 then s.usesMem p (k - 34)
  else if k < 50 then s.usesIo p (k - 46)
  else if k < 52 then false
  else s.usesMem p (k - 52)

/-- CLAMP_CURR and AVG_RUNG (Table 18-6). -/
def State.currClamp (s : State) : Bool := s.cfgF (hwReg 0x3000) 33 1 == 1
def State.avgRung (s : State) : Nat := s.cfgF (hwReg 0x3000) 34 5

/-- A protection action slows partition p now. -/
def State.slowedBy (s : State) (p : Nat) : Bool :=
  s.currClamp || s.avgRung != 0 || s.pw.clamps.any fun k => s.clampSlows p k

-- Envelope (R512)

/-- The envelope of the ordering code, W. -/
def State.envelope (s : State) : Nat := if s.order == 1 then 1600 else 1000
/-- The envelope in force under a cap. -/
def State.envUnder (s : State) (cap : Nat) : Nat := if cap == 0 then s.envelope else min cap s.envelope

-- The account (R516)

def overlap (a b c d : Nat) : Nat := min b d - max a c

/-- The end of a segment's tail: 32 ticks past its boundary's start, or t while its window is open. -/
def EnergySeg.tailEnd (g : EnergySeg) (t : Nat) : Nat :=
  match g.closed with
  | some c => max g.mc c + 32
  | none => t

/-- Estimated energy of a segment within [a, b). -/
def EnergySeg.within (g : EnergySeg) (a b t : Nat) : Int :=
  g.nj * (overlap a b g.opened g.mc : Nat) / ((g.mc - g.opened : Nat) : Int)
    + ((overlap a b g.mc (g.tailEnd t) * g.tailW * 4 : Nat) : Int)

/-- The energy a partition has spent in [a, b) (R516). -/
def spentIn (t : PartSt) (a b : Nat) : Int :=
  if b ≤ a then 0
  else (List.range ((b - 1) / 2500 - a / 2500 + 1)).foldl (fun tot i =>
    let k := a / 2500 + i
    let lo := max a (2500 * k)
    let hi := min b (2500 * k + 2500)
    match t.slots.find? fun x => x.1 == k with
    | some (_, nj) => tot + ((nj * (hi - lo) / 2500 : Nat) : Int)
    | none => t.segs.foldl (fun tot g => tot + g.within lo hi b) tot) 0

/-- Sixteen times the headroom of a window that opens at o and meets at mc (R517). -/
def State.headroom16 (s : State) (t : PartSt) (o mc : Nat) : Int :=
  let sw := t.plan.share * s.envUnder t.cap
  if mc < o + 250000 then 16 * (((15625 * sw : Nat) : Int) - spentIn t (mc - 250000) o)
  else ((sw * (mc - o) : Nat) : Int)

-- The choice (R169)

/-- The pace cap: FAST, or DPACE where the hottest die is at TDERATE. -/
def paceCap (t : PartSt) (hot : Int) : Nat :=
  if ((4 * t.plan.tderate : Nat) : Int) ≤ hot then max t.plan.fast t.plan.dpace else t.plan.fast

/-- f[v]: FINISH_TICKS at pace q, rounded up. -/
def finishAt (v : Variant) (q : Nat) : Nat := (v.finish * clockOf v.pace + clockOf q - 1) / clockOf q
/-- e[v] in nJ. -/
def energyAt (v : Variant) (f tailW : Nat) (win : Int) : Int :=
  ((v.energy : Nat) : Int) + ((tailW * 4 : Nat) : Int) * max (win - ((f : Nat) : Int)) 0

/-- A candidate: variant number, pace q, f and e. -/
structure Cand where
  v : Nat
  q : Nat
  f : Nat
  e : Int
deriving DecidableEq, Repr

/-- The candidate that a mode takes; ties go to the lower variant. -/
def pickCand (mode : Nat) (a b : Cand) : Cand :=
  match mode with
  | 0 => if b.f < a.f then b else a
  | 1 => if a.f < b.f then b else a
  | _ => if b.e < a.e then b else a

/-- Every variant of window w with its q, f and e. -/
def State.cands (s : State) (t : PartSt) (w cap : Nat) (win : Int) : List Cand :=
  (List.range (s.nVar t w)).map fun v =>
    let x := s.variantOf t w v
    let q := max x.pace cap
    let f := finishAt x q
    ⟨v, q, f, energyAt x f (s.tailW t w) win⟩

/-- The choice of R169 for window w under 16 × H. -/
def State.choose (s : State) (t : PartSt) (w cap : Nat) (win : Int) (h16 : Int) : Cand :=
  let all := s.cands t w cap win
  let keep := ((t.plan.reserve * t.plan.share * s.envUnder t.cap : Nat) : Int) * win
  let ok (c : Cand) : Bool := decide ((c.f : Int) ≤ win) && decide (c.e * 1600 + keep ≤ 100 * h16)
    && (c.v == 0 || decide ((s.variantOf t w c.v).pace ≤ t.plan.slow))
  match all.filter ok with
  | c :: rest => rest.foldl (pickCand t.plan.mode) c
  | [] =>
    let x := s.variantOf t w 0
    let q := max (max x.pace cap) t.plan.slow
    let f := finishAt x q
    ⟨0, q, f, energyAt x f (s.tailW t w) win⟩

/-- Variant v of window w at pace q, as a replay runs it (R430). -/
def State.candOf (s : State) (t : PartSt) (w v q : Nat) (win : Int) : Cand :=
  let x := s.variantOf t w v
  let q := max q x.pace
  let f := finishAt x q
  ⟨v, q, f, energyAt x f (s.tailW t w) win⟩

/-- The next window of an active partition, with its length for R175. -/
def State.nextWin (s : State) (t : PartSt) : Nat × Int :=
  if t.state == 4 then (0, ((s.mc t 0 : Nat) : Int) - t.lc)
  else (t.window + 1, ((s.mc t (t.window + 1) : Nat) : Int) - ((s.mc t t.window : Nat) : Int) - 32)

/-- The sum over partitions of e[0] / win is above the envelope that the caps leave (R175): sums of 1/win are compared by
parts of a common denominator. -/
def State.overEnvelope (s : State) (cap : Nat) : Bool :=
  let act := (List.range 8).filter fun p => [4, 5, 6].contains (s.part p).state
  let terms := act.map fun p =>
    let t := s.part p
    let n := s.nextWin t
    let c := paceCap t (s.hottest p)
    let x := s.variantOf t n.1 0
    let q := max x.pace c
    (energyAt x (finishAt x q) (s.tailW t n.1) n.2, n.2)
  let terms := terms.filter fun x => decide (0 < x.2)
  let den := terms.foldl (fun d x => d * x.2) 1
  let num := terms.foldl (fun a x => a + x.1 * (den / x.2)) 0
  -- nJ per tick is a quarter watt
  decide (((s.envUnder cap : Nat) : Int) * 4 * den < num)

end Sys2Proof.Machine
end

