-- ==== Sys2Proof/Machine/Boundary.lean ====
section
/-! DEFINITION. The window boundary from B to the open (R161 to R174, R477): latched effects, holds, the norm check, the
choice, the pace, the entry PCs, and the open. -/

namespace Sys2Proof.Machine

-- Entry tables (R159)

/-- The indices of the streams of partition p. -/
def State.streamsOf (s : State) (p : Nat) : List Nat :=
  ((s.diesOf p).map fun d => (List.range 16).map fun k => 16 * d + k).flatten
    ++ ((s.diesOf p).map fun d => [512 + 2 * d, 513 + 2 * d]).flatten

/-- The entry PCs of a table for the partition's streams. -/
def State.entryPcs (s : State) (p base : Nat) : List (Nat × Nat) :=
  (s.streamsOf p).map fun i => (i, s.rdN (base + 8 * i) 8 % 2 ^ 48)

-- Latched effects (R477)

/-- What a latched command of a code left was taken before tick b (R164). One taken while the partition had no windows is
always due. -/
def PartSt.dueAt (t : PartSt) (code b : Nat) : Bool :=
  match t.latched.find? fun x => x.1 == code with
  | some (_, _, k) => decide (k < b)
  | none => true

def PartSt.unlatch (t : PartSt) (code : Nat) : PartSt := { t with latched := t.latched.filter fun x => x.1 != code }

/-- The pace plan of a `pace.plan` payload (Table 17-4). -/
def planOf (e : BitVec 512) : PacePlan :=
  ⟨payF e 0 1, payF e 1 1, payF e 2 1, payF e 3 1, payF e 4 1, payF e 5 1, payF e 6 1, payF e 7 1, payF e 8 8⟩

/-- A plan comes into force; SHARE 0 keeps the present share. -/
def PartSt.takePlan (t : PartSt) (x : PacePlan) : PartSt :=
  { t with plan := { x with share := if x.share == 0 then t.plan.share else x.share }, planNext := none }

/-- Pace plan and cap of partition p at its boundary; the result says whether the cap changed. -/
def PartSt.takePace (t : PartSt) (b : Nat) : PartSt × Bool :=
  let t := match t.planNext with
    | some x => if t.dueAt 0x0301 b then (t.takePlan x).unlatch 0x0301 else t
    | none => t
  match t.capNext with
  | some (c, k) => if k < b then ({ t with cap := c, capNext := none }, c != t.cap) else (t, false)
  | none => (t, false)

/-- A committed graft of the partition whose count has come: its map switches at B + 16 (R496). -/
def State.graftsDue (s : State) (p b : Nat) : State :=
  { s with mgmt := { s.mgmt with grafts := s.mgmt.grafts.map fun g =>
    if g.part == p && (g.phase == 3 || g.phase == 4) && g.agreed == 0 && g.count ≤ b then { g with agreed := b + 16 } else g } }

/-- A graft that the boundary under way carries has not switched its map (R496). -/
def State.graftOwed (s : State) (p : Nat) : Bool :=
  s.mgmt.grafts.any fun g => g.part == p && (g.phase == 3 || g.phase == 4) && g.agreed != 0

/-- Every far-cache line of the partition is dropped, without EVICT (R353). -/
def State.dropLines (s : State) (p : Nat) : State :=
  { s with net := { s.net with fc := s.net.fc.filter fun x => match x.2 with
    | some l => l.part != p || l.filling
    | none => true } }

/-- CE_PROOF of the partition's dies for the present STEP (R399). -/
def State.writeProof (s : State) (p : Nat) : State :=
  let t := s.part p
  let st := t.stepNo.toNat
  let due := t.proofPi != 0 && st % t.proofPi == t.proofPh
  (s.diesOf p).foldl (fun s d => s.setCfgW (dieCfg d + 0x148) (BitVec.ofNat 64 (boolNat due + 2 ^ 32 * st))) s

/-- Proof settings armed before tick b come into force. -/
def PartSt.takeProof (t : PartSt) (b : Nat) : PartSt :=
  match t.proofNext with
  | some (pi, ph, h) =>
    if t.dueAt 0x0703 b then { t with proofPi := pi, proofPh := ph, proofHold := h, proofNext := none }.unlatch 0x0703 else t
  | none => t

/-- STEP advances at the boundary that opens a listed window; proof settings armed before then apply (R421, R399). -/
def State.stepAdvance (s : State) (p w : Nat) : State :=
  let t := s.part p
  let listed := match t.job with | some j => j.steps.contains w | none => false
  if !listed then s
  else
    let t := { t with stepNo := t.stepNo + 1 }
    let t := t.takeProof s.gc
    -- a variant set waits for such a boundary (R488)
    let t := match t.setNext with
      | some v => if t.dueAt 0x0206 s.gc then ({ t with set := v, setNext := none }).unlatch 0x0206 else t
      | none => t
    ((s.setPart p t).dropLines p).writeProof p

-- The norm check (R392 to R397)

/-- The reduced record's sum of squares (R394). -/
def State.classSum (s : State) (a : Nat) : W32 :=
  (List.range 16).foldl (fun x c => fadd x (BitVec.ofNat 32 (s.rdN (a + 4 * c) 4))) zero32

def isFinite32 (w : W32) : Bool := !(val32 w).isNan && !(val32 w).isInf

/-- GSCALE of an action for norm n (R394). -/
def gscaleOf (b : NormBounds) (action : Nat) (n : W32) : W32 :=
  if action == 1 then zero32
  else if action == 0 && (val32 zero32).lt (val32 b.clip) && (val32 b.clip).lt (val32 n) then fdiv b.clip n
  else one32

/-- The verdict of R394 under bounds b. -/
def normVerdictOf (b : NormBounds) (stepNo ss : W32) (count : Nat) : Verdict :=
  let n := fsqrt ss
  let action :=
    if (val32 n).isNan || n == posInf32 then b.nonfinite
    else if (val32 b.limit).lt (val32 n) then b.above
    else 0
  ⟨action, 0, stepNo, ss, n, if action == 2 then zero32 else gscaleOf b action n, count⟩

/-- A recorded NORM entry of a replay for window w: the last one, hold answers included (R430). -/
def State.recordedNorm (s : State) (t : PartSt) (w : Nat) : Option Verdict :=
  match t.replay with
  | none => none
  | some r =>
    match ((s.recorded r).filter fun x => recType x.2 == 6 && recWindow x.2 == w).getLast? with
    | none => none
    | some (_, e) => some ⟨recF e 24 1, recF e 25 1, BitVec.ofNat 32 (recStep e), BitVec.ofNat 32 (recF e 28 4),
        BitVec.ofNat 32 (recF e 32 4), BitVec.ofNat 32 (recF e 36 4), recF e 40 8⟩

/-- The verdict record (Table 14-4). -/
def verdictBytes (v : Verdict) : List Byte :=
  natLe 4 (v.action + 4 * v.source) ++ natLe 4 v.stepNo.toNat ++ natLe 4 v.ss.toNat ++ natLe 4 v.norm.toNat
    ++ natLe 4 v.gscale.toNat ++ List.replicate 44 0

/-- A verdict is written: the record and the NORM entry (R395, R396). -/
def State.putVerdict (s : State) (p : Nat) (v : Verdict) : State :=
  let t := s.part p
  match t.job.bind JobImage.norm with
  | none => s
  | some nc =>
    let s := s.setPart p { t with verdict := some v }
    (s.wr nc.verdictAddr (verdictBytes v)).journal p 6 (natLe 1 v.action ++ natLe 1 v.source ++ natLe 2 0
      ++ natLe 4 v.ss.toNat ++ natLe 4 v.norm.toNat ++ natLe 4 v.gscale.toNat ++ natLe 8 s.gc) []

/-- The check starts at the boundary that closes its window (R395): the reduced record is read. -/
def State.startCheck (s : State) (p : Nat) : State :=
  let t := s.part p
  match t.job.bind JobImage.norm with
  | none => s
  | some nc =>
    if nc.window != t.window then s
    else
      let v := match s.recordedNorm t (t.window + 1) with
        | some v => v
        | none => normVerdictOf t.bounds t.stepNo (s.classSum nc.normAddr) s.gc
      s.setPart p { t.unlatch 0x0701 with verdict := some v, checkBounds := t.bounds, normAt := some s.gc }

/-- The verdict v of partition p is given: record, entry, and for HOLD the notice. -/
def State.giveVerdict (s : State) (p : Part) (v : Verdict) : State :=
  let v := { v with count := s.gc }
  let s := (s.setPart p.val { s.part p.val with normAt := none }).putVerdict p.val v
  if v.action == 2 then
    s.notice (some p) 10 (natLe 4 v.stepNo.toNat ++ natLe 1 v.action ++ natLe 1 v.source ++ natLe 2 0
      ++ natLe 4 v.ss.toNat ++ natLe 4 v.norm.toNat ++ natLe 4 v.gscale.toNat ++ natLe 4 0 ++ natLe 8 v.count)
  else s

/-- NORM_VERDICT, at B + 224 (R395 to R397). -/
def normVerdict (p : Part) (s : State) : Option State :=
  match (s.part p.val).normAt, (s.part p.val).verdict with
  | some b, some v => if s.gc < b + 224 then none else some (s.giveVerdict p v)
  | _, _ => none

def execNormVerdict (p : Part) (s : State) : Host.Outcome State Fault Refusal := attempt s (normVerdict p s)

/-- A NORM hold is answered by the host (SOURCE 1) or by the fallback (SOURCE 2) (R397). -/
def State.resolveNorm (s : State) (p action source : Nat) : State :=
  let t := s.part p
  match t.verdict with
  | none => s
  | some v =>
    let s := s.putVerdict p { v with action := action, source := source, gscale := gscaleOf t.checkBounds action v.norm }
    s.setPart p ((s.part p).release 5)

/-- A verdict of HOLD for the check of the window before this one. -/
def PartSt.normHolds (t : PartSt) : Bool :=
  match t.verdict, t.job.bind JobImage.norm with
  | some v, some nc => v.action == 2 && t.window == nc.window + 1
  | _, _ => false

/-- The entry table that a SKIP verdict puts in place of the variant's (R395). -/
def PartSt.skipEntry (t : PartSt) : Option Nat :=
  match t.verdict, t.job.bind JobImage.norm with
  | some v, some nc => if v.action == 1 && t.window == nc.window + 1 then some nc.skipEntry else none
  | _, _ => none

-- Doorbells (R422, R472)

def dbA (p k : Nat) : Nat := bar4Addr p (0x1000 + 8 * k)

/-- One doorbell is delivered: mirror, count event, DOORBELL entry. -/
def State.ringBell (s : State) (p w k : Nat) (v : W64) (tick : Nat) : State :=
  match (s.part p).job with
  | none => s
  | some j =>
    let s := s.wr (j.mirror + 8 * k) (natLe 8 v.toNat)
    let s := s.sendEvent ⟨j.bellDie.val, j.bellCore.val, j.bellTally.val, 1, j.bellDie.val, 5, some (Fin.ofNat 8 p)⟩
    s.journalFor p w 3 (natLe 8 tick ++ natLe 2 k ++ natLe 6 0 ++ natLe 8 v.toNat) []

/-- Pending doorbells written before B are taken in ascending order. -/
def State.bells (s : State) (p w : Nat) : State :=
  (List.range 16).foldl (fun s k =>
    let tick := tget (fun _ => 0) (s.part p).bellAt k
    if s.mbxF (bar4Addr p 0x1080) k 1 == 1 && decide (tick < s.gc) then
      (s.ringBell p w k (s.mbxW (dbA p k)) tick).setMbxF (bar4Addr p 0x1080) k 1 0
    else s) s

/-- In a replay the recorded doorbells of window w are delivered in place of the host's (R430). -/
def State.replayBells (s : State) (p w : Nat) (r : Replay) : State :=
  ((s.recorded r).filter fun x => recType x.2 == 3 && recWindow x.2 == w).foldl (fun s x =>
    s.ringBell p w (recF x.2 32 2) (BitVec.ofNat 64 (recF x.2 40 8)) s.gc) s

/-- A recorded command is applied again at the boundary of its effect window (R430): pace plans, variant sets and proof
settings. Grafts change no result and norm answers come from NORM entries. -/
def State.replayCommands (s : State) (p w : Nat) (r : Replay) : State :=
  ((s.recorded r).filter fun x => recType x.2 == 2 && recF x.2 36 4 == w && recF x.2 33 1 == 0).foldl (fun s x =>
    let e : BitVec 512 := BitVec.ofNat 512 (s.recSlot r (x.1 + 1))
    let t := s.part p
    match entCode e with
    | 0x0301 => s.setPart p (t.takePlan (planOf e))
    | 0x0206 => s.setPart p { t with setNext := some (payF e 0 1), latched := t.latched ++ [(0x0206, 0, 0)] }
    | 0x0703 => s.setPart p { t with proofNext := some (payF e 0 2, payF e 2 2, payF e 4 1 == 1) }
    | _ => s) s

-- Repairs at a boundary (R274, R287, R288, R538)

/-- The memory dies that partition p uses. -/
def State.memDies (s : State) (p : Nat) : List Nat := below 12 fun m => s.usesMem p m

def State.logRepair (s : State) (kind unit bank row : Nat) : State :=
  { s with mgmt := { s.mgmt with repairs := s.mgmt.repairs ++ [(kind, unit, bank, row)] } }

def bump (t : Tbl Nat) (k : Nat) : Tbl Nat := tput (fun _ => 0) t k (tget (fun _ => 0) t k + 1)
def cnt (t : Tbl Nat) (k : Nat) : Nat := tget (fun _ => 0) t k

def stackA (m : Nat) : Nat := memCfg m + 0x70000

/-- A row goes to a spare row of its bank, while the bank has one. -/
def State.repairRow (s : State) (x : Nat × Nat) : State :=
  let m := x.1 / 4096
  let used := cnt s.svc.rowSpares x.1
  if 512 ≤ used then s
  else
    let s := { s with svc := { s.svc with
      rowSpares := bump s.svc.rowSpares x.1, rowQueue := s.svc.rowQueue.filter fun y => y != x } }
    let s := (s.logRepair 2 m (x.1 % 4096) x.2).bumpCfg (stackA m) 16 16 1
    s.raise { mkErr 0 2 m 0xFF 0x0205 with
      detail := BitVec.ofNat 64 (2 + 2 ^ 8 * (x.1 / 64 % 64) + 2 ^ 16 * (x.1 % 64) + 2 ^ 24 * x.2 + 2 ^ 48 * used) }

/-- One lane goes to a spare lane of its pseudo-channel. -/
def State.repairLane (s : State) (x : Nat × Nat) : State :=
  let m := x.1 / 64
  let used := cnt s.svc.laneSpares x.1
  if 2 ≤ used then s
  else
    let s := { s with svc := { s.svc with laneSpares := bump s.svc.laneSpares x.1 } }
    let s := (s.logRepair 3 m (x.1 % 64) x.2).bumpCfg (stackA m) 32 8 1
    s.raise { mkErr 0 2 m 0xFF 0x0206 with
      detail := BitVec.ofNat 64 (x.1 % 64 + 2 ^ 8 * x.2 + 2 ^ 16 * used) }

/-- Spare lines of a bank: 64 in a core store, 128 in a well (Table 19-6). -/
def lineSparesOf (unit : Nat) : Nat := if unit < 128 then 64 else 128

/-- One core-store or well line goes to a spare line of its bank; its contents and poison stay. -/
def State.repairLine (s : State) (x : Nat × Nat) : State :=
  let unit := x.1 / 128
  let bank := x.1 % 128
  let used := cnt s.svc.lineSpares x.1
  if lineSparesOf unit ≤ used then s
  else
    let s := { s with svc := { s.svc with lineSpares := bump s.svc.lineSpares x.1 } }
    let s := s.logRepair (if unit < 128 then 0 else 1) (if unit < 128 then s.coreKey unit else unit - 128) bank x.2
    let core := unit < 128
    s.raise { mkErr 0 (if core then 0 else 1) (if core then s.physDie (unit / 4) else unit - 128)
        (if core then 8 * (unit % 4) else 0xFF) 0x0205 with
      logical := BitVec.ofNat 16 (if core then unit else 0xFFFF)
      detail := BitVec.ofNat 64 ((if core then 0 else 1) + 2 ^ 16 * bank + 2 ^ 24 * x.2 + 2 ^ 48 * used) }

/-- A die-to-die lane goes to a redundant lane of its module. -/
def State.repairD2d (s : State) (x : Nat × Nat × Nat × Nat) : State :=
  let (k, link, module, lane) := x
  let s := { s with net := { s.net with d2dUsed := bump s.net.d2dUsed ((k * 6 + link) * 16 + module) } }
  let (kind, unit) : Fin 6 × Nat :=
    if k < 34 then (0, k) else if k < 46 then (1, k - 34) else if k < 50 then (3, k - 46) else (4, k - 50)
  let s := s.logRepair 4 k (link * 16 + module) lane
  s.raise { mkErr 0 kind unit link 0x0301 with
    detail := BitVec.ofNat 64 (link + 2 ^ 8 * module + 2 ^ 16 * lane) }

/-- The repairs of a boundary: at most 4 rows of each memory die, every queued lane, at most 8 lines of each die. -/
def State.repairs (s : State) (p : Nat) : State :=
  let ms := s.memDies p
  let rows := (ms.map fun m => (s.svc.rowQueue.filter fun x => x.1 / 4096 == m).take 4).flatten
  let lanes := s.svc.laneQueue.filter fun x => ms.contains (x.1 / 64)
  let ds := s.diesOf p
  let lines := (ds.map fun d => (s.svc.lineQueue.filter fun x => x.1 / 128 < 128 && x.1 / 512 == d).take 8).flatten
    ++ (ms.map fun m => (s.svc.lineQueue.filter fun x => x.1 / 128 == 128 + m).take 8).flatten
  let links := s.net.d2d
  let s := { s with
    svc := { s.svc with
      rowQueue := s.svc.rowQueue.filter fun x => !rows.contains x
      laneQueue := s.svc.laneQueue.filter fun x => !lanes.contains x
      lineQueue := s.svc.lineQueue.filter fun x => !lines.contains x }
    net := { s.net with d2d := [] } }
  links.foldl State.repairD2d (lines.foldl State.repairLine (lanes.foldl State.repairLane (rows.foldl State.repairRow s)))

-- Group block (R553)

/-- The WINDOW counts of the window that closes. -/
def State.windowCounts (s : State) (p : Nat) : State :=
  let t := s.part p
  let m := s.mc t t.window
  let c := t.closed.getD m
  let s := if m < c then (s.bumpGroup p 9 1).bumpGroup p 10 (c - m) else s
  let s := match t.sleep with
    | some x => if x.done then s.bumpGroup p 11 1 else s
    | none => s
  ((s.bumpGroup p 12 t.sleepCancels).bumpGroup p 14 (cnt s.eng.fallbacks p)).bumpGroup p 15 (cnt s.eng.pinConflicts p)

-- Holds at a boundary

/-- The journal of the partition lacks room for its reserve (R424). -/
def State.jnlTight (s : State) (p : Nat) : Bool := s.jnlOpen p && decide (s.jnlFree p < 4096)

/-- Holds that fall due at this boundary: reason codes in ascending order (Table 19-5). -/
def State.dueHolds (s : State) (p : Nat) : List Nat :=
  let t := s.part p
  (if t.guardHold then [1] else []) ++ (if t.stackDue then [3] else []) ++ (if t.normHolds then [5] else [])
    ++ (if t.proofDue then [6] else []) ++ (if s.jnlTight p then [8] else []) ++ (if t.replayDue then [9] else [])

def PartSt.noted (t : PartSt) (reason : Nat) : PartSt :=
  match reason with
  | 1 => { t with guardHold := false }
  | 3 => { t with stackDue := false }
  | 6 => { t with proofDue := false }
  | 9 => { t with replayDue := false }
  | _ => t

/-- A hold of the boundary is entered; that of the journal sets JNL_FULL_HOLD and posts JOURNAL_FULL. -/
def State.enterHold (s : State) (p : Part) (reason : Nat) : State :=
  let s := s.setPart p.val ((s.part p.val).noted reason)
  let s := if reason == 8 then
      (s.setMbxF (bar4Addr p.val 0x20) 1 1 1).notice (some p) 12 (natLe 8 (s.jnlWrite p.val) ++ natLe 8 (s.jnlRead p.val))
    else s
  s.hold p reason none

/-- Hold reasons that are answered by now: a norm answer latched before B, and free journal slots. -/
def State.answered_ (s : State) (p : Nat) : State :=
  let t := s.part p
  let s := match t.answer with
    | some a =>
      if t.dueAt 0x0702 s.gc && t.holds.any (fun h => h.reason == 5) then
        (let s := s.resolveNorm p a 1
         s.setPart p ({ s.part p with answer := none }.unlatch 0x0702))
      else s
    | none => s
  let t := s.part p
  if t.holds.any (fun h => h.reason == 8) && !s.jnlTight p then
    (s.setPart p (t.release 8)).setMbxF (bar4Addr p 0x20) 1 1 0
  else s

-- The boundary

/-- The last window has closed: the partition stops (Table 16-12). -/
def State.lastClose (s : State) (p : Part) : State :=
  let t := s.part p.val
  let s := s.setPart p.val { t with state := 7, holds := [], stopAt := none, stopped := some s.gc, last := true }
  let s := s.notice (some p) 15 (natLe 8 s.gc ++ natLe 1 1)
  s.endStops p.val 6 none

/-- BOUNDARY entries in the rings of the partition (Table 20-6). -/
def State.traceBoundary (s : State) (p w v q late b : Nat) : State :=
  let body := natLe 4 w ++ natLe 2 (v + 4 * q + 2 ^ 8 * late) ++ natLe 6 b
  (s.diesOf p).foldl (fun s d =>
    [0, 1, 2, 3, 8, 9, 11].foldl (fun s k => s.trace d k 8 7 body) s) s

/-- The choice for window w of a partition at B, with its journal entry, debit and segment (R169 to R174, R516). -/
def State.takeChoice (s : State) (p w : Nat) (first : Bool) : State :=
  let t := s.part p
  let b := s.gc
  let o := b + 32
  let m := s.mc t w
  let hot := s.hottest p
  let h16 := s.headroom16 t o m
  let cap := paceCap t hot
  let win : Int := (m : Int) - (o : Int)
  let recorded : Option (Nat × Nat) := match t.replay with
    | some r => (s.recorded r).find? fun x => recType x.2 == 5 && recWindow x.2 == w
    | none => none
  let c := match recorded with
    | some (_, e) => s.candOf t w (recF e 32 1) (max (recF e 33 1) cap) win
    | none =>
      if first then
        (let x := s.variantOf t 0 0
         let q := max x.pace cap
         let f := finishAt x q
         ⟨0, q, f, energyAt x f (s.tailW t 0) win⟩)
      else s.choose t w cap win h16
  let x := s.variantOf t w c.v
  let seg : EnergySeg := ⟨o, m, c.e, s.tailW t w, none⟩
  let late := match t.late with | some (k, _, _) => k | none => 0
  let s := s.setPart p { t with
    bAt := some b
    phase := 1
    bDone := none
    nextVariant := c.v
    nextPace := c.q
    nextCompiled := x.pace
    entryBase := match t.skipEntry with | some a => a | none => x.entry
    headroom := h16 / 16
    hottest := degrees hot
    segs := seg :: t.segs.filter fun g => decide (o ≤ g.tailEnd o + 260000)
    verdict := if t.normAt.isSome then t.verdict else none }
  let s := s.journalFor p w 5 (natLe 8 b ++ natLe 1 c.v ++ natLe 1 c.q ++ natLe 1 (degrees hot) ++ natLe 5 0
    ++ natLe 8 ((h16 / 16) % 2 ^ 64).toNat) []
  (s.bumpGroup p 8 1).traceBoundary p w c.v c.q late b

/-- Latched effects up to the grafts; true where the cap changed. -/
def State.takeLatched (s : State) (p : Part) : State × Bool :=
  let x := (s.part p.val).takePace s.gc
  let s := s.setPart p.val x.1
  let s := s.overlaysDue p.val
  (s.graftsDue p.val s.gc, x.2)

/-- A cap that leaves variant 0 of the partitions without energy holds every one of them (R175). -/
def State.guardAll (s : State) (cap : Nat) : State :=
  if s.overEnvelope cap then
    (List.range 8).foldl (fun s q =>
      let t := s.part q
      if [4, 5, 6].contains t.state then s.setPart q { t with guardHold := true } else s) s
  else s

/-- Norm answers apart, what remains of R477, then the choice. -/
def State.openNext (s : State) (p : Part) (w : Nat) (first : Bool) : State :=
  let r := (s.part p.val).replay
  let s := match r with | some r => s.replayCommands p.val w r | none => s
  let s := if first then s else s.stepAdvance p.val w
  let s := match r with | some r => s.replayBells p.val w r | none => s.bells p.val w
  s.takeChoice p.val w first

/-- The boundary may run: window closed, meeting count reached, no takeover under way. -/
def State.mayBound (s : State) (t : PartSt) : Bool :=
  (t.state == 5 || t.state == 6) && t.closed.isSome && t.bAt.isNone && !t.frozen && s.mgmt.takeover.isNone
    && decide (s.mc t t.window ≤ s.gc)

/-- The boundary with no hold open: its first pass checks and repairs, then the latched effects; the partition stops, takes
the choice of its next window, or enters the holds that fall due. -/
def State.runBoundary (s : State) (p : Part) : State :=
  let t := s.part p.val
  let s := if t.bDone != some t.window then ((s.startCheck p.val).repairs p.val).windowCounts p.val else s
  let x := s.takeLatched p
  let s := if x.2 then x.1.guardAll (x.1.part p.val).cap else x.1
  let t := s.part p.val
  if s.lastWin t t.window then s.lastClose p
  else
    let due := s.dueHolds p.val
    let s := s.setPart p.val { t with bDone := some t.window }
    if due.isEmpty then (s.setPart p.val { s.part p.val with state := 5 }).openNext p (t.window + 1) false
    else due.foldl (fun s k => s.enterHold p k) s

/-- BOUNDARY_START. -/
def boundaryStart (p : Part) (s : State) : Option State :=
  if !s.mayBound (s.part p.val) then none
  else
    let s := s.answered_ p.val
    if !(s.part p.val).holds.isEmpty then none else some (s.runBoundary p)

def execBoundaryStart (p : Part) (s : State) : Host.Outcome State Fault Refusal := attempt s (boundaryStart p s)

/-- The boundary of window 0: the latched effects, then the choice. -/
def State.runBoundary0 (s : State) (p : Part) : State :=
  let x := s.takeLatched p
  (if x.2 then x.1.guardAll (x.1.part p.val).cap else x.1).openNext p 0 true

/-- WINDOW0_BOUNDARY (R170): the boundary of window 0 at LC − 32. -/
def window0Boundary (p : Part) (s : State) : Option State :=
  let t := s.part p.val
  if t.state != 4 || t.bAt.isSome || s.gc + 32 < t.lc || s.mgmt.takeover.isSome then none
  else some (s.runBoundary0 p)

def execWindow0Boundary (p : Part) (s : State) : Host.Outcome State Fault Refusal := attempt s (window0Boundary p s)

/-- PACE_SEND, at B + 4: the die clocks relock to the pace chosen (R163, R508). -/
def paceSend (p : Part) (s : State) : Option State :=
  let t := s.part p.val
  match t.bAt with
  | some b =>
    if t.phase != 1 || s.gc < b + 4 then none
    else some (s.setPart p.val { t with
      phase := 2, pace := t.nextPace, variant := t.nextVariant, compiled := t.nextCompiled })
  | none => none

def execPaceSend (p : Part) (s : State) : Host.Outcome State Fault Refusal := attempt s (paceSend p s)

/-- The bandwidth plan at `a` (Tables 10-4 and 10-5): header quarters, then entries. -/
def State.bwPlanAt (s : State) (a : Nat) : List (BitVec 128) :=
  if a == 0 then []
  else (List.range (4 + s.rdN a 2)).map fun i => BitVec.ofNat 128 (s.rdN (a + 16 * i) 16)

/-- ENTRY_PC_LOAD, at B + 28: entry PCs and the bandwidth plan (R159, R275). -/
def entryPcLoad (p : Part) (s : State) : Option State :=
  let t := s.part p.val
  match t.bAt with
  | some b =>
    if t.phase != 2 || s.gc < b + 28 then none
    else
      let w := if t.state == 4 then 0 else t.window + 1
      let a := s.winF t w 128 48
      some (s.setPart p.val { t with
        phase := 3, entries := s.entryPcs p.val t.entryBase, bwAddr := a, bwPlan := s.bwPlanAt a })
  | none => none

def execEntryPcLoad (p : Part) (s : State) : Host.Outcome State Fault Refusal := attempt s (entryPcLoad p s)

-- The open

/-- A stream that stands at a boundary, a debug halt there included. -/
def StreamSt.atBoundary (x : StreamSt) : Bool := x.st == .waitBoundary || (x.st == .halted && x.resume == .waitBoundary)

/-- A stream at the open of window w: it takes the number, and from WAIT_BOUNDARY its entry PC, no loops, and RUN. -/
def StreamSt.open_ (x : StreamSt) (w pc : Nat) : StreamSt :=
  if x.st == .waitBoundary then
    { x with window := w, pc := pc, loops := [], st := .run, fbuf := none, granted := false, wend := false }
  else if x.st == .halted && x.resume == .waitBoundary then
    { x with window := w, pc := pc, loops := [], resume := .run, fbuf := none, granted := false, wend := false }
  else { x with window := w }

/-- Pins of generations that every stream of their cache has passed are released (R144). -/
def State.unpin (s : State) (d : Nat) : State :=
  let passed (ixs : List Nat) (g : Nat) : Bool := ixs.all fun i =>
    let x := s.stream i
    x.st == .idle || decide (g < x.window)
  let ofKey (k : Nat) : List Nat :=
    if k < 0x80000 then (List.range 4).map fun e => 4 * (k / 4096) + e
    else [512 + 2 * ((k - 0x80000) / 1024), 513 + 2 * ((k - 0x80000) / 1024)]
  let dieOf (k : Nat) : Nat := if k < 0x80000 then k / 4096 / 4 else (k - 0x80000) / 1024
  { s with eng := { s.eng with icache := s.eng.icache.map fun x : Nat × ILine =>
    match x.2.pin with
    | some g => if dieOf x.1 == d && passed (ofKey x.1) g then (x.1, { x.2 with pin := none }) else x
    | none => x } }

/-- The per-window counts of partition p start again (R22, R82, R144, R145, R251, R311). -/
def State.clearCounts (s : State) (p : Nat) : State :=
  let ds := s.diesOf p
  { s with
    eng := { s.eng with
      pinConflicts := tput (fun _ => 0) s.eng.pinConflicts p 0
      missIn := tput (fun _ => 0) s.eng.missIn p 0
      heldIn := tput (fun _ => 0) s.eng.heldIn p 0
      fallbacks := tput (fun _ => 0) s.eng.fallbacks p 0
      wsNoted := s.eng.wsNoted.filter fun k => !ds.contains (k / 256) }
    pool := { s.pool with spillNoted := s.pool.spillNoted.filter fun k => k % 8 != p } }

/-- Window w of partition p opens (R163): streams, pins, counts; then the final responses of `job.resume`. -/
def State.openWindow (s : State) (p : Part) (w : Nat) : State :=
  let t := s.part p.val
  let s := t.entries.foldl (fun s x => s.setStream x.1 ((s.stream x.1).open_ w x.2)) s
  let s := s.setPart p.val { t with
    state := 5, window := w, opened := some s.gc, closed := none, bAt := none, phase := 0, bDone := none
    late := none, bandOver := false, sleep := none, sleepCancels := 0, ingress := ⟨0, 0, 0, 0, 0, 0⟩
    peers := t.peers.filter fun x => decide (w ≤ x.1)
    ranSlow := decide (t.compiled < t.pace) || s.slowedBy p.val, hangFrom := none, resumed := false, last := s.lastWin t w }
  let s := (s.diesOf p.val).foldl State.unpin (s.clearCounts p.val)
  (s.pendingOf 0x0205 p.val).foldl (fun s c => s.finish c stOk (natLe 4 w ++ natLe 4 0 ++ natLe 8 s.gc)) s

/-- WINDOW_OPEN, at B + 32. -/
def windowOpen (p : Part) (s : State) : Option State :=
  let t := s.part p.val
  match t.bAt with
  | some b => if t.state == 5 && t.phase == 3 && decide (b + 32 ≤ s.gc) && !t.frozen && !s.graftOwed p.val then some (s.openWindow p (t.window + 1)) else none
  | none => none

def execWindowOpen (p : Part) (s : State) : Host.Outcome State Fault Refusal := attempt s (windowOpen p s)

/-- The launch of a partition at LC. -/
def State.launched (s : State) (p : Part) : State :=
  let t := s.part p.val
  let s := (s.setPart p.val { t.takeProof s.gc with stepNo := t.step0 }).writeProof p.val
  let s := t.entries.foldl (fun s x =>
    let y := s.stream x.1
    if y.st == .idle then s.setStream x.1 { y with st := .waitBoundary } else s) s
  s.openWindow p 0

/-- LAUNCH_COUNT (R419): at LC the partition runs, STEP takes STEP0, every stream leaves IDLE, and window 0 opens. -/
def launchCount (p : Part) (s : State) : Option State :=
  let t := s.part p.val
  if t.state != 4 || t.phase != 3 || s.gc < t.lc || s.graftOwed p.val then none
  else some (s.launched p)

def execLaunchCount (p : Part) (s : State) : Host.Outcome State Fault Refusal := attempt s (launchCount p s)

end Sys2Proof.Machine
end

