-- ==== Sys2Proof/Machine/Closing.lean ====
section
/-! DEFINITION. The close of a window and what follows it: quiet credit, lateness (R176 to R179), ingress entries (R427,
R431), the sleep agreement (R181 to R183), and the limits of a hold (R535). -/

namespace Sys2Proof.Machine

-- What is still open

/-- The lowest-numbered stream of the partition that has not reached the boundary. -/
def State.openStream (s : State) (p : Nat) : Option Nat :=
  (s.streamsOf p).find? fun i => let x := s.stream i; x.st != .idle && x.st != .waitBoundary

/-- Move descriptors, exchange and collective operations and fabric requests of the partition have completed (R162). -/
def State.opsDone (s : State) (p : Nat) : Bool :=
  let ds := s.diesOf p
  !((s.mv.chans.any fun x => ds.contains (x.1 / 128) && (!x.2.queue.isEmpty || x.2.rest.2 != 0 || x.2.running.isSome))
    || (s.xch.ops.any fun o => ds.contains o.die) || (s.ce.ops.any fun o => ds.contains o.die)
    || (s.net.reqs.any fun r => match r.use with
      | .load i _ => ds.contains (ixDie i)
      | .store i => ds.contains (ixDie i)
      | .atomic i _ => ds.contains (ixDie i)
      | _ => false)
    || ((s.streamsOf p).any fun i => (s.stream i).flight.isSome))

/-- A graft that the coming boundary carries has not made its final copy (R541). -/
def State.copyOwed (s : State) (p : Nat) : Bool :=
  let t := s.part p
  s.mgmt.grafts.any fun g => g.part == p && g.phase == 3 && decide (g.count ≤ max s.gc (s.mc t t.window))

-- Lateness (R176, R177)

/-- A stack of the partition runs above the planned band. -/
def State.bandAbove (s : State) (p : Nat) : Bool :=
  let t := s.part p
  t.bandOver || (s.memDies p).any fun m => decide (s.hbmBand t t.window < s.cfgF (memCfg m + 0x70000) 0 2)

/-- The cause of lateness, with the node of a late peer (Table 6-11). -/
def State.lateCause (s : State) (p : Nat) : Nat × Nat :=
  let t := s.part p
  let m := s.mc t t.window
  let st := match s.openStream p with | some i => (s.stream i).st | none => .waitBoundary
  if t.resumed then (15, 0)
  else match t.peers.find? fun x => x.1 == t.window && decide (x.2.2 < m) with
  | some (_, n, _) => (1, n)
  | none =>
    (if t.ranSlow then 2
      else if s.bandAbove p then 3
      else if st == .waitFetch || cnt s.eng.missIn p != 0 || cnt s.eng.pinConflicts p != 0 then 4
      else if cnt s.eng.fallbacks p != 0 then 5
      else if cnt s.eng.heldIn p != 0 then 6
      else if st == .waitTally then 7
      else if (s.openStream p).isNone then 8
      else 15, 0)

/-- Payload of LATE_START and LATE_END up to byte 40 (Table 17-13). -/
def State.lateBody (s : State) (p : Nat) (x : Nat × Nat × Nat) : List Byte :=
  let t := s.part p
  natLe 4 t.window ++ natLe 2 x.1 ++ natLe 2 x.2.1 ++ natLe 8 x.2.2 ++ natLe 8 (s.mc t t.window)

def State.lateStart (s : State) (p : Part) : State :=
  let t := s.part p.val
  let c := s.lateCause p.val
  let x := (c.1, c.2, (s.openStream p.val).getD 0)
  let s := s.setPart p.val { t with late := some x }
  let s := s.notice (some p) 2 (s.lateBody p.val x)
  let nodes := match t.job with | some j => j.meetSets.getD (s.meetSet t t.window) [] | none => []
  let nodes := if s.meetSet t t.window == 0 then [] else nodes
  let body := natLe 4 t.window ++ natLe 4 0 ++ natLe 8 t.tag.toNat ++ natLe 8 (s.mc t t.window)
  nodes.foldl (fun s n => s.sendFirst n.val (s.mkFrame 1 0x0A n.val body)) s

/-- A window of the partition is open and has not closed. -/
def PartSt.inWindow (t : PartSt) : Bool := (t.state == 5 || t.state == 6) && t.opened.isSome && t.closed.isNone && !t.frozen

/-- MEETING_COUNT_REACHED. -/
def meetingCountReached (p : Part) (s : State) : Option State :=
  let t := s.part p.val
  if !t.inWindow || t.late.isSome || s.gc < s.mc t t.window then none else some (s.lateStart p)

def execMeetingCountReached (p : Part) (s : State) : Host.Outcome State Fault Refusal := attempt s (meetingCountReached p s)

/-- LATE: the first beacon for a window from a node of its meeting set (R178, R418, R552). -/
def lateIn (pt : Nat) (f : Frame) (s : State) : Option State :=
  s.letIn pt 0x0A 1 f fun s =>
    let q := s.ctxPart (fSrc f)
    let t := s.part q
    let body := leNat f.payload
    let w := bitsAt body 0 32
    if f.payload.length != 24 then some (s.dropFrame pt)
    else if BitVec.ofNat 64 (bitsAt body 64 64) != t.tag || !s.hasJob q then some s
    else
      let k := s.meetSet t w
      let set := match t.job with | some j => if k == 0 then [] else j.meetSets.getD k [] | none => []
      if (set.any fun n => n.val == fSrc f) && !t.peers.any (fun x => x.1 == w) && decide (t.window ≤ w) then
        some (s.setPart q { t with peers := t.peers ++ [(w, fSrc f, s.gc)] })
      else some s

def execLate (pt : Port) (f : Frame) (s : State) : Host.Outcome State Fault Refusal := attempt s (lateIn pt.val f s)

/-- The hang record: the lowest open stream, its PC and its STATUS. -/
def State.hangEvent (s : State) (p : Part) : ErrEvent :=
  let i := (s.openStream p.val).getD 0
  { mkErr 2 4 s.mgmt.active 0xFF 0x0504 with
    part := some p
    addr := (s.stream i).pc
    detail := BitVec.ofNat 64 (i + 2 ^ 16 * ((s.engStatus i).toNat % 256)) }

/-- HANG_LIMIT_EXPIRY (R179). -/
def hangLimit (p : Part) (s : State) : Option State :=
  let t := s.part p.val
  let base := t.hangFrom.getD (s.mc t t.window)
  if !t.inWindow || s.gc < base + t.plan.hang || t.holds.any (fun h => h.reason == 2) then none
  else
    some (s.hold p 2 (some (s.hangEvent p)))

def execHangLimitExpiry (p : Part) (s : State) : Host.Outcome State Fault Refusal := attempt s (hangLimit p s)

-- The close (R162, R172)

/-- Gated tile-cycles of the partition's cores since the last boundary. -/
def State.gatedOf (s : State) (p : Nat) : Nat :=
  ((s.diesOf p).map fun d => ((List.range 4).map fun k => cnt s.eng.gated (4 * d + k)).sum).sum

/-- Quiet credit in nJ at pace q. -/
def creditOf (gated q : Nat) : Nat := gated * 65536 * macEnergy q / 10 ^ 7

/-- The quiet credit is booked, the window's segment ends, and the gated counts start again. -/
def State.bookClose (s : State) (p : Nat) : State :=
  let t := s.part p
  let c := creditOf (s.gatedOf p) t.pace
  let segs := match t.segs with
    | g :: rest => { g with nj := g.nj - c, closed := some s.gc } :: rest
    | [] => []
  let s := s.setPart p { t with closed := some s.gc, credit := c, segs := segs }
  let ds := s.diesOf p
  let s := { s with eng := { s.eng with gated := s.eng.gated.filter fun x => !ds.contains (x.1 / 4) } }
  s.bumpGroup p 13 c

/-- The INGRESS entry of the window, compared with the recorded one in a replay (R427, R431). Classes are numbered in the
order of Table 15-9. -/
def State.ingressEntry (s : State) (p : Part) : State :=
  let t := s.part p.val
  let g := t.ingress
  let s := s.journal p.val 8 (natLe 4 g.xn ++ natLe 4 g.cn ++ natLe 4 g.sn ++ natLe 4 0 ++ natLe 8 g.xs ++ natLe 8 g.cs
    ++ natLe 8 g.ss) []
  match t.replay with
  | none => s
  | some r =>
    match (s.recorded r).find? fun x => recType x.2 == 8 && recWindow x.2 == t.window with
    | none => s
    | some (_, e) =>
      let same (cn cs n v : Nat) : Bool := recF e cn 4 == n && recF e cs 8 == v
      if !same 24 40 g.xn g.xs then s.diverge p 2 0 (recSeq e)
      else if !same 28 48 g.cn g.cs then s.diverge p 2 1 (recSeq e)
      else if !same 32 56 g.sn g.ss then s.diverge p 2 2 (recSeq e)
      else s

/-- The participants of a sleep proposal that are ON. -/
def State.sleepDoms (s : State) (p set : Nat) : List Nat :=
  let ds := s.diesOf p
  let cores := (ds.map fun d => (List.range 4).map fun k => s.coreKey (4 * d + k)).flatten
  (if set == 2 then cores ++ ds.map s.dieKey else cores).filter fun k => s.power k == .on

/-- The proposal at the close (R181, Table 6-12). -/
def State.proposeSleep (s : State) (p : Nat) : State :=
  let t := s.part p
  let set := (s.variantOf t t.window t.variant).sleepSet
  let c := s.gc + 16
  let m := s.mc t t.window
  let span := if set == 2 then 6266 else 641
  if set == 0 || m < c + span then s
  else s.setPart p { t with sleep := some ⟨c, s.sleepDoms p set, [], false, false, none⟩ }

/-- The window closes: the notices of a late one (LATE_START where it is still owed, then LATE_END), quiet credit, INGRESS
entry and sleep proposal. -/
def State.closeWindow (s : State) (p : Part) : State :=
  let t := s.part p.val
  let lateBy := s.gc - s.mc t t.window
  let s := if 0 < lateBy && t.late.isNone then s.lateStart p else s
  let s := s.bookClose p.val
  let s := match (s.part p.val).late with
    | some x => if 0 < lateBy then s.notice (some p) 3 (s.lateBody p.val x ++ natLe 8 lateBy) else s
    | none => s
  (s.ingressEntry p).proposeSleep p.val

/-- WINDOW_CLOSE. -/
def windowClose (p : Part) (s : State) : Option State :=
  if !(s.part p.val).inWindow || (s.openStream p.val).isSome || !s.opsDone p.val || s.copyOwed p.val then none
  else some (s.closeWindow p)

def execWindowClose (p : Part) (s : State) : Host.Outcome State Fault Refusal := attempt s (windowClose p s)

-- The sleep agreement

/-- The core behind a core domain. -/
def State.coreOfKey (s : State) (k : Nat) : Option Nat := (List.range s.nCores).find? fun c => s.coreKey c == k
/-- The logical compute die behind a compute-die domain. -/
def State.dieOfKey (s : State) (k : Nat) : Option Nat := (List.range s.nDies).find? fun d => s.dieKey d == k

/-- A participant refuses: its tally FIFO holds events, or an access to it is in flight. -/
def State.mustRefuse (s : State) (k : Nat) : Bool :=
  let cores := match s.coreOfKey k with
    | some c => [c]
    | none => match s.dieOfKey k with
      | some d => (List.range 4).map fun i => 4 * d + i
      | none => []
  (cores.any fun c => !(s.bank c).fifo.isEmpty) || s.eng.held.any fun h => h.dom == k

/-- SLEEP_ANSWER. -/
def sleepAnswer (p : Part) (dom : Domain) (s : State) : Option State :=
  let t := s.part p.val
  let k := domKey dom
  match t.sleep with
  | none => none
  | some x =>
    if x.done || x.commit ≤ s.gc || !x.doms.contains k || x.ready.contains k then none
    else if s.mustRefuse k then some (s.setPart p.val { t with sleep := some { x with refused := true } })
    else some (s.setPart p.val { t with sleep := some { x with ready := x.ready ++ [k] } })

def execSleepAnswer (p : Part) (dom : Domain) (s : State) : Host.Outcome State Fault Refusal := attempt s (sleepAnswer p dom s)

def SleepSt.agreed (x : SleepSt) : Bool := !x.refused && x.doms.all fun k => x.ready.contains k

/-- SLEEP_ANSWER_DEADLINE, at C − 4. -/
def sleepDeadline (p : Part) (s : State) : Option State :=
  let t := s.part p.val
  match t.sleep with
  | none => none
  | some x =>
    if x.done || s.gc + 4 < x.commit || x.agreed then none
    else some (s.setPart p.val { t with sleep := none, sleepCancels := t.sleepCancels + 1 })

def execSleepAnswerDeadline (p : Part) (s : State) : Host.Outcome State Fault Refusal := attempt s (sleepDeadline p s)

/-- SLEEP_COMMIT, at C: every participant enters SLEEP. -/
def sleepCommit (p : Part) (s : State) : Option State :=
  let t := s.part p.val
  match t.sleep with
  | none => none
  | some x =>
    if x.done || s.gc < x.commit || !x.agreed then none
    else
      let s := s.setPart p.val { t with sleep := some { x with done := true } }
      some (x.doms.foldl (fun s k => s.setDom k { s.dom k with st := .sleep, going := none }) s)

def execSleepCommit (p : Part) (s : State) : Host.Outcome State Fault Refusal := attempt s (sleepCommit p s)

/-- WAKE_REQUEST (R182). -/
def execWakeRequest (p : Part) (s : State) : Host.Outcome State Fault Refusal :=
  .next (s.setPart p.val ((s.part p.val).wakeAt s.gc))

/-- An agreement that takes in compute dies. -/
def SleepSt.deep (x : SleepSt) : Bool := x.doms.any fun k => 136 ≤ k

/-- A domain of an agreement starts to wake; with compute dies the whole set takes their latency. -/
def State.wakeDom (s : State) (deep : Bool) (k : Nat) : State :=
  let d := s.dom k
  if d.st == .sleep && d.going.isNone then
    s.setDom k { d with going := some .on, doneAt := s.gc + (if deep then 5000 else wakeTicks k) }
  else s

/-- LATCHED_WAKE: at the later of the request and C + the minimum dwell every participant wakes. -/
def latchedWake (p : Part) (s : State) : Option State :=
  let t := s.part p.val
  match t.sleep with
  | some x =>
    match x.wake with
    | some w =>
      let from_ := max w (x.commit + if x.deep then 1250 else 125)
      if !x.done || s.gc < from_ || x.doms.isEmpty then none
      else
        let s := s.setPart p.val { t with sleep := some { x with doms := [] } }
        some (x.doms.foldl (fun s k => s.wakeDom x.deep k) s)
    | none => none
  | none => none

def execLatchedWake (p : Part) (s : State) : Host.Outcome State Fault Refusal := attempt s (latchedWake p s)

/-- The sleeping domains whose wake has to begin now so that an active core of the next window is ON at MC, each with whether
its compute die sleeps too. -/
def State.wakesDue (s : State) (p : Nat) : List (Nat × Bool) :=
  let t := s.part p
  let m := s.mc t t.window
  let act := s.activeCores t (t.window + 1)
  let cores := ((s.diesOf p).map fun d => (List.range 4).map fun k => 4 * d + k).flatten.filter fun c => bitsAt act c 1 == 1
  let due := cores.foldl (fun l c =>
    let deep := s.power (s.dieKey (c / 4)) == .sleep
    let lat := if deep then 5000 else 500
    if s.gc + lat < m then l else l ++ [(s.coreKey c, deep)] ++ (if deep then [(s.dieKey (c / 4), true)] else [])) []
  due.filter fun x => s.power x.1 == .sleep && (s.dom x.1).going.isNone

/-- SCHEDULED_WAKE (R183): sleeping domains that hold an active core of the next window wake in time for MC. -/
def scheduledWake (p : Part) (s : State) : Option State :=
  let t := s.part p.val
  if t.opened.isNone || t.last || t.closed.isNone || s.mc t t.window ≤ s.gc then none
  else if (s.wakesDue p.val).isEmpty then none
  else some ((s.wakesDue p.val).foldl (fun s x => s.wakeDom x.2 x.1) s)

def execScheduledWake (p : Part) (s : State) : Host.Outcome State Fault Refusal := attempt s (scheduledWake p s)

-- The limit of a hold (R535, Table 19-5)

/-- EQUAL_SHARES: every SHARE becomes an equal split. -/
def State.equalShares (s : State) : State :=
  let n := s.configured.length
  s.configured.foldl (fun s q =>
    let t := s.part q.val
    s.setPart q.val { t with plan := { t.plan with share := 64 / max n 1 } }) s

/-- The limit of a hold passes: the fallback of the table and a second HOLD record, or a second notice with limit 0. -/
def State.holdExpires (s : State) (p : Part) (r : HoldReason) (h : Hold) : State :=
  let t := s.part p.val
  match r with
  | .envelope =>
    let s := if t.plan.fallback == 1 then s.equalShares else s
    let s := s.setPart p.val ((s.part p.val).release 1)
    s.takeEvent (holdEvent s p 1)
  | .norm =>
    let finite := match t.verdict with | some v => isFinite32 v.norm | none => false
    let s := s.resolveNorm p.val (if finite then t.checkBounds.fallback else 1) 2
    s.takeEvent (holdEvent s p 5)
  | _ =>
    let code := holdCode r
    let hs := t.holds.map fun x => if x.reason == code then { x with expired := true } else x
    let s := s.setPart p.val { t with holds := hs }
    s.notice (some p) 14 (natLe 8 code ++ natLe 8 h.seq ++ natLe 8 0)

/-- HOLD_LIMIT_EXPIRY. -/
def holdLimit (p : Part) (r : HoldReason) (s : State) : Option State :=
  let t := s.part p.val
  match t.holds.find? fun h => h.reason == holdCode r with
  | none => none
  | some h =>
    if holdCode r == 8 || h.expired || s.gc < h.since + t.plan.hang then none else some (s.holdExpires p r h)

def execHoldLimitExpiry (p : Part) (r : HoldReason) (s : State) : Host.Outcome State Fault Refusal :=
  attempt s (holdLimit p r s)

end Sys2Proof.Machine
end

