-- ==== Sys2Proof/Machine/Tally.lean ====
section
/-! DEFINITION. Arrival of count events (R134 to R139), instruction-line fills (R142 to R146) and held accesses (R22). -/

namespace Sys2Proof.Machine

/-- A count event adds its amount to its tally; past 16,777,215 it saturates with OVF and a UC record (R138). -/
def State.applyEvent (s : State) (e : CountEvent) : State :=
  let core := 4 * e.die + e.pos
  let v := s.tally core e.tally
  let sum := v.value + e.amount
  let past := 0xFFFFFF < sum
  let s := s.setTally core e.tally ⟨min sum 0xFFFFFF, v.ovf || past⟩
  let s := s.trace e.die e.pos 5 (e.srcEng % 8)
    (natLe 3 (e.tally + 1024 * e.pos + 4096 * e.amount + 2 ^ 20 * (e.srcDie % 16)) ++ natLe 1
      (e.srcDie / 16 % 2 + 2 * (e.srcEng % 8)) ++ natLe 4 (min sum 0xFFFFFF))
  if past then
    s.raise { mkErr 2 0 (s.physDie e.die) 0xFF 0x0505 with
      part := s.partOfDie e.die, logical := BitVec.ofNat 16 core
      detail := BitVec.ofNat 64 (e.tally + e.pos * 2 ^ 16 + e.srcDie * 2 ^ 24 + e.srcEng * 2 ^ 32) }
  else s

/-- The UC record of a count event whose target core is OFF (R139): ACCESS_ERROR, requester kind 4. -/
def State.eventLost (s : State) (e : CountEvent) : State :=
  s.raise { mkErr 2 0 (s.physDie e.die) 0xFF 0x0208 with
    part := s.partOfDie e.die, logical := BitVec.ofNat 16 (4 * e.die + e.pos)
    detail := BitVec.ofNat 64 (4 + e.tally * 2 ^ 8 + e.srcDie * 2 ^ 18 + e.srcEng * 2 ^ 24) }

/-- An event at its tally bank: applied, or queued behind others; none where the FIFO is full (R136). -/
def State.bankTake (s : State) (e : CountEvent) : Option State :=
  let core := 4 * e.die + e.pos
  let b := s.bank core
  if b.applied < 4 && b.fifo.isEmpty then some ((s.setBank core { b with applied := b.applied + 1 }).applyEvent e)
  else if b.fifo.length < 64 then some (s.setBank core { b with fifo := b.fifo ++ [e] })
  else none

/-- Two events of one source to one tally. -/
def sameLane (a b : CountEvent) : Bool :=
  a.srcDie == b.srcDie && a.srcEng == b.srcEng && a.die == b.die && a.pos == b.pos && a.tally == b.tally

/-- COUNT_EVENT_ARRIVE (R135, R136): no earlier event of the same source and tally is still under way. -/
def eventArrive (i : Nat) (s : State) : Option State :=
  match s.eng.events[i]? with
  | none => none
  | some e =>
    if (s.eng.events.take i).any (sameLane e) then none
    else
      let s := { s with eng := { s.eng with events := s.eng.events.eraseIdx i } }
      let k := s.coreKey (4 * e.die + e.pos)
      match s.power k with
      | .off => some (s.eventLost e)
      | .sleep =>
        let s := { s with eng := { s.eng with held := s.eng.held ++ [Held.mk none (some e) k none] } }
        some (s.requestWake k)
      | .on => if s.frozenDie e.die then none else (s.sleepTouch k).bankTake e

def execCountEventArrive (i : Nat) (s : State) : Host.Outcome State Fault Refusal := attempt s (eventArrive i s)

/-- TALLY_FIFO_APPLY: a later cycle of the bank applies up to 4 queued events (R136). -/
def fifoApply (c : Core) (s : State) : Option State :=
  let b := s.bank c.val
  if b.fifo.isEmpty || s.power (s.coreKey c.val) != .on || s.frozenDie (c.val / 4) then none
  else
    let n := min 4 b.fifo.length
    some ((b.fifo.take n).foldl State.applyEvent (s.setBank c.val ⟨n, b.fifo.drop n⟩))

def execTallyFifoApply (c : Core) (s : State) : Host.Outcome State Fault Refusal := attempt s (fifoApply c s)

/-- An entry of a fetch ring (Table 20-6): path 0 demand, 1 FETCHAHEAD, 2 speculative. -/
def State.traceFetch (s : State) (i la path result : Nat) : State :=
  let slot := if i < 512 then (la / 256) % 4096 else (la / 256) % 1024
  s.trace (fetchRing i).1 (fetchRing i).2 3 (ixEng i) (natLe 6 la ++ natLe 2 (path + 4 * result + 16 * slot))

/-- A line read from HBM: its bytes, or none where the read ends in error or meets poison (R145, R285). -/
def State.readLine (s : State) (i la : Nat) : Option (List Byte) :=
  if s.codeRange i la 256 && s.access (s.partOf i) la 256 == .ok && !s.poisoned la 256 then some (s.rd la 256) else none

/-- The slot of line la holds a pinned line of another address. -/
def State.pinnedOther (s : State) (i la : Nat) : Bool :=
  let l := s.iline (cacheKey i la)
  l.valid && l.addr != la && l.pin.isSome

/-- DEMAND_FILL_COMPLETE (R145): the line fills its slot, or the fetch buffer where the slot is pinned. -/
def demandFill (st : Stream) (s : State) : Option State :=
  let i := streamIx st
  let t := s.stream i
  let la := t.pc / 256 * 256
  if t.st != .waitFetch || s.power (s.engDom i) != .on || s.frozenStream i then none
  else
    match s.access (s.partOf i) la 256 with
    | .sleeping k =>
      if s.eng.held.any fun h => h.stream == some i then none else some ((s.holdStream i k).requestWake k)
    | _ =>
      match s.readLine i la with
      | none =>
        let s := if s.pinnedOther i la then s else s.setIline (cacheKey i la) ilineReset
        some (s.fault i 0x88)
      | some data =>
        if s.pinnedOther i la then
          some ((s.setStream i { t with st := .run, fbuf := some (la, data) }).traceFetch i la 0 3)
        else
          let s := s.setIline (cacheKey i la) ⟨true, la, data, none⟩
          some ((s.setStream i { t with st := .run }).traceFetch i la 0 0)

def execDemandFillComplete (st : Stream) (s : State) : Host.Outcome State Fault Refusal := attempt s (demandFill st s)

/-- One FETCHAHEAD line (R144): filled and pinned, re-pinned where present, or skipped for a pin conflict. -/
def State.aheadLine (s : State) (i la g : Nat) : State :=
  let l := s.iline (cacheKey i la)
  if l.valid && l.addr == la then
    (s.setIline (cacheKey i la) { l with pin := some (max g (l.pin.getD g)) }).traceFetch i la 1 0
  else if l.valid && l.pin.isSome then
    let p := s.partOf i
    let s := { s with eng := { s.eng with pinConflicts := bumpPart s.eng.pinConflicts p 1 } }
    let skips := match p with | some q => tget (fun _ => 0) s.eng.pinConflicts q.val | none => 0
    let slot := if i < 512 then (la / 256) % 4096 else (la / 256) % 1024
    let s := s.notice p 7 ([BitVec.ofNat 8 (if i < 512 then i / 4 else ixDie i), if i < 512 then 0 else 1]
      ++ natLe 2 slot ++ natLe 4 0 ++ natLe 8 la ++ natLe 4 skips)
    s.traceFetch i la 1 1
  else
    match s.readLine i la with
    | some data => (s.setIline (cacheKey i la) ⟨true, la, data, some g⟩).traceFetch i la 1 0
    | none => s.setIline (cacheKey i la) ilineReset

/-- FETCHAHEAD_FILL_COMPLETE: the next line of the stream's oldest FETCHAHEAD; after its last line the signals go, and a
WEND that waited enters WAIT_BOUNDARY (R144, R166). -/
def aheadFill (st : Stream) (s : State) : Option State :=
  let i := streamIx st
  let t := s.stream i
  match t.ahead with
  | [] => none
  | a :: rest =>
    match a.lines with
    | [] => none
    | la :: more =>
      if s.power (s.engDom i) != .on || s.frozenStream i then none
      else
        let s := s.aheadLine i la a.gen
        if !more.isEmpty then some (s.setStream i { t with ahead := { a with lines := more } :: rest })
        else
          let t := { t with ahead := rest }
          let t := if t.wend && rest.isEmpty then
              (if t.st == .halted then { t with wend := false, resume := .waitBoundary }
               else { t with wend := false, st := .waitBoundary })
            else t
          some ((s.setStream i t).sendSigs i a.word)

def execFetchaheadFillComplete (st : Stream) (s : State) : Host.Outcome State Fault Refusal := attempt s (aheadFill st s)

/-- SPECULATIVE_FETCH (R146): one of the two lines after the line of the next instruction. -/
def specFetch (st : Stream) (k : Fin 2) (s : State) : Option State :=
  let i := streamIx st
  let t := s.stream i
  let la := (t.pc / 256 + 1 + k.val) * 256
  let l := s.iline (cacheKey i la)
  if t.st == .idle || t.st == .faulted || s.power (s.engDom i) != .on || ixDie i ≥ s.nDies || s.frozenStream i then none
  else if l.valid && l.addr == la then none
  else if l.valid && l.pin.isSome then some (s.traceFetch i la 2 1)
  else match s.readLine i la with
    | some data => some ((s.setIline (cacheKey i la) ⟨true, la, data, none⟩).traceFetch i la 2 0)
    | none => some ({ s with eng := { s.eng with specDrops := s.eng.specDrops + 1 } }.traceFetch i la 2 2)

def execSpeculativeFetch (st : Stream) (k : Fin 2) (s : State) : Host.Outcome State Fault Refusal :=
  attempt s (specFetch st k s)

end Sys2Proof.Machine
end

