-- ==== Sys2Proof/Machine/Matrix.lean ====
section
/-! DEFINITION. The matrix engine (chapter 03): shapes, the chunk accumulators and the node stack, live rows, stipple
maps, the transposed path, convolution addressing, distances and the output stage. -/

namespace Sys2Proof.Machine

/-- The shapes (Table 3-2), in opcode order. -/
inductive Shape where
  | mxw | mxo | mxt | mxs | mxc | mxd
deriving DecidableEq, Repr

def shapeOp : Shape → Nat
  | .mxw => 0x20 | .mxo => 0x21 | .mxt => 0x22 | .mxs => 0x23 | .mxc => 0x24 | .mxd => 0x25

/-- The fields of an ME instruction (Table 5-9), handles resolved. -/
structure MeF where
  a : Nat
  b : Nat
  map : Nat
  cab : Nat
  out : Nat
  dmode : Nat
  mOff : Nat
  m : Nat
  n : Nat
  nOff : Nat
  kOff : Nat
  rb : Nat
  re : Nat
  kLen : Nat
  cont : Bool
  accRow : Nat
  stRow : Nat
  stDepth : Nat
deriving DecidableEq, Repr

def meF (t : StreamSt) (w : IWord) : MeF :=
  ⟨hIx t w (fld w 128 12), hIx t w (fld w 140 12), hIx t w (fld w 152 12), hIx t w (fld w 164 12),
   hIx t w (fld w 176 12), fld w 188 2, fld w 192 32, fld w 224 12, fld w 236 8, fld w 256 32, fld w 288 32,
   fld w 320 32, fld w 352 32, fld w 384 17, fld w 401 1 == 1, fld w 402 12, fld w 414 12, fld w 426 5⟩

/-- 2:4 weights: MXS, and MXT with a MAP. -/
def sparse24 (sh : Shape) (w : IWord) : Bool := sh == .mxs || (sh == .mxt && fld w 152 12 != 0)

def ceilDiv (a b : Nat) : Nat := if b == 0 then 0 else (a + b - 1) / b

/-- Causes that the instruction's fields alone decide (R119, R66, R69, R77). -/
def meFieldCauses (sh : Shape) (_ : State) (t : StreamSt) (w : IWord) : List Nat :=
  let f := meF t w
  let n := ceilDiv (f.re - f.rb) 512
  let used := [fld w 128 12, fld w 140 12, fld w 176 12] ++ (if sh == .mxs || sh == .mxt then [fld w 152 12] else [])
    ++ (if sh == .mxc then [fld w 164 12] else [])
  let badDim :=
    f.m % 16 != 0 || f.m < 16 || (if sh == .mxo then 256 < f.m else 2048 < f.m)
    || f.n == 0 || 128 < f.n || f.nOff % 128 != 0
    || (if sh == .mxo then f.kLen < 32 || 65536 < f.kLen || f.kLen % 32 != 0 else f.kLen != 0)
    || (sh != .mxs && sh != .mxt && fld w 152 12 != 0) || (sh != .mxc && fld w 164 12 != 0)
    || (sh != .mxd && f.dmode != 0)
    || ((sh == .mxo || sh == .mxs) && (f.cont || f.accRow != 0))
  let badAlign :=
    f.rb % 512 != 0 || f.re ≤ f.rb || f.kOff < f.rb || f.re ≤ f.kOff
    || (sh == .mxo && ((f.kOff - f.rb) % 512 != 0 || f.re < f.kOff + f.kLen
        || (f.kOff + f.kLen != f.re && (f.kOff + f.kLen - f.rb) % 512 != 0)))
  (if badDim then [0x04] else []) ++ (if badAlign then [0x05] else [])
    ++ (if 4096 < f.stRow + f.stDepth * f.m then [0x06] else [])
    ++ (if f.stDepth < Nat.log2 n + 1 then [0x07] else [])
    ++ (if sh == .mxs && fld w 152 12 == 0 then [0x09] else [])
    ++ (if (used.any fun h => badHandle t w h) || fld w 128 12 == 0 || fld w 140 12 == 0
          || (sh == .mxc && fld w 164 12 == 0) then [0x81] else [])

/-- The class of an operand format: FP4, T2, FP8 or BF16. -/
inductive Cls where
  | fp4 | t2 | fp8 | bf16
deriving DecidableEq, Repr

/-- The sum-group length of a pair (Table 2-5) and its class for rates (Table 3-1). -/
def pairOf (x y : Nat) : Option (Nat × Cls) :=
  let p := if x ≤ y then (x, y) else (y, x)
  if p == (3, 3) then some (16, .fp4)
  else if p == (4, 4) then some (32, .fp4)
  else if p == (3, 9) then some (16, .t2)
  else if p == (4, 9) then some (32, .t2)
  else if p == (5, 5) || p == (5, 6) || p == (6, 6) then some (32, .fp8)
  else if p == (7, 7) || p == (7, 8) || p == (8, 8) then some (32, .fp8)
  else if p == (2, 2) then some (8, .bf16)
  else none

/-- Pairs by shape (Table 3-3). -/
def pairFor (sh : Shape) (s24 : Bool) (x y : Nat) : Option (Nat × Cls) :=
  match pairOf x y with
  | none => none
  | some (g, c) =>
    let sparseOk := c == .fp4 || c == .fp8
    if sh == .mxd then (if c == .fp8 then some (g, c) else none)
    else if s24 then (if sparseOk then some (g, c) else none)
    else some (g, c)

/-- KB of Table 3-1. MXD holds 256. -/
def kbOf (sh : Shape) (s24 : Bool) (c : Cls) : Nat :=
  if sh == .mxd then 256
  else match c with
    | .fp4 => if s24 then 1024 else 512
    | .t2 => 1024
    | .fp8 => if s24 then 512 else 256
    | .bf16 => 64

/-- KB₂:₄ of a stipple tile (R80). -/
def kb24 (c : Cls) : Nat := if c == .fp4 then 1024 else 512

/-- The enable bit of an operand format in ME_MODE (Table 3-13). -/
def fmtBit (f : Nat) : Nat :=
  if f == 3 then 8 else if f == 4 then 9 else if f == 9 then 10 else if f == 2 then 12 else 11

/-- The shape is enabled, 2:4 MXT with the bit of MXS as well (Table 3-13). -/
def shapeEnabled (mode : W64) (sh : Shape) (s24 : Bool) (dmode : Nat) : Bool :=
  match sh with
  | .mxw => bitOf mode 0
  | .mxo => bitOf mode 1
  | .mxt => bitOf mode 2 && (!s24 || bitOf mode 3)
  | .mxs => bitOf mode 3
  | .mxc => bitOf mode 4
  | .mxd => bitOf mode 5 && bitOf mode (16 + dmode)

/-- A convolution address block (Table 3-10). -/
structure Cab where
  inH : Nat
  inW : Nat
  inC : Nat
  kh : Nat
  kw : Nat
  sH : Nat
  sW : Nat
  dH : Nat
  dW : Nat
  padT : Nat
  padL : Nat
  outH : Nat
  outW : Nat
  rest : Nat
deriving DecidableEq, Repr

def cabOf (x : Nat) : Cab :=
  ⟨bitsAt x 0 16, bitsAt x 16 16, bitsAt x 32 16, bitsAt x 48 8, bitsAt x 56 8, bitsAt x 64 8, bitsAt x 72 8,
   bitsAt x 80 8, bitsAt x 88 8, bitsAt x 96 8, bitsAt x 104 8, bitsAt x 112 16, bitsAt x 128 16, bitsAt x 144 112⟩

/-- CONV_PARAM (Table 3-15): a field outside Table 3-10. -/
def cabBad (c : Cab) (blk : Nat) : Bool :=
  c.inH == 0 || c.inW == 0 || c.inC == 0 || c.inC % (max blk 1) != 0 || c.kh == 0 || 16 < c.kh || c.kw == 0
    || 16 < c.kw || c.sH == 0 || 8 < c.sH || c.sW == 0 || 8 < c.sW || c.dH == 0 || 8 < c.dH || c.dW == 0 || 8 < c.dW
    || 15 < c.padT || 15 < c.padL || c.outH == 0 || c.outW == 0 || c.rest != 0

/-- conv_element of R88: the input row and channel of pixel p at position κ; none for padding. -/
def convAt (c : Cab) (p kappa : Nat) : Option (Nat × Nat) :=
  let oh := p / c.outW
  let ow := p % c.outW
  let tap := kappa / c.inC
  let ih : Int := (oh * c.sH : Nat) - (c.padT : Int) + ((tap / c.kw) * c.dH : Nat)
  let iw : Int := (ow * c.sW : Nat) - (c.padL : Int) + ((tap % c.kw) * c.dW : Nat)
  if ih < 0 || (c.inH : Int) ≤ ih || iw < 0 || (c.inW : Int) ≤ iw then none
  else some (ih.toNat * c.inW + iw.toNat, kappa % c.inC)

-- The stipple map (R80 to R84)

/-- The 90 masks with two kept positions in every row and column, in ascending order (R81). -/
def stippleMasks : List Nat :=
  let rows := [3, 5, 6, 9, 10, 12]
  (rows.map fun r3 => (rows.map fun r2 => (rows.map fun r1 => (rows.filter fun r0 =>
      (List.range 4).all fun j => bitsAt r0 j 1 + bitsAt r1 j 1 + bitsAt r2 j 1 + bitsAt r3 j 1 == 2).map fun r0 =>
    r0 + 16 * r1 + 256 * r2 + 4096 * r3).flatten).flatten).flatten

/-- The keep mask of a pattern code; invalid codes read as 0xFF (R81). -/
def keepMask (code : Nat) : Nat := if code < 90 then stippleMasks.getD code 0xFFFF else 0xFFFF

def tileBytes (kb : Nat) : Nat := 16 + 32 * kb / 4

/-- Address of stipple tile (tn, tk) of a weight tensor of K positions. -/
def tileAddr (base k kb tn tk : Nat) : Nat := base + (tn * ceilDiv k kb + tk) * tileBytes kb

/-- Position (n, k) is kept. -/
def State.keeps (s : State) (base kTot kb n k : Nat) : Bool :=
  let a := tileAddr base kTot kb (n / 128) (k / kb)
  let code := (s.rd1 (a + 16 + (n % 128 / 4) * (kb / 4) + (k % kb) / 4)).toNat
  bitsAt (keepMask code) (4 * (n % 4) + k % 4) 1 == 1

/-- The pattern codes of a tile that R81 does not ignore. -/
def State.tileCodes (s : State) (base kTot kb tn tk : Nat) : List Nat :=
  let a := tileAddr base kTot kb tn tk
  let nk := min (kb / 4) (ceilDiv (kTot - tk * kb) 4)
  ((List.range 32).map fun bn => (List.range nk).map fun bk => (s.rd1 (a + 16 + bn * (kb / 4) + bk)).toNat).flatten

/-- SPARSE of a tile (Table 3-8). -/
def State.tileSparse (s : State) (base kTot kb tn tk : Nat) : Bool :=
  bitsAt (s.rd1 (tileAddr base kTot kb tn tk)).toNat 0 1 == 1

/-- The tile runs sparse (R82). -/
def State.tileRuns (s : State) (base kTot kb tn tk : Nat) : Bool :=
  s.tileSparse base kTot kb tn tk && (s.tileCodes base kTot kb tn tk).all fun c => c < 90

-- Accumulators (R74 to R76)

def accKey (core row col : Nat) : Nat := (4096 * core + row) * 128 + col
def State.accW (s : State) (core row col : Nat) : W32 := tget (fun _ => 0) s.eng.acc (accKey core row col)
def State.setAcc (s : State) (core row col : Nat) (v : W32) : State :=
  { s with eng := { s.eng with acc := tput (fun _ => 0) s.eng.acc (accKey core row col) v } }

/-- How two nodes combine: rne32 of the sum, or the greater or lesser for the comparison modes (R76, Table 3-12). -/
def combine (sh : Shape) (dmode : Nat) : W32 → W32 → W32 :=
  if sh == .mxd && dmode == 2 then fmax else if sh == .mxd && dmode == 3 then fmin else fadd

/-- push of R76 on a stack with its top first. -/
def pushNode (f : W32 → W32 → W32) : List (W32 × Nat) → W32 × Nat → List (W32 × Nat)
  | (v, n) :: t, x => if n == x.2 then pushNode f t (f v x.1, 2 * x.2) else x :: (v, n) :: t
  | [], x => [x]

/-- finish of R76. -/
def finishStack (f : W32 → W32 → W32) : List (W32 × Nat) → W32
  | [] => zero32
  | x :: t => t.foldl (fun acc y => f y.1 acc) x.1

/-- The coverage of a stack after pushes, and the greatest depth that the pushes reach. -/
def pushCover : List Nat → List Nat → List Nat × Nat
  | st, [] => (st, st.length)
  | st, n :: t =>
    let st' := (pushNode (fun a _ => a) (st.map fun k => (0, k)) (0, n)).map Prod.snd
    let r := pushCover st' t
    (r.1, max (st.length + 1) r.2)

-- One instruction, its operands known

/-- Everything an ME instruction works with. -/
structure MeJob where
  sh : Shape
  core : Nat
  f : MeF
  s24 : Bool
  g : Nat
  cls : Cls
  kb : Nat
  da : Desc
  db : Desc
  dout : Desc
  mapBase : Nat
  cab : Cab
  live : Nat                   -- live count along the counted axis
  k1 : Nat                     -- one past the last position of the block
deriving DecidableEq, Repr

/-- The block ends its range (the instruction that reaches RANGE_END). -/
def MeJob.last (j : MeJob) : Bool := j.f.re ≤ (if j.sh == .mxo then j.f.kOff + j.f.kLen else j.f.kOff + j.kb)

/-- The tensor's forward K length, and the positions of weight (contraction k, column c). -/
def MeJob.weightPos (j : MeJob) (k c : Nat) : Nat × Nat := if j.sh == .mxt then (k, j.f.nOff + c) else (j.f.nOff + c, k)

/-- The element and scale of A at row i, position k; none where it is an exact zero. -/
def State.meA (s : State) (j : MeJob) (i k : Nat) : Option (Val × Val) :=
  let e := j.da.format.enc
  let sc := j.da.format.scale
  match j.sh with
  | .mxo => some (e.val (s.panelElem j.da 256 (j.f.mOff + i) k), sc.val (s.panelScale j.da 256 (j.f.mOff + i) k))
  | .mxc => match convAt j.cab (j.f.mOff + i) k with
    | none => none
    | some (r, c) => some (e.val (s.elem j.da r c), sc.val (s.scale j.da r c))
  | _ => some (e.val (s.elem j.da (j.f.mOff + i) k), sc.val (s.scale j.da (j.f.mOff + i) k))

/-- The element and scale of B for column c at position k; none where a mask prunes it (R36). -/
def State.meB (s : State) (j : MeJob) (c k : Nat) : Option (Val × Val) :=
  let e := j.db.format.enc
  let sc := j.db.format.scale
  match j.sh with
  | .mxo => some (e.val (s.panelElem j.db 128 (j.f.nOff + c) k), sc.val (s.panelScale j.db 128 (j.f.nOff + c) k))
  | _ =>
    let p := j.weightPos k c
    if j.s24 && !s.keeps j.mapBase j.db.cols (kb24 j.cls) p.1 p.2 then none
    else some (e.val (s.elem j.db p.1 p.2), sc.val (s.scale j.db p.1 p.2))

/-- The exact terms of one sum group for output (i, c): positions k to k + G − 1 below the block's end, pruned ones left
out (R34, R36, R85, R90). -/
def State.meTerms (s : State) (j : MeJob) (i c k : Nat) : List Val :=
  (List.range (min j.g (j.k1 - k))).filterMap fun o =>
    match s.meB j c (k + o) with
    | none => none
    | some (b, sb) =>
      let a := (s.meA j i (k + o)).getD (Val.zero, Val.one)
      if j.sh == .mxd then
        let x := a.1.mul a.2
        let y := b.mul sb
        match j.f.dmode with
        | 0 => let d := x.sub y; some (d.mul d)
        | 1 => some (x.sub y).abs
        | _ => some (x.add y)
      else some ((a.2.mul a.1).mul (sb.mul b))

/-- The partial of a group. -/
def groupSum (ts : List Val) : Val := ts.foldl Val.add Val.zero

def vmax (a b : Val) : Val := if a.isNan || b.isNan then .nan else if a.lt b then b else a
def vmin (a b : Val) : Val := if a.isNan || b.isNan then .nan else if b.lt a then b else a

/-- The accumulator after one group (R35, Table 3-12). -/
def MeJob.accGroup (j : MeJob) (acc : W32) (ts : List Val) : W32 :=
  if j.sh == .mxd && j.f.dmode == 2 then fmax acc (ts.foldl vmax (.inf true)).rne32
  else if j.sh == .mxd && j.f.dmode == 3 then fmin acc (ts.foldl vmin (.inf false)).rne32
  else accStep acc (groupSum ts)

/-- What a chunk accumulator starts at. -/
def MeJob.accStart (j : MeJob) : W32 :=
  if j.sh == .mxd && j.f.dmode == 2 then 0xFF800000#32
  else if j.sh == .mxd && j.f.dmode == 3 then posInf32 else zero32

/-- Row i of the streamed operand is live (R78); MXO counts K instead. -/
def MeJob.rowLive (j : MeJob) (i : Nat) : Bool := j.sh == .mxo || j.f.mOff + i < j.live

/-- The accumulator over positions k0 to k0 + len − 1 (below the block's end), group by group. -/
def State.meRun (s : State) (j : MeJob) (i c k0 len : Nat) (acc : W32) : W32 :=
  (List.range (ceilDiv (min len (j.k1 - k0)) j.g)).foldl (fun acc q =>
    let k := k0 + q * j.g
    if !j.rowLive i then accStep acc Val.zero
    else if j.sh == .mxo && j.live ≤ k then accStep acc Val.zero
    else
      let ts := if j.sh == .mxo && j.live < k + j.g
        then s.meTerms { j with k1 := min j.k1 j.live } i c k else s.meTerms j i c k
      j.accGroup acc ts) acc

/-- The nodes that the block emits for output (i, c), each with the chunks it covers, and the accumulator left (R75). -/
def State.meNodes (s : State) (j : MeJob) (i c : Nat) : List (W32 × Nat) × W32 :=
  let k0 := j.f.kOff
  if j.sh == .mxo then
    ((List.range (ceilDiv (j.k1 - k0) 512)).map fun q => (s.meRun j i c (k0 + 512 * q) 512 j.accStart, 1), zero32)
  else if j.kb == 1024 then
    let c0 := s.meRun j i c k0 512 j.accStart
    if k0 + 512 < j.k1 then ([(fadd c0 (s.meRun j i c (k0 + 512) 512 j.accStart), 2)], zero32) else ([(c0, 1)], zero32)
  else if j.kb == 512 then ([(s.meRun j i c k0 512 j.accStart, 1)], zero32)
  else
    let start := if j.f.cont then s.accW j.core (j.f.accRow + i) c else j.accStart
    let acc := s.meRun j i c k0 j.kb start
    (if j.last || (k0 + j.kb - j.f.rb) % 512 == 0 then [(acc, 1)] else [], acc)

/-- The chunks that the block's nodes cover. -/
def MeJob.nodeCover (j : MeJob) : List Nat :=
  let k0 := j.f.kOff
  if j.sh == .mxo then List.replicate (ceilDiv (j.k1 - k0) 512) 1
  else if j.kb == 1024 then (if k0 + 512 < j.k1 then [2] else [1])
  else if j.kb == 512 then [1]
  else if j.last || (k0 + j.kb - j.f.rb) % 512 == 0 then [1] else []

/-- The stack a block starts from: empty at RANGE_BEGIN. -/
def State.meStack (s : State) (j : MeJob) : List Nat :=
  if j.f.kOff == j.f.rb then [] else tget (fun _ => []) s.eng.coverStacks (4096 * j.core + j.f.stRow)

/-- The output value of a reduced z (R37, Table 3-12). -/
def MeJob.outVal (j : MeJob) (z : W32) : W32 :=
  let tsOf (d : Desc) : W32 := if d.format.ts then d.ts else one32
  if j.sh == .mxd && j.f.dmode != 0 then fmul z (tsOf j.da)
  else fmul z (fmul (tsOf j.da) (tsOf j.db))

/-- One output row of the block: nodes pushed, accumulators and stack entries written; and the finished values when the
block reaches RANGE_END. `s0` is the state the operands are read from. -/
def State.meRow (s0 s : State) (j : MeJob) (cover : List Nat) (i : Nat) : State × List W32 :=
  (List.range j.f.n).foldl (fun (a : State × List W32) c =>
    let nd := s0.meNodes j i c
    let old := cover.zipIdx.map fun p => (s0.accW j.core (j.f.stRow + (cover.length - 1 - p.2) * j.f.m + i) c, p.1)
    let comb := combine j.sh j.f.dmode
    let st := nd.1.foldl (fun st x => pushNode comb st x) old
    let s := if j.sh != .mxo && j.kb < 512 then a.1.setAcc j.core (j.f.accRow + i) c nd.2 else a.1
    if j.last then (s, a.2 ++ [finishStack comb st])
    else
      (st.zipIdx.foldl (fun s p =>
        s.setAcc j.core (j.f.stRow + (st.length - 1 - p.2) * j.f.m + i) c p.1.1) s, a.2)) (s, [])

/-- The whole effect of a job on accumulators and output (R72, R76). -/
def State.meEffect (s : State) (j : MeJob) : State :=
  let cover := s.meStack j
  let after := (pushCover cover j.nodeCover).1
  let part := s.partOfDie (j.core / 4)
  let seed := match part with | some p => (s.part p.val).seed | none => 0
  let stepNo := match part with | some p => (s.part p.val).stepNo | none => 0
  let r := (List.range j.f.m).foldl (fun (a : State × SentAdd) i =>
    let row := s.meRow a.1 j cover i
    if !j.last then (row.1, a.2)
    else if j.rowLive i then
      let w := row.1.putRow j.dout seed stepNo (j.f.mOff + i) j.f.nOff (row.2.map j.outVal)
      (w.1, a.2.plus w.2)
    else (row.1.putZeros j.dout (j.f.mOff + i) j.f.nOff j.f.n, a.2)) (s, sentZero)
  let s := r.1
  let s := if j.last then s.sentUpdate j.core j.dout.sent r.2 else s
  { s with eng := { s.eng with
      coverStacks := tput (fun _ => []) s.eng.coverStacks (4096 * j.core + j.f.stRow) (if j.last then [] else after) } }

-- Checks after the waits, accesses and cycles

/-- The rows of A that the instruction reads: live ones only (log 21). -/
def MeJob.aRows (j : MeJob) : List Nat := (List.range j.f.m).filter fun i => j.rowLive i

/-- A quiet instruction: no live row, or for MXO no live K position (R79). -/
def MeJob.quiet (j : MeJob) : Bool := if j.sh == .mxo then j.live ≤ j.f.kOff else j.live ≤ j.f.mOff

/-- The stipple tiles the block touches: (tn, tk). -/
def MeJob.tiles (j : MeJob) : List (Nat × Nat) :=
  if !j.s24 || j.quiet then []
  else
    let kb := kb24 j.cls
    let k0 := j.f.kOff
    let k1 := j.k1 - 1
    let c0 := j.f.nOff
    let c1 := j.f.nOff + j.f.n - 1
    let ns := if j.sh == .mxt then (k0 / 128, k1 / 128) else (c0 / 128, c1 / 128)
    let ks := if j.sh == .mxt then (c0 / kb, c1 / kb) else (k0 / kb, k1 / kb)
    ((List.range (ns.2 + 1 - ns.1)).map fun x => (List.range (ks.2 + 1 - ks.1)).map fun y =>
      (ns.1 + x, ks.1 + y)).flatten

/-- Every byte the instruction reads (R70, R71, R79). -/
def MeJob.reads (j : MeJob) : List (Nat × Nat) :=
  if j.quiet then []
  else
    let n := j.k1 - j.f.kOff
    let as := match j.sh with
      | .mxo =>
        let n := min j.k1 j.live - j.f.kOff
        ((List.range j.f.m).map fun i =>
          panelParts j.da 256 (j.f.mOff + i) (j.f.kOff / panelBk j.da.format) ((j.f.kOff + n - 1) / panelBk j.da.format)).flatten
      | .mxc => (j.aRows.map fun i => (List.range n).filterMap fun o =>
          (convAt j.cab (j.f.mOff + i) (j.f.kOff + o)).map fun p =>
            (j.da.rowParts p.1 p.2 1)).flatten.flatten
      | _ => (j.aRows.map fun i => j.da.rowParts (j.f.mOff + i) j.f.kOff n).flatten
    let bs := match j.sh with
      | .mxo =>
        let n := min j.k1 j.live - j.f.kOff
        ((List.range j.f.n).map fun c =>
          panelParts j.db 128 (j.f.nOff + c) (j.f.kOff / panelBk j.db.format) ((j.f.kOff + n - 1) / panelBk j.db.format)).flatten
      | .mxt => j.db.blockParts j.f.kOff n j.f.nOff j.f.n
      | _ => j.db.blockParts j.f.nOff j.f.n j.f.kOff n
    as ++ bs ++ j.tiles.map fun t => (tileAddr j.mapBase j.db.cols (kb24 j.cls) t.1 t.2, tileBytes (kb24 j.cls))

/-- Columns the output stage writes: N, and the rest of a partial last block (R72). -/
def MeJob.outN (j : MeJob) : Nat :=
  let b := j.dout.format.block
  if b == 0 then j.f.n else (j.f.n + b - 1) / b * b

/-- Every byte the output stage writes. -/
def MeJob.writes (j : MeJob) : List (Nat × Nat) :=
  if j.last then j.dout.blockParts j.f.mOff j.f.m j.f.nOff j.outN else []

/-- BAD_DIMENSION after the waits: a position beyond a descriptor (R93). -/
def MeJob.beyond (j : MeJob) (mapBytes : Nat) : Bool :=
  let aBad := match j.sh with
    | .mxc => !j.quiet && (j.cab.outH * j.cab.outW < j.f.mOff + j.f.m || j.da.rows < j.cab.inH * j.cab.inW
        || j.da.cols < j.cab.inC)
    | .mxo => min 256 j.da.rows < j.f.mOff + j.f.m || j.da.cols < j.k1
    | _ => j.da.rows < j.f.mOff + j.f.m || j.da.cols < j.k1
  let bBad := match j.sh with
    | .mxt => j.db.cols < j.f.nOff + j.f.n || j.db.rows < j.k1
    | .mxo => min 128 j.db.rows < j.f.nOff + j.f.n || j.db.cols < j.k1
    | _ => j.db.rows < j.f.nOff + j.f.n || j.db.cols < j.k1
  aBad || bBad
    || (j.last && (j.dout.rows < j.f.mOff + j.f.m || j.dout.cols < j.f.nOff + j.outN))
    || j.tiles.any fun t => mapBytes < (t.1 * ceilDiv j.db.cols (kb24 j.cls) + t.2 + 1) * tileBytes (kb24 j.cls)

/-- The cycles of a run (Table 3-2): taken sparse, and taken dense. -/
def MeJob.cycles (j : MeJob) : Nat × Nat :=
  let mm := max j.f.m 128
  match j.sh with
  | .mxw => (mm + 12, mm + 12)
  | .mxs => (mm + 12, 2 * (mm + 12))
  | .mxt => (mm + 16, if j.s24 then 2 * (mm + 16) else mm + 16)
  | .mxd => (4 * mm + 12, 4 * mm + 12)
  | .mxc =>
    let taps := if j.quiet || j.cab.inC == 0 then 1 else (j.k1 - 1) / j.cab.inC - j.f.kOff / j.cab.inC + 1
    (mm + 12 + 2 * (taps - 1), mm + 12 + 2 * (taps - 1))
  | .mxo =>
    let n := match j.cls with
      | .fp4 => ceilDiv j.f.kLen 2
      | .t2 => ceilDiv j.f.kLen 4
      | .fp8 => j.f.kLen
      | .bf16 => 4 * j.f.kLen
    (n + 256, n + 256)

/-- Gated cycles of the quiet tiles of a run (R79). -/
def MeJob.gated (j : MeJob) (dense : Bool) : Nat :=
  match j.sh with
  | .mxo =>
    let groups := (below (ceilDiv (j.k1 - j.f.kOff) 16) fun q => j.live ≤ j.f.kOff + 16 * q).length
    match j.cls with
    | .fp4 => 8 * groups
    | .t2 => 4 * groups
    | .fp8 => 16 * groups
    | .bf16 => 64 * groups
  | _ =>
    let tiles := (below (j.f.m / 16) fun q => j.live ≤ j.f.mOff + 16 * q).length
    tiles * (if j.sh == .mxd then 64 else if dense && j.s24 then 32 else 16)

/-- The job of an ME instruction over the descriptors as they stand. -/
def State.meJob (s : State) (sh : Shape) (core : Nat) (t : StreamSt) (w : IWord) (g : Nat) (cls : Cls) : MeJob :=
  let f := meF t w
  let da := s.desc core f.a
  let db := s.desc core f.b
  let s24 := sparse24 sh w
  let kb := kbOf sh s24 cls
  ⟨sh, core, f, s24, g, cls, kb, da, db, s.desc core f.out, (s.desc core f.map).base,
   cabOf (if sh == .mxc then s.rdN (s.desc core f.cab).base 32 else 0),
   if sh == .mxo then min da.live db.live else da.live,
   if sh == .mxo then f.kOff + f.kLen else min (f.kOff + kb) f.re⟩

/-- The causes found after the waits (R93, R150). -/
def State.meCauses (s : State) (i : Nat) (j : MeJob) (w : IWord) : List Nat :=
  let c := j.core
  let mode := s.cfgW (coreCfg c + 0x100)
  let pan := j.sh == .mxo
  let dmap := s.desc c j.f.map
  let dcab := s.desc c j.f.cab
  let useMap := j.s24
  let kAlign := j.sh != .mxo && ((j.f.kOff - j.f.rb) % j.kb != 0
    || (j.kb == 1024 && j.f.rb % 1024 != 0 && 512 < j.f.re - j.f.rb))
  let unused := j.sh != .mxo && j.sh != .mxs && 512 ≤ j.kb && (j.f.cont || j.f.accRow != 0)
  let accBad := j.sh != .mxo && j.kb < 512 && 4096 < j.f.accRow + j.f.m
  let reads := j.reads
  (if shapeEnabled mode j.sh j.s24 j.f.dmode then [] else [0x02])
    ++ (if bitOf mode (fmtBit j.da.fmt) && bitOf mode (fmtBit j.db.fmt) then [] else [0x03])
    ++ (if unused || j.beyond (dmap.rows * dmap.cols) then [0x04] else [])
    ++ (if kAlign then [0x05] else [])
    ++ (if accBad then [0x06] else [])
    ++ (if j.f.stDepth < (pushCover (s.meStack j) j.nodeCover).2 then [0x07] else [])
    ++ (if j.tiles.any fun t =>
          let a := tileAddr j.mapBase j.db.cols (kb24 j.cls) t.1 t.2
          let h := s.rdN a 8
          s.reach (s.partOf i) [(a, 16)] == .ok && (bitsAt h 16 16 != t.1 || bitsAt h 32 16 != t.2) then [0x08] else [])
    ++ (if j.sh == .mxd && j.da.format.ts && j.da.ts != j.db.ts then [0x0A] else [])
    ++ (if s.anyPoison reads || (j.sh == .mxc && !j.quiet && s.poisoned dcab.base 32) then [0x0B] else [])
    ++ (if j.sh == .mxc && !j.quiet && cabBad j.cab (max j.da.format.block 1) then [0x0C] else [])
    ++ s.descCauses i c j.f.a j.da pan true ++ s.descCauses i c j.f.b j.db pan true
    ++ (if useMap then s.descCauses i c j.f.map dmap false true ++ (if dmap.fmt != 0 then [0x82] else []) else [])
    ++ (if j.sh == .mxc then s.descCauses i c j.f.cab dcab false true ++ (if dcab.fmt != 0 then [0x82] else []) else [])
    ++ (if j.last then
          (if fld w 176 12 == 0 then [0x81] else
            s.descCauses i c j.f.out j.dout false true
              ++ (if !j.dout.format.numeric || j.dout.rotN != 0 then [0x82] else []))
        else [])

/-- Counts the fallbacks of an instruction whose tiles run dense, and its invalid map codes (R81, R82). -/
def State.meMapCounts (s : State) (j : MeJob) (dense : Bool) : State :=
  let kb := kb24 j.cls
  let bad := j.tiles.foldl (fun a t => a + ((s.tileCodes j.mapBase j.db.cols kb t.1 t.2).filter
    fun c => 90 ≤ c && c < 255).length) 0
  let fb := if dense then (j.tiles.filter fun t => s.tileSparse j.mapBase j.db.cols kb t.1 t.2).length else 0
  let s := { s with eng := { s.eng with badCodes := s.eng.badCodes + bad } }
  match s.partOfDie (j.core / 4) with
  | some p =>
    let n := tget (fun _ => 0) s.eng.fallbacks p.val
    { s with eng := { s.eng with fallbacks := tput (fun _ => 0) s.eng.fallbacks p.val (n + fb) } }
  | none => s

/-- Invalid codes and signed scales that reading rows of a panel meets, up to the live K count (R31). -/
def State.panelInvalid (s : State) (j : MeJob) (d : Desc) (pp r0 rows : Nat) : Nat :=
  let f := d.format
  let n := min j.k1 j.live - j.f.kOff
  ((List.range rows).map fun r => ((List.range n).map fun o =>
    let k := j.f.kOff + o
    boolNat (f.enc.invalid (s.panelElem d pp (r0 + r) k))
      + boolNat (f.block != 0 && k % f.block == 0 && f.scale.invalid (s.panelScale d pp (r0 + r) k))).sum).sum

/-- The same for the pixels a convolution reads. -/
def State.convInvalid (s : State) (j : MeJob) : Nat :=
  let f := j.da.format
  (j.aRows.map fun i => ((List.range (j.k1 - j.f.kOff)).map fun o =>
    match convAt j.cab (j.f.mOff + i) (j.f.kOff + o) with
    | none => 0
    | some (r, c) => boolNat (f.enc.invalid (s.elem j.da r c))
        + boolNat (f.block != 0 && c % f.block == 0 && f.scale.invalid (s.scale j.da r c))).sum).sum

/-- Adds an invalid count to the slot of a descriptor read (R31, R56). -/
def State.sentInvalid (s : State) (core : Nat) (d : Desc) (n : Nat) : State :=
  if d.fmt != 3 && d.fmt != 9 then s else s.sentUpdate core d.sent { sentZero with inv := n }

/-- The accesses of an ME instruction: what it reads, the CAB of a convolution that is not quiet, and what it writes. -/
def State.meAreas (s : State) (j : MeJob) : List (Nat × Nat) :=
  j.reads ++ (if j.sh == .mxc && !j.quiet then [((s.desc j.core j.f.cab).base, 32)] else []) ++ j.writes

/-- The invalid codes that an ME instruction reads, counted in its operands' slots (R31). -/
def State.meInvalid (s : State) (j : MeJob) : State :=
  let f := j.f
  let core := j.core
  if j.quiet then s
  else
    let n := j.k1 - f.kOff
    let s := if j.sh == .mxc then s.sentInvalid core j.da (s.convInvalid j)
      else if j.sh == .mxo then s.sentInvalid core j.da (s.panelInvalid j j.da 256 f.mOff f.m)
      else s.countInvalid core j.da (j.aRows.map fun r => f.mOff + r) f.kOff n
    if j.sh == .mxo then s.sentInvalid core j.db (s.panelInvalid j j.db 128 f.nOff f.n)
    else if j.sh == .mxt then s.countInvalid core j.db ((List.range n).map fun r => f.kOff + r) f.nOff f.n
    else s.countInvalid core j.db ((List.range f.n).map fun r => f.nOff + r) f.kOff n

/-- The state after an ME instruction's effect; its engine is occupied for the cycles of Table 3-2. -/
def State.meFinish (s : State) (i : Nat) (t : StreamSt) (w : IWord) (j : MeJob) : State :=
  let kb := kb24 j.cls
  let dense := j.s24 && !j.quiet && !j.tiles.all fun x => s.tileRuns j.mapBase j.db.cols kb x.1 x.2
  let total := if dense then j.cycles.2 else j.cycles.1
  let fall := if dense && j.tiles.any fun x => s.tileSparse j.mapBase j.db.cols kb x.1 x.2
    then j.cycles.2 - j.cycles.1 else 0
  let quiet := min (j.gated dense) (total - fall)
  let bound := boundOf j.reads
  let wb := boundOf j.writes
  let s := ((s.meInvalid j).meEffect j).meMapCounts j dense
  let s := (s.wsLeave j.core 32).wsEnter ⟨j.core, 32, false, bound.1, bound.2⟩
  let s := if j.last then s.wsEnter ⟨j.core, 32, true, wb.1, wb.2⟩ else s
  startFlight s i w t (total - fall - quiet) quiet fall

/-- An ME instruction after its waits. -/
def runMe (sh : Shape) (i : Nat) (s : State) (t : StreamSt) (w : IWord) : Ran :=
  let core := i / 4
  let f := meF t w
  match minCause (s.unread i core [f.a, f.b]) with
  | some c =>
    .fault (if shapeEnabled (s.cfgW (coreCfg core + 0x100)) sh (sparse24 sh w) f.dmode then c else 0x02)
  | none =>
    match pairFor sh (sparse24 sh w) (s.desc core f.a).fmt (s.desc core f.b).fmt with
    | none => .fault 0x01  -- no lower cause than ILLEGAL_PAIR
    | some (g, cls) =>
      let j := s.meJob sh core t w g cls
      match minCause (s.meCauses i j w) with
      | some c => .fault c
      | none =>
        match s.reach (s.partOf i) (s.meAreas j) with
        | .bad a iso => .bad 0x0B a iso
        | .sleeping k => .asleep k
        | .ok => .done (s.meFinish i t w j)

def execMe (sh : Shape) (st : Stream) (s : State) : Option State :=
  issue st (isOp (shapeOp sh)) (meFieldCauses sh) (runMe sh (streamIx st)) s

/-- MXW (R66, R70). -/
def execMxw (st : Stream) (s : State) : Host.Outcome State Fault Refusal := attempt s (execMe .mxw st s)
/-- MXO (R66, R71). -/
def execMxo (st : Stream) (s : State) : Host.Outcome State Fault Refusal := attempt s (execMe .mxo st s)
/-- MXT (R85, R86). -/
def execMxt (st : Stream) (s : State) : Host.Outcome State Fault Refusal := attempt s (execMe .mxt st s)
/-- MXS (R80 to R84). -/
def execMxs (st : Stream) (s : State) : Host.Outcome State Fault Refusal := attempt s (execMe .mxs st s)
/-- MXC (R87 to R89). -/
def execMxc (st : Stream) (s : State) : Host.Outcome State Fault Refusal := attempt s (execMe .mxc st s)
/-- MXD (R90, R91). -/
def execMxd (st : Stream) (s : State) : Host.Outcome State Fault Refusal := attempt s (execMe .mxd st s)

/-- The flight f of stream i ends: cycles and gated cycles are counted, and the signals go out. -/
def State.engineEnd (s : State) (i : Nat) (f : Flight) : State :=
  let t := s.stream i
  let s := s.setStream i { t with flight := none, lockHeld := t.lockHeld && !(f.locked && t.lock == 0) }
  let s := s.traceEng i 2 (natLe 6 f.pc ++ natLe 4 (f.busy + f.quiet + f.fallback))
  let s := ((s.bumpCtr i 0 f.busy).bumpCtr i 8 f.quiet).bumpCtr i 0x30 f.fallback
  let s := if i % 4 == 0 && i < 512 && f.quiet != 0 then
    let g := tput (fun _ => 0) s.eng.gated (i / 4) (tget (fun _ => 0) s.eng.gated (i / 4) + f.quiet)
    { s with eng := { s.eng with gated := g } }
  else s
  let s := if i < 512 && i % 4 == 0 then s.wsLeave (i / 4) 32 else s
  s.sendSigs i f.word

/-- An ME shape or VE operation reaches the end of its cycles: it retires, completes and sends its signals (Table 5-7). -/
def engineDone (st : Stream) (s : State) : Option State :=
  let i := streamIx st
  match (s.stream i).flight with
  | none => none
  | some f => if f.left != 0 || s.frozenStream i then none else some (s.engineEnd i f)

def execEngineInstructionComplete (st : Stream) (s : State) : Host.Outcome State Fault Refusal :=
  attempt s (engineDone st s)

end Sys2Proof.Machine
end

