-- ==== Sys2Proof/Machine/MemService.lean ====
section
/-! DEFINITION. Memory dies at work on their own: stack temperature and bands (R282), scrubbing and repair (R286 to R289),
traffic generators (R290, R291), and stack retirement (R292, R293). -/

namespace Sys2Proof.Machine

-- Temperature and bands (R282)

/-- The band after a sample of t °C in band b. -/
def bandAfter (b t : Nat) : Nat :=
  if 95 ≤ t then 2
  else if b = 2 then (if t ≤ 83 then 0 else if t ≤ 93 then 1 else 2)
  else if 85 ≤ t then 1
  else if b = 1 then (if t ≤ 83 then 0 else 1)
  else 0

/-- HBM_TEMP_SAMPLE. -/
def hbmTempSample (m t : Nat) (s : State) : Option State :=
  if s.retired m || s.power (memKey m) == .off then none
  else
    let b := s.cfgF (stackA m) 0 2
    let n := bandAfter b t
    let s := s.setCfgF (stackA m) 8 8 t
    some { s with svc := { s.svc with
      bandDue := tput (fun _ => none) s.svc.bandDue m (if n == b then none else some (n, s.gc)) } }

def execHbmTempSample (m : MDie) (t : Nat) (s : State) : Host.Outcome State Fault Refusal :=
  attempt s (hbmTempSample m.val t s)

/-- Stack m enters band b: a partition whose window runs with the stack above its planned band notes it (R154). -/
def State.enterBand (s : State) (m b : Nat) : State :=
  let s := { s with svc := { s.svc with bandDue := tput (fun _ => none) s.svc.bandDue m none } }
  let s := s.setCfgF (stackA m) 0 2 b
  (List.range 8).foldl (fun s p =>
    let t := s.part p
    if t.inWindow && (s.memDies p).contains m && s.hbmBand t t.window < b then s.setPart p { t with bandOver := true }
    else s) s

/-- BAND_CHANGE. -/
def bandChange (m : Nat) (s : State) : Option State :=
  match tget (fun _ => none) s.svc.bandDue m with
  | none => none
  | some (b, _) => some (s.enterBand m b)

def execBandChange (m : MDie) (s : State) : Host.Outcome State Fault Refusal := attempt s (bandChange m.val s)

-- Scrubbing (R286)

/-- Granules of a pseudo-channel. -/
def granules : Nat := 4063232

/-- The bank number of a granule's row, and the row (R278). -/
def rowOfGranule (m pc g : Nat) : Nat × Nat := ((64 * m + pc) * 64 + g / 4 % 64, g / 256)

/-- A corrected symbol of a granule: the record, and the thresholds of R287 and R288. -/
def State.hbmCorrected (s : State) (m g pc sym : Nat) : State :=
  let r := rowOfGranule m pc g
  let rk := 16384 * r.1 + r.2
  let lk := 36 * (64 * m + pc) + sym
  let s := s.raise { mkErr 0 2 m 0xFF 0x0203 with detail := BitVec.ofNat 64 (pc + 2 ^ 8 * g + 2 ^ 32 * sym) }
  let v := s.svc
  let rows := bump v.rowHits rk
  let lanes := bump v.laneHits lk
  { s with svc := { v with
    rowHits := rows
    laneHits := lanes
    rowQueue := if cnt rows rk == 3 && !v.rowQueue.contains r then v.rowQueue ++ [r] else v.rowQueue
    laneQueue := if cnt lanes lk == 16 && !v.laneQueue.contains (64 * m + pc, sym) then v.laneQueue ++ [(64 * m + pc, sym)]
      else v.laneQueue } }

/-- The counts of a scrub period start again once every granule has been read. -/
def State.hbmPeriod (s : State) (m : Nat) : State :=
  let v := s.svc
  { s with svc := { v with
    rowHits := v.rowHits.filter fun x => x.1 / 16384 / 4096 != m
    laneHits := v.laneHits.filter fun x => x.1 / 36 / 64 != m } }

/-- The next granule of every pseudo-channel is read and corrected; hits are the symbols corrected. -/
def State.hbmSwept (s : State) (m : Nat) (hits : List (Nat × Nat)) : State :=
  let g := cnt s.svc.hbmAt m
  let s := hits.foldl (fun s h => s.hbmCorrected m g h.1 h.2) s
  let n := if g + 1 == granules then 0 else g + 1
  let s := { s with svc := { s.svc with
    hbmAt := tput (fun _ => 0) s.svc.hbmAt m n
    hbmTick := tput (fun _ => 0) s.svc.hbmTick m s.gc } }
  if n == 0 then s.hbmPeriod m else s

/-- HBM_SCRUB, at most once in 2^20 ticks. -/
def hbmScrub (m : Nat) (hits : List (Nat × Nat)) (s : State) : Option State :=
  if s.retired m || s.power (memKey m) != .on || s.gc < cnt s.svc.hbmTick m + 2 ^ 20 then none else some (s.hbmSwept m hits)

def execHbmScrub (m : MDie) (hits : List (Fin 64 × Fin 36)) (s : State) : Host.Outcome State Fault Refusal :=
  attempt s (hbmScrub m.val (hits.map fun h => (h.1.val, h.2.val)) s)

/-- The number of a scrubbed SRAM, its banks and the lines of a bank (R265, Table 19-6). -/
def sramUnit : SramUnit → Nat
  | .coreStore c => c.val
  | .well m => 128 + m.val
def sramBanks (u : Nat) : Nat := if u < 128 then 64 else 128
def sramLines (u : Nat) : Nat := if u < 128 then 6144 else 32768

/-- A corrected line: the record, and the threshold of R538. -/
def State.sramCorrected (s : State) (u line bank : Nat) : State :=
  let core := u < 128
  let key := (128 * u + bank, line)
  let lk := 65536 * key.1 + line
  let s := s.raise { mkErr 0 (if core then 0 else 1) (if core then s.physDie (u / 4) else u - 128)
      (if core then 8 * (u % 4) else 0xFF) 0x0201 with
    logical := BitVec.ofNat 16 (if core then u else 0xFFFF)
    detail := BitVec.ofNat 64 ((if core then 0 else 2) + 2 ^ 8 * bank + 2 ^ 16 * line) }
  let v := s.svc
  let lines := bump v.lineHits lk
  { s with svc := { v with
    lineHits := lines
    lineQueue := if cnt lines lk == 3 && !v.lineQueue.contains key then v.lineQueue ++ [key] else v.lineQueue } }

/-- The next line of every bank is read and corrected; hits are the banks whose line is. -/
def State.sramSwept (s : State) (u : Nat) (hits : List Nat) : State :=
  let line := cnt s.svc.sramAt u
  let s := (hits.filter fun b => b < sramBanks u).foldl (fun s b => s.sramCorrected u line b) s
  let n := if line + 1 == sramLines u then 0 else line + 1
  let v := s.svc
  { s with svc := { v with
    sramAt := tput (fun _ => 0) v.sramAt u n
    sramTick := tput (fun _ => 0) v.sramTick u s.gc
    lineHits := if n == 0 then v.lineHits.filter fun x => x.1 / 65536 / 128 != u else v.lineHits } }

/-- The power domain of a scrubbed SRAM. -/
def State.sramDom (s : State) (u : Nat) : Nat := if u < 128 then s.coreKey u else memKey (u - 128)

/-- SRAM_SCRUB, at most once in 2^16 ticks. -/
def sramScrub (u : Nat) (hits : List Nat) (s : State) : Option State :=
  if s.power (s.sramDom u) != .on || s.gc < cnt s.svc.sramTick u + 2 ^ 16 then none else some (s.sramSwept u hits)

def execSramScrub (u : SramUnit) (hits : List (Fin 128)) (s : State) : Host.Outcome State Fault Refusal :=
  attempt s (sramScrub (sramUnit u) (hits.map Fin.val) s)

-- Rows and stacks

/-- The local address of byte 0 of granule g of a pseudo-channel (R278). -/
def granuleAddr (m pc g : Nat) : Nat :=
  let row := g / 256
  let hi := (g / 4 % 64) ^^^ (row % 64)
  hbmBase m + row * 2 ^ 22 + hi * 2 ^ 16 + (g % 4) * 2 ^ 14 + (pc ^^^ hi) * 2 ^ 8

/-- The bursts of a row that cannot be corrected are written as poison. Line k of a row lies in column granule k / 4. -/
def State.poisonRow (s : State) (m pc bank row : Nat) (bad : List Nat) : State :=
  let g (k : Nat) : Nat := row * 256 + bank * 4 + k / 4
  bad.foldl (fun s k =>
    let s := s.raise { mkErr 1 2 m 0xFF 0x0204 with detail := BitVec.ofNat 64 (pc + 2 ^ 8 * g k) }
    s.setPoison ((granuleAddr m pc (g k) + 64 * (k % 4)) / 64)) s

/-- ROW_REMAP (R287): poison, and the row goes to a spare at once. -/
def rowRemap (m pc bank row : Nat) (bad : List Nat) (s : State) : Option State :=
  if s.retired m || s.power (memKey m) == .off then none
  else some ((s.poisonRow m pc bank row bad).repairRow ((64 * m + pc) * 64 + bank, row))

def execRowRemap (m : MDie) (pc : Fin 64) (bank : Fin 64) (row : Fin 16384) (bad : List (Fin 16)) (s : State) :
    Host.Outcome State Fault Refusal :=
  attempt s (rowRemap m.val pc.val bank.val row.val (bad.map Fin.val) s)

/-- A stack is retired (R292, R293): record, RETIRED, repair log, and a hold of every partition with a range on it. -/
def State.retireStack (s : State) (m cause pc bank : Nat) : State :=
  let s := s.raise { mkErr 2 2 m 0xFF 0x0207 with detail := BitVec.ofNat 64 (cause + 2 ^ 8 * pc + 2 ^ 16 * bank) }
  let s := (s.setCfgF (stackA m) 2 1 1).logRepair 5 m cause 0
  (List.range 8).foldl (fun s p =>
    let t := s.part p
    match s.platePart p with
    | some r => if fld r.hbm (2 * m) 2 != 0 && [4, 5, 6].contains t.state then s.setPart p { t with stackDue := true } else s
    | none => s) s

/-- STACK_RETIREMENT for the causes the hardware finds, 1 to 4; a service command names cause 5 (`stack.retire`). -/
def stackRetirement (m cause pc bank : Nat) (s : State) : Option State :=
  if s.retired m || cause == 0 || cause == 5 then none else some (s.retireStack m cause (pc % 256) (bank % 256))

def execStackRetirement (m : MDie) (cause : Fin 6) (pc bank : Nat) (s : State) : Host.Outcome State Fault Refusal :=
  attempt s (stackRetirement m.val cause.val pc bank s)

-- Traffic generators (Table 10-8)

def tgA (m p : Nat) : Nat := memCfg m + 0x80000 + 0x80 * p
def tgenReset : TgenSt := ⟨0, false, []⟩
def State.tgen (s : State) (m p : Nat) : TgenSt := tget (fun _ => tgenReset) s.svc.tgens (64 * m + p)
def State.setTgen (s : State) (m p : Nat) (x : TgenSt) : State :=
  { s with svc := { s.svc with tgens := tput (fun _ => tgenReset) s.svc.tgens (64 * m + p) x } }

/-- The settings of a run. -/
structure TgenRun where
  op : Nat
  mode : Nat
  turn : Nat
  check : Bool
  stopErr : Bool
  inject : Nat
  raw : Bool
  base : Nat
  limit : Nat
  stride : Nat
  count : Nat
  seed : Nat
deriving DecidableEq, Repr

def State.tgenSet (s : State) (m p : Nat) : TgenRun :=
  let a := tgA m p
  ⟨s.cfgF a 2 2, s.cfgF a 4 2, s.cfgF a 6 8, s.cfgF a 14 1 == 1, s.cfgF a 15 1 == 1, s.cfgF a 16 3, s.cfgF a 19 1 == 1,
   s.cfgF (a + 8) 0 22, s.cfgF (a + 0x10) 0 22, s.cfgF (a + 0x18) 0 22, s.cfgF (a + 0x20) 0 32, s.cfgF (a + 0x28) 0 31⟩

/-- Every field is valid. -/
def TgenRun.ok (r : TgenRun) : Bool :=
  r.mode != 3 && r.inject < 4 && r.base < r.limit && r.limit ≤ granules && r.seed != 0 && (r.op != 3 || r.turn != 0)

/-- TGEN_START: the run begins, or an invalid field sets DONE at once. -/
def State.startTgen (s : State) (m p : Nat) : State :=
  let a := tgA m p
  let s := (((s.setCfgF (a + 0x30) 32 32 0).setCfgW (a + 0x38) 0).setCfgW (a + 0x40) 0).setCfgW (a + 0x48) 0
  if (s.tgenSet m p).ok then
    (s.setCfgF (a + 0x30) 0 2 1).setTgen m p { s.tgen m p with since := s.gc, stopping := false }
  else s.setCfgF (a + 0x30) 1 1 1

/-- A unit may run: its stack lies in no range of a loaded job, or the device is in SERVICE (R290). -/
def State.tgenMay (s : State) (m : Nat) : Bool :=
  !s.retired m && s.power (memKey m) == .on
    && (s.mgmt.devState == 8 || (s.mgmt.devState == 2 && (List.range 8).all fun p => match s.platePart p with
      | some r => fld r.hbm (2 * m) 2 == 0 || !s.hasJob p
      | none => true))

def tgenStart (m p : Nat) (s : State) : Option State :=
  if !s.tgenMay m || s.cfgF (tgA m p + 0x30) 0 1 == 1 then none else some (s.startTgen m p)

def execTgenStart (m : MDie) (pc : Fin 64) (s : State) : Host.Outcome State Fault Refusal :=
  attempt s (tgenStart m.val pc.val s)

/-- TGEN_STOP: a run under way ends at its next granule. -/
def tgenStop (m p : Nat) (s : State) : Option State :=
  if s.cfgF (tgA m p + 0x30) 0 1 == 1 then some (s.setTgen m p { s.tgen m p with stopping := true }) else none

def execTgenStop (m : MDie) (pc : Fin 64) (s : State) : Host.Outcome State Fault Refusal :=
  attempt s (tgenStop m.val pc.val s)

/-- One step of PRBS31, x^31 + x^28 + 1; the bit that leaves is bit 30 (log 44). -/
def prbsStep (x : Nat) : Nat := x * 2 % 2 ^ 31 + (bitsAt x 30 1 + bitsAt x 27 1) % 2
/-- n bits of the pattern, the first in bit 0, and the state after them. -/
def prbsBits : Nat → Nat → Nat × Nat
  | 0, x => (0, x)
  | n + 1, x =>
    let r := prbsBits n (prbsStep x)
    (bitsAt x 30 1 + 2 * r.1, r.2)
/-- The data of n granules. -/
def prbsGranules : Nat → Nat → List Nat
  | 0, _ => []
  | n + 1, x =>
    let r := prbsBits 2048 x
    r.1 :: prbsGranules n r.2
/-- One step of x^22 + x^21 + 1. -/
def lfsrStep (x : Nat) : Nat := x * 2 % 2 ^ 22 + (bitsAt x 21 1 + bitsAt x 20 1) % 2
def lfsrWords : Nat → Nat → List Nat
  | 0, _ => []
  | n + 1, x => x :: lfsrWords n (lfsrStep x)

/-- Access j of a run: whether it writes, and which granule of the sequence it takes. -/
def TgenRun.access (r : TgenRun) (j : Nat) : Bool × Nat :=
  match r.op with
  | 0 => (false, j)
  | 1 => (true, j)
  | 2 => if r.count == 0 || j < r.count then (true, j) else (false, j - r.count)
  | _ =>
    let blk := j / (2 * r.turn)
    let i := j % (2 * r.turn)
    if i < r.turn then (true, blk * r.turn + i) else (false, blk * r.turn + i - r.turn)

/-- The granule numbers of the first n of the sequence. -/
def TgenRun.places (r : TgenRun) (n : Nat) : List Nat :=
  let span := r.limit - r.base
  match r.mode with
  | 0 => (List.range n).map fun i => r.base + i % span
  | 1 => (List.range n).map fun i => r.base + i * r.stride % span
  | _ => (lfsrWords n (if r.seed % 2 ^ 22 == 0 then 1 else r.seed % 2 ^ 22)).map fun x => r.base + x % span

/-- The lanes in which two granules differ: lane i carries bit i of each 4-byte beat (R284). -/
def laneDiff (a b : Nat) : Nat :=
  let x := a ^^^ b
  (List.range 64).foldl (fun m j => m ||| bitsAt x (32 * j) 32) 0

/-- What a run has seen: accesses, mismatches, first mismatching granule, lanes. -/
structure TgenSeen where
  n : Nat
  mism : Nat
  first : Nat
  lanes : Nat
  over_ : Bool
deriving DecidableEq, Repr

/-- One granule written. -/
def State.tgenWrite (s : State) (m p : Nat) (r : TgenRun) (g v : Nat) : State :=
  let a := granuleAddr m p g
  let s := s.wr a (natLe 256 v)
  let t := s.tgen m p
  let s := s.setTgen m p { t with marred := if r.inject == 1 then nins t.marred g else ndel t.marred g }
  if 2 ≤ r.inject then (List.range 4).foldl (fun s k => s.setPoison (a / 64 + k)) s else s

/-- One granule read. A poisoned granule, or one with a bad symbol seen raw, mismatches in lanes the manual does not name. -/
def State.tgenRead (s : State) (m p : Nat) (r : TgenRun) (x : TgenSeen) (g v : Nat) : State × TgenSeen :=
  let a := granuleAddr m p g
  let marred := s.poisoned a 256 || (r.raw && (s.tgen m p).marred.contains g)
  let d := laneDiff (s.rdN a 256) v
  if !r.check || (!marred && d == 0) then (s, { x with n := x.n + 1 })
  else
    let lanes := if marred then fld (Config.freeWord s.freeCount) 0 36 else d
    let s := if marred then { s with freeCount := s.freeCount + 1 } else s
    (s, ⟨x.n + 1, x.mism + 1, if x.mism == 0 then g else x.first, x.lanes ||| lanes, r.stopErr⟩)

def State.tgenAccess (m p : Nat) (r : TgenRun) (places data : List Nat) (y : State × TgenSeen) (j : Nat) : State × TgenSeen :=
  if y.2.over_ then y
  else
    let k := r.access j
    let g := places.getD k.2 0
    let v := data.getD k.2 0
    if k.1 then (y.1.tgenWrite m p r g v, { y.2 with n := y.2.n + 1 }) else y.1.tgenRead m p r y.2 g v

/-- How many accesses the run makes; `made` is how many it had made when STOP or an error ended it. -/
def State.tgenCount (s : State) (m p made : Nat) : Nat :=
  let r := s.tgenSet m p
  let total := if r.op == 2 then 2 * r.count else r.count
  if (s.tgen m p).stopping || r.count == 0 then (if r.count == 0 then made else min made total) else total

/-- The accesses of a run and what it sees. -/
def State.tgenRan (s : State) (m p made : Nat) : State × TgenSeen :=
  let r := s.tgenSet m p
  let n := s.tgenCount m p made
  (List.range n).foldl (State.tgenAccess m p r (r.places n) (prbsGranules n r.seed)) (s, ⟨0, 0, 0, 0, false⟩)

/-- The registers of a run that has ended. -/
def State.tgenResult (s : State) (m p : Nat) (x : TgenSeen) : State :=
  let a := tgA m p
  let s := s.setTgen m p { s.tgen m p with stopping := false }
  let s := ((s.setCfgF (a + 0x30) 0 2 2).setCfgF (a + 0x30) 32 32 x.n).setCfgF (a + 0x38) 32 32 x.mism
  let s := if x.mism == 0 then s else (s.setCfgF (a + 0x30) 2 1 1).setCfgF (a + 0x38) 0 22 x.first
  (s.setCfgW (a + 0x40) (BitVec.ofNat 64 (s.gc - (s.tgen m p).since))).setCfgW (a + 0x48) (BitVec.ofNat 64 x.lanes)

/-- TGEN_RUN_END: the run's accesses take effect; a run without a count ends by STOP or an error alone. -/
def tgenRunEnd (m p made : Nat) (s : State) : Option State :=
  if s.cfgF (tgA m p + 0x30) 0 1 == 0 then none
  else
    let y := s.tgenRan m p made
    if (s.tgenSet m p).count == 0 && !(s.tgen m p).stopping && !y.2.over_ then none else some (y.1.tgenResult m p y.2)

def execTgenRunEnd (m : MDie) (pc : Fin 64) (made : Nat) (s : State) : Host.Outcome State Fault Refusal :=
  attempt s (tgenRunEnd m.val pc.val made s)

end Sys2Proof.Machine
end

