-- ==== Sys2Proof/Machine/Power.lean ====
section
/-! DEFINITION. Power domains (R507 to R511, Table 18-3), sensors (R514, R515), and protection (R518 to R522). -/

namespace Sys2Proof.Machine

-- Domains by number

def coreKeys : List Nat := List.range 136
def dieKeys : List Nat := (List.range 34).map fun x => 136 + x
def routerKeys : List Nat := (List.range 52).map fun k => 170 + k
def memKeys : List Nat := (List.range 12).map fun m => 222 + m
def portKeys : List Nat := (List.range 48).map fun p => 234 + p
def hostKeys : List Nat := [282, 283]

/-- Every sapwood domain but the host ports, which follow the main rails (R461). -/
def switched : List Nat := coreKeys ++ dieKeys ++ routerKeys ++ memKeys ++ portKeys

/-- ON → OFF and OFF → ON of a domain in ticks (Table 18-3); link training has no bound. -/
def offTicks (k : Nat) : Nat :=
  if k < 136 then 250 else if k < 170 then 1250 else if k < 222 then 250 else if k < 234 then 25000 else 2500
def onTicks (k : Nat) : Nat :=
  if k < 136 then 12500 else if k < 170 then 50000 else if k < 222 then 2500 else if k < 234 then 75000000
  else if k < 282 then 0 else 25000000
/-- ON → SLEEP of a domain (Table 18-3). -/
def sleepTicks (k : Nat) : Nat := if k < 170 then 16 else if k < 234 then 2500 else 250

-- What a domain holds

/-- The bytes of [a, b) read as unlisted memory again. -/
def State.clearMem (s : State) (a b : Nat) : State :=
  { s with
    mem := s.mem.filter fun c => decide (c.1 < a) || decide (b ≤ c.1)
    poison := s.poison.filter fun l => decide (64 * l < a) || decide (b ≤ 64 * l) }

/-- A core's contents as the enable from OFF leaves them (Table 18-3): store, accumulators, tallies and descriptors zero,
instruction cache invalid, streams as after reset. -/
def State.initCore (s : State) (c : Nat) : State :=
  let s := s.clearMem (coreBase c) (coreBase c + 0x2000000)
  let s := { s with eng := { s.eng with
    acc := s.eng.acc.filter fun x => x.1 / 524288 != c
    coverStacks := s.eng.coverStacks.filter fun x => x.1 / 4096 != c
    tallies := s.eng.tallies.filter fun x => x.1 / 1024 != c
    banks := s.eng.banks.filter fun x => x.1 != c
    icache := s.eng.icache.filter fun x => decide (0x80000 ≤ x.1) || x.1 / 4096 != c
    streams := s.eng.streams.filter fun x => decide (512 ≤ x.1) || x.1 / 4 != c
    gated := s.eng.gated.filter fun x => x.1 != c
    badDescs := s.eng.badDescs.filter fun x => x / 4096 != c
    badTallies := s.eng.badTallies.filter fun x => x / 1024 != c } }
  let s := { s with mv := { s.mv with chans := s.mv.chans.filter fun x => x.1 / 32 != c } }
  { s with cfg := s.cfg.filter fun x => decide (x.1 < descAddr c 0) || decide (descAddr c 4096 ≤ x.1) }

/-- XE, CE and the die instruction cache. -/
def State.initDie (s : State) (d : Nat) : State :=
  { s with eng := { s.eng with
    icache := s.eng.icache.filter fun x => decide (x.1 < 0x80000) || (x.1 - 0x80000) / 1024 != d
    streams := s.eng.streams.filter fun x => decide (x.1 < 512) || (x.1 - 512) / 2 != d } }

/-- Initialisation of a domain that leaves OFF. -/
def State.initDomain (s : State) (k : Nat) : State :=
  if k < 136 then (match s.coreOfKey k with | some c => s.initCore c | none => s)
  else if k < 170 then (match s.dieOfKey k with | some d => s.initDie d | none => s)
  else if 222 ≤ k ∧ k < 234 then
    (let m := k - 222
     let s := s.clearMem (Sys2Proof.Machine.wellBase m) (Sys2Proof.Machine.wellBase m + 0x10000000)
     (s.clearMem (hbmBase m) (hbmBase (m + 1))).setCfgF (stackA m) 3 1 0)
  else if 234 ≤ k ∧ k < 282 then s.startPort (k - 234)
  else s

-- Transitions (R509, R510)

/-- A domain starts to enable; behind a disable that still runs it enables after it. -/
def State.enable (s : State) (k : Nat) : State :=
  let d := s.dom k
  match d.going with
  | some .on => s
  | some _ => s.setDom k { d with queuedOn := true }
  | none =>
    match d.st with
    | .on => s
    | .sleep => s.setDom k { d with going := some .on, doneAt := s.gc + wakeTicks k }
    | .off => s.setDom k { d with going := some .on, doneAt := s.gc + onTicks k }

/-- A port's link is DOWN while its domain is not ON. -/
def State.linkOff (s : State) (k : Nat) : State :=
  if 234 ≤ k ∧ k < 282 then s.setLinkState (k - 234) 0 else s

/-- A domain starts to disable: its outputs are clamped at once. -/
def State.disable (s : State) (k : Nat) (to_ : Power) : State :=
  let d := s.dom k
  if d.st == to_ && d.going.isNone then s
  else
    let s := s.setDom k { d with
      st := to_, going := some to_, queuedOn := false
      doneAt := s.gc + (if to_ == .off then offTicks k else sleepTicks k) }
    let s := if 222 ≤ k && k < 234 && to_ == .sleep then s.setCfgF (stackA (k - 222)) 3 1 1 else s
    if to_ == .off then s.linkOff k else s

/-- A domain goes OFF at once (protection). -/
def State.cutOff (s : State) (k : Nat) : State := (s.setDom k domOff).linkOff k

/-- The transition of a domain completes. -/
def State.settleDom (s : State) (k : Nat) : State :=
  let d := s.dom k
  match d.going with
  | none => s
  | some .on =>
    let fresh := d.st == .off
    let s := s.setDom k ⟨.on, none, 0, false⟩
    let s := if 222 ≤ k && k < 234 then s.setCfgF (stackA (k - 222)) 3 1 0 else s
    if fresh then s.initDomain k else s
  | some x =>
    let s := s.setDom k ⟨x, none, 0, false⟩
    if d.queuedOn then s.enable k else s

/-- DOMAIN_TRANSITION_DONE: Table 18-3 bounds the time from above, so it may come at any tick. -/
def domainDone (k : Nat) (s : State) : Option State := if (s.dom k).going.isNone then none else some (s.settleDom k)

def execDomainTransitionDone (dom : Domain) (s : State) : Host.Outcome State Fault Refusal :=
  attempt s (domainDone (domKey dom) s)

-- Package sleep (R511)

/-- A port that may sleep: its TIME role is NONE (R509). -/
def State.portSleeps (s : State) (p : Nat) : Bool := s.tRole p == 0

/-- Every partition is READY or NONE. -/
def State.allIdle (s : State) : Bool := (List.range 8).all fun p => [2, 15].contains (s.part p).state

/-- The package sleeps: cores and compute dies OFF, memory dies and ports without a TIME role in SLEEP. -/
def State.sleepPackage (s : State) : State :=
  let s := { s with mgmt := { s.mgmt with asleep := true } }
  let s := (coreKeys ++ dieKeys).foldl (fun s k => s.disable k .off) s
  let s := memKeys.foldl (fun s k => if s.power k == .on then s.disable k .sleep else s) s
  portKeys.foldl (fun s k => if s.power k == .on && s.portSleeps (k - 234) then s.disable k .sleep else s) s

def packageSleep (s : State) : Option State :=
  if s.mgmt.devState != 2 || s.mgmt.asleep || !s.allIdle || s.gc < s.mgmt.lastWork + oneSecond then none
  else some s.sleepPackage

def execPackageSleep (s : State) : Host.Outcome State Fault Refusal := attempt s (packageSleep s)

/-- The domains that are ON in READY: routers, memory dies, mapped compute dies with their cores, ports (R461). Compute
dies that failed their start test are held off. -/
def State.readyKeys (s : State) : List Nat :=
  let dies := (List.range s.nDies).filter fun d => !s.mgmt.failedDies.contains (s.physDie d)
  routerKeys ++ memKeys ++ dies.map s.dieKey ++ (dies.map fun d => (List.range 4).map fun i => s.coreKey (4 * d + i)).flatten
    ++ portKeys

/-- A command that is not of class READ ends package sleep. -/
def State.endPackageSleep (s : State) : State :=
  if s.mgmt.asleep then s.readyKeys.foldl State.enable { s with mgmt := { s.mgmt with asleep := false } } else s

-- Sensors (R514, R522)

/-- Junction sensors of a logic die (Table 18-4), by unitKey. -/
def sensorsOf (k : Nat) : Nat := if k < 34 then 6 else if k < 46 then 2 else if k < 50 then 5 else 1

/-- Wear index of a logic die (Table 19-10), by unitKey. -/
def wearOfUnit (k : Nat) : Nat := if k < 46 then k else if k < 50 then 12 + k else 60 + k

/-- PEAK_T of a wear index. -/
def State.notePeak (s : State) (i : Nat) (t : Int) : State :=
  { s with mgmt := { s.mgmt with
    wearPeak := tput (fun _ => 0) s.mgmt.wearPeak i (max t (tget (fun _ => 0) s.mgmt.wearPeak i)) } }

/-- The hottest of every sensor and stack: quarter degrees, index, kind (HOT_T, HOT_INDEX, HOT_KIND). The first in the
order of HOT_KIND wins a tie. -/
def State.hotSpot (s : State) : Int × Nat × Nat :=
  let die (k : Nat) : Int := maxInt ((List.range (sensorsOf k)).map fun i => tempOf s k i)
  let rows := (List.range 34).map (fun x => (die x, x, 0)) ++ (List.range 12).map (fun m => (die (34 + m), m, 1))
    ++ (List.range 4).map (fun i => (die (46 + i), i, 2)) ++ (List.range 2).map (fun h => (die (50 + h), h, 3))
    ++ (List.range 12).map (fun m => (4 * ((s.cfgF (stackA m) 8 8 : Nat) : Int), m, 4))
  rows.foldl (fun a b => if a.1 < b.1 then b else a) ((0 : Int), 0, 0)

def State.noteHot (s : State) : State :=
  let h := s.hotSpot
  s.setCfgF (hwReg 0x3008) 32 19 (degrees h.1 + 2 ^ 8 * h.2.1 + 2 ^ 16 * h.2.2)

/-- Sensor i of logic die k reads t quarter degrees. -/
def State.sensed (s : State) (k i : Nat) (t : Int) : State :=
  let key := 6 * k + i
  let cool := if t ≤ 400 then tget (fun _ => 0) s.pw.cool key + 1 else 0
  let s := { s with pw := { s.pw with
    temps := tput (fun _ => 0) s.pw.temps key t
    cool := tput (fun _ => 0) s.pw.cool key cool } }
  (s.notePeak (wearOfUnit k) t).noteHot

/-- SENSOR_SAMPLE: one junction sensor, in quarter degrees. -/
def sensorSample (k i : Nat) (t : Int) (s : State) : Option State :=
  if sensorsOf k ≤ i then none else some (s.sensed k i t)

def execSensorSample (u : Unit52) (i : Fin 6) (t : Int) (s : State) : Host.Outcome State Fault Refusal :=
  attempt s (sensorSample (unitKey u) i.val t s)

-- Measured energy (R515)

/-- Shares of `total` in proportion to the weights, rounded down, the remainder to the first. -/
def splitBy (total : Nat) (ws : List Nat) : List Nat :=
  let sum := ws.sum
  let parts := ws.map fun w => if sum == 0 then 0 else total * w / sum
  match parts with
  | a :: t => (a + (total - parts.sum)) :: t
  | [] => []

/-- The energy of slot `slot` is booked: `owned` is that of the outputs of each partition alone, by partition number. -/
def State.bookSlot (s : State) (slot : Nat) (owned : List Nat) (shared input peak : Nat) : State :=
  let ps := s.configured
  let own := ps.map fun p => owned.getD p.val 0
  let sh := splitBy shared (ps.map fun p => (s.part p.val).plan.share)
  let base := (own.zip sh).map fun x => x.1 + x.2
  let loss := splitBy (input - (own.sum + shared)) base
  let s := (ps.zip (base.zip loss)).foldl (fun s x =>
    let t := s.part x.1.val
    s.setPart x.1.val { t with slots := (slot, x.2.1 + x.2.2) :: t.slots.filter fun y => decide (slot ≤ y.1 + 400) }) s
  let inputs := ((slot, input) :: s.pw.inputs).filter fun y => decide (slot < y.1 + 100)
  let nj := s.pw.inputNj + input
  let s := { s with pw := { s.pw with inputs := inputs, inputNj := nj } }
  let s := s.setCfgF (hwReg 0x3008) 0 16 ((inputs.map Prod.snd).sum / 1000000)
  let s := s.setCfgF (hwReg 0x3008) 16 16 (max peak (s.cfgF (hwReg 0x3008) 16 16))
  s.setCfgW (hwReg 0x3020) (BitVec.ofNat 64 (nj / 1000))

/-- ENERGY_SLOT_MEASURED: 100 ticks after the slot's end at the earliest. -/
def energySlot (slot : Nat) (owned : List Nat) (shared input peak : Nat) (s : State) : Option State :=
  if s.gc < 2500 * (slot + 1) + 100 then none else some (s.bookSlot slot owned shared input peak)

def execEnergySlotMeasured (slot : Nat) (owned : List Nat) (shared input peak : Nat) (s : State) :
    Host.Outcome State Fault Refusal :=
  attempt s (energySlot slot owned shared input peak s)

-- Protection (Table 18-5)

/-- Thermal units: logic dies by unitKey, stacks from 52. -/
def thermalKey : ThermalUnit → Nat
  | .compute x => x.val
  | .memory m => 34 + m.val
  | .io i => 46 + i.val
  | .heartwood h => 50 + h.val
  | .stack m => 52 + m.val

/-- UNIT_KIND and UNIT of a thermal unit (Table 19-1). -/
def thermalName (k : Nat) : Fin 6 × Nat :=
  if k < 34 then (0, k) else if k < 46 then (1, k - 34) else if k < 50 then (3, k - 46) else if k < 52 then (4, k - 50)
  else (2, k - 52)

/-- The hottest sensor of a thermal unit, with its index. -/
def State.thermalTop (s : State) (k : Nat) : Int × Nat :=
  if 52 ≤ k then (4 * ((s.cfgF (stackA (k - 52)) 8 8 : Nat) : Int), 0)
  else (List.range (sensorsOf k)).foldl (fun a i => if a.1 < tempOf s k i then (tempOf s k i, i) else a) (tempOf s k 0, 0)

/-- ALERT: low while an action marked with it is active. -/
def State.setAlert (s : State) : State :=
  s.setCfgF (hwReg 0x3000) 40 1 (boolNat (!s.pw.clamps.isEmpty || s.currClamp || s.avgRung != 0))

/-- Windows that run while a unit or the whole device is slowed report CLAMPED (Table 6-11). -/
def State.noteSlow (s : State) (hit : Nat → Bool) : State :=
  (List.range 8).foldl (fun s p =>
    let t := s.part p
    if t.inWindow && hit p then s.setPart p { t with ranSlow := true } else s) s

def thermalDetail (x : Int × Nat) : W64 := BitVec.ofNat 64 (x.2 + 2 ^ 16 * (x.1 % 2 ^ 16).toNat)

/-- Unit k is clamped. -/
def State.clampUnit (s : State) (k : Nat) : State :=
  let top := s.thermalTop k
  let s := { s with pw := { s.pw with clamps := nins s.pw.clamps k } }
  let s := (s.setCfgF (hwReg 0x3000) 32 1 1).bumpCfg (hwReg 0x3010) 0 32 1
  let s := s.raise { mkErr 0 (thermalName k).1 (thermalName k).2 0xFF 0x0401 with detail := thermalDetail top }
  (s.setAlert).noteSlow fun p => s.clampSlows p k

/-- THERMAL_CLAMP: at 105 °C. -/
def thermalClamp (k : Nat) (s : State) : Option State :=
  if (s.thermalTop k).1 < 420 || s.pw.clamps.contains k || (50 ≤ k && k < 52) then none else some (s.clampUnit k)

def execThermalClamp (u : ThermalUnit) (s : State) : Host.Outcome State Fault Refusal := attempt s (thermalClamp (thermalKey u) s)

/-- Every sensor of a unit at or below 100 °C on two samples in a row; a stack at or below 100 °C. -/
def State.cooled (s : State) (k : Nat) : Bool :=
  if 52 ≤ k then decide ((s.thermalTop k).1 ≤ 400)
  else (List.range (sensorsOf k)).all fun i => decide (2 ≤ tget (fun _ => 0) s.pw.cool (6 * k + i))

/-- The clamp of unit k ends. -/
def State.freeUnit (s : State) (k : Nat) : State :=
  let s := { s with pw := { s.pw with clamps := ndel s.pw.clamps k } }
  (s.setCfgF (hwReg 0x3000) 32 1 (boolNat (!s.pw.clamps.isEmpty))).setAlert

/-- THERMAL_CLAMP_RELEASE. -/
def thermalRelease (k : Nat) (s : State) : Option State :=
  if !s.pw.clamps.contains k || !s.cooled k then none else some (s.freeUnit k)

def execThermalClampRelease (u : ThermalUnit) (s : State) : Host.Outcome State Fault Refusal :=
  attempt s (thermalRelease (thermalKey u) s)

/-- The fast current limit's threshold, in 0.1 A. -/
def State.currLimit (s : State) : Nat := if s.order == 1 then 1750 else 1150

/-- The fast current limit holds the device at `da`. -/
def State.limitCurrent (s : State) (da : Nat) : State :=
  let s := (s.setCfgF (hwReg 0x3000) 33 1 1).bumpCfg (hwReg 0x3010) 32 32 1
  let s := s.raise { mkErr 0 4 s.mgmt.active 0xFF 0x0402 with detail := BitVec.ofNat 64 (da % 2 ^ 16) }
  (s.setAlert).noteSlow fun _ => true

def currentLimit (da : Nat) (s : State) : Option State :=
  if s.currClamp || da < s.currLimit then none else some (s.limitCurrent da)

def execCurrentLimit (deciAmps : Nat) (s : State) : Host.Outcome State Fault Refusal := attempt s (currentLimit deciAmps s)

def currentRelease (s : State) : Option State :=
  if s.currClamp then some ((s.setCfgF (hwReg 0x3000) 33 1 0).setAlert) else none

def execCurrentLimitRelease (s : State) : Host.Outcome State Fault Refusal := attempt s (currentRelease s)

/-- Rungs of the ladder: 7 less the fastest pace that a partition runs at, 2 clock halvings and 7 rate steps (R519). -/
def State.rungs (s : State) : Nat :=
  let qs := (s.configured.filter fun p => (s.part p.val).state == 5).map fun p => (s.part p.val).pace
  16 - (match qs with | [] => 0 | q :: t => t.foldl min q)

def State.setRung (s : State) (n : Nat) : State :=
  { s with pw := { s.pw with rungAt := s.gc } }.setCfgF (hwReg 0x3000) 34 5 n

/-- Rung n is put on. -/
def State.rungUp (s : State) (n : Nat) : State :=
  let s := (s.setRung n).bumpCfg (hwReg 0x3018) 0 32 1
  let s := s.raise { mkErr 0 4 s.mgmt.active 0xFF 0x0403 with detail := BitVec.ofNat 64 n }
  (s.setAlert).noteSlow fun _ => true

/-- AVG_LIMIT: the 1 ms average above 1.02 × the envelope in force puts one rung on. -/
def avgLimit (w : Nat) (s : State) : Option State :=
  let n := s.avgRung
  if w * 100 ≤ 102 * s.envUnder s.pw.cap || s.rungs ≤ n || (n != 0 && s.gc < s.pw.rungAt + 2500) then none
  else some (s.rungUp (n + 1))

def execAvgLimit (avgW : Nat) (s : State) : Host.Outcome State Fault Refusal := attempt s (avgLimit avgW s)

/-- AVG_LIMIT_RELEASE: the average below 0.95 × the envelope takes one rung off. -/
def avgRelease (w : Nat) (s : State) : Option State :=
  let n := s.avgRung
  if n == 0 || 95 * s.envUnder s.pw.cap ≤ w * 100 || s.gc < s.pw.rungAt + 2500 then none
  else some ((s.setRung (n - 1)).setAlert)

def execAvgLimitRelease (avgW : Nat) (s : State) : Host.Outcome State Fault Refusal := attempt s (avgRelease avgW s)

/-- The domain that a regulator output feeds (Table 18-1), by unitKey. -/
def outputDom (k out : Nat) : Option Nat :=
  if out == 5 then (if k < 50 then some (170 + k) else none)
  else if k < 34 then (if out < 4 then some (4 * k + out) else if out == 4 then some (136 + k) else none)
  else if k < 46 then (if out == 6 || out == 7 then some (memKey (k - 34)) else none)
  else if k < 50 then
    (if 8 ≤ out && out < 20 then some (234 + 12 * (k - 46) + (out - 8))
     else if out == 20 && k == 46 then some 282 else if out == 20 && k == 48 then some 283 else none)
  else none

/-- The partitions that own or share a domain. -/
def State.domParts (s : State) (k : Nat) : List Part :=
  s.configured.filter fun p =>
    if k < 136 then (s.diesOf p.val).any fun d => s.physDie d == k / 4
    else if k < 170 then (s.diesOf p.val).any fun d => s.physDie d == k - 136
    else if k < 222 then true
    else if k < 234 then s.usesMem p.val (k - 222)
    else if k < 282 then (match s.platePart p.val with | some r => r.ports.getLsbD (k - 234) | none => false)
    else true

/-- Output `out` of unit k and its domain d are off; each partition that owns or shares the domain is held at once. -/
def State.overcurrent (s : State) (k out d : Nat) : State :=
  let s := (s.cutOff d).bumpCfg (hwReg 0x3018) 32 32 1
  let name := thermalName k
  let e := { mkErr 2 name.1 name.2 0xFF 0x0404 with detail := BitVec.ofNat 64 out }
  let ps := (s.domParts d).filter fun p => [4, 5, 6].contains (s.part p.val).state
  match ps with
  | [] => s.takeEvent { e with stamp := s.gc }
  | _ => ps.foldl (fun s p => s.hold p 7 (some { e with part := some p })) s

/-- REG_OVERCURRENT (R521). -/
def regOvercurrent (k out : Nat) (s : State) : Option State :=
  match outputDom k out with
  | none => none
  | some d =>
    if s.power d == .off && (s.dom d).going.isNone then none else some (s.overcurrent k out d)

def execRegOvercurrent (u : Unit52) (out : Fin 21) (s : State) : Host.Outcome State Fault Refusal :=
  attempt s (regOvercurrent (unitKey u) out.val s)

/-- Unit k trips the device: every sapwood domain goes OFF and every pending command ends FAILED. -/
def State.trip (s : State) (k : Nat) : State :=
  let top := s.thermalTop k
  let s := (switched ++ hostKeys).foldl State.cutOff s
  let s := s.setCfgF (hwReg 0x3000) 39 1 1
  let s := s.takeEvent { mkErr 3 (thermalName k).1 (thermalName k).2 0xFF 0x0405 with
    detail := thermalDetail top, stamp := s.gc }
  let s := s.endCmds (fun _ => true) 7
  { s with mgmt := { s.mgmt with grafts := [] } }

/-- THERMAL_TRIP: at 115 °C, or a stack at 110 °C. -/
def thermalTrip (k : Nat) (s : State) : Option State :=
  if (s.thermalTop k).1 < (if 52 ≤ k then 440 else 460) || s.cfgF (hwReg 0x3000) 39 1 == 1 then none else some (s.trip k)

def execThermalTrip (u : ThermalUnit) (s : State) : Host.Outcome State Fault Refusal := attempt s (thermalTrip (thermalKey u) s)

-- Takes (R445, R503)

/-- PEAK_W_TAKE: the take resets PEAK_W. The register returns to whoever took it. -/
def State.takePeakW (s : State) : State := s.setCfgF (hwReg 0x3008) 16 16 0
/-- FIFO_PEAK_TAKE: the take resets FIFO_PEAK to FIFO_LEVEL. -/
def State.takeFifoPeak (s : State) : State := s.setCfgF (hwReg 0x5028) 16 9 (s.cfgF (hwReg 0x5028) 0 9)

def execPeakWTake (s : State) : Host.Outcome State Fault Refusal :=
  .next (s.takePeakW.emit (.readback (s.cfgW (hwReg 0x3008)).toNat))
def execFifoPeakTake (s : State) : Host.Outcome State Fault Refusal :=
  .next (s.takeFifoPeak.emit (.readback (s.cfgW (hwReg 0x5028)).toNat))

end Sys2Proof.Machine
end

