-- ==== Sys2Proof/Machine/Views.lean ====
section
/-! DEFINITION. What a read of configuration space or of a mailbox block returns, and what a plain write to either
changes (Tables 0-5, 10-2, 16-5 and 16-7). -/

namespace Sys2Proof.Machine

-- Configuration space

/-- The stream whose ENG_STATUS stands at an offset of a core's or die's block. -/
def engStatusAt (a : Nat) : Option Nat :=
  let off := a % 0x100000
  if coreCfg 0 ≤ a ∧ a < coreCfg 128 ∧ 0x200 ≤ off ∧ off < 0x220 then some (4 * ((a - coreCfg 0) / 0x100000) + (off - 0x200) / 8)
  else if dieCfg 0 ≤ a ∧ a < dieCfg 32 ∧ 0x200 ≤ off ∧ off < 0x210 then
    some (512 + 2 * ((a - dieCfg 0) / 0x100000) + (off - 0x200) / 8)
  else none

/-- ENG_STATUS of a stream; HALTED while a cut freezes it (R566). -/
def State.statusWord (s : State) (i : Nat) : W64 :=
  let w := s.engStatus i
  if s.frozenStream i && (s.stream i).st != .idle then setFld w 0 3 6 else w

/-- TLY_ENTRY of a tally (Table 5-16). -/
def State.tlyEntry (s : State) (c t : Nat) : Nat := (s.tally c t).value + 2 ^ 24 * boolNat (s.tally c t).ovf

/-- Two accumulators seen through the view of R562. -/
def State.accView (s : State) (c off : Nat) : W64 :=
  let row := 1024 * s.cfgF (coreCfg c + 0x900) 0 2 + off / 512
  let col := off % 512 / 4
  BitVec.ofNat 64 ((s.accW c row col).toNat + 2 ^ 32 * (s.accW c row (col + 1)).toNat)

/-- A heartwood die's block: only the active die's registers are live (R409, R522, R526, R586). -/
def State.hwWord (s : State) (h off : Nat) : W64 :=
  if h != s.mgmt.active then 0
  else if off = 0x2000 then BitVec.ofNat 64 s.gc
  else if off = 0x3000 then setFld (s.cfgW (hwReg off)) 0 16 s.envelope
  else s.cfgW (hwReg off)

/-- The word of configuration space at an 8-aligned address. -/
def State.cfgRead (s : State) (a : Nat) : W64 :=
  let off := a % 0x100000
  match engStatusAt a with
  | some i => s.statusWord i
  | none =>
    if coreCfg 0 ≤ a ∧ a < coreCfg 128 then
      let c := (a - coreCfg 0) / 0x100000
      if 0x8000 ≤ off ∧ off < 0x9000 then
        let t := (off - 0x8000) / 4
        BitVec.ofNat 64 (s.tlyEntry c t + 2 ^ 32 * s.tlyEntry c (t + 1))
      else if 0x80000 ≤ off then s.accView c (off - 0x80000)
      else s.cfgW a
    else if hwCfg 0 ≤ a ∧ a < hwCfg 2 then s.hwWord ((a - hwCfg 0) / 0x100000) off
    else s.cfgW a

/-- n bytes of configuration space. -/
def State.cfgBytes (s : State) (a n : Nat) : List Byte :=
  (List.range n).map fun i => BitVec.ofNat 8 (fld (s.cfgRead ((a + i) / 8 * 8)) (8 * ((a + i) % 8)) 8)

/-- An address lies in configuration space. -/
def inCfg (a n : Nat) : Bool := decide (coreCfg 0 ≤ a) && decide (a + n ≤ hwCfg 2)

-- RW and W1C bits (Table 0-5)

def descMask (k : Nat) : Nat :=
  match k with
  | 0 => 0xFFFFFFFFFFFF07FF
  | 4 => 0x1FFFFFFFFFF
  | 7 => 0
  | _ => 0xFFFFFFFFFFFFFFFF

def coreMask (off : Nat) : Nat := if 0x10040 ≤ off ∧ off < 0x50000 then descMask (off % 64 / 8) else 0

def dieMask (off : Nat) : Nat :=
  if off = 0x120 then 0xFFFFFFFFFFFFFF
  else if off = 0x128 ∨ off = 0x130 then 0xFFFFFFFFFFFF
  else if 0x20000 ≤ off ∧ off < 0x30000 then
    (if off % 256 = 0 then 0xFF01 else if 64 ≤ off % 256 then 0x7FFFFFF else 0)
  else if 0x30000 ≤ off ∧ off < 0x31000 then 0x7F7F7F7F7F7F7F7F
  else if 0x60000 ≤ off ∧ off < 0x64000 then
    (match off % 256 with
      | 0 => 0xFFFF0FFF3FFFFFFF
      | 8 => 0xFFFFFFFFFFFFFFFF
      | 16 => 0x7FFFF
      | _ => 0)
  else if 0x70000 ≤ off ∧ off < 0x70200 then 0xFFFFFFFF0003
  else 0

def memMask (off : Nat) : Nat :=
  if 0x40000 ≤ off ∧ off < 0x41000 then
    (match off % 64 with
      | 0 => 0xFFFFFFFF03FF000F
      | 8 => 0xFFFFFFFFFFFF
      | 16 => 0xFFFFFFFFFFFF
      | 24 => 0xFFFFFFFFFFFFFFFF
      | 32 => 0xFFFF
      | _ => 0)
  else if 0x50000 ≤ off ∧ off < 0x70000 then
    (match off % 32 with
      | 0 => 0xFFFFFFFF000000FF
      | 8 => 0xFFFFFFFF
      | _ => 0)
  else if 0x80000 ≤ off ∧ off < 0x82000 then
    (match off % 128 with
      | 0 => 0xFFFFC
      | 8 => 0x3FFFFF
      | 0x10 => 0x3FFFFF
      | 0x18 => 0x3FFFFF
      | 0x20 => 0xFFFFFFFF
      | 0x28 => 0x7FFFFFFF
      | _ => 0)
  else 0

def ioMask (a off : Nat) : Nat :=
  if 0x10000 ≤ off ∧ off < 0x10C00 then
    (match off % 256 with
      | 0 => portMask 0 + 3
      | 0x20 => portMask 0x20
      | 0x30 => 0xFFFFFF07
      | _ => 0)
  else if a < ioCfg 1 then
    (if off = 0 then 0xFFF0000
     else if off = 8 ∨ off = 16 then 0xFFFFFFFFFFFF
     else if off = 24 then 0x7FFFFFFFFFFFFF
     else if 0x40000 ≤ off ∧ off < 0x50000 then regionMask (off % 64)
     else if 0x80000 ≤ off then ctxMask (off % 32)
     else 0)
  else 0

/-- The RW bits of the word of configuration space at `a`. -/
def rwMask (a : Nat) : Nat :=
  let off := a % 0x100000
  if a < coreCfg 0 then 0
  else if a < coreCfg 128 then coreMask off
  else if a < dieCfg 0 then 0
  else if a < dieCfg 32 then dieMask off
  else if a < memCfg 0 then 0
  else if a < memCfg 12 then memMask off
  else if a < ioCfg 0 then 0
  else if a < ioCfg 4 then ioMask a off
  else 0

/-- The W1C bits of the word of configuration space at `a`: VALID of a fault register, DONE and ERR_SEEN of a traffic
generator. -/
def w1cMask (a : Nat) : Nat :=
  let off := a % 0x100000
  if coreCfg 0 ≤ a ∧ a < coreCfg 128 then (if 0x108 ≤ off ∧ off ≤ 0x120 then 0x100 else 0)
  else if dieCfg 0 ≤ a ∧ a < dieCfg 32 then (if off = 0x110 ∨ off = 0x140 then 0x100 else 0)
  else if memCfg 0 ≤ a ∧ a < memCfg 12 then (if 0x80000 ≤ off ∧ off < 0x82000 ∧ off % 128 = 0x30 then 6 else 0)
  else 0

/-- A word after a write of v: RW bits take v, W1C bits clear where v is 1, every other bit holds. -/
def writeBits (old v : W64) (rw w1c : Nat) : W64 :=
  let r := BitVec.ofNat 64 rw
  ((old &&& ~~~r) ||| (v &&& r)) &&& ~~~(v &&& BitVec.ofNat 64 w1c)

/-- Lysby writes one half of a pair of TLY_ENTRY registers (Table 5-16). -/
def State.writeTally (s : State) (c t v : Nat) : State :=
  s.setTally c t ⟨v % 2 ^ 24, (s.tally c t).ovf && bitsAt v 24 1 == 0⟩

/-- Every stream of a core is IDLE or HALTED (R140). -/
def State.coreQuiet (s : State) (c : Nat) : Bool :=
  (List.range 4).all fun e => (s.stream (4 * c + e)).st == .idle || (s.stream (4 * c + e)).st == .halted

/-- A plain write to the 8-aligned word of configuration space at `a`. -/
def State.cfgWrite (s : State) (a : Nat) (v : W64) : State :=
  let off := a % 0x100000
  if coreCfg 0 ≤ a ∧ a < coreCfg 128 ∧ 0x8000 ≤ off ∧ off < 0x9000 then
    let c := (a - coreCfg 0) / 0x100000
    let t := (off - 0x8000) / 4
    if s.coreQuiet c then (s.writeTally c t (v.toNat % 2 ^ 32)).writeTally c (t + 1) (v.toNat / 2 ^ 32) else s
  else if rwMask a = 0 ∧ w1cMask a = 0 then s
  else s.setCfgW a (writeBits (s.cfgW a) v (rwMask a) (w1cMask a))

-- Mailbox blocks (Table 16-7)

/-- FUNC: 0 PF, 1 to 8 VF, 15 the I3C view. -/
def funcOf : Blk → Nat
  | .pf => 0
  | .vf n => n.val + 1
  | .i3c => 15

/-- The word at an 8-aligned offset of a block; `idle` tells whether it is seen through a port that does not serve. -/
def State.mbxRead (s : State) (b : Blk) (off : Nat) (idle : Bool) : W64 :=
  match off with
  | 0 => BitVec.ofNat 64 (s.order + 2 ^ 8 * (s.mgmt.stepping % 16) + 2 ^ 12 + 2 ^ 16 * funcOf b + 2 ^ 20 * boolNat idle)
  | 8 => s.mgmt.serial
  | 0x10 =>
    BitVec.ofNat 64 (s.mgmt.devState % 16 + 16 * (match b with | .vf p => (s.part p.val).state % 16 | _ => 0)
      + 2 ^ 8 * (s.mgmt.active % 2) + 2 ^ 9 * boolNat s.mgmt.standbyOk + 2 ^ 10 * (s.mgmt.hostPort % 2)
      + 2 ^ 11 * s.mbxF (mbxAddr b 0x10) 11 1 + 2 ^ 12 * boolNat s.nodeAssigned)
  | _ => if off < 0x10000 then s.mbxW (mbxAddr b off) else 0

/-- n bytes of a block from an offset, wrapping at 64 KiB. -/
def State.mbxView (s : State) (b : Blk) (off n : Nat) : List Byte :=
  (List.range n).map fun i =>
    let o := (off + i) % 0x10000
    BitVec.ofNat 8 (fld (s.mbxRead b (o / 8 * 8) false) (8 * (o % 8)) 8)

/-- The take of MBX_IRQ (Table 16-7): every cause clears, and with the I3C view's the in-band requests. -/
def State.irqTake (s : State) (b : Blk) : State :=
  let s := s.setMbxF (mbxAddr b 0x18) 0 16 0
  match b with
  | .i3c => { s with mgmt := { s.mgmt with ibi := [] } }
  | _ => s

end Sys2Proof.Machine
end

