-- ==== Sys2Proof/Machine/Mailbox.lean ====
section
/-! DEFINITION. The mailbox blocks and the host ports (R440 to R448, R472): doorbells and take order, the index
registers, plain register writes, BAR2, journal and doorbell pages, PERST. -/

namespace Sys2Proof.Machine

/-- Lysby runs: the boot is done, a heartwood die is in service and no takeover is under way (R433, R436). -/
def State.lysbyUp (s : State) : Bool :=
  s.mgmt.supply && s.mgmt.booted && !s.mgmt.deadHw.contains s.mgmt.active && s.mgmt.takeover.isNone

/-- No change of Lysby's waits for its mirror record (R434). -/
def State.mirrored (s : State) : Bool := !s.mgmt.standbyOk || s.mgmt.mirror.isEmpty

-- Host ports (R441, R443)

/-- A host port answers its functions' accesses. -/
def State.hostUp (s : State) (h : Nat) : Bool :=
  s.mgmt.supply && s.power (282 + h) == .on && !s.mgmt.perst.contains h
    && s.mgmt.hostReady.any fun x => x.1 == h && decide (x.2 ≤ s.gc)

/-- The host, or the tray controller, reaches a block. -/
def State.reaches (s : State) (b : Blk) : Bool :=
  match b with
  | .i3c => s.mgmt.supply && s.mgmt.booted && ((s.mgmt.i3c[s.mgmt.active]?).map fun c => c.addr.isSome).getD false
  | _ => s.hostUp s.mgmt.hostPort

-- Take order (R440, R448)

/-- Response slots promised to PENDING commands of a pair. -/
def State.promised (s : State) (b : Blk) (k : Nat) : Nat := (s.mgmt.cmds.filter fun c => c.blk == b && c.pair == k).length

def State.rspFree (s : State) (b : Blk) (k : Nat) : Nat := 16 - (s.rspProd b k + 65536 - s.rspCons b k) % 65536

/-- A pair from which Lysby may take: an untaken entry, and room for its responses. -/
def State.eligible (s : State) (b : Blk) (k : Nat) : Bool :=
  s.cmdProd b k != s.cmdCons b k && decide (2 + s.promised b k ≤ s.rspFree b k)

/-- Order of the requesters whose doorbells fall in one cycle: host, VFs ascending, tray controller, fabric manager. -/
def takeRank (b : Blk) (k : Nat) : Nat :=
  match b with
  | .pf => if k < 4 then k else 20 + k
  | .vf n => 4 + 2 * n.val + k
  | .i3c => 20 + k

def bellFirst (x y : Nat × Blk × Nat × Nat) : Bool :=
  x.1 < y.1 || x.1 == y.1 && takeRank x.2.1 x.2.2.1 < takeRank y.2.1 y.2.2.1

/-- The pair that Lysby takes from next (log 45). -/
def State.nextTake (s : State) : Option (Blk × Nat) :=
  let l := s.mgmt.bells.filter fun x => s.eligible x.2.1 x.2.2.1
  (l.foldl (fun o x => match o with
    | none => some x
    | some y => if bellFirst x y then some x else o) none).map fun x => (x.2.1, x.2.2.1)

/-- Lysby may take a command in this heartwood cycle. -/
def State.mayTake (s : State) : Bool :=
  s.lysbyUp && s.mirrored && (match s.mgmt.lastTake with | some c => decide (c < s.gc / 5) | none => true)

/-- The head entry of a pair leaves its ring; a doorbell whose entries have all been taken is served. -/
def State.takeHead (s : State) (b : Blk) (k : Nat) : State :=
  let cons := (s.cmdCons b k + 1) % 65536
  let s := s.setMbxF (ringA b k) 16 16 cons
  { s with mgmt := { s.mgmt with
      lastTake := some (s.gc / 5)
      bells := s.mgmt.bells.filter fun x => !(x.2.1 == b && x.2.2.1 == k && x.2.2.2 == cons) } }

/-- Command codes of the tables of chapter 17. -/
def knownCode (c : Nat) : Bool :=
  let n := c % 256
  1 ≤ n && match c / 256 with
    | 1 => n ≤ 8 | 2 => n ≤ 8 | 3 => n ≤ 2 | 4 => n ≤ 5 | 5 => n ≤ 3 | 6 => n ≤ 4 | 7 => n ≤ 4 | 8 => n ≤ 4
    | 9 => n ≤ 8 | 10 => n ≤ 8 | _ => false

/-- An entry with an unknown code, when its turn comes, is taken and answered BAD_ARGS (R439, R473, log 46). -/
def State.serveUnknown (s : State) : State :=
  if !s.mayTake then s
  else match s.nextTake with
    | none => s
    | some (b, k) =>
      let e := s.cmdEntry b k (s.cmdCons b k)
      if knownCode (entCode e) then s else (s.takeHead b k).final b k e stBadArgs s.gc []

-- Index registers (R446)

/-- An index write is ignored: RING_ERR is set and a notice posted. -/
def State.ringErr (s : State) (b : Blk) (k reg : Nat) (v : W16) : State :=
  let s := s.setMbxF (mbxAddr b 0x10) 11 1 1
  s.notice (match b with | .vf p => some p | _ => none) 1
    (natLe 1 (funcOf b) ++ natLe 1 k ++ natLe 1 reg ++ natLe 1 0 ++ natLe 2 v.toNat)

/-- A write of CMD_PROD: the doorbell of pair k. -/
def State.ringCmd (s : State) (b : Blk) (k : Nat) (v : W16) : State :=
  let cons := s.cmdCons b k
  let n := (v.toNat + 65536 - cons) % 65536
  if 16 < n ∨ n < (s.cmdProd b k + 65536 - cons) % 65536 then s.ringErr b k 0 v
  else
    let s := s.setMbxF (ringA b k) 0 16 v.toNat
    let s := { s with mgmt := { s.mgmt with bells := s.mgmt.bells ++ [(s.gc / 5, b, k, v.toNat)] } }
    s.serveUnknown

/-- A write of RSP_CONS. -/
def State.ringRsp (s : State) (b : Blk) (k : Nat) (v : W16) : State :=
  let cons := s.rspCons b k
  if (s.rspProd b k + 65536 - cons) % 65536 < (v.toNat + 65536 - cons) % 65536 then s.ringErr b k 1 v
  else (s.setMbxF (ringA b k + 8) 16 16 v.toNat).serveUnknown

def cmdProdWrite (b : Blk) (k : Nat) (v : W16) (s : State) : Option State :=
  if !s.reaches b || pairsOf b ≤ k then none else some (s.ringCmd b k v)

def execCmdProdWrite (b : Blk) (k : Fin 12) (v : W16) (s : State) : Host.Outcome State Fault Refusal :=
  attempt s (cmdProdWrite b k.val v s)

def rspConsWrite (b : Blk) (k : Nat) (v : W16) (s : State) : Option State :=
  if !s.reaches b || pairsOf b ≤ k then none else some (s.ringRsp b k v)

def execRspConsWrite (b : Blk) (k : Fin 12) (v : W16) (s : State) : Host.Outcome State Fault Refusal :=
  attempt s (rspConsWrite b k.val v s)

/-- A read of MBX_IRQ returns its causes and clears them. -/
def mbxIrqTake (b : Blk) (s : State) : Option State :=
  if !s.reaches b then none else some ((s.irqTake b).emit (.readback (s.mbxRead b 0x18 false).toNat))

def execMbxIrqTake (b : Blk) (s : State) : Host.Outcome State Fault Refusal := attempt s (mbxIrqTake b s)

/-- Every block: the PF, the VFs and the I3C view. -/
def allBlks : List Blk := [.pf] ++ (List.finRange 8).map Blk.vf ++ [.i3c]

/-- PORT_TAKE through the PF of host port h: the standby port becomes the serving port (R443). -/
def portTake (h : Nat) (v : W64) (s : State) : Option State :=
  if !s.hostUp h || h == s.mgmt.hostPort || fld v 0 1 == 0 then none
  else
    let s := { s with mgmt := { s.mgmt with hostPort := h } }
    some (allBlks.foldl (fun s b => s.setIrq b 15) s)

def execPortTake (hp : Fin 2) (v : W64) (s : State) : Host.Outcome State Fault Refusal := attempt s (portTake hp.val v s)

-- Plain writes (R444, Table 16-7)

/-- A write of a whole word of a block; words without a writable field ignore it. -/
def State.mbxPlain (s : State) (b : Blk) (off : Nat) (v : W64) : State :=
  let a := mbxAddr b off
  let host := b != .i3c
  if off = 0x10 then (if fld v 11 1 = 1 then s.setMbxF a 11 1 0 else s)
  else if off = 0x20 then s.setMbxF a 0 16 (fld v 0 16)
  else if off = 0x28 then (if host then s.setMbxF a 30 18 (fld v 30 18) else s)
  else if off = 0x38 then s.setMbxF a 16 16 (fld v 16 16)
  else if 0x800 ≤ off ∧ off < 0xC00 then (if host then s.setMbxW a v else s)
  else if 0x2000 ≤ off ∧ off < 0x2000 + 0x800 * pairsOf b ∧ (off - 0x2000) % 0x800 < 0x400 then s.setMbxW a v
  else s

/-- A write of a whole word of a block, index registers included. -/
def State.mbxWrite (s : State) (b : Blk) (off : Nat) (v : W64) : State :=
  if 0x100 ≤ off ∧ off < 0x100 + 16 * pairsOf b then
    let k := (off - 0x100) / 16
    if off % 16 = 0 then s.ringCmd b k (BitVec.ofNat 16 (fld v 0 16)) else s.ringRsp b k (BitVec.ofNat 16 (fld v 16 16))
  else s.mbxPlain b off v

/-- REGISTER_WRITE: by the host or the tray controller to a block or a BAR4 page, by Lysby to configuration space. -/
def registerWrite (t : RegTarget) (v : W64) (s : State) : Option State :=
  match t with
  | .mbx b off => if !s.reaches b || off % 8 != 0 then none else some (s.mbxPlain b off v)
  | .bar4 p off =>
    if !s.hostUp s.mgmt.hostPort || off != 0x20 then none
    else some (if fld v 2 1 == 1 then s.setMbxF (bar4Addr p.val 0x20) 2 1 0 else s)
  | .cfg a => if !s.lysbyUp || a % 8 != 0 then none else some (s.cfgWrite a v)

def execRegisterWrite (t : RegTarget) (v : W64) (s : State) : Host.Outcome State Fault Refusal :=
  attempt s (registerWrite t v s)

-- BAR4 (R423, R472)

/-- The host advances JNL_READ; above JNL_WRITE the write is ignored and JNL_READ_ERR set. -/
def jnlReadWrite (p : Part) (v : W64) (s : State) : Option State :=
  if !s.hostUp s.mgmt.hostPort then none
  else if (s.mbxW (bar4Addr p.val 0x10)).toNat < v.toNat then some (s.setMbxF (bar4Addr p.val 0x20) 2 1 1)
  else some (s.setMbxW (bar4Addr p.val 0x18) v)

def execJnlReadWrite (p : Part) (v : W64) (s : State) : Host.Outcome State Fault Refusal := attempt s (jnlReadWrite p v s)

/-- DB_k of partition p takes v and its pending bit; a second one before delivery replaces the value and is counted. -/
def State.pendBell (s : State) (p : Part) (k : Fin 16) (v : W64) : State :=
  let pend := bar4Addr p.val 0x1080
  let s := if s.mbxF pend k.val 1 == 1 then
      s.setMbxF (pend + 8) 0 32 (satAdd 32 (s.mbxF (pend + 8) 0 32) 1) else s
  let s := (s.setMbxF pend k.val 1 1).setMbxW (bar4Addr p.val (0x1000 + 8 * k.val)) v
  let t := s.part p.val
  s.setPart p.val { t with bellAt := tput (fun _ => 0) t.bellAt k.val s.gc }

/-- DOORBELL_WRITE. -/
def doorbellWrite (p : Part) (k : Fin 16) (v : W64) (s : State) : Option State :=
  if !s.hostUp s.mgmt.hostPort then none else some (s.pendBell p k v)

def execDoorbellWrite (p : Part) (k : Fin 16) (v : W64) (s : State) : Host.Outcome State Fault Refusal :=
  attempt s (doorbellWrite p k v s)

-- BAR2 (R442)

/-- The partition of a VF. -/
def vfPart : Blk → Option Part
  | .vf q => some q
  | _ => none

/-- The record of a refused aperture access: it names the function. -/
def State.bar2Event (s : State) (b : Blk) (a : Nat) (breach : Bool) : ErrEvent :=
  let e := mkErr 2 3 (2 * s.mgmt.hostPort) 0xFF (if breach then 0x0308 else 0x0208)
  { e with
    isolation := breach
    part := vfPart b
    addr := a
    detail := BitVec.ofNat 64 (if breach then funcOf b + 2 ^ 17 else 1 + 2 ^ 8 * funcOf b) }

/-- An address lies in HBM. -/
def isHbm (a : Nat) : Bool := match homeOf a with | .hbm _ _ => true | _ => false

/-- The local address that offset `off` of a function's aperture reaches. -/
def State.apertureAddr (s : State) (b : Blk) (off : Nat) : Nat := (s.mbxF (mbxAddr b 0x28) 30 18) * 2 ^ 30 + off

/-- An access through an aperture reaches HBM, is held for its sleeping stack, or ends in error (R22, R442). -/
def State.hostAccess (s : State) (x : HostAccess) : State :=
  match (if isHbm x.addr then s.access (vfPart x.blk) x.addr x.len else Access.bad false) with
  | .sleeping k =>
    ({ s with eng := { s.eng with held := s.eng.held ++ [Held.mk none none k (some x)] } } : State).requestWake k
  | .bad iso => (s.raise (s.bar2Event x.blk x.addr iso)).emit .unsupported
  | .ok =>
    match x.data with
    | none => s.emit (.bytes (s.rd x.addr x.len))
    | some bs => s.wr x.addr (bs.take x.len)

/-- BAR2_ACCESS: `data` is what it writes, none for a read. -/
def bar2Access (b : Blk) (off len : Nat) (data : Option (List Byte)) (s : State) : Option State :=
  if !s.hostUp s.mgmt.hostPort || b == .i3c || len == 0 || 2 ^ 36 < off + len then none
  else some (s.hostAccess ⟨b, s.apertureAddr b off, len, data⟩)

def execBar2Access (b : Blk) (off len : Nat) (data : Option (List Byte)) (s : State) : Host.Outcome State Fault Refusal :=
  attempt s (bar2Access b off len data s)

/-- HELD_ACCESS_COMPLETE (R22): the domain is ON; a held event reaches its bank, a held stream may issue, and a held host
access is made. -/
def heldDone (i : Nat) (s : State) : Option State :=
  match s.eng.held[i]? with
  | none => none
  | some h =>
    let s' := { s with eng := { s.eng with held := s.eng.held.eraseIdx i } }
    match s.power h.dom with
    | .sleep => none
    | p => match h.host with
      | some x => some (s'.hostAccess x)
      | none => match p, h.event with
        | .off, some e => some (s'.eventLost e)
        | _, some e => if s.frozenDie e.die then none else s'.bankTake e
        | _, none => some s'

def execHeldAccessComplete (i : Nat) (s : State) : Host.Outcome State Fault Refusal := attempt s (heldDone i s)

-- PERST (R441, R582)

/-- 100 ms, after which a host port is ready for configuration requests. -/
def hostReadyTicks : Nat := 25000000

/-- PERST_N of a host port asserts: its link goes down, and nothing else changes. -/
def perstAssert (h : Nat) (s : State) : Option State :=
  if s.mgmt.perst.contains h then none
  else some { s with mgmt := { s.mgmt with
    perst := s.mgmt.perst ++ [h], hostReady := s.mgmt.hostReady.filter fun x => x.1 != h } }

def execPerstAssert (hp : Fin 2) (s : State) : Host.Outcome State Fault Refusal := attempt s (perstAssert hp.val s)

/-- A host port with main power good and PERST_N high becomes ready 100 ms later. -/
def State.hostTrains (s : State) (h : Nat) : State :=
  if !s.mgmt.mainGood || s.mgmt.perst.contains h then s
  else { s with mgmt := { s.mgmt with
    hostReady := (s.mgmt.hostReady.filter fun x => x.1 != h) ++ [(h, s.gc + hostReadyTicks)] } }

def perstDeassert (h : Nat) (s : State) : Option State :=
  if !s.mgmt.perst.contains h then none
  else some ({ s with mgmt := { s.mgmt with perst := s.mgmt.perst.filter fun x => x != h } }.hostTrains h)

def execPerstDeassert (hp : Fin 2) (s : State) : Host.Outcome State Fault Refusal := attempt s (perstDeassert hp.val s)

end Sys2Proof.Machine
end

