-- ==== Sys2Proof/Machine/Heartwood.lean ====
section
/-! DEFINITION. The two heartwood dies (R433 to R437) and their I3C ports (R452 to R455). -/

namespace Sys2Proof.Machine

/-- The heartwood die that is not active. -/
def State.otherHw (s : State) : Nat := 1 - s.mgmt.active % 2

/-- A heartwood die runs: its supply is up, it has booted, and it is not held in reset. -/
def State.hwAlive (s : State) (h : Nat) : Bool := s.mgmt.supply && s.mgmt.booted && !s.mgmt.deadHw.contains h

-- Heartbeats and takeover (R435, R436)

/-- HEARTBEAT_SEND: every 256 ticks. -/
def heartbeatSend (s : State) : Option State :=
  if !s.hwAlive s.mgmt.active || s.gc < s.mgmt.lastBeat + 256 then none
  else some { s with mgmt := { s.mgmt with lastBeat := s.gc } }

def execHeartbeatSend (s : State) : Host.Outcome State Fault Refusal := attempt s (heartbeatSend s)

/-- The active die has reported a fatal fault of its own. -/
def State.ownFatal (s : State) : Bool :=
  let mine (e : ErrEvent) : Bool := e.cls.val == 3 && e.kind.val == 4 && e.unit.toNat == s.mgmt.active
  s.log.raised.any mine || s.log.fifo.any fun x => mine x.ev

/-- HEARTBEAT_TIMEOUT: the standby holds the old active die in reset and claims the active role (Table 16-1). Records
that it has not acknowledged are gone with their changes (R434). -/
def heartbeatTimeout (s : State) : Option State :=
  if !s.mgmt.standbyOk || !s.mgmt.supply || !s.mgmt.booted || s.mgmt.takeover.isSome
      || (s.gc < s.mgmt.lastBeat + 1280 && !s.ownFatal) then none
  else some { s with mgmt := { s.mgmt with
    takeover := some s.mgmt.lastBeat
    deadHw := s.mgmt.deadHw ++ [s.mgmt.active]
    active := s.otherHw
    standbyOk := false
    mirror := []
    lastBeat := s.gc } }

def execHeartbeatTimeout (s : State) : Host.Outcome State Fault Refusal := attempt s (heartbeatTimeout s)

/-- TAKEOVER_COMPLETE at H + 3,780: the new active die serves, and FAILOVER is raised and recorded. -/
def takeoverComplete (s : State) : Option State :=
  match s.mgmt.takeover with
  | none => none
  | some h =>
    if s.gc < h + 3780 then none
    else
      let s := { s with mgmt := { s.mgmt with takeover := none } }
      let s := allBlks.foldl (fun s b => s.setIrq b 14) s
      some (s.takeEvent { mkErr 0 4 s.otherHw 0xFF 0x0502 with stamp := s.gc, detail := BitVec.ofNat 64 h })

def execTakeoverComplete (s : State) : Host.Outcome State Fault Refusal := attempt s (takeoverComplete s)

-- The mirror (R434, log 47)

/-- MIRROR_RECORD: the record of Lysby's next change reaches the standby. -/
def mirrorRecord (s : State) : Option State :=
  if !s.mgmt.standbyOk || !s.lysbyUp then none
  else some { s with mgmt := { s.mgmt with mirror := s.mgmt.mirror ++ [s.gc] } }

def execMirrorRecord (s : State) : Host.Outcome State Fault Refusal := attempt s (mirrorRecord s)

/-- MIRROR_ACK: the oldest record is acknowledged, within 40 ticks. -/
def mirrorAck (s : State) : Option State :=
  match s.mgmt.mirror with
  | [] => none
  | t :: l => if t + 40 < s.gc then none else some { s with mgmt := { s.mgmt with mirror := l } }

def execMirrorAck (s : State) : Host.Outcome State Fault Refusal := attempt s (mirrorAck s)

/-- STANDBY_FAILURE: check 1 heartbeat, 2 mirror acknowledgement, 3 self-test. The second has a record that is overdue. -/
def standbyFailure (check : Nat) (s : State) : Option State :=
  if !s.mgmt.standbyOk || !s.lysbyUp || check == 0 || (check == 2 && !s.mgmt.mirror.any fun t => t + 40 < s.gc) then none
  else
    let h := s.otherHw
    let s := { s with mgmt := { s.mgmt with standbyOk := false, mirror := [], deadHw := s.mgmt.deadHw ++ [h] } }
    some (s.takeEvent { mkErr 0 4 h 0xFF 0x0501 with stamp := s.gc, detail := BitVec.ofNat 64 check })

def execStandbyFailure (check : Fin 4) (s : State) : Host.Outcome State Fault Refusal :=
  attempt s (standbyFailure check.val s)

/-- HEARTWOOD_SILENCE: no die is left to beat for 1,280 ticks. The islands assert FAULT_N; the domains keep their power. -/
def heartwoodSilence (s : State) : Option State :=
  if !s.mgmt.supply || !s.mgmt.booted || s.mgmt.standbyOk || s.gc < s.mgmt.lastBeat + 1280 then none
  else some { s with mgmt := { s.mgmt with faultN := true, deadHw := [0, 1] } }

def execHeartwoodSilence (s : State) : Host.Outcome State Fault Refusal := attempt s (heartwoodSilence s)

-- I3C (R452 to R455)

def State.i3c (s : State) (h : Nat) : I3cSt := s.mgmt.i3c.getD h ⟨none, 256, 256, 0, 0⟩
def State.setI3c (s : State) (h : Nat) (c : I3cSt) : State := { s with mgmt := { s.mgmt with i3c := s.mgmt.i3c.set h c } }

/-- Provisioned ID of a heartwood die (Table 16-13). -/
def State.i3cPid (s : State) (h : Nat) : Nat :=
  Config.mipiId.toNat * 2 ^ 33 + 0x4A64 * 2 ^ 16 + s.mgmt.slot % 8 * 2 ^ 13 + h % 2 * 2 ^ 12 + s.mgmt.serial.toNat % 2 ^ 12

def i3cBcr : Nat := 0x06
def i3cDcr : Nat := 0

/-- A port that has an address answers a command code. -/
def State.i3cOn (s : State) (h : Nat) : Bool := s.hwAlive h && (s.i3c h).addr.isSome

/-- ENTDAA: the port takes `addr` when its provisioned ID is lower than those of the `others` that arbitrate. -/
def entdaa (h : Nat) (others : List Nat) (addr : Nat) (s : State) : Option State :=
  if !s.hwAlive h || (s.i3c h).addr.isSome then none
  else if others.all fun o => s.i3cPid h < o then some (s.setI3c h { s.i3c h with addr := some addr })
  else none

def execEntdaa (h : Fin 2) (others : List Nat) (addr : BitVec 7) (s : State) : Host.Outcome State Fault Refusal :=
  attempt s (entdaa h.val others addr.toNat s)

def rstdaa (h : Nat) (s : State) : Option State :=
  if s.hwAlive h then some (s.setI3c h { s.i3c h with addr := none }) else none

def execRstdaa (h : Fin 2) (s : State) : Host.Outcome State Fault Refusal := attempt s (rstdaa h.val s)

/-- SETMWL: lengths above 256 B are not reached (R455). -/
def setmwl (h n : Nat) (s : State) : Option State :=
  if s.i3cOn h then some (s.setI3c h { s.i3c h with mwl := min n 256 }) else none

def execSetmwl (h : Fin 2) (n : Nat) (s : State) : Host.Outcome State Fault Refusal := attempt s (setmwl h.val n s)

def setmrl (h n : Nat) (s : State) : Option State :=
  if s.i3cOn h then some (s.setI3c h { s.i3c h with mrl := min n 256 }) else none

def execSetmrl (h : Fin 2) (n : Nat) (s : State) : Host.Outcome State Fault Refusal := attempt s (setmrl h.val n s)

/-- GETPID returns the six bytes of the provisioned ID, the highest first. -/
def getpid (h : Nat) (s : State) : Option State :=
  if s.i3cOn h then some (s.emit (.bytes (natLe 6 (s.i3cPid h)).reverse)) else none

def execGetpid (h : Fin 2) (s : State) : Host.Outcome State Fault Refusal := attempt s (getpid h.val s)

def getbcr (h : Nat) (s : State) : Option State := if s.i3cOn h then some (s.emit (.bytes (natLe 1 i3cBcr))) else none

def execGetbcr (h : Fin 2) (s : State) : Host.Outcome State Fault Refusal := attempt s (getbcr h.val s)

def getdcr (h : Nat) (s : State) : Option State := if s.i3cOn h then some (s.emit (.bytes (natLe 1 i3cDcr))) else none

def execGetdcr (h : Fin 2) (s : State) : Host.Outcome State Fault Refusal := attempt s (getdcr h.val s)

/-- GETSTATUS: two bytes whose low nibble tells of a pending interrupt (PRESUMED, log 48). -/
def getstatus (h : Nat) (s : State) : Option State :=
  if s.i3cOn h then
    some (s.emit (.bytes [0, BitVec.ofNat 8 (boolNat (h == s.mgmt.active && !s.mgmt.ibi.isEmpty))]))
  else none

def execGetstatus (h : Fin 2) (s : State) : Host.Outcome State Fault Refusal := attempt s (getstatus h.val s)

def enec (h : Nat) (events : Byte) (s : State) : Option State :=
  if s.i3cOn h then some (s.setI3c h { s.i3c h with events := (BitVec.ofNat 8 (s.i3c h).events ||| events).toNat }) else none

def execEnec (h : Fin 2) (events : Byte) (s : State) : Host.Outcome State Fault Refusal := attempt s (enec h.val events s)

def disec (h : Nat) (events : Byte) (s : State) : Option State :=
  if s.i3cOn h then some (s.setI3c h { s.i3c h with events := (BitVec.ofNat 8 (s.i3c h).events &&& ~~~events).toNat }) else none

def execDisec (h : Fin 2) (events : Byte) (s : State) : Host.Outcome State Fault Refusal := attempt s (disec h.val events s)

/-- IBI_RETRY: the bus is free, and the oldest pending request is made again. -/
def ibiRetry (s : State) : Option State :=
  match s.mgmt.ibi with
  | y :: _ => if s.hwAlive s.mgmt.active && s.ibiReady then some (s.emit (.ibi y)) else none
  | [] => none

def execIbiRetry (s : State) : Host.Outcome State Fault Refusal := attempt s (ibiRetry s)

/-- The whole words of a private write take effect, ascending; in command slots each byte does. -/
def State.i3cStore (s : State) (off : Nat) (data : List Byte) : State :=
  let last := off + data.length
  ((linesBy8 off last).foldl (fun s o =>
    let given := (List.range 8).filter fun i => decide (off ≤ o + i) && decide (o + i < last)
    let byte (i : Nat) : Byte := data.getD (o + i - off) 0
    if given.length == 8 then s.mbxWrite .i3c (o % 0x10000) (BitVec.ofNat 64 (leNat ((List.range 8).map byte)))
    else if 0x2000 ≤ o then
      given.foldl (fun s i =>
        let w := s.mbxRead .i3c (o % 0x10000) false
        s.mbxPlain .i3c (o % 0x10000) (setFld w (8 * i) 8 (byte i).toNat)) s
    else s) s)
where
  /-- The 8-aligned offsets from `a` to `b`. -/
  linesBy8 (a b : Nat) : List Nat := (List.range ((b + 7) / 8 - a / 8)).map fun i => (a / 8 + i) * 8

/-- I3C_PRIVATE_WRITE: a 2-byte offset, and data from it on at the active die. -/
def privateWrite (h : Nat) (bytes : List Byte) (s : State) : Option State :=
  let c := s.i3c h
  let bytes := bytes.take c.mwl
  if !s.i3cOn h || bytes.length < 2 then none
  else
    let off := leNat (bytes.take 2)
    let s := s.setI3c h { c with off := off }
    some (if h == s.mgmt.active then s.i3cStore off (bytes.drop 2) else s)

def execI3cPrivateWrite (h : Fin 2) (bytes : List Byte) (s : State) : Host.Outcome State Fault Refusal :=
  attempt s (privateWrite h.val bytes s)

/-- I3C_PRIVATE_READ from the last offset. The standby die answers reads of page 0 alone, and takes nothing. -/
def privateRead (h n : Nat) (s : State) : Option State :=
  let c := s.i3c h
  let n := min n c.mrl
  if !s.i3cOn h then none
  else
    let bs := s.mbxView .i3c c.off n
    if h == s.mgmt.active then
      (let hit := (0x18 + 0x10000 - c.off) % 0x10000 < n
       some ((if hit then s.irqTake .i3c else s).emit (.bytes bs)))
    else if c.off + n ≤ 0x1000 then some (s.emit (.bytes bs))
    else none

def execI3cPrivateRead (h : Fin 2) (n : Nat) (s : State) : Host.Outcome State Fault Refusal :=
  attempt s (privateRead h.val n s)

end Sys2Proof.Machine
end

