-- ==== Sys2Proof/Machine/Lysby.lean ====
section
/-! DEFINITION. How Lysby takes a command and answers it: the order of checks (R439), rights (Tables 16-2 and 16-3), the
rules of scope and payload length (R473, R474), BUSY, PENDING and acceptance (R475 to R478). -/

namespace Sys2Proof.Machine

/-- Rights classes (Table 16-3). -/
inductive RightsCls where
  | admin | job | fabric | power | service | read
deriving DecidableEq, Repr

/-- Scope of a command: partition, device, or as its DEV bit gives. -/
inductive Scope where
  | part | dev | either
deriving DecidableEq, Repr

/-- A row of the tables of chapter 17: code, scope, rights class of each scope, PLEN. -/
structure CmdRow where
  code : Nat
  scope : Scope
  cls : RightsCls
  devCls : RightsCls
  plen : Nat
deriving DecidableEq, Repr

/-- What an accepted command writes as its COMMAND entry (R426): nothing, an entry without effect window, or a latched
effect (R477). -/
inductive Note where
  | none | plain | latched | window (w : Option Nat)
deriving DecidableEq, Repr

/-- Outcome of a command's own checks and execution (R439 items 3 to 6, R503). -/
inductive Ans where
  | rights
  | refused (state : Nat) (blocked : Option Nat)
  | busy
  | bad (result : List Byte)
  | failed (reason : Nat) (s : State)
  | ok (n : Note) (result : List Byte) (s : State)
  | pend (n : Note) (data : List Nat) (image : Option JobImage) (slot : Option PlateSlot) (s : State)

-- Form (Table 16-8, R473, R474)

def entBad (r : CmdRow) (e : BitVec 512) : Bool :=
  fld e 36 4 != 0 || fld e 46 18 != 0 || 56 < entPlen e || fld e (64 + 8 * entPlen e) 512 != 0 || entPlen e != r.plen
    || (match r.scope with
      | .part => entDev e
      | .dev => !entDev e || entPart e != 0
      | .either => entDev e && entPart e != 0)

def classOf (r : CmdRow) (e : BitVec 512) : RightsCls := if entDev e then r.devCls else r.cls

-- Rights (Table 16-2)

/-- The requester of a pair holds a class for the command's target. -/
def mayAsk (b : Blk) (k : Nat) (c : RightsCls) (e : BitVec 512) : Bool :=
  match b with
  | .pf => k < 4 || [RightsCls.job, .fabric, .read].contains c
  | .vf n => (c == .job || c == .read) && !entDev e && entPart e == n.val
  | .i3c => [RightsCls.power, .service, .fabric, .read].contains c

-- States (R450, R451, R475)

/-- The lowest partition whose state is not among those given. -/
def State.blocker (s : State) (ok : List Nat) : Option Nat := (List.range 8).find? fun p => !ok.contains (s.part p).state

def idleStates : List Nat := [2, 15]
def jobStates : List Nat := [3, 4, 5, 6, 7]
def activeStates : List Nat := [4, 5, 6]
/-- Every partition state but ARMED, RUNNING and HELD. -/
def restStates : List Nat := [2, 3, 7, 15]

/-- The device is in one of the states given, or the command is refused. -/
def State.inDev (s : State) (l : List Nat) (k : Ans) : Ans :=
  if l.contains s.mgmt.devState then k else .refused s.mgmt.devState none

/-- Every partition is in one of the states given (R451). -/
def State.allIn (s : State) (l : List Nat) (k : Ans) : Ans :=
  match s.blocker l with
  | none => k
  | some p => .refused (s.part p).state (some p)

/-- Partition p is in one of the states given. -/
def State.partIn (s : State) (p : Nat) (l : List Nat) (k : Ans) : Ans :=
  if l.contains (s.part p).state then k else .refused (s.part p).state none

/-- Partition p is not in a replay (R430). -/
def State.notReplay (s : State) (p : Nat) (k : Ans) : Ans :=
  if (s.part p).replay.isSome then .refused (s.part p).state none else k

def Ans.check (b : Bool) (k : Ans) : Ans := if b then k else .bad []

-- BUSY (R439 item 4, log 50)

/-- Commands of one code and target of which several may be PENDING, or which look for their own unit. -/
def severalPend : List Nat := [0x0103, 0x0403, 0x0404, 0x0601, 0x0602, 0x0901, 0x0903, 0x0905]
/-- Device commands that hold the whole device while they are PENDING: start, stop, plate apply, return preparation. -/
def holdsDevice : List Nat := [0x0101, 0x0102, 0x0402, 0x0A08]
/-- Commands that hold their partition while they are PENDING: load, unload, export, import. -/
def holdsPart : List Nat := [0x0201, 0x0202, 0x0803, 0x0804]
/-- Commands that need the whole partition. -/
def needsPart : List Nat := [0x0201, 0x0203, 0x0205, 0x0801, 0x0802, 0x0803, 0x0804]
/-- Device commands that need every partition idle. -/
def needsIdle : List Nat := [0x0102, 0x0402, 0x0A01]

def State.busyWith (s : State) (e : BitVec 512) (c : RightsCls) : Bool :=
  let code := entCode e
  code != 0x0103 && s.mgmt.cmds.any fun d =>
    let dc := entCode d.entry
    let same := entDev d.entry == entDev e && entPart d.entry == entPart e
    (dc == code && same && !severalPend.contains code)
      || (c != .read && holdsDevice.contains dc && code != 0x0107)
      || (holdsPart.contains dc && ((same && needsPart.contains code) || needsIdle.contains code))

-- Answers

/-- A command is answered in PENDING and owes its final response. -/
def State.pend (s : State) (b : Blk) (k : Nat) (e : BitVec 512) (data : List Nat) (image : Option JobImage)
    (slot : Option PlateSlot) : State :=
  let c : PendCmd := ⟨s.mgmt.nextCmd, b, k, e, s.gc, data, image, slot⟩
  let s := { s with mgmt := { s.mgmt with cmds := s.mgmt.cmds ++ [c], nextCmd := s.mgmt.nextCmd + 1 } }
  s.putResponse b k (rspBytes e false stPending (s.entState e) none s.gc [])

/-- The COMMAND entry of an accepted command. -/
def State.noteCmd (s : State) (n : Note) (b : Blk) (k : Nat) (e : BitVec 512) (status : Nat) : State :=
  if entDev e then s
  else match n with
    | .none => s
    | .plain => s.journalCommand b k (entPart e) e status none
    | .latched => s.latch b k (entPart e) e
    | .window w => s.journalCommand b k (entPart e) e status w

/-- A sealed part executes READ commands and device.reset alone (R549). -/
def State.sealedAgainst (s : State) (c : RightsCls) (code : Nat) : Bool := s.mgmt.sealed && c != .read && code != 0x0103

/-- The outcome of a taken command. -/
def State.answerCmd (s : State) (c : RightsCls) (b : Blk) (k : Nat) (e : BitVec 512) (a : Ans) : State :=
  let refuse (st : Nat) (res : List Byte) := s.final b k e st s.gc res
  match a with
  | .rights => refuse stRights []
  | .refused st blocked => s.putResponse b k (rspBytes e true stState st blocked s.gc [])
  | .busy => refuse stBusy []
  | .bad res => refuse stBadArgs res
  | .failed reason s' =>
    if s.sealedAgainst c (entCode e) then refuse stFailed (failResult 8) else s'.final b k e stFailed s.gc (failResult reason)
  | .ok n res s' =>
    if s.sealedAgainst c (entCode e) then refuse stFailed (failResult 8)
    else (s'.noteCmd n b k e stOk).final b k e stOk s.gc res
  | .pend n data image slot s' =>
    if s.sealedAgainst c (entCode e) then refuse stFailed (failResult 8)
    else (s'.noteCmd n b k e stPending).pend b k e data image slot

/-- The head entry of a command ring. -/
def State.headEntry (s : State) (b : Blk) (k : Nat) : BitVec 512 := s.cmdEntry b k (s.cmdCons b k)

/-- A taken command that is not of class READ counts as work for package sleep (R511). -/
def State.worked (s : State) (c : RightsCls) : State :=
  if c == .read then s else { s with mgmt := { s.mgmt with lastWork := s.gc } }

/-- An accepted command that is not of class READ ends package sleep, but for stop and reset (R511). -/
def State.wakeFor (s : State) (r : CmdRow) (e : BitVec 512) : State :=
  if classOf r e == .read || r.code == 0x0102 || r.code == 0x0103 then s else s.endPackageSleep

/-- A VF whose partition is NONE. -/
def State.noPart (s : State) (b : Blk) : Bool := match b with | .vf n => (s.part n.val).state == 15 | _ => false

/-- Checks 1 and 2, the rules common to all commands, and then the command's own. -/
def State.runCmd (s : State) (r : CmdRow) (b : Blk) (k : Nat) (e : BitVec 512) (body : State → BitVec 512 → Ans) : State :=
  let c := classOf r e
  let s := s.worked c
  let a : Ans :=
    if entBad r e then .bad []
    else if s.noPart b then .refused 15 none
    else if !mayAsk b k c e then .rights
    else if s.mgmt.devState == 9 && c != .read && r.code != 0x0103 then .refused 9 none
    else if !entDev e && c != .read && s.mgmt.devState != 2 then .refused s.mgmt.devState none
    else body (s.wakeFor r e) e
  s.answerCmd c b k e a

/-- A row of chapter 17 runs: Lysby takes the head entry of pair k of block b when its turn has come and its CODE is the
row's (R440). -/
def lysby (r : CmdRow) (b : Blk) (k : Nat) (body : State → BitVec 512 → Ans) (s : State) : Option State :=
  let e := s.headEntry b k
  if !s.mayTake || s.nextTake != some (b, k) || entCode e != r.code then none
  else some ((s.takeHead b k).runCmd r b k e body)

/-- The BUSY check of a command, and then the rest. -/
def State.unlessBusy (s : State) (e : BitVec 512) (c : RightsCls) (k : Ans) : Ans := if s.busyWith e c then .busy else k

end Sys2Proof.Machine
end

