-- ==== Sys2Proof/Machine/JobEnd.lean ====
section
/-! DEFINITION. What a partition gives up when its job ends (R485): requests, operations, cells, ledger entries, journal
and doorbells. -/

namespace Sys2Proof.Machine

/-- A die of partition p. -/
def State.dieIn (s : State) (p d : Nat) : Bool := (s.diesOf p).contains d

/-- The enabled pool regions of partition p, as memory die and region. -/
def State.regionsOf (s : State) (p : Nat) : List (Nat × Nat) :=
  ((List.range 12).map fun m => (below 64 fun r => s.cfgF (regA m r) 0 1 == 1 && s.cfgF (regA m r) 1 3 == p).map fun r =>
    (m, r)).flatten

/-- The engines of partition p hold nothing of a job: streams IDLE, no event, access, move or operation of theirs left. -/
def State.clearEngines (s : State) (p : Nat) : State :=
  let mine (d : Nat) : Bool := s.dieIn p d
  let inSt (i : Nat) : Bool := mine (ixDie i)
  { s with
    eng := { s.eng with
      streams := s.eng.streams.filter fun x => !inSt x.1
      events := s.eng.events.filter fun e => !mine e.die
      banks := s.eng.banks.filter fun x => !mine (x.1 / 4)
      held := s.eng.held.filter fun h => match h.stream with | some i => !inSt i | none => true }
    mv := { s.mv with chans := s.mv.chans.filter fun x => !mine (x.1 / 128) }
    xch := { s.xch with
      ops := s.xch.ops.filter fun o => !mine o.die
      buf := s.xch.buf.filter fun x => !mine x.die
      waits := s.xch.waits.filter fun w => !(s.xch.ops.any fun o => o.id == w.op && mine o.die) }
    ce := { s.ce with
      ops := s.ce.ops.filter fun o => !mine o.die
      buf := s.ce.buf.filter fun x => !mine x.die
      waits := s.ce.waits.filter fun w => !(s.ce.ops.any fun o => o.id == w.op && mine o.die) } }

/-- Ledger entries of partition p in use, and what is kept of its segments, are released. -/
def State.clearLedger (s : State) (p : Part) : State :=
  let r := s.ledgerRange (some p)
  let inP (a : Nat) : Bool := s.inPart p.val a 64
  { s with xch := { s.xch with
      ledger := s.xch.ledger.filter fun x => x.1 < r.1 || decide (r.1 + r.2 ≤ x.1)
      slices := s.xch.slices.filter fun x => !inP x.1
      cells := s.xch.cells.filter fun x => !inP x.1 } }

/-- Every pending doorbell of partition p is cleared (R472). -/
def State.clearBells (s : State) (p : Nat) : State := s.setMbxF (bar4Addr p 0x1080) 0 16 0

/-- The journal closes. -/
def State.closeJournal (s : State) (p : Nat) : State := s.setMbxF (bar4Addr p 0x20) 0 2 0

/-- The partition's job ends (R485): steps 1, 3 and 4 of R355, every cell and ledger entry released, the journal closed,
and the partition READY. -/
def State.dropJob (s : State) (p : Part) : State :=
  let s := s.tearContexts p.val
  let s := (s.tearRequests p.val).1
  let s := s.clearEngines p.val
  let s := (s.regionsOf p.val).foldl (fun s x => s.formatRegion x.1 x.2) s
  let s := s.clearLedger p
  let s := (s.closeJournal p.val).clearBells p.val
  let t := s.part p.val
  s.setPart p.val { PartSt.init with state := 2, plan := t.plan, cap := t.cap, capNext := t.capNext }

-- Whole-device power (R461, R479, R480)

/-- Every domain in the list starts to go OFF. -/
def State.disableAll (s : State) (l : List Nat) : State := l.foldl (fun s k => s.disable k .off) s

/-- Every transition of the domains in the list completes. -/
def State.settleAll (s : State) (l : List Nat) : State := l.foldl State.settleDom s

-- Grafts that end (R540, R543)

/-- The domains of physical compute die x: the die's and its cores'. -/
def dieDomains (x : Nat) : List Nat := (136 + x) :: (List.range 4).map fun i => 4 * x + i

def State.setGrafts (s : State) (l : List Graft) : State := { s with mgmt := { s.mgmt with grafts := l } }

/-- The graft of logical die d. -/
def State.graftOf (s : State) (d : Nat) : Option Graft := s.mgmt.grafts.find? fun g => g.die == d

/-- The graft of die d is abandoned: the spare's domains go OFF, and it is in the coppice as before. -/
def State.dropGraft (s : State) (d : Nat) : State :=
  match s.graftOf d with
  | some g => (s.disableAll (dieDomains g.spare)).setGrafts (s.mgmt.grafts.filter fun h => h.die != d)
  | none => s

/-- A graft command of die d has answered PENDING. -/
def State.graftAwaits (s : State) (code d : Nat) : Bool :=
  s.mgmt.cmds.any fun c => entCode c.entry == code && payF c.entry 0 1 == d

/-- Grafts whose command has ended with the job (R478): a preparation is abandoned, a commit leaves its graft prepared. -/
def State.dropOrphans (s : State) : State :=
  let s := (s.mgmt.grafts.filter fun g => g.phase == 1 && !s.graftAwaits 0x0601 g.die).foldl (fun s g => s.dropGraft g.die) s
  s.setGrafts (s.mgmt.grafts.map fun g =>
    if (g.phase == 3 || g.phase == 4) && !s.graftAwaits 0x0602 g.die then { g with phase := 2, count := 0, agreed := 0 } else g)

end Sys2Proof.Machine
end

