-- ==== Sys2Proof/Machine/Device.lean ====
section
/-! DEFINITION. Device commands (Table 17-2): start, stop, reset, identity, measurement, status, cap and firmware commit. -/

namespace Sys2Proof.Machine

def devRow (code plen : Nat) (c : RightsCls) : CmdRow := ⟨code, .dev, c, c, plen⟩

-- Start (R461, R462)

/-- `device.start`: without main power it fails at once (R580); without a valid plate it fails when it completes. -/
def startBody (s : State) (e : BitVec 512) : Ans :=
  s.inDev [1] <| s.unlessBusy e .power <|
    if !s.mgmt.mainGood then .failed 7 s
    else match s.bootPlate with
      | none => .pend .none [0] none none s
      | some (x, slot) =>
        let s := s.applyPlate x slot
        .pend .none [1] none none (s.readyKeys.foldl State.enable s)

def deviceStart (b : Blk) (k : Nat) (s : State) : Option State := lysby (devRow 0x0101 0 .power) b k startBody s

def execDeviceStart (b : Blk) (k : Fin 12) (s : State) : Host.Outcome State Fault Refusal :=
  attempt s (deviceStart b k.val s)

/-- A compute die that fails its start test is held off with a record. -/
def State.failDie (s : State) (x : Nat) : State :=
  let s := { s with mgmt := { s.mgmt with failedDies := s.mgmt.failedDies ++ [x] } }
  let s := ((List.range 4).map fun i => 4 * x + i).foldl State.cutOff s
  let s := s.cutOff (136 + x)
  let l := (below 32 fun d => s.physDie d == x)
  s.raise { mkErr 2 0 x 0xFF 0x0506 with logical := l.headD 0xFFFF }

/-- The start completes: `failed` names the physical compute dies, and as 34 and up the stacks, that fail. -/
def completeStart (c : PendCmd) (failed : List Nat) (s : State) : Option State :=
  if c.data.headD 0 == 0 then some (s.finish c stFailed (failResult 8))
  else
    let s := (failed.filter fun x => decide (x < 34) && (below 32 fun d => s.physDie d == x) != []).foldl State.failDie s
    let s := (failed.filter fun x => 34 ≤ x && x < 46 && !s.retired (x - 34)).foldl
      (fun s x => s.retireStack (x - 34) 1 0xFF 0xFF) s
    let keys := s.readyKeys
    let s := (keys.foldl State.enable s).settleAll keys
    let s := { s with mgmt := { s.mgmt with devState := 2, asleep := false, aged := none } }
    some (s.finish c stOk [])

-- Stop and reset (R479, R480)

def stopBody (s : State) (e : BitVec 512) : Ans :=
  s.inDev [2] <| s.allIn idleStates <| s.unlessBusy e .power <| .pend .none [] none none (s.disableAll switched)

def deviceStop (b : Blk) (k : Nat) (s : State) : Option State := lysby (devRow 0x0102 0 .power) b k stopBody s

def execDeviceStop (b : Blk) (k : Fin 12) (s : State) : Host.Outcome State Fault Refusal := attempt s (deviceStop b k.val s)

def completeStop (c : PendCmd) (s : State) : Option State :=
  let s := s.settleAll switched
  let s := { s with mgmt := { s.mgmt with devState := 1, asleep := false } }
  some (s.finish c stOk [])

/-- `device.reset`: pending commands end, active partitions are torn down, and every domain starts to go OFF. -/
def State.startReset (s : State) : State :=
  let s := (s.endCmds (fun _ => true) 1).setGrafts []
  let s := (s.configured.filter fun p => activeStates.contains (s.part p.val).state).foldl (fun s p => (s.tearDown p).1) s
  let s := (s.configured.filter fun p => jobStates.contains (s.part p.val).state).foldl State.dropJob s
  s.disableAll switched

def resetBody (s : State) (_ : BitVec 512) : Ans :=
  if s.mgmt.devState == 0 then .refused 0 none
  else .pend .none [] none none s.startReset

def deviceReset (b : Blk) (k : Nat) (s : State) : Option State := lysby (devRow 0x0103 0 .power) b k resetBody s

def execDeviceReset (b : Blk) (k : Fin 12) (s : State) : Host.Outcome State Fault Refusal := attempt s (deviceReset b k.val s)

/-- The reset completes at HEARTWOOD: FAULT_N is released (R583) and TRIPPED clears (Table 18-6). -/
def completeReset (c : PendCmd) (s : State) : Option State :=
  let s := s.settleAll switched
  let s := { s with mgmt := { s.mgmt with devState := 1, asleep := false, faultN := false } }
  some ((s.setCfgF (hwReg 0x3000) 39 1 0).finish c stOk [])

-- Reports

/-- Bits of a list of numbers below n. -/
def bitSet (l : List Nat) : Nat := l.foldl (fun a x => a ||| 2 ^ x) 0

/-- The FACTORY section in force: that of the plate, or of the one that would start. -/
def State.factory (s : State) : Option Plate :=
  match s.mgmt.plate with
  | some p => some p
  | none => s.bootPlate.map fun x => x.1.plate

/-- The result of `device.identity`. -/
def State.identity (s : State) : List Byte :=
  natLe 1 s.order ++ natLe 1 s.mgmt.stepping ++ natLe 1 1 ++ natLe 1 s.nCores ++ natLe 4 0
    ++ natLe 8 s.mgmt.serial.toNat ++ natLe 4 s.mgmt.lysbyVersion ++ natLe 4 s.mgmt.plateSeq
    ++ natLe 5 (bitSet (((s.factory.map fun p => p.fused).getD []).map Fin.val)) ++ natLe 1 s.mgmt.coppice.length
    ++ natLe 2 (bitSet (below 12 s.retired)) ++ natLe 1 s.mgmt.bootSlot ++ natLe 1 (2 - s.mgmt.deadHw.length)

def deviceIdentity (b : Blk) (k : Nat) (s : State) : Option State :=
  lysby (devRow 0x0104 0 .read) b k (fun s _ => .ok .none s.identity s) s

def execDeviceIdentity (b : Blk) (k : Fin 12) (s : State) : Host.Outcome State Fault Refusal :=
  attempt s (deviceIdentity b k.val s)

def measureBody (s : State) (e : BitVec 512) : Ans :=
  Ans.check (payF e 0 1 < 8) <| .ok .none (s.mgmt.meas.getD (payF e 0 1) []) s

def deviceMeasure (b : Blk) (k : Nat) (s : State) : Option State := lysby (devRow 0x0105 1 .read) b k measureBody s

def execDeviceMeasure (b : Blk) (k : Fin 12) (s : State) : Host.Outcome State Fault Refusal :=
  attempt s (deviceMeasure b k.val s)

/-- Overlays in force, of a scope (none: all). -/
def State.overlaysIn (s : State) (hit : Overlay → Bool) : Nat :=
  (s.mgmt.overlays.filter fun o => match o with | some o => o.phase != 0 && hit o | none => false).length

/-- The result of `device.status`. -/
def State.status (s : State) : List Byte :=
  let lost := (s.cfgW (hwReg 0x5008)).toNat + (s.cfgW (hwReg 0x5010)).toNat + (s.cfgW (hwReg 0x5018)).toNat
  natLe 1 s.mgmt.devState ++ natLe 1 s.gcState ++ natLe 1 s.mgmt.active ++ natLe 1 (boolNat s.mgmt.standbyOk)
    ++ natLe 1 (s.overlaysIn fun _ => true) ++ natLe 3 0
    ++ ((List.range 8).map fun p => natLe 1 (s.part p).state).flatten
    ++ natLe 8 s.gc ++ natLe 8 (s.cfgW (hwReg 0x5000)).toNat ++ natLe 8 lost ++ natLe 2 s.pw.cap

def deviceStatus (b : Blk) (k : Nat) (s : State) : Option State :=
  lysby (devRow 0x0106 0 .read) b k (fun s _ => .ok .none s.status s) s

def execDeviceStatus (b : Blk) (k : Fin 12) (s : State) : Host.Outcome State Fault Refusal :=
  attempt s (deviceStatus b k.val s)

-- Cap and fuses (R481, R482)

/-- The cap is set, and each partition's account takes it at its next B. -/
def State.setCap (s : State) (w : Nat) : State :=
  let s := { s with pw := { s.pw with cap := w } }.setCfgF (hwReg 0x3000) 16 16 w
  s.configured.foldl (fun s p => s.setPart p.val { s.part p.val with capNext := some (w, s.gc) }) s

def capBody (s : State) (e : BitVec 512) : Ans :=
  let w := payF e 0 2
  s.inDev [1, 2, 8] <| s.unlessBusy e .power <|
    Ans.check (w == 0 || decide (400 ≤ w) && decide (w ≤ s.envelope)) <| .ok .none [] (s.setCap w)

def powerCap (b : Blk) (k : Nat) (s : State) : Option State := lysby (devRow 0x0107 2 .power) b k capBody s

def execPowerCap (b : Blk) (k : Fin 12) (s : State) : Host.Outcome State Fault Refusal := attempt s (powerCap b k.val s)

/-- The rollback counter of the image that runs. -/
def State.runningRollback (s : State) : Nat := ((s.mgmt.images[s.mgmt.bootSlot]?).map fun i => i.rollback).getD 0

def commitBody (s : State) (e : BitVec 512) : Ans :=
  let v := payF e 0 1
  s.inDev [1, 2, 8] <| s.unlessBusy e .admin <|
    Ans.check (decide (s.mgmt.fusedMin ≤ v) && decide (v ≤ s.runningRollback)) <|
      .ok .none (natLe 1 v) { s with mgmt := { s.mgmt with fusedMin := v } }

def firmwareCommit (b : Blk) (k : Nat) (s : State) : Option State := lysby (devRow 0x0108 1 .admin) b k commitBody s

def execFirmwareCommit (b : Blk) (k : Fin 12) (s : State) : Host.Outcome State Fault Refusal :=
  attempt s (firmwareCommit b k.val s)

end Sys2Proof.Machine
end

