-- ==== Sys2Proof/Machine/Setup.lean ====
section
/-! DEFINITION. Commands that set the device up: plates and overlays (Table 17-5), node and time (Table 17-6), the service
state, traffic generators, stack retirement and records (Table 17-11). -/

namespace Sys2Proof.Machine

def partRow (code plen : Nat) (c : RightsCls) : CmdRow := ⟨code, .part, c, c, plen⟩

/-- n bytes of HBM from a that the command's requester may name: its partition's, or any for device scope. -/
def State.bufOk (s : State) (e : BitVec 512) (a n : Nat) : Bool :=
  n != 0 && (match homeOf a with | .hbm _ _ => s.mapped a n | _ => false) && (entDev e || s.inPartHbm (entPart e) a n)

-- Plates (R464, R465, R492)

/-- `plate.stage`: the command carries what the plate's bytes hold and whether its signatures verify (log 5). -/
def stageBody (pl : Plate) (sigOk : Bool) (s : State) (e : BitVec 512) : Ans :=
  let a := payF e 0 8
  let n := payF e 8 4
  s.inDev [2, 8] <| s.unlessBusy e .admin <|
    Ans.check (s.bufOk e a n && decide (n ≤ 0x100000) && s.plateOk pl) <|
      if !sigOk then .failed 8 s
      else .pend .none [] none (some ⟨pl, sha384 (s.rd a n), true⟩) s

def plateStage (b : Blk) (k : Nat) (pl : Plate) (sigOk : Bool) (s : State) : Option State :=
  lysby (devRow 0x0401 12 .admin) b k (stageBody pl sigOk) s

def execPlateStage (b : Blk) (k : Fin 12) (pl : Plate) (sigOk : Bool) (s : State) : Host.Outcome State Fault Refusal :=
  attempt s (plateStage b k.val pl sigOk s)

/-- The plate stands in the slot that is not active. -/
def completeStage (c : PendCmd) (s : State) : Option State :=
  match c.slot with
  | none => none
  | some x =>
    let i := 1 - s.mgmt.plateSlot
    let s := { s with mgmt := { s.mgmt with plates := s.mgmt.plates.set i (some x) } }
    some (s.finish c stOk (natLe 1 i ++ natLe 3 0 ++ natLe 4 x.plate.seq))

/-- `plate.apply`: slot 0 A or 1 B; a slot without a good plate fails verification. -/
def applyBody (s : State) (e : BitVec 512) : Ans :=
  let i := payF e 0 1
  s.inDev [2] <| s.allIn idleStates <| s.unlessBusy e .admin <| Ans.check (i < 2) <|
    match s.mgmt.plates[i]? with
    | some (some x) =>
      if !x.good then .failed 8 s else Ans.check (s.plateOk x.plate) <| .pend .none [i] none none s
    | _ => .failed 8 s

def plateApply (b : Blk) (k : Nat) (s : State) : Option State := lysby (devRow 0x0402 1 .admin) b k applyBody s

def execPlateApply (b : Blk) (k : Fin 12) (s : State) : Host.Outcome State Fault Refusal := attempt s (plateApply b k.val s)

/-- The plate is applied in one step; compute dies that its map brings in come ON (R510). -/
def completeApply (c : PendCmd) (s : State) : Option State :=
  let i := c.data.headD 0
  match s.mgmt.plates[i]? with
  | some (some x) =>
    let s := s.applyPlate x i
    let keys := s.readyKeys
    let s := (keys.foldl State.enable s).settleAll keys
    some (s.finish c stOk (natLe 4 x.plate.seq))
  | _ => some (s.finish c stFailed (failResult 8))

-- Overlays (R466 to R468)

/-- An overlay's header and entries as they stand in memory: MAGIC, VERSION, NENT, PART, DEV, zero bits, plate digest. -/
def overlayEntry (bs : List Byte) (i : Nat) : Nat × W64 × W64 :=
  let r := bs.drop (64 + 24 * i)
  (leNat (r.take 8), BitVec.ofNat 64 (leNat ((r.drop 8).take 8)), BitVec.ofNat 64 (leNat ((r.drop 16).take 8)))

/-- The checks of R466 and R467 on an overlay of the named scope. -/
def State.overlayOk (s : State) (scope : Option Nat) (bs : List Byte) : Bool :=
  let h := leNat (bs.take 16)
  let n := bitsAt h 40 16
  decide (bs.length ≤ 16384) && bs.length == 160 + 24 * n && decide (n ≤ 676)
    && bitsAt h 0 32 == 0x5952564F && bitsAt h 32 8 == 1 && bitsAt h 60 68 == 0
    && (bs.drop 16).take 48 == s.mgmt.plateDigest
    && (match scope with
      | some p => bitsAt h 59 1 == 0 && bitsAt h 56 3 == p
      | none => bitsAt h 59 1 == 1 && bitsAt h 56 3 == 0)
    && (List.range n).all fun i =>
      let x := overlayEntry bs i
      let m := s.overlayBits scope x.1
      m != 0 && x.2.1 &&& ~~~(BitVec.ofNat 64 m) == 0

/-- The scope an entry names. -/
def entScope (e : BitVec 512) : Option Nat := if entDev e then none else some (entPart e)

/-- The states in which an overlay of a scope may be applied or removed. -/
def State.overlayState (s : State) (e : BitVec 512) (k : Ans) : Ans :=
  if entDev e then s.inDev [2] <| s.allIn restStates k
  else s.partIn (entPart e) [2, 3, 4, 5, 6, 7] <| s.notReplay (entPart e) k

/-- The window whose opening an overlay command of a partition waits for; none for at once. -/
def State.overlayWindow (s : State) (e : BitVec 512) : Option Nat := if entDev e then none else s.effectWindow (entPart e)

def overlayApplyBody (sigOk : Bool) (s : State) (e : BitVec 512) : Ans :=
  let a := payF e 0 8
  let n := payF e 8 2
  s.overlayState e <|
    match s.mgmt.overlays.findIdx? fun o => o.isNone with
    | none => .refused (s.entState e) none
    | some h =>
      let bs := s.rd a n
      Ans.check (s.bufOk e a n && s.overlayOk (entScope e) bs) <|
        if !sigOk then .failed 8 s
        else
          let digest := sha384 bs
          let o : Overlay := ⟨entScope e, leNat (digest.take 8), digest,
            (List.range (bitsAt (leNat (bs.take 16)) 40 16)).map (overlayEntry bs), 0⟩
          let w := s.overlayWindow e
          .pend (.window w) [h, w.getD 0xFFFFFFFF] none none (s.setOverlay h (some o))

/-- `overlay.apply` takes the lowest free handle; it carries whether the overlay's signature verifies. -/
def overlayApply (b : Blk) (k : Nat) (sigOk : Bool) (s : State) : Option State :=
  lysby ⟨0x0403, .either, .admin, .admin, 10⟩ b k (overlayApplyBody sigOk) s

def execOverlayApply (b : Blk) (k : Fin 12) (sigOk : Bool) (s : State) : Host.Outcome State Fault Refusal :=
  attempt s (overlayApply b k.val sigOk s)

/-- An overlay command is PENDING on a handle. -/
def State.handleBusy (s : State) (h : Nat) : Bool :=
  s.mgmt.cmds.any fun c => (entCode c.entry == 0x0403 || entCode c.entry == 0x0404) && c.data.headD 99 == h

def overlayRemoveBody (s : State) (e : BitVec 512) : Ans :=
  let h := payF e 0 1
  s.overlayState e <|
    if s.handleBusy h then .busy
    else match s.mgmt.overlays[h]? with
      | some (some o) =>
        Ans.check (o.part == entScope e) <|
          (let w := s.overlayWindow e
           .pend (.window w) [h, w.getD 0xFFFFFFFF] none none (s.setOverlay h (some { o with phase := 2 })))
      | _ => .bad []

def overlayRemove (b : Blk) (k : Nat) (s : State) : Option State :=
  lysby ⟨0x0404, .either, .admin, .admin, 1⟩ b k overlayRemoveBody s

def execOverlayRemove (b : Blk) (k : Fin 12) (s : State) : Host.Outcome State Fault Refusal :=
  attempt s (overlayRemove b k.val s)

/-- An overlay command whose effect waits for no boundary (any more): the overlay comes into force, or leaves it. -/
def completeOverlay (c : PendCmd) (s : State) : Option State :=
  if (s.overlayWindow c.entry).isSome then none
  else
    let h := c.data.getD 0 0
    let w := natLe 4 (c.data.getD 1 0)
    if entCode c.entry == 0x0403 then some ((s.overlayOn h).finish c stOk (natLe 1 h ++ natLe 3 0 ++ w))
    else some ((s.overlayOff h).finish c stOk w)

def overlayLine (o : Option Overlay) : List Byte :=
  match o with
  | some o =>
    if o.phase == 0 then List.replicate 12 0
    else natLe 4 (1 + 2 * o.part.getD 0 + 16 * boolNat o.part.isNone) ++ o.digest.take 8
  | none => List.replicate 12 0

def overlayList (b : Blk) (k : Nat) (s : State) : Option State :=
  lysby (devRow 0x0405 0 .read) b k (fun s _ => .ok .none (s.mgmt.overlays.map overlayLine).flatten s) s

def execOverlayList (b : Blk) (k : Fin 12) (s : State) : Host.Outcome State Fault Refusal := attempt s (overlayList b k.val s)

-- Node and time (R456, R494)

def nodeBody (s : State) (e : BitVec 512) : Ans :=
  let n := payF e 0 2
  let v := payF e 2 2
  s.inDev [2] <| s.allIn idleStates <| s.unlessBusy e .fabric <| Ans.check (decide (n < 16384) && decide (v < 4096)) <|
    (let s := ((s.setCfgF (ioCfg 0) 0 14 n).setCfgF (ioCfg 0) 14 1 1).setCfgF (ioCfg 0) 16 12 v
     let held := s.net.heldPorts
     let s := { s with net := { s.net with heldPorts := [] } }
     .ok .none [] (held.foldl State.startPort s))

/-- `node.assign`; ports held DOWN for the device's own node ID train again (R457). -/
def nodeAssign (b : Blk) (k : Nat) (s : State) : Option State := lysby (devRow 0x0501 4 .fabric) b k nodeBody s

def execNodeAssign (b : Blk) (k : Fin 12) (s : State) : Host.Outcome State Fault Refusal := attempt s (nodeAssign b k.val s)

/-- A SOURCE port's MODE fits the role of R411; a root's SOURCE port leads to its grandmaster, on ETH (log 52). -/
def State.sourceOk (s : State) (role p : Nat) : Bool :=
  decide (p < 48) && (if role == 2 then s.portMode p == 1 && s.cfgF (portA p) 2 1 == 1 else s.portMode p == 2)

/-- The TIME register of port p. -/
def timeWord (mode role domain asym : Nat) : W64 :=
  BitVec.ofNat 64 (role + 4 * boolNat (mode == 2) + 2 ^ 8 * domain + 2 ^ 16 * asym)

/-- The SOURCE ports that a `time.source` names, with their ASYM. -/
def sourcesOf (e : BitVec 512) : List (Nat × Nat) :=
  [(payF e 4 1, payF e 8 2), (payF e 5 1, payF e 10 2)].filter fun x => x.1 != 63

/-- The fields of a `time.source` hold legal values. -/
def State.sourcesOk (s : State) (e : BitVec 512) : Bool :=
  decide (payF e 0 1 < 4) && decide (payF e 2 2 < 16384)
    && (sourcesOf e).all fun x => s.sourceOk (payF e 0 1) x.1 && bitsAt (payF e 16 6) x.1 1 == 0

/-- Roles of the ports, root and sources are those of a `time.source`, and the count state starts anew. -/
def State.takeSources (s : State) (e : BitVec 512) : State :=
  let role := payF e 0 1
  let domain := payF e 1 1
  let srcs := sourcesOf e
  let serve := payF e 16 6
  let s := (List.range 48).foldl (fun s p =>
    match srcs.find? fun x => x.1 == p with
    | some x => s.setCfgW (timeA p) (timeWord (s.portMode p) 1 domain x.2)
    | none => s.setCfgW (timeA p) (timeWord (s.portMode p) (2 * bitsAt serve p 1) domain 0)) s
  let s := { s with time := { s.time with
    role := role, root := payF e 2 2, sources := srcs.map Prod.fst, since := s.gc, last := [], run := 0, ptp := [] } }
  let s := (s.setCfgF (hwReg 0x2008) 3 1 (boolNat (role == 1))).setCfgF (hwReg 0x2008) 4 6
    (match srcs with | x :: _ => x.1 | [] => 63)
  if srcs.isEmpty then s.setGcState 0 else if role == 1 then s else s.setGcState 1

def timeBody (s : State) (e : BitVec 512) : Ans :=
  s.inDev [2, 8] <| s.allIn restStates <| s.unlessBusy e .fabric <| Ans.check (s.sourcesOk e) <| .ok .none [] (s.takeSources e)

def timeSource (b : Blk) (k : Nat) (s : State) : Option State := lysby (devRow 0x0502 22 .fabric) b k timeBody s

def execTimeSource (b : Blk) (k : Fin 12) (s : State) : Host.Outcome State Fault Refusal := attempt s (timeSource b k.val s)

/-- The result of `part.query`. -/
def State.partReport (s : State) (p : Nat) : List Byte :=
  let t := s.part p
  let r := s.platePart p
  natLe 1 t.state ++ natLe 1 (s.overlaysIn fun o => o.part == some p) ++ natLe 1 (boolNat (s.jnlOpen p)) ++ natLe 1 0
    ++ natLe 4 ((r.map fun r => r.dies.toNat).getD 0) ++ natLe 8 ((r.map fun r => r.hbm.toNat).getD 0)
    ++ natLe 8 t.tag.toNat ++ natLe 8 t.lc ++ natLe 4 t.stepNo.toNat ++ natLe 4 t.window

def partQuery (b : Blk) (k : Nat) (s : State) : Option State :=
  lysby (partRow 0x0503 0 .read) b k (fun s e => .ok .plain (s.partReport (entPart e)) s) s

def execPartQuery (b : Blk) (k : Fin 12) (s : State) : Host.Outcome State Fault Refusal := attempt s (partQuery b k.val s)

-- Service (R504, R505)

def setDev (v : Nat) (s : State) : State := { s with mgmt := { s.mgmt with devState := v } }

def enterBody (s : State) (e : BitVec 512) : Ans :=
  s.inDev [2] <| s.allIn idleStates <| s.unlessBusy e .service <| .ok .none [] (setDev 8 s)

def serviceEnter (b : Blk) (k : Nat) (s : State) : Option State := lysby (devRow 0x0A01 0 .service) b k enterBody s

def execServiceEnter (b : Blk) (k : Fin 12) (s : State) : Host.Outcome State Fault Refusal :=
  attempt s (serviceEnter b k.val s)

/-- Every run under way stops at its next granule. -/
def State.stopTgens (s : State) : State :=
  (s.svc.tgens.filter fun x => s.cfgF (tgA (x.1 / 64) (x.1 % 64) + 0x30) 0 1 == 1).foldl
    (fun s x => s.setTgen (x.1 / 64) (x.1 % 64) { x.2 with stopping := true }) s

def exitBody (s : State) (e : BitVec 512) : Ans :=
  s.inDev [8] <| s.unlessBusy e .service <| .ok .none [] (setDev 2 s.stopTgens)

def serviceExit (b : Blk) (k : Nat) (s : State) : Option State := lysby (devRow 0x0A02 0 .service) b k exitBody s

def execServiceExit (b : Blk) (k : Fin 12) (s : State) : Host.Outcome State Fault Refusal := attempt s (serviceExit b k.val s)

/-- The units of a `tgen.run` get their settings and start. -/
def State.runTgens (s : State) (e : BitVec 512) : State :=
  let m := payF e 0 1
  (List.range (payF e 2 1 + 1 - payF e 1 1)).foldl (fun s i =>
    let p := payF e 1 1 + i
    let a := tgA m p
    let s := s.setCfgW a (BitVec.ofNat 64 (payF e 8 8 % 2 ^ 20 - payF e 8 8 % 4))
    let s := (s.setCfgF (a + 8) 0 22 (payF e 16 4)).setCfgF (a + 0x10) 0 22 (payF e 20 4)
    let s := ((s.setCfgF (a + 0x18) 0 22 (payF e 24 4)).setCfgF (a + 0x20) 0 32 (payF e 28 4)).setCfgF (a + 0x28) 0 31 (payF e 32 4)
    s.startTgen m p) s

/-- A stack may be tested, its domain ON or not (R290). -/
def State.tgenFree (s : State) (m : Nat) : Bool :=
  !s.retired m && (s.mgmt.devState == 8 || (List.range 8).all fun p => match s.platePart p with
    | some r => fld r.hbm (2 * m) 2 == 0 || !s.hasJob p
    | none => true)

/-- `tgen.run`; a unit that already runs answers BUSY, and a stack whose domain is not ON is waited for (R510). -/
def tgenBody (s : State) (e : BitVec 512) : Ans :=
  let m := payF e 0 1
  let lo := payF e 1 1
  let hi := payF e 2 1
  s.inDev [2, 8] <| if decide (m < 12) && !s.tgenFree m then .refused s.mgmt.devState none
    else s.unlessBusy e .service <|
      if decide (m < 12) && (List.range (hi + 1 - lo)).any fun i => s.cfgF (tgA m (lo + i) + 0x30) 0 1 == 1 then .busy
      else Ans.check (decide (m < 12) && decide (lo ≤ hi) && decide (hi < 64) && payF e 8 8 % 4 == 1
          && payF e 8 8 / 2 ^ 20 == 0) <|
        if s.power (memKey m) == .on then .ok .none [] (s.runTgens e)
        else .pend .none [] none none (s.enable (memKey m))

def tgenRun (b : Blk) (k : Nat) (s : State) : Option State := lysby (devRow 0x0A03 36 .service) b k tgenBody s

def execTgenRun (b : Blk) (k : Fin 12) (s : State) : Host.Outcome State Fault Refusal := attempt s (tgenRun b k.val s)

def completeTgen (c : PendCmd) (s : State) : Option State :=
  if s.power (memKey (payF c.entry 0 1)) == .on then some ((s.runTgens c.entry).finish c stOk []) else none

def tgenReadBody (s : State) (e : BitVec 512) : Ans :=
  let m := payF e 0 1
  let p := payF e 1 1
  s.inDev [2, 8] <| Ans.check (decide (m < 12) && decide (p < 64)) <|
    .ok .none (([0x30, 0x38, 0x40, 0x48].map fun o => natLe 8 (s.cfgW (tgA m p + o)).toNat).flatten) s

def tgenRead (b : Blk) (k : Nat) (s : State) : Option State := lysby (devRow 0x0A04 2 .read) b k tgenReadBody s

def execTgenRead (b : Blk) (k : Fin 12) (s : State) : Host.Outcome State Fault Refusal := attempt s (tgenRead b k.val s)

/-- A record by its number: none when it is not written yet, or overwritten. -/
def State.record (s : State) (n : Nat) : Option (List Byte) :=
  let top := (s.cfgW (hwReg 0x5000)).toNat
  if top ≤ n || n + 16384 < top then none
  else some (natLe 64 (tget (fun _ => (0 : BitVec 512)) s.log.records (n % 16384)).toNat)

/-- A partition-scope `record.read` reaches only the partition's records (R505). -/
def recordBody (s : State) (e : BitVec 512) : Ans :=
  let half := payF e 8 1
  let n : Note := .plain
  Ans.check (half < 2) <|
    match s.record (payF e 0 8) with
    | none => .failed 7 s
    | some bs =>
      let w := leNat (bs.take 1)
      if !entDev e && (bitsAt w 7 1 == 1 || bitsAt w 4 3 != entPart e) then .rights
      else .ok n (if half == 0 then bs.take 48 else bs.drop 48) s

def recordRead (b : Blk) (k : Nat) (s : State) : Option State :=
  lysby ⟨0x0A05, .either, .read, .read, 9⟩ b k recordBody s

def execRecordRead (b : Blk) (k : Fin 12) (s : State) : Host.Outcome State Fault Refusal := attempt s (recordRead b k.val s)

/-- `stack.retire` (R292, cause 5). -/
def retireBody (s : State) (e : BitVec 512) : Ans :=
  let m := payF e 0 1
  s.inDev [8] <| s.unlessBusy e .service <|
    Ans.check (decide (m < 12) && BitVec.ofNat 64 (payF e 8 8) == s.mgmt.serial) <|
      .ok .none [] (if s.retired m then s else s.retireStack m 5 0xFF 0xFF)

def stackRetire (b : Blk) (k : Nat) (s : State) : Option State := lysby (devRow 0x0A07 16 .service) b k retireBody s

def execStackRetire (b : Blk) (k : Fin 12) (s : State) : Host.Outcome State Fault Refusal := attempt s (stackRetire b k.val s)

end Sys2Proof.Machine
end

