-- ==== Sys2Proof/Machine/LoadCheck.lean ====
section
/-! DEFINITION. What `job.load` checks of an image (R160, R186, R203, R247, R277, R360, R387, R421, R470, R488), on the
state that the image's words and bytes would give. -/

namespace Sys2Proof.Machine

-- Windows (R160, R488)

/-- The raw record of window w in the table at `base`. -/
def State.winRaw (s : State) (base w : Nat) : Nat := s.rdN (base + 256 * w) 256

/-- The last window: the first record with LAST set. -/
def State.lastOf (s : State) (base n : Nat) : Option Nat := (List.range n).find? fun w => bitsAt (s.winRaw base w) 34 1 == 1

/-- Every PC of a stream entry table at `a` lies in the partition's HBM, for the partition's streams. -/
def State.tableOk (s : State) (p a : Nat) : Bool := (s.entryPcs p a).all fun x => s.inPartHbm p x.2 64

def State.variantBad (s : State) (p : Nat) (raw n v : Nat) : Bool :=
  let w := bitsAt raw (512 + 384 * v) 384
  let x := parseVariant w
  if n ≤ v then x.valid
  else !x.valid || x.sleepSet == 3 || bitsAt w 6 26 != 0 || bitsAt w 144 240 != 0 || x.entry % 64 != 0 || !s.tableOk p x.entry

def State.windowBad (s : State) (p : Nat) (j : JobImage) (raw w : Nat) : Bool :=
  let n := bitsAt raw 32 2 + 1
  bitsAt raw 0 32 != w || (w == 0 && n != 1) || bitsAt raw 35 2 == 3 || bitsAt raw 37 27 != 0 || bitsAt raw 208 48 != 0
    || bitsAt raw 384 128 != 0 || (bitsAt raw 192 16 != 0 && j.meetSets.length ≤ bitsAt raw 192 16)
    || (List.range 4).any fun v => s.variantBad p raw n v

def mcOff (raw : Nat) : Nat := bitsAt raw 64 64

/-- The window table of a set is in order. -/
def State.tableBad (s : State) (p : Nat) (j : JobImage) (base : Nat) : Bool :=
  match s.lastOf base j.windows with
  | none => true
  | some l =>
    mcOff (s.winRaw base 0) < 256
      || (List.range (l + 1)).any fun w =>
        s.windowBad p j (s.winRaw base w) w || (w != 0 && mcOff (s.winRaw base w) < mcOff (s.winRaw base (w - 1)) + 288)

/-- A set has the window numbers and MC_OFFSET values of set 0. -/
def State.setBad (s : State) (j : JobImage) (base0 base : Nat) : Bool :=
  s.lastOf base0 j.windows != s.lastOf base j.windows
    || match s.lastOf base0 j.windows with
      | some l => (List.range (l + 1)).any fun w => mcOff (s.winRaw base0 w) != mcOff (s.winRaw base w)
      | none => true

-- Bandwidth plans (R277)

/-- Place of physical compute die x in the mesh: column and row (Table 1-2). -/
def diePlace (x : Nat) : Nat × Nat :=
  if x < 5 then (2 + x, 1) else if x < 29 then (1 + (x - 5) % 6, 2 + (x - 5) / 6) else (1 + (x - 29), 6)
def memPlace (m : Nat) : Nat × Nat := if m < 6 then (0, 1 + m) else (7, m - 5)
/-- Lower column and row of an I/O die, and the row at which its traffic enters. -/
def ioCols (i : Nat) : Nat := if i == 0 || i == 3 then 2 else 4
def ioRow (i : Nat) : Nat := if i < 2 then 0 else 7
def ioEntry (i : Nat) : Nat := if i < 2 then 1 else 6
/-- The nearer of an I/O die's two columns to column x, the lower on a tie. -/
def nearCol (i x : Nat) : Nat := if x ≤ ioCols i then ioCols i else ioCols i + 1

abbrev MeshLink := (Nat × Nat) × (Nat × Nat)

/-- Links crossed from a to b: along the row, then along the column (R271). -/
def meshPath (a b : Nat × Nat) : List MeshLink :=
  let xs := if a.1 ≤ b.1 then (List.range (b.1 - a.1)).map fun i => ((a.1 + i, a.2), (a.1 + i + 1, a.2))
    else (List.range (a.1 - b.1)).map fun i => ((a.1 - i, a.2), (a.1 - i - 1, a.2))
  let ys := if a.2 ≤ b.2 then (List.range (b.2 - a.2)).map fun i => ((b.1, a.2 + i), (b.1, a.2 + i + 1))
    else (List.range (a.2 - b.2)).map fun i => ((b.1, a.2 - i), (b.1, a.2 - i - 1))
  xs ++ ys

/-- An end of a route: a place in rows 1 to 6, or an I/O die. -/
inductive MeshEnd where
  | place (x y : Nat)
  | io (i : Nat)
deriving DecidableEq, Repr

/-- The links of a route between a place and another place or an I/O die (R271). -/
def routeLinks : MeshEnd → MeshEnd → List MeshLink
  | .place ax ay, .place bx by_ => meshPath (ax, ay) (bx, by_)
  | .io i, .place bx by_ =>
    let c := nearCol i bx
    ((c, ioRow i), (c, ioEntry i)) :: meshPath (c, ioEntry i) (bx, by_)
  | .place ax ay, .io i =>
    let c := nearCol i ax
    meshPath (ax, ay) (c, ioEntry i) ++ [((c, ioEntry i), (c, ioRow i))]
  | .io _, .io _ => []

/-- An entry of a plan (Table 10-5). -/
structure PlanEnt where
  raw : Nat
  rkind : Nat
  rindex : Nat
  qkind : Nat
  qunit : Nat
  qchan : Nat
  share : Nat
  dirn : Nat
deriving DecidableEq, Repr

def parsePlan (w : Nat) : PlanEnt :=
  ⟨w, bitsAt w 0 3, bitsAt w 3 7, bitsAt w 16 3, bitsAt w 19 7, bitsAt w 26 5, bitsAt w 32 11, bitsAt w 43 2⟩

def State.planEntBad (s : State) (e : PlanEnt) : Bool :=
  bitsAt e.raw 10 6 != 0 || bitsAt e.raw 31 1 != 0 || bitsAt e.raw 45 83 != 0 || 2 < e.rkind || 4 < e.qkind || e.dirn == 3
    || e.share == 0 || 1024 < e.share
    || (if e.rkind == 2 then s.nCores else 12) ≤ e.rindex
    || (match e.qkind with
      | 0 => s.nCores ≤ e.qunit
      | 3 => 3 < e.qunit || e.qchan != 0
      | 4 => 1 < e.qchan || (if e.qchan == 0 then s.nCores else s.nDies) ≤ e.qunit
      | _ => s.nDies ≤ e.qunit || e.qchan != 0)

/-- Two entries of one requester and resource whose directions overlap. -/
def planClash (a b : PlanEnt) : Bool :=
  a.rkind == b.rkind && a.rindex == b.rindex && a.qkind == b.qkind && a.qunit == b.qunit && a.qchan == b.qchan
    && (a.dirn == b.dirn || a.dirn == 2 || b.dirn == 2)

def State.coreEnd (s : State) (c : Nat) : MeshEnd := let q := diePlace (s.physDie (c / 4)); .place q.1 q.2
def State.dieEnd (s : State) (d : Nat) : MeshEnd := let q := diePlace (s.physDie d); .place q.1 q.2
def memEnd (m : Nat) : MeshEnd := let q := memPlace m; .place q.1 q.2

def State.resourceEnd (s : State) (e : PlanEnt) : MeshEnd := if e.rkind == 2 then s.coreEnd e.rindex else memEnd e.rindex
def State.requesterEnd (s : State) (e : PlanEnt) : MeshEnd :=
  match e.qkind with
  | 0 => s.coreEnd e.qunit
  | 3 => .io e.qunit
  | 4 => if e.qchan == 0 then s.coreEnd e.qunit else s.dieEnd e.qunit
  | _ => s.dieEnd e.qunit

/-- Table 10-6: share of pin peak in thousandths, by STACK_CLASS and band. -/
def hbmShare (cls band : Nat) : Nat :=
  (([[350, 338, 316], [752, 727, 679], [835, 808, 754], [880, 851, 795], [940, 909, 849]].getD cls []).getD band 0)

/-- Planned rate of an entry in bytes per tick × 1,024 × 5,000 (R276); q is the fastest pace that may run under the plan. -/
def planRate (hdr band q : Nat) (e : PlanEnt) : Nat :=
  match e.rkind with
  | 0 => e.share * hbmShare (bitsAt hdr (32 + 3 * e.rindex) 3) band * 8192 * 5
  | 1 => e.share * 16384 * 5000
  | _ => e.share * 2048 * clockOf q * 1000

/-- The links an entry loads, each with its rate. -/
def State.planLoads (s : State) (hdr band q : Nat) (e : PlanEnt) : List (MeshLink × Nat) :=
  let a := s.resourceEnd e
  let b := s.requesterEnd e
  let ls := (if e.dirn != 1 then routeLinks a b else []) ++ (if e.dirn != 0 then routeLinks b a else [])
  ls.map fun l => (l, planRate hdr band q e)

/-- The plan at `a` breaks R277 in a window of this band, with q the fastest pace under it. -/
def State.planBad (s : State) (a band q : Nat) : Bool :=
  let hdr := s.rdN a 64
  let n := bitsAt hdr 0 16
  let es := if 4096 < n then [] else (List.range n).map fun i => parsePlan (s.rdN (a + 64 + 16 * i) 16)
  let loads := (es.map fun e => s.planLoads hdr band q e).flatten
  4096 < n || bitsAt hdr 16 8 != 1 || bitsAt hdr 24 8 != 0 || bitsAt hdr 68 444 != 0
    || ((List.range 12).any fun k => 4 < bitsAt hdr (32 + 3 * k) 3)
    || es.any s.planEntBad || !pairsOk planClash es
    || (es.any fun e => 1024 < ((es.filter fun f => f.rkind == e.rkind && f.rindex == e.rindex).map PlanEnt.share).sum)
    || loads.any fun l => 14745 * 1024 * 5000 < ((loads.filter fun k => k.1 == l.1).map Prod.snd).sum

/-- Plans named by the records of every set: address, band, and the fastest compiled pace of the record. -/
def State.plansOf (s : State) (j : JobImage) : List (Nat × Nat × Nat) :=
  (j.sets.map fun base =>
    match s.lastOf base j.windows with
    | none => []
    | some l => ((List.range (l + 1)).map fun w =>
      let raw := s.winRaw base w
      let paces := (List.range (bitsAt raw 32 2 + 1)).map fun v => bitsAt raw (513 + 384 * v) 3
      (bitsAt raw 128 48, bitsAt raw 35 2, paces.foldl min 7)).filter fun x => x.1 != 0).flatten

def State.plansBad (s : State) (j : JobImage) : Bool :=
  let l := s.plansOf j
  l.any fun x => s.planBad x.1 x.2.1 (((l.filter fun y => y.1 == x.1).map fun y => y.2.2).foldl min 7)

-- Pools, segments, groups, parameters

/-- Other well contents that a plate declares on memory die m, and the ledger. -/
def State.takenWells (s : State) (m : Nat) : List (Nat × Nat) :=
  let ledger := if s.ledgerAddr == 0 then [] else [(s.ledgerAddr, 2 ^ 25)]
  ledger ++ match s.mgmt.plate with
    | some pl => (pl.wellReserved.filter fun v => v.1.val == m).map fun v => (Sys2Proof.Machine.wellBase m + v.2.1, v.2.2)
    | none => []

def State.poolsBad (s : State) : Bool := (List.range 12).any fun m => s.poolPlanBad m (s.takenWells m)

/-- The records of the image's segment directory. -/
def State.segsOf (s : State) (j : JobImage) : List Seg := (List.range j.segCount).map fun d => s.seg (j.segBase + 64 * d)

/-- A USED record breaks Table 7-3, R186, R198 or the partition's ledger range (R203). -/
def State.segsBad (s : State) (p : Part) (j : JobImage) : Bool :=
  let l := s.segsOf j
  l.any fun g => g.used && (g.bad (s.ledgerRange (some p))
    || (g.prev != 0xFFFF && !g.masked && match l[g.prev]? with | some h => h.masked | none => false))

/-- The number of halls of a group. -/
def Grp.halls (g : Grp) : Nat := (below g.r fun m => g.starts 3 m).length

/-- A group breaks R360. -/
def Grp.bad (g : Grp) : Bool :=
  let ms := List.range g.r
  bitsAt (g.ents.getD 0 0) 25 4 != 0xF || 4 < g.halls
    || ms.any (fun m =>
      ([1, 2, 3].any fun l => g.starts l m && !g.starts (l - 1) m)
        || bitsAt (g.ents.getD m 0) 29 3 != 0 || bitsAt (g.ents.getD m 0) 88 40 != 0
        || (List.range 4).any fun h =>
          if h == g.hall m || g.halls ≤ h then g.gate m h != 0 else g.r ≤ g.gate m h || g.hall (g.gate m h) != h)
    || !pairsOk (fun a b => g.node a == g.node b && (g.queue a == g.queue b || g.first 0 a != g.first 0 b)) ms

/-- An enabled group queue of the partition breaks R360. -/
def State.groupsBad (s : State) (p : Nat) : Bool :=
  ((s.diesOf p).map fun d => (List.range 64).map fun k => 64 * d + k).flatten.any fun g =>
    s.cgEnabled g && s.cgPart g == p && (!s.inPart p (s.cgMembers g) (16 * s.cgSize g) || (s.grp g).bad)

/-- A parameter record (Table 14-1). -/
structure Param where
  raw : Nat
  tensor : Nat
  group : Nat
  fmt : Nat
  comps : Nat
  elements : Nat
  lwidth : Nat
  shard : Nat
  offset : Nat
  pA : Nat
  mA : Nat
  vA : Nat
  wA : Nat
  sw : Nat
deriving DecidableEq, Repr

def parseParam (w : Nat) : Param :=
  ⟨w, bitsAt w 0 32, bitsAt w 32 11, bitsAt w 50 4, bitsAt w 54 3, bitsAt w 64 64, bitsAt w 128 32, bitsAt w 160 32,
   bitsAt w 192 64, bitsAt w 256 48, bitsAt w 304 48, bitsAt w 352 48, bitsAt w 400 48, 256 * bitsAt w 448 16⟩

/-- Elements of a shard of the record's group: S/4 (R385). -/
def Param.s4 (r : Param) (j : JobImage) (g : Grp) : Nat :=
  shardSize (((j.operands.find? fun x => x.1 == r.group).map Prod.snd).getD 0) g.r / 4

/-- The padded element count of the tensor (R386). -/
def Param.padded (r : Param) (s4 : Nat) : Nat := roundUp r.elements (max r.lwidth s4)
where
  /-- n rounded up to a multiple of k. -/
  roundUp (n k : Nat) : Nat := if k == 0 then n else (n + k - 1) / k * k

/-- This device's member index in a group (log 54). -/
def State.memberOf (s : State) (g : Grp) (q : Nat) : Option Nat :=
  (List.range g.r).find? fun m => g.node m == s.node && g.queue m == q

def overlapLen (a n b m : Nat) : Nat := min (a + n) (b + m) - max a b

/-- Row stride of a working copy: the packed row rounded up to a multiple of 64 (R389). -/
def wStride (f : Fmt) (lwidth : Nat) : Nat := (f.rowBytes lwidth + 63) / 64 * 64

/-- Working bytes of a full shard (R389). -/
def Param.working (r : Param) (s4 : Nat) : Nat :=
  let f := (fmtOf r.fmt).getD ⟨.raw, 0, .none, false⟩
  if r.lwidth != 0 && s4 % r.lwidth == 0 then s4 / r.lwidth * wStride f r.lwidth else f.rowBytes s4

/-- A parameter record breaks R386 or R387. -/
def State.paramBad (s : State) (p : Nat) (j : JobImage) (r : Param) : Bool :=
  let g := s.grp r.group
  let s4 := r.s4 j g
  let inR (a n : Nat) : Bool := a == 0 || s.inPart p a n
  bitsAt r.raw 57 7 != 0 || bitsAt r.raw 464 48 != 0 || r.fmt == 0 || 9 < r.fmt || r.lwidth == 0 || s4 == 0
    || r.offset % s4 != 0 || (s4 % r.lwidth != 0 && r.lwidth % s4 != 0)
    || (match s.memberOf g r.group with
      | none => true
      | some m => r.shard != overlapLen (m * s4) s4 r.offset (r.padded s4))
    || !inR r.pA (4 * r.shard) || !inR r.mA (4 * r.shard) || !inR r.vA (4 * r.shard) || !inR r.wA r.sw
    || r.sw < r.working s4

def State.paramsBad (s : State) (p : Nat) (j : JobImage) : Bool :=
  let l := j.params.map fun w => parseParam w.toNat
  l.any (s.paramBad p j) || !pairsOk (fun a b =>
    let s4 := a.s4 j (s.grp a.group)
    a.group == b.group && a.offset < b.offset + b.padded s4 && b.offset < a.offset + a.padded s4) l

-- The words and bytes that an image writes (R484 step 2)

/-- The bits that job load may write: RW fields, the base and size of a trace buffer (R557). -/
def loadMask (a : Nat) : Nat :=
  if dieCfg 0 ≤ a ∧ a < dieCfg 32 ∧ 0x2000 ≤ a % 0x100000 ∧ a % 0x100000 < 0x2300 ∧ a % 64 = 8 then 0x1FFFFFFFFFFFFF
  else if coreCfg 0 ≤ a ∧ a < coreCfg 128 ∧ 0x8000 ≤ a % 0x100000 ∧ a % 0x100000 < 0x9000 then 0x00FFFFFF00FFFFFF
  else rwMask a

/-- The partition that the record at a word of shared configuration space names, in state s: a pool region, an owner's
region, a context, a fabric region. -/
def State.recordPart (s : State) (a : Nat) : Option (Bool × Nat) :=
  let off := a % 0x100000
  if memCfg 0 ≤ a ∧ a < memCfg 12 ∧ 0x40000 ≤ off ∧ off < 0x41000 then
    some (s.cfgF (a / 64 * 64) 0 1 == 1, s.cfgF (a / 64 * 64) 1 3)
  else if memCfg 0 ≤ a ∧ a < memCfg 12 ∧ 0x50000 ≤ off ∧ off < 0x70000 then
    (let m := (a - memCfg 0) / 0x100000
     let r := regA m (s.cfgF (a / 32 * 32) 2 6)
     some (s.cfgF (a / 32 * 32) 0 1 == 1, s.cfgF r 1 3))
  else if ioCfg 0 ≤ a ∧ a < ioCfg 1 ∧ 0x40000 ≤ off ∧ off < 0x50000 then
    some (s.cfgF (a / 64 * 64) 0 1 == 1, s.cfgF (a / 64 * 64) 1 3)
  else if ioCfg 0 ≤ a ∧ a < ioCfg 1 ∧ 0x80000 ≤ off then some (s.cfgF (a / 32 * 32) 0 1 == 1, s.cfgF (a / 32 * 32) 1 3)
  else none

/-- An image of partition p may write the word at `a`: `old` is the state before, `new` with the image's words. -/
def wordOk (old new : State) (p a : Nat) : Bool :=
  a % 8 == 0 && (
    if coreCfg 0 ≤ a ∧ a < coreCfg 128 then old.dieIn p ((a - coreCfg 0) / 0x100000 / 4)
    else if dieCfg 0 ≤ a ∧ a < dieCfg 32 then old.dieIn p ((a - dieCfg 0) / 0x100000)
    else match new.recordPart a, old.recordPart a with
      | some n, some o => n.2 == p && (!o.1 || o.2 == p)
      | _, _ => false)

/-- A word of the image: it lands beneath the overlays in force. -/
def State.loadWord (s : State) (a : Nat) (v : W64) : State :=
  if coreCfg 0 ≤ a ∧ a < coreCfg 128 ∧ 0x8000 ≤ a % 0x100000 ∧ a % 0x100000 < 0x9000 then s.cfgWrite a v
  else
    let base := match tget (fun _ => none) s.mgmt.baseCfg a with | some w => w | none => s.cfgW a
    s.setGoverned a (writeBits base v (loadMask a) 0)

def State.writeImage (s : State) (j : JobImage) : State :=
  let s := j.cfgWords.foldl (fun s w => s.loadWord w.1 w.2) s
  j.memBytes.foldl (fun s m => s.wr m.1 m.2) s

/-- A context of the partition leaves the partition's PORTS (R470). -/
def State.contextsBad (s : State) (p : Nat) : Bool :=
  match s.platePart p with
  | none => true
  | some r => (s.contexts p).any fun n => s.ctxPorts n &&& r.ports.toNat != s.ctxPorts n

def ascending : List Nat → Bool
  | a :: b :: t => decide (a < b) && ascending (b :: t)
  | _ => true

/-- A trace buffer of the partition's dies lies outside its wells and HBM, or has a size outside 10 to 20 (R556). -/
def State.tracesBad (s : State) (p : Nat) : Bool :=
  (s.diesOf p).any fun d => (List.range 12).any fun k =>
    let n := s.cfgF (Sys2Proof.Machine.ringBase d k + 8) 48 5
    let a := s.cfgF (Sys2Proof.Machine.ringBase d k + 8) 0 48
    n != 0 && (n < 10 || 20 < n || !s.inPart p a (32 * 2 ^ n) || match homeOf a with | .core _ _ => true | _ => false)

/-- The image breaks a load check of partition p: `old` before it, `s` with what it writes. -/
def imageBad (old s : State) (p : Part) (j : JobImage) : Bool :=
  let base0 := j.sets.headD 0
  (j.cores != 120 && j.cores != 128) || j.sets.isEmpty || 16 < j.sets.length || 4 < j.alarmNodes.length
    || j.cfgWords.any (fun w => !wordOk old s p.val w.1)
    || j.memBytes.any (fun m => !s.inPart p.val m.1 m.2.length)
    || j.pins.any (fun x => !(s.streamsOf p.val).contains x.1 || x.2 % 256 != 0 || !s.inPartHbm p.val x.2 256)
    || !ascending j.steps || j.sets.any (s.tableBad p.val j) || j.sets.any (s.setBad j base0) || s.plansBad j
    || s.poolsBad || s.segsBad p j || s.groupsBad p.val || s.paramsBad p.val j || s.contextsBad p.val || s.tracesBad p.val

end Sys2Proof.Machine
end

