-- ==== Sys2Proof/Machine/JobLoad.lean ====
section
/-! DEFINITION. Loading and unloading a job (R483 to R485), and arming it (R419, R486). -/

namespace Sys2Proof.Machine

def jobRow (code plen : Nat) : CmdRow := partRow code plen .job

-- Load (R484)

/-- A register of the partition's own blocks that a load does not give: ME_MODE, which the plate gives, and what records
faults. -/
def keptAtLoad (off : Nat) (core : Bool) : Bool :=
  if core then 0x100 ≤ off && off < 0x128 else off == 0x110 || off == 0x140

/-- An address of configuration space in a block of partition p's dies. -/
def State.ownBlock (s : State) (p a : Nat) : Bool :=
  if coreCfg 0 ≤ a ∧ a < coreCfg 128 then
    s.dieIn p ((a - coreCfg 0) / 0x100000 / 4) && !keptAtLoad (a % 0x100000) true
  else if dieCfg 0 ≤ a ∧ a < dieCfg 32 then
    s.dieIn p ((a - dieCfg 0) / 0x100000) && !keptAtLoad (a % 0x100000) false
  else false

/-- A record of shared configuration space that belongs to partition p: a context, a fabric region, a pool region or the
owners of one. -/
def State.ownRecord (s : State) (p a : Nat) : Bool :=
  match s.recordPart a with
  | some (v, q) => v && q == p
  | none => false

/-- What earlier jobs left in the partition's blocks and records goes: counters, descriptors, queues and rings are as at
reset, and no context, region or owner of the partition is enabled (R550, R557). -/
def State.clearForLoad (s : State) (p : Nat) : State :=
  let recs := (s.cfg.map Prod.fst).filter fun a => s.ownRecord p a
  let s := recs.foldl (fun s a => s.setGoverned a 0) { s with cfg := s.cfg.filter fun x => !s.ownBlock p x.1 }
  { s with
    mgmt := { s.mgmt with group := s.mgmt.group.filter fun x => x.1 / 16 != p }
    eng := { s.eng with tallies := s.eng.tallies.filter fun x => !s.dieIn p (x.1 / 4096) } }

/-- The compute dies of partition p that failed a start test (R462). -/
def State.needsFailed (s : State) (p : Nat) : Bool := (s.diesOf p).any fun d => s.mgmt.failedDies.contains (s.physDie d)

def loadBody (img : JobImage) (s : State) (e : BitVec 512) : Ans :=
  let p := entPart e
  let a := payF e 0 8
  let n := payF e 8 8
  s.partIn p [2] <|
    if !s.nodeAssigned then .refused (s.part p).state none
    else s.unlessBusy e .job <|
      Ans.check (n != 0 && s.inPartHbm p a n && !imageBad s ((s.clearForLoad p).writeImage img) (Fin.ofNat 8 p) img) <|
        if s.needsFailed p then .failed 7 s else .pend .plain [] (some img) none s

/-- `job.load`: the command carries what the image's bytes hold (log 5). -/
def jobLoad (b : Blk) (k : Nat) (img : JobImage) (s : State) : Option State := lysby (jobRow 0x0201 16) b k (loadBody img) s

def execJobLoad (b : Blk) (k : Fin 12) (img : JobImage) (s : State) : Host.Outcome State Fault Refusal :=
  attempt s (jobLoad b k.val img s)

/-- Step 1: every instruction cache of the partition is invalid (R147). -/
def State.dropCaches (s : State) (p : Nat) : State :=
  let dieOf (k : Nat) : Nat := if k < 0x80000 then k / 16384 else (k - 0x80000) / 1024
  { s with eng := { s.eng with icache := s.eng.icache.filter fun x => !s.dieIn p (dieOf x.1) } }

/-- The streams of the partition as R115 leaves them: IDLE at the entry PC of window 0's table, cleared. -/
def State.loadStreams (s : State) (p : Nat) (j : JobImage) : State :=
  let x := parseVariant (bitsAt (s.winRaw (j.sets.headD 0) 0) 512 384)
  (s.entryPcs p x.entry).foldl (fun s y => s.setStream y.1 { streamReset with pc := y.2 }) s

/-- Window 0's lines are pinned with generation 0 (R165). -/
def State.pinImage (s : State) (j : JobImage) : State :=
  j.pins.foldl (fun s x => s.setIline (cacheKey x.1 x.2) ⟨true, x.2, s.rd x.2 256, some 0⟩) s

/-- Every segment is FREE, with its quota and no counts (R203, Table 7-3). -/
def State.freeSegments (s : State) (j : JobImage) : State :=
  (s.segsOf j).foldl (fun s g =>
    if !g.used then s
    else (((s.setSegState g.addr 0).wrN (g.addr + 12) 2 g.quota).wr (g.addr + 32) (List.replicate 28 0))) s

/-- Every ledger entry of the partition's range reads zero and is free. -/
def State.freeLedger (s : State) (p : Part) : State :=
  let r := s.ledgerRange (some p)
  let lo := s.ledgerAddr + 16 * r.1
  let hi := lo + 16 * r.2
  ({ s with mem := s.mem.filter fun c => c.1 < lo || decide (hi ≤ c.1) }).clearLedger p

/-- Every domain of the partition's dies and cores is ON (R510). -/
def State.partOn (s : State) (p : Nat) : Bool :=
  (s.diesOf p).all fun d => s.power (s.dieKey d) == .on && (List.range 4).all fun i => s.power (s.coreKey (4 * d + i)) == .on

/-- The image is in place; the partition is LOADED. -/
def State.loadJob (s : State) (p : Part) (j : JobImage) (digest : List Byte) : State :=
  let s := (s.dropCaches p.val).clearForLoad p.val
  let s := (s.clearEngines p.val).writeImage j
  let s := (s.freeSegments j).freeLedger p
  let s := (s.regionsOf p.val).foldl (fun s x => s.formatRegion x.1 x.2) s
  let s := (s.loadStreams p.val j).pinImage j
  let s := (s.clearBells p.val).measure 3 (sha384 digest)
  let t := s.part p.val
  let n := s.configured.length
  s.setPart p.val { PartSt.init with
    state := 3
    job := some j
    plan := planDefault n
    cap := t.cap
    capNext := t.capNext
    jseq := t.jseq
    proofSlots := t.proofSlots }

/-- The load completes when the partition's domains are ON. -/
def completeLoad (c : PendCmd) (s : State) : Option State :=
  let p := entPart c.entry
  match c.image with
  | none => none
  | some j =>
    if !s.partOn p then none
    else
      let bytes := s.rd (payF c.entry 0 8) (payF c.entry 8 8)
      let d := sha256 bytes
      let s := s.loadJob (Fin.ofNat 8 p) j bytes
      some ((s.setPart p { s.part p with digest := d }).finish c stOk d)

-- Unload (R485)

def unloadBody (s : State) (e : BitVec 512) : Ans :=
  let p := entPart e
  s.partIn p [3, 6, 7] <| s.unlessBusy e .job <| .pend .plain [] none none ((s.endPartCmds p s.mgmt.nextCmd 3).endStops p 6 none).dropOrphans

def jobUnload (b : Blk) (k : Nat) (s : State) : Option State := lysby (jobRow 0x0202 0) b k unloadBody s

def execJobUnload (b : Blk) (k : Fin 12) (s : State) : Host.Outcome State Fault Refusal := attempt s (jobUnload b k.val s)

def completeUnload (c : PendCmd) (s : State) : Option State :=
  let p := entPart c.entry
  some ((s.dropJob (Fin.ofNat 8 p)).finish c stOk [])

-- Launch (R419, R429, R486)

/-- The recorded LAUNCH entry of a journal buffer, by slot: the first of its type (log 56). -/
def State.recordedLaunch (s : State) (r : Replay) : Option (Nat × Nat) :=
  (s.recEntries r r.slots 0).find? fun x => recType x.2 == 1

/-- The slot of entry FROM_SEQ of a recording, while it is 0 or the first entry of its step (R429). -/
def State.replayFrom (s : State) (r : Replay) (seq : Nat) : Option (Nat × Nat) :=
  let all := s.recEntries r r.slots 0
  match all.find? fun x => recSeq x.2 == seq with
  | none => none
  | some (k, e) =>
    if seq == 0 then some (k, e)
    else if (all.filter fun x => recSeq x.2 < seq).any fun x => recStep x.2 == recStep e then none
    else some (k, e)

/-- The replay that a `job.launch` names, or none where R429 refuses it. -/
def State.replayOf (s : State) (p : Nat) (e : BitVec 512) : Option Replay :=
  let a := payF e 32 8
  let n := payF e 48 4
  let r : Replay := ⟨a, n, 0, bitsAt (payF e 20 4) 1 1 == 1, 0, [], 0⟩
  if n == 0 || !s.inPartHbm p a (64 * n) then none
  else match s.recordedLaunch r, s.replayFrom r (payF e 40 8) with
    | some (kl, l), some (k, f) =>
      if recF l 32 8 == payF e 8 8 && recF l 48 8 == payF e 24 8 && s.rd (a + 64 * (kl + 1)) 32 == (s.part p).digest
          && recStep f == payF e 16 4 then
        some { r with from_ := k, lc := recF l 24 8 }
      else none
    | _, _ => none

/-- An image of the partition may run on this device (R3, R293, R356). -/
def State.jobFits (s : State) (p : Nat) (j : JobImage) : Bool :=
  decide (j.cores ≤ s.nCores)
    && (match s.platePart p with
      | some r => (List.range 12).all fun m => fld r.hbm (2 * m) 2 == 0 || !s.retired m
      | none => true)
    && j.spanKm.all fun x => decide (s.cfgF (portA x.1.val + 0x28) 0 32 ≤ 2 * (615 + 1250 * x.2))

/-- A meeting set of the job names a node. -/
def jobMeets (j : JobImage) : Bool := j.meetSets.any fun l => !l.isEmpty

/-- The partition is ARMED, with a LAUNCH entry. -/
def State.launchJob (s : State) (p : Nat) (e : BitVec 512) (r : Option Replay) : State :=
  let t := s.part p
  let s := s.setPart p { t with
    state := 4
    lc := payF e 0 8
    seed := BitVec.ofNat 64 (payF e 8 8)
    step0 := BitVec.ofNat 32 (payF e 16 4)
    tag := BitVec.ofNat 64 (payF e 24 8)
    replayBit := r.isSome
    replay := r
    window := 0
    tornDown := false
    batch := 0 }
  s.journal p 1 (natLe 8 (payF e 0 8) ++ natLe 8 (payF e 8 8) ++ natLe 4 (payF e 16 4) ++ natLe 4 (boolNat r.isSome)
    ++ natLe 8 (payF e 24 8)) (s.part p).digest

def launchBody (s : State) (e : BitVec 512) : Ans :=
  let p := entPart e
  let flags := payF e 20 4
  let replays := bitsAt flags 0 1 == 1
  s.partIn p [3] <| s.unlessBusy e .job <|
    match (s.part p).job with
    | none => .failed 7 s
    | some j =>
      let r := if replays then s.replayOf p e else none
      Ans.check (decide (s.gc + 2500 ≤ payF e 0 8) && decide (flags < 4) && s.jobFits p j
          && (if replays then r.isSome else flags == 0 && payF e 32 20 == 0)) <|
        if jobMeets j && (s.gcState == 0 || s.gcState == 1) then .failed 7 s
        else .ok .plain [] (s.launchJob p e r)

def jobLaunch (b : Blk) (k : Nat) (s : State) : Option State := lysby (jobRow 0x0203 52) b k launchBody s

def execJobLaunch (b : Blk) (k : Fin 12) (s : State) : Host.Outcome State Fault Refusal := attempt s (jobLaunch b k.val s)

end Sys2Proof.Machine
end

