-- ==== Sys2Proof/Machine/JobCmd.lean ====
section
/-! DEFINITION. Ending, resuming and feeding a job: teardown, resume, variant sets, input batches (Table 17-3) and the
leak audit (R258). -/

namespace Sys2Proof.Machine

-- Teardown (R355, R420, R487)

/-- The launch does not take place: ARMED returns to LOADED. -/
def State.disarm (s : State) (p : Nat) : State :=
  s.setPart p { s.part p with state := 3, bAt := none, phase := 0, replay := none, replayBit := false, stopAt := none }

def teardownBody (s : State) (e : BitVec 512) : Ans :=
  let p := entPart e
  let t := s.part p
  s.partIn p activeStates <| s.unlessBusy e .job <| Ans.check (BitVec.ofNat 64 (payF e 0 8) == t.tag) <|
    if t.state == 4 && decide (s.gc < t.lc) then
      .ok .plain (natLe 4 0) ((((s.endStops p 6 none).disarm p).endPartCmds p s.mgmt.nextCmd 2).dropOrphans)
    else
      let x := s.tearDown (Fin.ofNat 8 p)
      .pend .plain [x.2] none none ((x.1.endPartCmds p s.mgmt.nextCmd 2).dropOrphans)

def jobTeardown (b : Blk) (k : Nat) (s : State) : Option State := lysby (jobRow 0x0204 8) b k teardownBody s

def execJobTeardown (b : Blk) (k : Fin 12) (s : State) : Host.Outcome State Fault Refusal := attempt s (jobTeardown b k.val s)

def completeTeardown (c : PendCmd) (s : State) : Option State := some (s.finish c stOk (natLe 4 (c.data.headD 0)))

-- Resume (R450, R536, R569)

/-- `job.resume` of a HELD partition releases the reasons that it answers (Table 19-5); a stopped one gets its Rz, 2,500
ticks after the take. -/
def State.resume (s : State) (p : Nat) : State :=
  let t := s.part p
  if t.state == 7 then s.setPart p { t with resumeAt := some (s.gc + 2500) }
  else s.setPart p { (((t.release 1).release 2).release 6).release 9 with hangFrom := some s.gc }

def resumeBody (s : State) (e : BitVec 512) : Ans :=
  let p := entPart e
  let t := s.part p
  s.partIn p [6, 7] <|
    if t.tornDown || (t.state == 7 && t.last) then .refused t.state none
    else s.unlessBusy e .job <| .pend (.window (some (t.window + 1))) [] none none (s.resume p)

def jobResume (b : Blk) (k : Nat) (s : State) : Option State := lysby (jobRow 0x0205 0) b k resumeBody s

def execJobResume (b : Blk) (k : Fin 12) (s : State) : Host.Outcome State Fault Refusal := attempt s (jobResume b k.val s)

-- Variant sets (R488)

def variantBody (s : State) (e : BitVec 512) : Ans :=
  let p := entPart e
  let v := payF e 0 1
  let t := s.part p
  let st := if t.state == 4 then t.step0 else t.stepNo
  s.partIn p jobStates <| s.notReplay p <| s.unlessBusy e .job <|
    Ans.check (match t.job with | some j => decide (v < j.sets.length) | none => false) <|
      .ok .latched (natLe 4 (st + 1).toNat) (s.setPart p { t with setNext := some v })

def jobVariant (b : Blk) (k : Nat) (s : State) : Option State := lysby (jobRow 0x0206 1) b k variantBody s

def execJobVariant (b : Blk) (k : Fin 12) (s : State) : Host.Outcome State Fault Refusal := attempt s (jobVariant b k.val s)

-- Input batches (R426, R431, R489)

/-- The recorded INPUT entry of a batch. -/
def State.recordedInput (s : State) (r : Replay) (batch : Nat) : Option (Nat × Nat) :=
  (s.recEntries r r.slots 0).find? fun x => recType x.2 == 4 && recF x.2 48 4 == batch

/-- A batch whose bytes differ from the recorded ones diverges (R432). -/
def State.inputDiffers (s : State) (p batch : Nat) (digest : List Byte) : Option Nat :=
  match (s.part p).replay with
  | none => none
  | some r =>
    match s.recordedInput r batch with
    | none => none
    | some (k, e) => if s.rd (r.base + 64 * (k + 1)) 32 == digest then none else some (recSeq e)

/-- The INPUT entry of a batch, and the divergence where there is one; true where it diverges. -/
def State.inputEntry (s : State) (p : Nat) (e : BitVec 512) (digest : List Byte) : State × Bool :=
  let n := payF e 16 4
  let s := s.journal p 4 (natLe 8 s.gc ++ natLe 8 (payF e 0 8) ++ natLe 8 (payF e 8 8) ++ natLe 4 n) digest
  match s.inputDiffers p n digest with
  | none => (s, false)
  | some no => (s.diverge (Fin.ofNat 8 p) 1 0 no, true)

/-- The bytes of a batch. -/
def State.batchBytes (s : State) (e : BitVec 512) : List Byte := s.rd (payF e 0 8) (payF e 8 8)

/-- BATCH advances. -/
def State.nextBatch (s : State) (p : Nat) : State := s.setPart p { s.part p with batch := (s.part p).batch + 1 }

/-- A batch is taken: BATCH advances, and its entry is written; true where it diverges. -/
def State.takeBatch (s : State) (e : BitVec 512) : State × Bool :=
  (s.nextBatch (entPart e)).inputEntry (entPart e) e (sha256 (s.batchBytes e))

def inputBody (s : State) (e : BitVec 512) : Ans :=
  let p := entPart e
  let n := payF e 8 8
  s.partIn p activeStates <| s.unlessBusy e .job <|
    Ans.check (payF e 16 4 == (s.part p).batch && decide (1 ≤ n) && decide (n ≤ 2 ^ 40) && s.inPartHbm p (payF e 0 8) n) <|
      if 2 ^ 20 < n then .pend .plain [] none none (s.nextBatch p)
      else if (s.takeBatch e).2 then .failed 7 (s.takeBatch e).1
      else .ok .plain (sha256 (s.batchBytes e)) (s.takeBatch e).1

def inputCommit (b : Blk) (k : Nat) (s : State) : Option State := lysby (jobRow 0x0207 20) b k inputBody s

def execInputCommit (b : Blk) (k : Fin 12) (s : State) : Host.Outcome State Fault Refusal := attempt s (inputCommit b k.val s)

def completeInput (c : PendCmd) (s : State) : Option State :=
  let e := c.entry
  let d := sha256 (s.rd (payF e 0 8) (payF e 8 8))
  let x := s.inputEntry (entPart e) e d
  if x.2 then some (x.1.finish c stFailed (failResult 7)) else some (x.1.finish c stOk d)

-- The leak audit (R258)

/-- The homed owner records of partition p: memory die and owner, in ascending order. -/
def State.ownersOf (s : State) (p : Nat) : List (Nat × Nat) :=
  ((List.range 12).map fun m => ((s.ownersOn m).filter fun o =>
    (s.regionsOf p).contains (m, s.cfgF (ownA m o) 2 6)).map fun o => (m, o)).flatten

/-- A 46-bit stamp as the latest count that is at most A. -/
def stampAt (a stamp : Nat) : Nat :=
  let x := a - a % 2 ^ 46 + stamp
  if x ≤ a then x else x - 2 ^ 46

/-- The cells of region r on memory die m that an owner holds, each as its stamp and address (Table 9-2). -/
def State.cellsOf (s : State) (m r o : Nat) : List (Nat × Nat) :=
  let at_ (base n : Nat) : List Nat := (List.range n).map fun i => base + 256 * i
  ((at_ (s.wellBase m r) (s.wellCells m r) ++ at_ (s.spillBase m r) (s.spillCells m r)).filter fun a =>
    let h := s.rdN a 16
    bitsAt h 48 1 == 1 && bitsAt h 64 12 == o).map fun a => (bitsAt (s.rdN a 16) 82 46, a)

/-- A stamp that a grant after A carries: such a cell lowers no entry. -/
def State.grantedSince (s : State) (a stamp : Nat) : Bool :=
  let k := (stamp + 2 ^ 46 - a % 2 ^ 46) % 2 ^ 46
  k != 0 && decide (k ≤ s.gc - a)

/-- The older of two cells. -/
def older (a b : Nat × Nat) : Nat × Nat := if b.1 < a.1 then b else a

/-- An audit entry (Table 9-6); `used` and `spill` are as they stood at A. -/
def State.auditEntry (s : State) (a m o used spill : Nat) : List Byte :=
  let cells := ((s.cellsOf m (s.cfgF (ownA m o) 2 6) o).filter fun x => !s.grantedSince a x.1).map fun x => (stampAt a x.1, x.2)
  let head (none_ : Bool) : List Byte := natLe 4 (o + 2 ^ 12 * m + 2 ^ 16 * boolNat none_) ++ natLe 4 used
  match cells with
  | [] => head true ++ natLe 16 0 ++ natLe 8 spill
  | c :: rest =>
    let x := rest.foldl older c
    head false ++ natLe 8 x.1 ++ natLe 8 x.2 ++ natLe 8 spill

/-- The command keeps, for each owner record, USED and SPILL_USED at A. -/
def auditBody (s : State) (e : BitVec 512) : Ans :=
  let p := entPart e
  s.partIn p jobStates <| s.unlessBusy e .job <| Ans.check (s.inPartHbm p (payF e 0 8) (payF e 8 4)) <|
    .pend .plain ((s.ownersOf p).map fun x =>
      [x.1, x.2, s.cfgF (ownA x.1 x.2 + 8) 32 32, s.cfgF (ownA x.1 x.2 + 16) 32 32]).flatten none none s

def poolAudit (b : Blk) (k : Nat) (s : State) : Option State := lysby (jobRow 0x0208 12) b k auditBody s

def execPoolAudit (b : Blk) (k : Fin 12) (s : State) : Host.Outcome State Fault Refusal := attempt s (poolAudit b k.val s)

/-- The entries that a snapshot of owners gives. -/
def State.auditEntries (s : State) (a : Nat) : List Nat → List (List Byte)
  | m :: o :: u :: sp :: rest => s.auditEntry a m o u sp :: s.auditEntries a rest
  | _ => []

def completeAudit (c : PendCmd) (s : State) : Option State :=
  let all := s.auditEntries c.accept c.data
  let room := payF c.entry 8 4 / 32
  let s := s.wr (payF c.entry 0 8) (all.take room).flatten
  some (s.finish c stOk (natLe 8 c.accept ++ natLe 4 (min room all.length) ++ natLe 4 (all.length - room)))

end Sys2Proof.Machine
end

