-- ==== Sys2Proof/Machine/Setting.lean ====
section
/-! DEFINITION. Commands that set a partition up while a job is loaded: pace plans (Table 17-4), norm bounds and proofs
(Table 17-8), and the journal (Table 17-9). -/

namespace Sys2Proof.Machine

-- Pace (R168, R490)

/-- The shares of the configured partitions, with that of p as given; shares that still wait for a boundary count. -/
def State.shareSum (s : State) (p share : Nat) : Nat :=
  (s.configured.map fun q =>
    let t := s.part q.val
    let next := match t.planNext with
      | some x => if x.share == 0 then t.plan.share else x.share
      | none => t.plan.share
    if q.val == p then (if share == 0 then next else share) else next).sum

/-- A plan lies within Table 6-10 and R168. -/
def planOk (x : PacePlan) : Bool :=
  decide (x.fast < 8) && decide (x.slow < 8) && decide (x.mode < 3) && decide (x.dpace < 8) && decide (60 ≤ x.tderate)
    && decide (x.tderate ≤ 105) && decide (x.reserve ≤ 50) && decide (x.share ≤ 64) && decide (x.fallback < 2)
    && decide (2 ^ 16 ≤ x.hang) && decide (x.hang ≤ 2 ^ 40) && decide (x.fast ≤ x.slow) && decide (x.fast ≤ x.dpace)

/-- A plan that waits for the next boundary: a share of 0 keeps the one that waits. -/
def State.planWaits (s : State) (p : Nat) (x : PacePlan) : State :=
  let t := s.part p
  let keep := match t.planNext with | some y => y.share | none => 0
  s.setPart p { t with planNext := some { x with share := if x.share == 0 then keep else x.share } }

def planBody (s : State) (e : BitVec 512) : Ans :=
  let p := entPart e
  let t := s.part p
  let x := planOf e
  s.partIn p jobStates <| s.notReplay p <| s.unlessBusy e .job <|
    Ans.check (planOk x && decide (s.shareSum p x.share ≤ 64)) <|
      if t.state == 3 then .ok .plain [] (s.setPart p (t.takePlan x)) else .ok .latched [] (s.planWaits p x)

def pacePlan (b : Blk) (k : Nat) (s : State) : Option State := lysby (jobRow 0x0301 16) b k planBody s

def execPacePlan (b : Blk) (k : Fin 12) (s : State) : Host.Outcome State Fault Refusal := attempt s (pacePlan b k.val s)

/-- A plan as the payload of `pace.plan` lays it out. -/
def planBytes (x : PacePlan) : List Byte :=
  ([x.fast, x.slow, x.mode, x.dpace, x.tderate, x.reserve, x.share, x.fallback].map fun v => natLe 1 v).flatten
    ++ natLe 8 x.hang

/-- The result of `pace.read`. -/
def State.paceReport (s : State) (p : Nat) : List Byte :=
  let t := s.part p
  natLe 8 (t.headroom % 2 ^ 64).toNat ++ natLe 1 t.variant ++ natLe 1 t.pace ++ natLe 1 (degrees (s.hottest p)) ++ natLe 1 0
    ++ natLe 4 t.window ++ planBytes t.plan ++ natLe 8 t.credit

def paceReadBody (s : State) (e : BitVec 512) : Ans :=
  let p := entPart e
  s.partIn p [4, 5, 6, 7] <| .ok .plain (s.paceReport p) s

def paceRead (b : Blk) (k : Nat) (s : State) : Option State := lysby (partRow 0x0302 0 .read) b k paceReadBody s

def execPaceRead (b : Blk) (k : Fin 12) (s : State) : Host.Outcome State Fault Refusal := attempt s (paceRead b k.val s)

-- Norm bounds (R393, R397, R498)

/-- The bounds of a `norm.arm` payload. -/
def boundsOf (e : BitVec 512) : NormBounds :=
  ⟨BitVec.ofNat 32 (payF e 0 4), BitVec.ofNat 32 (payF e 4 4), payF e 8 1, payF e 9 1, payF e 10 1⟩

def boundsOk (x : NormBounds) : Bool :=
  !(val32 x.limit).isNan && !(val32 x.clip).isNan && (val32 zero32).lt (val32 x.limit)
    && !(val32 x.clip).lt (val32 zero32) && !(val32 x.clip).isInf
    && decide (x.above < 3) && (x.nonfinite == 1 || x.nonfinite == 2) && decide (x.fallback < 2)

def normArmBody (s : State) (e : BitVec 512) : Ans :=
  let p := entPart e
  s.partIn p jobStates <| s.notReplay p <| s.unlessBusy e .job <| Ans.check (boundsOk (boundsOf e)) <|
    .ok .latched [] (s.setPart p { s.part p with bounds := boundsOf e })

def normArm (b : Blk) (k : Nat) (s : State) : Option State := lysby (jobRow 0x0701 11) b k normArmBody s

def execNormArm (b : Blk) (k : Fin 12) (s : State) : Host.Outcome State Fault Refusal := attempt s (normArm b k.val s)

/-- The partition is held for a norm verdict that no answer waits to release. -/
def PartSt.asksNorm (t : PartSt) : Bool := t.state == 6 && t.holds.any fun h => h.reason == 5

def answerBody (s : State) (e : BitVec 512) : Ans :=
  let p := entPart e
  let t := s.part p
  let a := payF e 0 1
  let finite := match t.verdict with | some v => isFinite32 v.norm | none => false
  if !t.asksNorm then .refused t.state none
  else s.notReplay p <| s.unlessBusy e .job <| Ans.check (a == 1 || (a == 0 && finite)) <|
    .ok .latched [] (s.setPart p { t with answer := some a })

def normAnswer (b : Blk) (k : Nat) (s : State) : Option State := lysby (jobRow 0x0702 1) b k answerBody s

def execNormAnswer (b : Blk) (k : Fin 12) (s : State) : Host.Outcome State Fault Refusal := attempt s (normAnswer b k.val s)

-- Proofs (R399, R402, R498)

def proofBody (s : State) (e : BitVec 512) : Ans :=
  let p := entPart e
  let pi := payF e 0 2
  let ph := payF e 2 2
  s.partIn p jobStates <| s.unlessBusy e .job <|
    Ans.check (payF e 4 1 < 2 && (if pi == 0 then ph == 0 else decide (ph < pi))) <|
      .ok .latched [] (s.setPart p { s.part p with proofNext := some (pi, ph, payF e 4 1 == 1) })

def proofArm (b : Blk) (k : Nat) (s : State) : Option State := lysby (jobRow 0x0703 5) b k proofBody s

def execProofArm (b : Blk) (k : Fin 12) (s : State) : Host.Outcome State Fault Refusal := attempt s (proofArm b k.val s)

def compareBody (s : State) (e : BitVec 512) : Ans :=
  let p := entPart e
  s.partIn p jobStates <|
    if !s.jnlOpen p then .refused (s.part p).state none
    else s.unlessBusy e .job <|
      Ans.check (payF e 8 4 == 0 || s.inPartHbm p (payF e 0 8) (128 * payF e 8 4)) <| .pend .plain [] none none s

def proofCompare (b : Blk) (k : Nat) (s : State) : Option State := lysby (jobRow 0x0704 12) b k compareBody s

def execProofCompareCommand (b : Blk) (k : Fin 12) (s : State) : Host.Outcome State Fault Refusal :=
  attempt s (proofCompare b k.val s)

/-- The PROOF entries still in the ring: their header word and digest (R498). -/
def State.ringProofs (s : State) (p : Nat) : List (Nat × List Byte) :=
  ((s.part p).proofSlots.filter fun n => decide (s.jnlWrite p ≤ n + s.jnlSize p)).map fun n =>
    (s.rdN (s.jnlSlot p n) 64, s.rd (s.jnlSlot p (n + 1)) 32)

/-- How a host entry compares: 0 matched, 1 mismatched, 2 missing. Digests are compared (log 57). -/
def compareEntry (ring : List (Nat × List Byte)) (e : Nat) (digest : List Byte) : Nat :=
  match ring.find? fun x => recStep x.1 == recStep e && recF x.1 24 2 == recF e 24 2 && recF x.1 26 2 == recF e 26 2 with
  | some x => if x.2 == digest then 0 else 1
  | none => 2

def completeCompare (c : PendCmd) (s : State) : Option State :=
  let p := entPart c.entry
  let ring := s.ringProofs p
  let got := (List.range (payF c.entry 8 4)).map fun i =>
    let a := payF c.entry 0 8 + 128 * i
    compareEntry ring (s.rdN a 64) (s.rd (a + 64) 32)
  let n (v : Nat) : Nat := (got.filter fun x => x == v).length
  some (s.finish c stOk (natLe 4 (n 0) ++ natLe 4 (n 1) ++ natLe 4 (n 2)
    ++ natLe 4 ((got.findIdx? fun x => x == 1).getD 0xFFFFFFFF)))

-- The journal (R423, R500)

/-- The journal of partition p opens on 2^n slots at a, empty. -/
def State.openJournal (s : State) (p a n : Nat) : State :=
  let s := (s.setMbxW (bar4Addr p 0) (BitVec.ofNat 64 a)).setMbxW (bar4Addr p 8) (BitVec.ofNat 64 n)
  let s := (s.setMbxW (bar4Addr p 0x10) 0).setMbxW (bar4Addr p 0x18) 0
  let s := s.setMbxF (bar4Addr p 0x20) 0 2 1
  s.setPart p { s.part p with jseq := 0, proofSlots := [] }

def openBody (s : State) (e : BitVec 512) : Ans :=
  let p := entPart e
  let a := payF e 0 8
  let n := payF e 8 1
  s.partIn p [2, 3] <|
    if s.jnlOpen p then .refused (s.part p).state none
    else s.unlessBusy e .job <|
      Ans.check (decide (12 ≤ n) && decide (n ≤ 26) && a % 4096 == 0 && s.inPartHbm p a (64 * 2 ^ n)) <|
        .ok .none [] (s.openJournal p a n)

def journalOpen (b : Blk) (k : Nat) (s : State) : Option State := lysby (jobRow 0x0801 9) b k openBody s

def execJournalOpen (b : Blk) (k : Fin 12) (s : State) : Host.Outcome State Fault Refusal := attempt s (journalOpen b k.val s)

def closeBody (s : State) (e : BitVec 512) : Ans :=
  let p := entPart e
  s.partIn p [2, 3, 7] <| s.unlessBusy e .job <| .ok .none (natLe 8 (s.jnlWrite p)) (s.closeJournal p)

def journalClose (b : Blk) (k : Nat) (s : State) : Option State := lysby (jobRow 0x0802 0) b k closeBody s

def execJournalClose (b : Blk) (k : Fin 12) (s : State) : Host.Outcome State Fault Refusal :=
  attempt s (journalClose b k.val s)

end Sys2Proof.Machine
end

