-- ==== Sys2Proof/Machine/Transfer.lean ====
section
/-! DEFINITION. Export and import of the master state (R403 to R405, R499, R500). -/

namespace Sys2Proof.Machine

-- What a partition holds

/-- A stretch of a component of a parameter record: KIND, COMP, FORMAT, address, first logical element, and bytes. -/
structure Extent where
  kind : Nat
  comp : Nat
  fmt : Nat
  tensor : Nat
  member : Nat
  addr : Nat
  first : Nat
  bytes : Nat
deriving DecidableEq, Repr

def State.params (s : State) (p : Nat) : List Param :=
  match (s.part p).job with
  | some j => j.params.map fun w => parseParam w.toNat
  | none => []

/-- The parameter table's digest. -/
def State.tableDigest (s : State) (p : Nat) : List Byte :=
  match (s.part p).job with
  | some j => sha256 ((j.params.map fun w => natLe 64 w.toNat).flatten)
  | none => sha256 []

/-- A component's address, and whether the record holds it: 0 p, 1 m, 2 v. -/
def Param.compA (r : Param) (c : Nat) : Nat := match c with | 0 => r.pA | 1 => r.mA | _ => r.vA
def Param.held (r : Param) (c : Nat) : Bool := bitsAt r.comps c 1 == 1

/-- This device's member index in the record's group. -/
def State.memberIx (s : State) (r : Param) : Nat := (s.memberOf (s.grp r.group) r.group).getD 0

/-- The flat index in the tensor of the shard's first element. -/
def State.shardFirst (s : State) (p : Nat) (r : Param) : Nat :=
  match (s.part p).job with
  | some j => s.memberIx r * r.s4 j (s.grp r.group) - r.offset
  | none => 0

/-- Elements of the shard that are not padding. -/
def State.logicalCount (s : State) (p : Nat) (r : Param) : Nat := min r.shard (r.elements - s.shardFirst p r)

/-- The stretch cut into pieces of at most 1 MiB. -/
def Extent.pieces (x : Extent) : List Extent :=
  (List.range ((x.bytes + 2 ^ 20 - 1) / 2 ^ 20)).map fun i =>
    { x with
      addr := x.addr + 2 ^ 20 * i
      first := x.first + 2 ^ 18 * i
      bytes := min (2 ^ 20) (x.bytes - 2 ^ 20 * i) }

/-- The data records of an export in a mode: 0 LOGICAL, 1 WORKING. -/
def State.extents (s : State) (p mode : Nat) : List Extent :=
  ((s.params p).map fun r =>
    let m := s.memberIx r
    let comps := (below 3 r.held).map fun c =>
      if mode == 0 then
        (⟨1, c, 1, r.tensor, m, r.compA c, s.shardFirst p r, 4 * s.logicalCount p r⟩ : Extent)
      else ⟨2, c, 1, r.tensor, m, r.compA c, 0, 4 * r.shard⟩
    let row : List Extent := if mode == 0 then [] else [⟨2, 3, r.fmt, r.tensor, m, r.wA, 0, r.sw⟩]
    ((comps ++ row).map Extent.pieces).flatten).flatten

def pad64 (bs : List Byte) : List Byte := bs ++ List.replicate ((64 - bs.length % 64) % 64) 0

/-- A data record: its header (Table 14-7) and payload. -/
def State.exportRecord (s : State) (stepNo : Nat) (x : Extent) : List Byte :=
  let body := s.rd x.addr x.bytes
  natLe 4 (x.kind + 16 * x.comp + 256 * x.fmt + 2 ^ 16 * x.member) ++ natLe 4 x.tensor ++ natLe 4 stepNo ++ natLe 4 x.bytes
    ++ natLe 8 (if x.kind == 1 then x.first else x.addr) ++ natLe 8 (if x.kind == 1 then x.bytes / 4 else x.bytes)
    ++ sha256 body ++ pad64 body

/-- The partition stopped at a boundary that advanced STEP, before any window of the new step opened. -/
def PartSt.atStep (t : PartSt) : Bool :=
  t.state == 7 && t.stopped.isSome && t.stopped == t.opened
    && match t.job with | some j => j.steps.contains t.window | none => false

/-- The count at which the partition stopped, or entered HELD. -/
def PartSt.stopCount (t : PartSt) : Nat :=
  match t.stopped with
  | some c => c
  | none => match t.holds with | h :: _ => h.since | [] => 0

def State.preamble (s : State) (p n : Nat) : List Byte :=
  let t := s.part p
  natLe 8 (16 * boolNat t.atStep) ++ natLe 4 t.stepNo.toNat ++ natLe 4 0 ++ natLe 8 t.stopCount ++ natLe 8 n
    ++ s.tableDigest p

/-- Bytes of an export. -/
def exportBytes (xs : List Extent) : Nat := 64 + (xs.map fun x => 64 + (x.bytes + 63) / 64 * 64).sum

-- Export

def exportBody (s : State) (e : BitVec 512) : Ans :=
  let p := entPart e
  let mode := payF e 0 1
  let need := exportBytes (s.extents p mode)
  s.partIn p [6, 7] <| s.unlessBusy e .job <| Ans.check (decide (mode < 2) && s.inPartHbm p (payF e 8 8) (payF e 16 8)) <|
    if payF e 16 8 < need then .bad (natLe 8 0 ++ natLe 8 need) else .pend .plain [] none none s

def exportStart (b : Blk) (k : Nat) (s : State) : Option State := lysby (jobRow 0x0803 24) b k exportBody s

def execExportStart (b : Blk) (k : Fin 12) (s : State) : Host.Outcome State Fault Refusal := attempt s (exportStart b k.val s)

/-- The export is written; poison in what it reads ends it (log 58). -/
def completeExport (c : PendCmd) (s : State) : Option State :=
  let p := entPart c.entry
  let xs := s.extents p (payF c.entry 0 1)
  if xs.any fun x => s.poisoned x.addr x.bytes then some (s.finish c stFailed (failResult 7))
  else
    let body := s.preamble p xs.length ++ (xs.map fun x => s.exportRecord (s.part p).stepNo.toNat x).flatten
    some ((s.wr (payF c.entry 8 8) body).finish c stOk (natLe 4 xs.length ++ natLe 4 0 ++ natLe 8 body.length))

-- Import

/-- A record read from an export: header word and address of its payload. -/
abbrev ImpRec := Nat × Nat

/-- The n data records from `a` on, or none where they run past `stop` or are no data records. -/
def State.impRecs (s : State) (stop : Nat) : Nat → Nat → Option (List ImpRec)
  | 0, _ => some []
  | n + 1, a =>
    let h := s.rdN a 64
    let len := bitsAt h 96 32
    let next := a + 64 + (len + 63) / 64 * 64
    if stop < next || (bitsAt h 0 4 != 1 && bitsAt h 0 4 != 2) || 2 ^ 20 < len then none
    else (s.impRecs stop n next).map fun l => (h, a + 64) :: l

/-- The data records of the buffer that an `import.start` names. -/
def State.importOf (s : State) (a n : Nat) : Option (List ImpRec) :=
  let h := s.rdN a 64
  if n < 64 || bitsAt h 0 4 != 0 || n / 64 < bitsAt h 192 64 then none
  else s.impRecs (a + n) (bitsAt h 192 64) (a + 64)

def isWorking (l : List ImpRec) : Bool := l.any fun r => bitsAt r.1 0 4 == 2

def importBody (s : State) (e : BitVec 512) : Ans :=
  let p := entPart e
  let a := payF e 0 8
  let n := payF e 8 8
  s.partIn p [3] <| s.unlessBusy e .job <|
    Ans.check (s.inPartHbm p a n && match s.importOf a n with
      | some l => !isWorking l || s.rd (a + 32) 32 == s.tableDigest p
      | none => true) <| .pend .plain [] none none s

def importStart (b : Blk) (k : Nat) (s : State) : Option State := lysby (jobRow 0x0804 16) b k importBody s

def execImportStart (b : Blk) (k : Fin 12) (s : State) : Host.Outcome State Fault Refusal := attempt s (importStart b k.val s)

/-- A record's DIGEST is that of its payload, and its addresses are the partition's. -/
def State.impOk (s : State) (p : Nat) (r : ImpRec) : Bool :=
  let len := bitsAt r.1 96 32
  natLe 32 (bitsAt r.1 256 256) == sha256 (s.rd r.2 len) && !s.poisoned r.2 len
    && (bitsAt r.1 0 4 == 1 || s.inPart p (bitsAt r.1 128 64) len)

/-- A LOGICAL record's elements go to the shard that holds them. -/
def State.importLogical (s : State) (p : Nat) (src : ImpRec) (r : Param) : State :=
  let c := bitsAt src.1 4 4
  let first := bitsAt src.1 128 64
  let n := min (bitsAt src.1 192 64) (bitsAt src.1 96 32 / 4)
  let mine := s.shardFirst p r
  let lo := max first mine
  let hi := min (first + n) (mine + s.logicalCount p r)
  if bitsAt src.1 32 32 != r.tensor || !r.held c || 2 < c || hi ≤ lo then s
  else s.wr (r.compA c + 4 * (lo - mine)) (s.rd (src.2 + 4 * (lo - first)) (4 * (hi - lo)))

/-- Padding elements of a shard take +0. -/
def State.zeroPadding (s : State) (p : Nat) (r : Param) : State :=
  let n := s.logicalCount p r
  (below 3 r.held).foldl (fun s c => s.wr (r.compA c + 4 * n) (List.replicate (4 * (r.shard - n)) 0)) s

def State.importRecord (s : State) (p : Nat) (src : ImpRec) : State :=
  if bitsAt src.1 0 4 == 2 then s.wr (bitsAt src.1 128 64) (s.rd src.2 (bitsAt src.1 96 32))
  else (s.params p).foldl (fun s r => s.importLogical p src r) s

def completeImport (c : PendCmd) (s : State) : Option State :=
  let p := entPart c.entry
  match s.importOf (payF c.entry 0 8) (payF c.entry 8 8) with
  | some l =>
    if l.all (s.impOk p) then
      (let s := l.foldl (fun s r => s.importRecord p r) s
       let s := if isWorking l then s else (s.params p).foldl (fun s r => s.zeroPadding p r) s
       some (s.finish c stOk (natLe 4 l.length)))
    else some (s.finish c stFailed (failResult 8))
  | none => some (s.finish c stFailed (failResult 8))

end Sys2Proof.Machine
end

