-- ==== Sys2Proof/Machine/Cut.lean ====
section
/-! DEFINITION. Stop-at-count, the cut and its resume (R502, R565 to R569), and debug halts (R564). -/

namespace Sys2Proof.Machine

-- stop.at and stop.cancel (R502)

/-- The partitions that a stop of an entry's scope acts on. -/
def State.stopTargets (s : State) (e : BitVec 512) : List Nat :=
  (if entDev e then List.range 8 else [entPart e]).filter fun p => activeStates.contains (s.part p).state

/-- A partition that is ARMED, RUNNING or HELD is in a command's reach, or the command is refused. -/
def State.stopLegal (s : State) (e : BitVec 512) (k : Ans) : Ans :=
  if entDev e then s.inDev [2] <| if (s.stopTargets e).isEmpty then .refused s.mgmt.devState none else k
  else s.partIn (entPart e) activeStates k

/-- Captured counts start again (R567). -/
def State.clearCaptures (s : State) : State := (List.range 4).foldl (fun s i => s.setCfgW (ioCfg i + 0x30000) 0) s

/-- Every partition in reach stops at count n; a second stop replaces the first (R502). -/
def State.setStop (s : State) (e : BitVec 512) (n : Nat) : State :=
  let ps := s.stopTargets e
  let s := ps.foldl (fun s p => s.endStops p 4 none) s
  (ps.foldl (fun s p => s.setPart p { s.part p with stopAt := some n }) s).clearCaptures

def stopAtBody (s : State) (e : BitVec 512) : Ans :=
  s.stopLegal e <| Ans.check (decide (s.gc + 2500 ≤ payF e 0 8)) <|
    .pend .plain [bitSet (s.stopTargets e)] none none (s.setStop e (payF e 0 8))

def stopAt (b : Blk) (k : Nat) (s : State) : Option State := lysby ⟨0x0901, .either, .job, .admin, 8⟩ b k stopAtBody s

def execStopAt (b : Blk) (k : Fin 12) (s : State) : Host.Outcome State Fault Refusal := attempt s (stopAt b k.val s)

/-- The pending stops of an entry's scope. -/
def State.stopsOf (s : State) (e : BitVec 512) : List PendCmd :=
  s.mgmt.cmds.filter fun c => entCode c.entry == 0x0901 && entDev c.entry == entDev e && entPart c.entry == entPart e

/-- The pending stops of an entry's scope end. -/
def State.cancelStops (s : State) (e : BitVec 512) : State :=
  let l := s.stopsOf e
  let ps := below 8 fun p => l.any fun c => bitsAt (c.data.headD 0) p 1 == 1
  let s := ps.foldl (fun s p => s.setPart p { s.part p with stopAt := none }) s
  l.foldl (fun s c => s.finish c stFailed (failResult 5)) s

def cancelBody (s : State) (e : BitVec 512) : Ans :=
  if (s.stopsOf e).isEmpty then .refused (s.entState e) none else .ok .plain [] (s.cancelStops e)

def stopCancel (b : Blk) (k : Nat) (s : State) : Option State := lysby ⟨0x0902, .either, .job, .admin, 0⟩ b k cancelBody s

def execStopCancel (b : Blk) (k : Fin 12) (s : State) : Host.Outcome State Fault Refusal := attempt s (stopCancel b k.val s)

-- The cut (R565, R566)

/-- The window that the boundary under way would open is taken, and no stream of it issues. -/
def State.takeWindow (s : State) (p : Part) : State :=
  let t := s.part p.val
  if t.state == 4 then (launchCount p s).getD s
  else if t.bAt.isSome then s.openWindow p (t.window + 1)
  else s

/-- Streams within a locked sequence go on to its end (R566). -/
def State.deferStreams (s : State) (p at_ : Nat) : State :=
  (s.streamsOf p).foldl (fun s i =>
    let x := s.stream i
    if x.inLock && x.haltAt.isNone then s.setStream i { x with haltAt := some (at_, true) } else s) s

/-- A boundary of the partition is under way, or its launch. -/
def PartSt.opening (t : PartSt) : Bool := t.state == 4 || t.bAt.isSome

/-- The cut of partition p at count n: its engines freeze and it is STOPPED; its holds end (R536). -/
def State.cutPart (s : State) (p : Part) (n : Nat) : State :=
  let opening := (s.part p.val).opening
  let s := (s.takeWindow p).deferStreams p.val n
  let s := s.setPart p.val { s.part p.val with
    state := 7
    frozen := true
    stopped := some n
    holds := []
    resumeAt := none }
  let s := if opening then s.setPart p.val { s.part p.val with opened := some n } else s
  let s := s.endStops p.val 6 (some (n, (s.part p.val).window))
  s.notice (some p) 15 (natLe 8 n ++ natLe 1 0)

/-- CUT, once the boundary under way is at its open. -/
def cut_ (p : Part) (s : State) : Option State :=
  let t := s.part p.val
  match t.cutAt with
  | none => none
  | some n => if !t.cutDue s.gc || (t.opening && t.phase != 3) || s.graftOwed p.val then none else some (s.cutPart p n)

def execCut (p : Part) (s : State) : Host.Outcome State Fault Refusal := attempt s (cut_ p s)

-- Captured frames (R567)

/-- Frame f is held, and the port's I/O die writes a capture entry while its ring has room. -/
def State.captureFrame (s : State) (p : Nat) (f : Frame) : State :=
  let s := s.takeArrived p f
  let i := p / 12
  let n := s.cfgF (ioCfg i + 0x30000) 0 32
  let s := { s with net := { s.net with captured := s.net.captured ++ [(p, f)] } }
  let s := s.bumpCfg (ioCfg i + 0x30000) 0 32 1
  if 1024 ≤ n then s.bumpCfg (ioCfg i + 0x30000) 32 32 1
  else
    let a := ioCfg i + 0x20000 + 64 * n
    let s := s.setCfgW a (BitVec.ofNat 64 s.gc)
    let s := s.setCfgW (a + 8) (BitVec.ofNat 64 (p + 2 ^ 6 * fClass f + 2 ^ 8 * (frameBytes f).length))
    (List.range 6).foldl (fun s k => s.setCfgW (a + 16 + 8 * k) (BitVec.ofNat 64 (fld f.hdr (64 * k) 64))) s

/-- FRAME_CAPTURE: a REQUEST or RESPONSE frame for a cut partition. -/
def frameCapture (p : Nat) (f : Frame) (s : State) : Option State :=
  if !s.portLive p || !s.frozenFor f || fClass f < 2 || fDst f != s.node then none else some (s.captureFrame p f)

def execFrameCapture (pt : Port) (f : Frame) (s : State) : Host.Outcome State Fault Refusal :=
  attempt s (frameCapture pt.val f s)

/-- A captured frame applies as it would have on arrival. Frames of exchange and collective messages come in by their own
rows once the partition runs (log 59). -/
def applyFrame (p : Nat) (f : Frame) (s : State) : Option State :=
  match fOp f with
  | 0x01 => loadIn p f s
  | 0x02 => storeIn p f s
  | 0x03 => atomicIn p f s
  | 0x04 => fillIn p f s
  | 0x05 => evictIn p f s
  | 0x06 => invalIn p f s
  | 0x21 => loadDataIn p f s
  | 0x22 => storeAckIn p f s
  | 0x23 => atomicDataIn p f s
  | 0x24 => fillDataIn p f s
  | 0x26 => invalAckIn p f s
  | 0x2F => resyncIn p f s
  | _ => none

/-- The captured frames of partition p, in arrival order. -/
def State.capturedOf (s : State) (p : Nat) : List (Nat × Frame) :=
  s.net.captured.filter fun x => s.ctxPart (fSrc x.2) == p

/-- The partition runs again: captured frames apply first, then the engines unfreeze (R569). A window whose open the cut
caught is open now. -/
def State.thaw (s : State) (p : Part) : State :=
  let fs := s.capturedOf p.val
  let t := s.part p.val
  let caught := t.opened == t.stopped
  let s := s.setPart p.val { t with
    state := 5
    frozen := false
    resumeAt := none
    stopped := none
    hangFrom := some s.gc
    resumed := true }
  let s := { s with net := { s.net with captured := s.net.captured.filter fun x => !fs.contains x } }
  let s := fs.foldl (fun s x => (applyFrame x.1 x.2 s).getD s) s
  if caught then
    (let s := s.setPart p.val { s.part p.val with opened := some s.gc }
     (s.pendingOf 0x0205 p.val).foldl (fun s c => s.finish c stOk (natLe 4 t.window ++ natLe 4 0 ++ natLe 8 s.gc)) s)
  else s

/-- CUT_RESUME, at Rz. -/
def cutResume (p : Part) (s : State) : Option State :=
  let t := s.part p.val
  match t.resumeAt with
  | some n => if t.frozen && decide (n ≤ s.gc) then some (s.thaw p) else none
  | none => none

def execCutResume (p : Part) (s : State) : Host.Outcome State Fault Refusal := attempt s (cutResume p s)

-- Halts (R564)

/-- The streams that a `debug.halt` payload names: engines of a core, or with core 0xFF the XE and CE of a die. -/
def haltTargets (e : BitVec 512) : List Nat :=
  let c := payF e 0 1
  let d := payF e 1 1
  let m := payF e 2 1
  if c == 0xFF then (below 2 fun k => bitsAt m (4 + k) 1 == 1).map fun k => 512 + 2 * d + k
  else (below 4 fun k => bitsAt m k 1 == 1).map fun k => 4 * c + k

/-- The engines exist and belong to the partition. -/
def State.haltOk (s : State) (p : Nat) (e : BitVec 512) : Bool :=
  let m := payF e 2 1
  (if payF e 0 1 == 0xFF then s.dieIn p (payF e 1 1) && bitsAt m 0 4 == 0 && bitsAt m 6 2 == 0
   else s.dieIn p (payF e 0 1 / 4) && bitsAt m 4 4 == 0)

/-- The named engines are asked to halt. -/
def State.askHalt (s : State) (e : BitVec 512) : State :=
  (haltTargets e).foldl (fun s i =>
    let x := s.stream i
    if x.st == .idle || x.st == .halted || x.haltAt.isSome then s
    else s.setStream i { x with haltAt := some (s.gc, false) }) s

def haltBody (s : State) (e : BitVec 512) : Ans :=
  let p := entPart e
  s.partIn p [5, 6] <| s.unlessBusy e .job <| Ans.check (s.haltOk p e) <| .pend .plain [] none none (s.askHalt e)

def debugHalt (b : Blk) (k : Nat) (s : State) : Option State := lysby (jobRow 0x0903 3) b k haltBody s

def execDebugHalt (b : Blk) (k : Fin 12) (s : State) : Host.Outcome State Fault Refusal := attempt s (debugHalt b k.val s)

/-- Every named engine is HALTED or IDLE: the result names those halted with the lock held. -/
def completeHalt (c : PendCmd) (s : State) : Option State :=
  let l := haltTargets c.entry
  if l.any fun i => (s.stream i).st != .idle && (s.stream i).st != .halted then none
  else
    let held := l.filter fun i => (s.stream i).st == .halted && (s.stream i).lockHeld
    some (s.finish c stOk (natLe 1 (bitSet (held.map ixEng))))

/-- CUT_DEFER and CUT_LOCKED of a halt or cut that was asked for at tick k (R564). -/
def State.noteDefer (s : State) (i k : Nat) (locked : Bool) : State :=
  let t := match s.partOfDie (ixDie i) with | some p => s.part p.val | none => partReset
  s.setCfgW (ctrBase i + 0xD0) (BitVec.ofNat 64 (min ((s.gc - k) * 4 * (10 - min t.pace 7) / 5) 4096 + 2 ^ 32 * boolNat locked))

/-- An access of a stream is held at a router: its instruction has issued. -/
def State.midIssue (s : State) (i : Nat) : Bool := s.eng.held.any fun h => h.stream == some i

/-- The halt of stream i asked for at tick k may take: it is outside a locked sequence, or the deferral has run out, and no
access of it is held. -/
def State.mayHalt (s : State) (i k : Nat) : Bool :=
  let t := match s.partOfDie (ixDie i) with | some p => s.part p.val | none => partReset
  !(((s.stream i).inLock && !decide (k + t.deferTicks ≤ s.gc)) || s.midIssue i)

/-- The halt takes; by a cut, the freeze holds the engine. -/
def State.haltStream (s : State) (i k : Nat) (byCut : Bool) : State :=
  let x := s.stream i
  let s := s.noteDefer i k x.inLock
  let x := { x with haltAt := none, lockHeld := x.lockHeld || x.inLock }
  if byCut || x.st == .idle then s.setStream i x else s.setStream i { x with st := .halted, resume := x.st }

/-- ENGINE_HALT: an engine halts at its next instruction boundary, after a locked sequence, or with the lock held once
4,096 cycles have passed. -/
def engineHalt (st : Stream) (s : State) : Option State :=
  match (s.stream (streamIx st)).haltAt with
  | none => none
  | some (k, byCut) => if !s.mayHalt (streamIx st) k then none else some (s.haltStream (streamIx st) k byCut)

def execEngineHalt (st : Stream) (s : State) : Host.Outcome State Fault Refusal := attempt s (engineHalt st s)

/-- Some engine of the partition is halted. -/
def State.anyHalted (s : State) (p : Nat) : Bool := (s.streamsOf p).any fun i => (s.stream i).st == .halted

/-- The named engines that are halted go on. -/
def State.runHalted (s : State) (e : BitVec 512) : State :=
  (haltTargets e).foldl (fun s i =>
    let x := s.stream i
    if x.st == .halted then s.setStream i { x with st := x.resume } else s) s

def runBody (s : State) (e : BitVec 512) : Ans :=
  let p := entPart e
  s.partIn p [5, 6] <| if !s.anyHalted p then .refused (s.part p).state none
    else s.unlessBusy e .job <| Ans.check (s.haltOk p e) <| .ok .plain [] (s.runHalted e)

def debugRun (b : Blk) (k : Nat) (s : State) : Option State := lysby (jobRow 0x0904 3) b k runBody s

def execDebugRun (b : Blk) (k : Fin 12) (s : State) : Host.Outcome State Fault Refusal := attempt s (debugRun b k.val s)

end Sys2Proof.Machine
end

