-- ==== Sys2Proof/Machine/Inspect.lean ====
section
/-! DEFINITION. Looking at a running device: peek and take (R561 to R563), trace rings (R557, R559), counter snapshots
(R554), the accumulator view and JTAG (R562, R570). -/

namespace Sys2Proof.Machine

-- Reach (R503)

/-- The domain behind an address of configuration space; none for heartwood. -/
def State.cfgDom (s : State) (a : Nat) : Option Nat :=
  if a < coreCfg 128 then some (s.coreKey ((a - coreCfg 0) / 0x100000))
  else if a < dieCfg 32 then some (s.dieKey ((a - dieCfg 0) / 0x100000))
  else if a < memCfg 12 then some (memKey ((a - memCfg 0) / 0x100000))
  else if a < ioCfg 4 then some (170 + 46 + (a - ioCfg 0) / 0x100000)
  else none

/-- The domain behind any address. -/
def State.domAt (s : State) (a : Nat) : Option Nat := if inCfg a 1 then s.cfgDom a else some (s.domOf a)

/-- n bytes at a lie in the configuration blocks of partition p's cores and dies. -/
def State.inBlocks (s : State) (p a n : Nat) : Bool :=
  a / 0x100000 == (a + n - 1) / 0x100000 &&
    ((decide (coreCfg 0 ≤ a) && decide (a < coreCfg 128) && s.dieIn p ((a - coreCfg 0) / 0x100000 / 4))
      || (decide (dieCfg 0 ≤ a) && decide (a < dieCfg 32) && s.dieIn p ((a - dieCfg 0) / 0x100000)))

/-- n bytes at a lie in the blocks of units that partitions share (R555). -/
def sharedBlock (a n : Nat) : Bool := decide (memCfg 0 ≤ a) && decide (a + n ≤ hwCfg 2)

def isAdmin (b : Blk) (k : Nat) : Bool := b == .pf && decide (k < 4)

/-- The requester reaches n bytes at a: a PF administrator everything, others their partition's ranges and blocks, and in
device scope the shared units. -/
def State.mayReach (s : State) (b : Blk) (k : Nat) (e : BitVec 512) (a n : Nat) : Bool :=
  isAdmin b k || (if entDev e then sharedBlock a n else s.inPart (entPart e) a n || s.inBlocks (entPart e) a n)

-- Peek (R561)

/-- n bytes at a, as they are stored. -/
def State.view (s : State) (a n : Nat) : List Byte := if inCfg a n then s.cfgBytes a n else s.rd a n

def peekBody (b : Blk) (k : Nat) (s : State) (e : BitVec 512) : Ans :=
  let a := payF e 0 8
  let n := payF e 8 4
  let dst := payF e 16 8
  if n == 0 || 2 ^ 20 < n || (dst == 0 && 48 < n) then .bad []
  else if !s.mayReach b k e a n then .rights
  else if !inCfg a n && !s.mapped a n then .bad []
  else if dst != 0 && !s.bufOk e dst n then .bad []
  else
    let d := s.domAt a
    match d.map s.power with
    | some .off => .refused (s.entState e) none
    | x =>
      let s := match d with
        | some key => if x == some .sleep then s.requestWake key else s
        | none => s
      if dst != 0 then .pend .none [] none none s
      else if !inCfg a n && s.poisoned a n then .failed 7 s
      else .ok .none (s.view a n) s

def peek (b : Blk) (k : Nat) (s : State) : Option State := lysby ⟨0x0905, .either, .read, .read, 24⟩ b k (peekBody b k) s

def execPeek (b : Blk) (k : Fin 12) (s : State) : Host.Outcome State Fault Refusal := attempt s (peek b k.val s)

/-- The bytes stand at the destination, poisoned lines as poison. -/
def completePeek (c : PendCmd) (s : State) : Option State :=
  let a := payF c.entry 0 8
  let n := payF c.entry 8 4
  let dst := payF c.entry 16 8
  let bad := if inCfg a n then [] else (linesOf a n).filter fun l => s.poison.contains l
  let s := s.wr dst (s.view a n)
  let s := bad.foldl (fun s l =>
    let lo := max (64 * l) a - a
    let hi := min (64 * l + 64) (a + n) - a
    (linesOf (dst + lo) (hi - lo)).foldl State.setPoison s) s
  some (s.finish c stOk [])

-- Take (R445, R503, R563)

/-- The ring whose TRC_FIRE stands at an address. -/
def fireRing (a : Nat) : Option (Nat × Nat) :=
  if dieCfg 0 ≤ a ∧ a < dieCfg 32 ∧ 0x2028 ≤ a % 0x100000 ∧ a % 0x100000 < 0x2300 ∧ a % 64 = 0x28 then
    some ((a - dieCfg 0) / 0x100000, (a % 0x100000 - 0x2000) / 64)
  else none

/-- A ring's manual trigger may fire. -/
def State.mayFire (s : State) (d k : Nat) : Bool :=
  s.cfgF (Sys2Proof.Machine.ringBase d k) 0 2 == 1 && s.cfgF (Sys2Proof.Machine.ringBase d k) 13 3 == 3

/-- The TAKE of TRC_FIRE: what it reads, and the state after it. -/
def State.fire (s : State) (d k : Nat) : Nat × State := if s.mayFire d k then (1, s.ringTrigger d k) else (0, s)

def execTrcFire (ring : Fin 384) (s : State) : Host.Outcome State Fault Refusal :=
  let x := s.fire (ring.val / 12) (ring.val % 12)
  .next (x.2.emit (.readback x.1))

/-- The register at `a` and the state after its TAKE fields have acted; none where it holds no such field. -/
def State.takeAt (s : State) (a : Nat) : Option (Nat × State) :=
  if a == hwReg 0x3008 then some ((s.cfgRead a).toNat, s.takePeakW)
  else if a == hwReg 0x5028 then some ((s.cfgRead a).toNat, s.takeFifoPeak)
  else (fireRing a).map fun x => s.fire x.1 x.2

def takeBody (b : Blk) (k : Nat) (s : State) (e : BitVec 512) : Ans :=
  let a := payF e 0 8
  let go : Ans :=
    if !s.mayReach b k e a 8 then .rights
    else match s.takeAt a with
      | some (v, s') => .ok .plain (natLe 8 v) s'
      | none => .bad []
  if entDev e then go else s.partIn (entPart e) jobStates go

def take_ (b : Blk) (k : Nat) (s : State) : Option State := lysby ⟨0x0906, .either, .job, .admin, 8⟩ b k (takeBody b k) s

def execTake (b : Blk) (k : Fin 12) (s : State) : Host.Outcome State Fault Refusal := attempt s (take_ b k.val s)

-- Trace rings (R557, R559)

/-- The ring is ARMED with the settings of a `trace.arm` payload. -/
def State.armRing (s : State) (d k : Nat) (e : BitVec 512) : State :=
  let a := Sys2Proof.Machine.ringBase d k
  let s := s.setCfgW a (BitVec.ofNat 64 (1 + 4 * payF e 3 1 + 2 ^ 8 * payF e 2 1 + 2 ^ 13 * payF e 4 1))
  let s := (s.setCfgW (a + 0x10) 0).setCfgW (a + 0x18) (BitVec.allOnes 64)
  ((s.setCfgW (a + 0x20) 0).setCfgW (a + 0x30) (BitVec.ofNat 64 (payF e 8 8))).setCfgW (a + 0x38) (BitVec.ofNat 64 (payF e 16 8))

def armBody (s : State) (e : BitVec 512) : Ans :=
  let p := entPart e
  let d := payF e 0 2 / 12
  let k := payF e 0 2 % 12
  s.partIn p jobStates <| Ans.check (s.dieIn p d && s.cfgF (Sys2Proof.Machine.ringBase d k + 8) 48 5 != 0 && decide (payF e 2 1 ≤ 16)
      && decide (payF e 3 1 < 2) && decide (payF e 4 1 < 4)) <| .ok .plain [] (s.armRing d k e)

def traceArm (b : Blk) (k : Nat) (s : State) : Option State := lysby (jobRow 0x0907 24) b k armBody s

def execTraceArm (b : Blk) (k : Fin 12) (s : State) : Host.Outcome State Fault Refusal := attempt s (traceArm b k.val s)

/-- TRACE_TRIGGER: the global count reaches TRIG_VALUE (kind 0); the other kinds fire with their record, notice or take. -/
def traceTrigger (d k : Nat) (s : State) : Option State :=
  let a := Sys2Proof.Machine.ringBase d k
  if s.cfgF a 0 2 == 1 && s.cfgF a 13 3 == 0 && decide ((s.cfgW (a + 0x30)).toNat ≤ s.gc) then some (s.ringTrigger d k) else none

def execTraceTrigger (ring : Fin 384) (s : State) : Host.Outcome State Fault Refusal :=
  attempt s (traceTrigger (ring.val / 12) (ring.val % 12) s)

-- Snapshots (R553, R554)

/-- The logical compute dies that a snapshot covers. -/
def State.snapDies (s : State) (e : BitVec 512) : List Nat := if entDev e then List.range s.nDies else s.diesOf (entPart e)

def State.snapBytes (s : State) (e : BitVec 512) : Nat :=
  let d := (s.snapDies e).length
  64 + 1024 * (4 * d) + 512 * d + (if entDev e then 8 * 128 + 4096 else 128)

def snapBody (s : State) (e : BitVec 512) : Ans :=
  let go : Ans := Ans.check (s.bufOk e (payF e 0 8) (payF e 8 4) && decide (s.snapBytes e ≤ payF e 8 4)) <|
    .pend .plain [(s.gc + 2500 + 255) / 256 * 256] none none s
  if entDev e then go else s.partIn (entPart e) jobStates go

def countersSnap (b : Blk) (k : Nat) (s : State) : Option State := lysby ⟨0x0908, .either, .read, .read, 12⟩ b k snapBody s

def execCountersSnap (b : Blk) (k : Fin 12) (s : State) : Host.Outcome State Fault Refusal := attempt s (countersSnap b k.val s)

def State.words (s : State) (a n : Nat) : List Nat := (List.range n).map fun i => (s.cfgRead (a + 8 * i)).toNat

/-- A partition's group block, by 8 B field. -/
def State.groupWords (s : State) (p : Nat) : List Nat := (List.range 16).map fun f => tget (fun _ => 0) s.mgmt.group (16 * p + f)

/-- The words of a snapshot after its header (Table 20-3). -/
def State.snapWords (s : State) (e : BitVec 512) : List Nat :=
  let ds := s.snapDies e
  let cores := (ds.map fun d => (List.range 4).map fun i => s.words (coreCfg (4 * d + i) + 0x1000) 128).flatten.flatten
  let dies := (ds.map fun d => s.words (dieCfg d + 0x1000) 64).flatten
  if entDev e then
    let dev := ((List.range 48).map fun p => s.words (portA p + 8) 5).flatten ++ s.words (hwReg 0x3000) 5
      ++ s.words (hwReg 0x5000) 8 ++ ((List.range 12).map fun m => s.words (stackA m) 1).flatten ++ s.words (ioCfg 0 + 0x20) 2
    cores ++ dies ++ ((List.range 8).map s.groupWords).flatten ++ dev ++ List.replicate (512 - dev.length) 0
  else cores ++ dies ++ s.groupWords (entPart e)

/-- The snapshot's header: K, partition, cores, dies, total bytes. -/
def State.snapHead (s : State) (e : BitVec 512) (k : Nat) : List Nat :=
  let d := (s.snapDies e).length
  [k, (if entDev e then 0xFF else entPart e) + 2 ^ 8 * (4 * d) + 2 ^ 24 * d + 2 ^ 32 * s.snapBytes e, 0, 0, 0, 0, 0, 0]

/-- SNAPSHOT_LATCH: at count K the pending snapshot keeps every counter that it covers, and none changes. -/
def snapshotLatch (i : Nat) (s : State) : Option State :=
  match s.mgmt.cmds[i]? with
  | none => none
  | some c =>
    match c.data with
    | [k] =>
      if entCode c.entry != 0x0908 || s.gc < k then none
      else
        let c' := { c with data := k :: (s.snapHead c.entry k ++ s.snapWords c.entry) }
        some { s with mgmt := { s.mgmt with cmds := s.mgmt.cmds.set i c' } }
    | _ => none

def execSnapshotLatch (i : Nat) (s : State) : Host.Outcome State Fault Refusal := attempt s (snapshotLatch i s)

/-- The snapshot is written once it is latched. -/
def completeSnap (c : PendCmd) (s : State) : Option State :=
  match c.data with
  | k :: w :: rest =>
    let n := s.snapBytes c.entry
    let s := s.wr (payF c.entry 0 8) (((w :: rest).map (natLe 8)).flatten)
    some (s.finish c stOk (natLe 4 n ++ natLe 4 0 ++ natLe 8 k))
  | _ => none

/-- SNAPSHOT_WRITE_TIMEOUT (R533). -/
def snapTimeout (i : Nat) (s : State) : Option State :=
  match s.mgmt.cmds[i]? with
  | none => none
  | some c =>
    if entCode c.entry != 0x0908 || s.gc < c.data.headD 0 + 250000 then none
    else some ((s.finish c stFailed (failResult 7)).bumpCfg (hwReg 0x5038) 0 32 1)

def execSnapshotWriteTimeout (i : Nat) (s : State) : Host.Outcome State Fault Refusal := attempt s (snapTimeout i s)

-- Accumulator view and JTAG (R562, R570)

/-- ACC_WIN_WRITE: bits 1 and 0 choose the quarter; the rest is reserved. -/
def execAccWinWrite (c : Core) (v : W64) (s : State) : Host.Outcome State Fault Refusal :=
  .next (s.setCfgW (coreCfg c.val + 0x900) (v &&& 3))

/-- Every sapwood domain is OFF. -/
def State.allOff (s : State) : Bool := switched.all fun k => s.power k == .off

def drivesPins : JtagInstr → Bool
  | .extest => true
  | .extestPulse => true
  | .extestTrain => true
  | .clamp => true
  | .highz => true
  | _ => false

/-- IDCODE (IEEE 1149.1): stepping, part number, manufacturer code, and a 1. -/
def State.idcode (s : State) : Nat :=
  s.mgmt.stepping % 16 * 2 ^ 28 + 0x4A64 * 2 ^ 12 + Config.jep106.toNat * 2 + 1

def execBoundaryScan (i : JtagInstr) (s : State) : Host.Outcome State Fault Refusal :=
  let j := if drivesPins i && !s.allOff then .bypass else i
  let s := { s with mgmt := { s.mgmt with jtag := j } }
  .next (if j == .idcode then s.emit (.readback s.idcode) else s)

end Sys2Proof.Machine
end

