-- ==== Sys2Proof/Machine/Graft.lean ====
section
/-! DEFINITION. Grafting a coppice die over a compute die (R495, R496, R539 to R543, Table 17-7). -/

namespace Sys2Proof.Machine

def graftRow (code plen : Nat) (c : RightsCls) : CmdRow := ⟨code, .part, c, c, plen⟩

/-- A graft that is preparing, prepared or committing. -/
def Graft.open_ (g : Graft) : Bool := g.phase != 5

def State.putGraft (s : State) (g : Graft) : State :=
  s.setGrafts (s.mgmt.grafts.map fun h => if h.die == g.die then g else h)

/-- The spare starts to power up (Table 19-8). -/
def State.enableSpare (s : State) (x : Nat) : State := (dieDomains x).foldl State.enable s

/-- The spare that a preparation tries: the one named, or the lowest of the coppice. -/
def State.spareFor (s : State) (want : Nat) : Option Nat :=
  if want == 0xFF then (below 34 fun x => s.mgmt.coppice.contains x).head? else some want

/-- Spare x is prepared to take over logical die d. -/
def State.startGraft (s : State) (d p x : Nat) : State :=
  (s.enableSpare x).setGrafts (s.mgmt.grafts.filter (fun h => h.die != d) ++ [⟨d, p, x, s.physDie d, 1, 0, 0, 0, 0⟩])

def prepareBody (s : State) (e : BitVec 512) : Ans :=
  let p := entPart e
  let d := payF e 0 1
  let want := payF e 1 1
  s.notReplay p <| s.partIn p [2, 3, 4, 5, 6, 7] <|
    Ans.check (s.dieIn p d && (want == 0xFF || s.mgmt.coppice.contains want)) <|
    (if s.mgmt.grafts.any fun g => g.die == d && g.open_ then .refused (s.part p).state none
    else if s.mgmt.grafts.any Graft.open_ then .busy
    else match s.spareFor want with
      | none => .failed 7 s
      | some x => .pend .plain [d] none none (s.startGraft d p x))

def graftPrepare (b : Blk) (k : Nat) (s : State) : Option State := lysby (graftRow 0x0601 2 .admin) b k prepareBody s

def execGraftPrepare (b : Blk) (k : Fin 12) (s : State) : Host.Outcome State Fault Refusal :=
  attempt s (graftPrepare b k.val s)

/-- A spare that has failed leaves the coppice, its domains OFF. -/
def State.failSpare (s : State) (x : Nat) : State :=
  let s := { s with mgmt := { s.mgmt with
    coppice := s.mgmt.coppice.filter fun y => y != x, failedDies := s.mgmt.failedDies ++ [x] } }
  s.disableAll (dieDomains x)

/-- The device is FAULTED, as a lost link on the route of a graft makes it (R543). -/
def State.faulted (s : State) : Bool := s.mgmt.devState == 9

/-- The preparation reaches PREPARED, or the spare fails and the other coppice die is tried. -/
def completePrepare (c : PendCmd) (failed : List Nat) (s : State) : Option State :=
  match s.graftOf (c.data.headD 0) with
  | none => none
  | some g =>
    if s.faulted then some ((s.dropGraft g.die).finish c stFailed (failResult 7))
    else if failed.contains g.spare then
      (let s := s.failSpare g.spare
       match s.mgmt.coppice with
       | [] => some ((s.setGrafts (s.mgmt.grafts.filter fun h => h.die != g.die)).finish c stFailed (failResult 7))
       | x :: _ => some ((s.enableSpare x).putGraft { g with spare := x }))
    else if (dieDomains g.spare).all fun k => s.power k == .on then
      (let e := s.gc + 2500
       some ((s.putGraft { g with phase := 2, earliest := e }).finish c stOk (natLe 1 g.spare ++ natLe 7 0 ++ natLe 8 e)))
    else none

/-- The window opened by the first boundary whose B is at least n, by the meeting counts of the job (R496). -/
def State.commitWindow (s : State) (p n : Nat) : Option Nat :=
  let t := s.part p
  if t.state == 4 then some 0
  else ((List.range 4096).find? fun k => decide (n ≤ s.mc t (t.window + k))).map fun k => t.window + k + 1

def graftCommitBody (s : State) (e : BitVec 512) : Ans :=
  let p := entPart e
  let n := payF e 8 8
  s.notReplay p <| match s.graftOf (payF e 0 1) with
    | some g =>
      if g.part != p || g.phase != 2 then .refused (s.part p).state none
      else if activeStates.contains (s.part p).state then
        Ans.check (decide (g.earliest ≤ n)) <|
          .pend (.window (s.commitWindow p n)) [g.die] none none (s.putGraft { g with phase := 3, count := n })
      else .pend .plain [g.die] none none (s.putGraft { g with phase := 4, count := n, agreed := s.gc })
    | none => .refused (s.part p).state none

def graftCommit (b : Blk) (k : Nat) (s : State) : Option State := lysby (graftRow 0x0602 16 .admin) b k graftCommitBody s

def execGraftCommit (b : Blk) (k : Fin 12) (s : State) : Host.Outcome State Fault Refusal :=
  attempt s (graftCommit b k.val s)

/-- The spare failed before its die took over, or a link of the route is lost. -/
def completeCommit (c : PendCmd) (failed : List Nat) (s : State) : Option State :=
  match s.graftOf (c.data.headD 0) with
  | none => none
  | some g =>
    if g.phase == 5 then none
    else if failed.contains g.spare then
      some (((s.failSpare g.spare).setGrafts (s.mgmt.grafts.filter fun h => h.die != g.die)).finish c stFailed (failResult 7))
    else if s.faulted then some ((s.dropGraft g.die).finish c stFailed (failResult 7))
    else none

def abortBody (s : State) (e : BitVec 512) : Ans :=
  let p := entPart e
  s.notReplay p <| match s.graftOf (payF e 0 1) with
    | some g =>
      if g.part != p || g.phase != 2 then .refused (s.part p).state none
      else .ok .plain [] (s.dropGraft g.die)
    | none => .refused (s.part p).state none

def graftAbort (b : Blk) (k : Nat) (s : State) : Option State := lysby (graftRow 0x0603 1 .admin) b k abortBody s

def execGraftAbort (b : Blk) (k : Fin 12) (s : State) : Host.Outcome State Fault Refusal :=
  attempt s (graftAbort b k.val s)

/-- Phase as `graft.status` gives it. -/
def Graft.code (g : Graft) : Nat := if g.phase == 5 then 0 else if g.phase == 4 then 3 else g.phase

def graftStatusBody (s : State) (e : BitVec 512) : Ans :=
  let p := entPart e
  let d := payF e 0 1
  Ans.check (s.dieIn p d) <| match s.graftOf d with
    | some g =>
      if g.phase == 5 then .ok .plain [] s else .ok .plain (natLe 1 g.code ++ natLe 1 g.spare ++ natLe 6 0 ++ natLe 8 g.agreed) s
    | none => .ok .plain [] s

def graftStatus (b : Blk) (k : Nat) (s : State) : Option State := lysby (graftRow 0x0604 1 .read) b k graftStatusBody s

def execGraftStatus (b : Blk) (k : Fin 12) (s : State) : Host.Outcome State Fault Refusal :=
  attempt s (graftStatus b k.val s)

-- The graft boundary (R541, R542)

/-- The partition has no window under way. -/
def State.restsPart (s : State) (p : Nat) : Bool := restStates.contains (s.part p).state

/-- The old die's window has met R162, and the coming boundary carries the graft. -/
def State.copyMay (s : State) (g : Graft) : Bool :=
  let t := s.part g.part
  s.restsPart g.part || ((s.openStream g.part).isNone && s.opsDone g.part
    && (g.agreed != 0 || decide (g.count ≤ (if t.state == 4 then max s.gc (t.lc - 32) else max s.gc (s.mc t t.window)))))

/-- GRAFT_FINAL_COPY: everything that programs, counters and results can see is kept by logical number, so the copy moves
nothing in the state (R539). -/
def graftFinalCopy (d : Nat) (s : State) : Option State :=
  match s.graftOf d with
  | some g => if g.phase != 3 || s.faulted || !s.copyMay g then none else some (s.putGraft { g with phase := 4 })
  | none => none

def execGraftFinalCopy (d : CDie) (s : State) : Host.Outcome State Fault Refusal := attempt s (graftFinalCopy d.val s)

/-- What heartwood keeps of the physical lines of logical die d starts anew on the spare. -/
def State.freshLines (s : State) (d : Nat) : State :=
  let mine (bank : Nat) : Bool := bank / 512 == d
  { s with svc := { s.svc with
    lineSpares := s.svc.lineSpares.filter fun x => !mine x.1
    lineHits := s.svc.lineHits.filter fun x => !mine (x.1 / 65536)
    lineQueue := s.svc.lineQueue.filter fun x => !mine x.1 } }

/-- The routers take the new map, the repair log and a GRAFTED record tell it, and `graft.commit` ends OK. -/
def State.switchMap (s : State) (g : Graft) (agreed : Nat) : State :=
  let s := s.freshLines g.die
  let s := { s with mgmt := { s.mgmt with
    dieMap := s.mgmt.dieMap.set g.die (Fin.ofNat 34 g.spare)
    graftLog := s.mgmt.graftLog ++ [(g.die, g.spare)]
    coppice := s.mgmt.coppice.filter fun x => x != g.spare } }
  let s := (s.logRepair 6 g.die g.old g.spare).putGraft { g with phase := 5, agreed := agreed, until_ := agreed + 2500 }
  let s := s.raise { mkErr 0 0 g.old 0xFF 0x0507 with
    logical := BitVec.ofNat 16 g.die
    part := some (Fin.ofNat 8 g.part)
    detail := BitVec.ofNat 64 (g.old + 2 ^ 8 * g.spare + 2 ^ 32 * (agreed % 2 ^ 32)) }
  (s.mgmt.cmds.filter fun c => entCode c.entry == 0x0602 && c.data.headD 0 == g.die).foldl
    (fun s c => s.finish c stOk (natLe 8 agreed ++ natLe 1 g.old)) s

/-- GRAFT_MAP_SWITCH, at the agreed count. A partition that came to rest before its boundary agrees on the present count. -/
def graftMapSwitch (d : Nat) (s : State) : Option State :=
  match s.graftOf d with
  | some g =>
    let agreed := if g.agreed == 0 && s.restsPart g.part then s.gc else g.agreed
    if g.phase != 4 || agreed == 0 || s.gc < agreed || s.faulted then none else some (s.switchMap g agreed)
  | none => none

def execGraftMapSwitch (d : CDie) (s : State) : Host.Outcome State Fault Refusal := attempt s (graftMapSwitch d.val s)

/-- GRAFT_FORWARD_END: the old die's compute-die and core domains go OFF; its router stays in service. -/
def graftForwardEnd (d : Nat) (s : State) : Option State :=
  match s.graftOf d with
  | some g =>
    if g.phase != 5 || s.gc < g.until_ then none
    else some ((s.disableAll (dieDomains g.old)).setGrafts (s.mgmt.grafts.filter fun h => h.die != d))
  | none => none

def execGraftForwardEnd (d : CDie) (s : State) : Host.Outcome State Fault Refusal := attempt s (graftForwardEnd d.val s)

end Sys2Proof.Machine
end

