-- ==== Sys2Proof/Machine/Wear.lean ====
section
/-! DEFINITION. Wear indices (R544 to R546) and preparing a part for return (R547 to R549). -/

namespace Sys2Proof.Machine

-- Wear (Tables 19-10 and 19-11)

/-- Kind and physical number of the unit of a wear index. -/
def wearUnit (i : Nat) : Nat × Nat :=
  if i < 34 then (0, i) else if i < 46 then (1, i - 34) else if i < 58 then (2, i - 46) else if i < 62 then (3, i - 58)
  else if i < 110 then (3, i - 62) else if i < 112 then (4, i - 110) else (5, 0)

/-- Repairs of a kind in the repair log that a unit has used. -/
def State.repairsOf (s : State) (kind : Nat) (hit : Nat → Bool) : Nat :=
  (s.mgmt.repairs.filter fun r => r.1 == kind && hit r.2.1).length

/-- Mesh links of physical compute die x, and of memory die m (R13, Table 1-2). -/
def dieLinks (x : Nat) : Nat :=
  let c := diePlace x
  let inner := decide (2 ≤ c.1) && decide (c.1 ≤ 5)
  2 + boolNat (c.2 != 1 || inner) + boolNat (c.2 != 6 || inner)
def memLinks (m : Nat) : Nat := 1 + boolNat (m % 6 != 0) + boolNat (m % 6 != 5)

/-- Redundant lanes used of a unit's die-to-die modules; each module has 4, each link 16 modules. -/
def State.d2dLanes (s : State) (k : Nat) : Nat := ((List.range 96).map fun i => cnt s.net.d2dUsed (k * 96 + i)).sum

/-- SPARE_A and SPARE_B of an index: used and total. -/
def State.wearSpares (s : State) (i : Nat) : (Nat × Nat) × (Nat × Nat) :=
  let u := (wearUnit i).2
  if i < 34 then ((s.repairsOf 0 fun c => c / 4 == u, 16384), (s.d2dLanes u, 64 * dieLinks u))
  else if i < 46 then ((s.repairsOf 1 fun m => m == u, 16384), (s.d2dLanes (34 + u), 64 * memLinks u))
  else if i < 58 then ((s.repairsOf 2 fun m => m == u, 2097152), (s.repairsOf 3 fun m => m == u, 128))
  else if i < 62 then ((s.d2dLanes (46 + u), 128), (0, 0))
  else if i < 110 then
    ((boolNat (s.cfgF (portA u) 3 1 == 1 && ((s.lnk u).spare.isSome || s.net.deadSpares.contains u)),
      s.cfgF (portA u) 3 1), (0, 0))
  else if i < 112 then ((0, 0), (0, 0))
  else ((s.mgmt.graftLog.length, 2), (0, 0))

/-- Corrected events of the last 2^48 ticks. -/
def State.wearRecent (s : State) (i : Nat) : Nat :=
  (s.mgmt.wearAt.filter fun x => x.1 == i && decide (s.gc < x.2 + 2 ^ 48)).length

def gone (x : Nat × Nat) : Bool := x.2 != 0 && decide (x.2 ≤ x.1)
def worn (x : Nat × Nat) : Bool := x.2 != 0 && decide (3 * x.2 ≤ 4 * x.1)

/-- STATUS: 0 GOOD, 1 WATCH, 2 REPLACE (R546). -/
def State.wearStatus (s : State) (i : Nat) : Nat :=
  let (a, b) := s.wearSpares i
  let age := cnt s.mgmt.wearAge i
  let out := (decide (46 ≤ i) && decide (i < 58) && s.retired (i - 46))
    || (decide (i < 34) && s.mgmt.repairs.any fun r => r.1 == 6 && r.2.2.1 == i)
  if out || gone a || gone b || decide (500 ≤ age) then 2
  else if worn a || worn b || decide (300 ≤ age) || decide (2 ^ 20 ≤ s.wearRecent i) || (i == 112 && a.1 == 1) then 1
  else 0

/-- The result of `wear.read` (Table 19-11). -/
def State.wearBytes (s : State) (i : Nat) : List Byte :=
  let (a, b) := s.wearSpares i
  let u := wearUnit i
  let peak : Int := tget (fun _ => 0) s.mgmt.wearPeak i / 4
  natLe 2 i ++ natLe 1 u.1 ++ natLe 1 u.2 ++ natLe 1 (s.wearStatus i) ++ natLe 3 0
    ++ natLe 4 a.1 ++ natLe 4 a.2 ++ natLe 4 b.1 ++ natLe 4 b.2
    ++ natLe 8 (cnt s.mgmt.wearCe i) ++ natLe 4 (min (s.wearRecent i) (2 ^ 32 - 1))
    ++ natLe 2 (cnt s.mgmt.wearAge i) ++ natLe 1 (peak % 256).toNat ++ natLe 1 0
    ++ natLe 8 (cnt s.mgmt.wearOn i / 2 ^ 20)

def wearBody (s : State) (e : BitVec 512) : Ans :=
  let i := payF e 0 2
  Ans.check (i < 113) <| .ok .none (s.wearBytes i) s

def wearRead (b : Blk) (k : Nat) (s : State) : Option State := lysby (devRow 0x0A06 2 .read) b k wearBody s

def execWearRead (b : Blk) (k : Fin 12) (s : State) : Host.Outcome State Fault Refusal := attempt s (wearRead b k.val s)

/-- AGEING_SAMPLE: at each `device.start`, and every 2^38 ticks. -/
def ageingSample (readings : List (Nat × Nat)) (s : State) : Option State :=
  let due := match s.mgmt.aged with | none => true | some t => decide (t + 2 ^ 38 ≤ s.gc)
  if !s.mgmt.supply || !s.mgmt.booted || !due then none
  else some { s with mgmt := { s.mgmt with
    aged := some s.gc
    wearAge := readings.foldl (fun t r => tput (fun _ => 0) t r.1 r.2) s.mgmt.wearAge } }

def execAgeingSample (readings : List (Fin 113 × Nat)) (s : State) : Host.Outcome State Fault Refusal :=
  attempt s (ageingSample (readings.map fun r => (r.1.val, r.2)) s)

-- Return (R548)

def prepareReturn (s : State) (e : BitVec 512) : Ans :=
  s.inDev [8] <| s.unlessBusy e .service <|
    Ans.check (BitVec.ofNat 64 (payF e 0 8) == s.mgmt.serial) <| .pend .none [] none none s

def returnPrepare (b : Blk) (k : Nat) (s : State) : Option State := lysby (devRow 0x0A08 8 .service) b k prepareReturn s

def execReturnPrepare (b : Blk) (k : Fin 12) (s : State) : Host.Outcome State Fault Refusal :=
  attempt s (returnPrepare b k.val s)

/-- Step 1: zeros in every core, well, and stack that is not retired. -/
def State.zeroAll (s : State) : State :=
  let s := (List.range 128).foldl State.initCore s
  let s := (List.range 12).foldl
    (fun s m => s.clearMem (Sys2Proof.Machine.wellBase m) (Sys2Proof.Machine.wellBase m + 0x10000000)) s
  (below 12 fun m => !s.retired m).foldl (fun s m => s.clearMem (hbmBase m) (hbmBase (m + 1))) s

/-- Numbers of the FACTORY section. -/
def factoryNats (p : Plate) : List Nat :=
  [p.order, p.serial.toNat] ++ p.dieMap.map Fin.val ++ p.coppice.map Fin.val ++ p.fused.map Fin.val

/-- The parts of the capture, in the order of step 2. -/
def State.captureParts (s : State) : List (List Nat) :=
  let bytes (l : List Byte) : List Nat := l.map BitVec.toNat
  let top := (s.cfgW (hwReg 0x5000)).toNat
  [bytes s.identity] ++ (s.mgmt.meas.take 4).map bytes ++ [(s.factory.map factoryNats).getD []]
    ++ s.mgmt.repairs.map (fun r => [r.1, r.2.1, r.2.2.1, r.2.2.2])
    ++ ((List.range (min top 16384)).map fun k => bytes ((s.record (top - min top 16384 + k)).getD []))
    ++ ((List.range 113).map fun i => bytes (s.wearBytes i))
    ++ [(List.range 6).map fun k => (s.hwWord s.mgmt.active (0x3000 + 8 * k)).toNat,
        (List.range 8).map fun k => (s.hwWord s.mgmt.active (0x5000 + 8 * k)).toNat,
        (List.range 12).map fun m => (s.cfgW (stackA m)).toNat]

/-- Steps 1 to 4: zeros, the capture, plates erased, the seal; then HEARTWOOD with every sapwood domain OFF. -/
def completeReturn (c : PendCmd) (s : State) : Option State :=
  let s := s.zeroAll
  let cap := Config.captureBytes s.captureParts
  let s := (s.disableAll switched).settleAll switched
  let s := { s with mgmt := { s.mgmt with
    capture := cap
    plates := [none, none]
    sealed := true
    devState := 1
    asleep := false } }
  some (s.finish c stOk (sha384 cap))

end Sys2Proof.Machine
end

