-- ==== Sys2Proof/Machine/Final.lean ====
section
/-! DEFINITION. The final response of a P command, when the event it waits for occurs (R476). -/

namespace Sys2Proof.Machine

/-- The event of a pending command: `failed` names the units that fail a test that is part of it. -/
def completeCmd (c : PendCmd) (failed : List Nat) (s : State) : Option State :=
  match entCode c.entry with
  | 0x0101 => completeStart c failed s
  | 0x0102 => completeStop c s
  | 0x0103 => completeReset c s
  | 0x0201 => completeLoad c s
  | 0x0202 => completeUnload c s
  | 0x0204 => completeTeardown c s
  | 0x0207 => completeInput c s
  | 0x0208 => completeAudit c s
  | 0x0401 => completeStage c s
  | 0x0402 => completeApply c s
  | 0x0403 => completeOverlay c s
  | 0x0404 => completeOverlay c s
  | 0x0601 => completePrepare c failed s
  | 0x0602 => completeCommit c failed s
  | 0x0704 => completeCompare c s
  | 0x0803 => completeExport c s
  | 0x0804 => completeImport c s
  | 0x0903 => completeHalt c s
  | 0x0905 => completePeek c s
  | 0x0908 => completeSnap c s
  | 0x0A03 => completeTgen c s
  | 0x0A08 => completeReturn c s
  | _ => none

/-- PENDING_COMMAND_COMPLETE: `job.resume` and `stop.at` end with their own rows. -/
def pendingComplete (i : Nat) (failed : List Nat) (s : State) : Option State :=
  match s.mgmt.cmds[i]? with
  | some c => if s.lysbyUp then completeCmd c failed s else none
  | none => none

def execPendingCommandComplete (i : Nat) (failed : List Nat) (s : State) : Host.Outcome State Fault Refusal :=
  attempt s (pendingComplete i failed s)

end Sys2Proof.Machine
end

