-- ==== Sys2Proof/Machine/Move.lean ====
section
/-! DEFINITION. The move engines (R294 to R315): channels and chains, the six operations, completion and faults. -/

namespace Sys2Proof.Machine

def chanReset : ChanSt := ⟨[], (0, 0), none⟩
def State.chan (s : State) (c ch : Nat) : ChanSt := tget (fun _ => chanReset) s.mv.chans (32 * c + ch)
/-- A channel, with QUEUED and BUSY of its registers (Table 11-6). -/
def State.setChan (s : State) (c ch : Nat) (x : ChanSt) : State :=
  let s := { s with mv := { s.mv with chans := tput (fun _ => chanReset) s.mv.chans (32 * c + ch) x } }
  (s.setCfgF (chanReg c ch 0) 48 4 x.queue.length).setCfgF (chanReg c ch 0) 52 1 (boolNat x.running.isSome)

def State.chanStopped (s : State) (c ch : Nat) : Bool := s.cfgF (chanReg c ch 0) 53 1 == 1

/-- The stream of the engine that owns a channel (R294). -/
def mvStream (c ch : Nat) : Nat := 4 * c + 2 + ch / 16

/-- A fault stops every channel of the engine; the faulting one discards its queue (R313). -/
def State.stopChans (s : State) (c ch : Nat) : State :=
  let s := s.wsLeave c ch
  let s := s.setChan c ch chanReset
  (List.range 16).foldl (fun s k => s.setCfgF (chanReg c (ch / 16 * 16 + k) 0) 53 1 1) s

-- MOVE (R125)

def moveChan (i : Nat) (w : IWord) : Nat := 16 * (i % 4 - 2) + fld w 128 4

/-- MOVE puts its chain into the channel's queue, or waits in RUN for room; a fault of its own has the effects of R313. -/
def moveIssue (st : Stream) (s : State) : Option State :=
  let i := streamIx st
  let c := i / 4
  let r := issue st (isOp 0x80)
    (fun _ _ w => if fld w 180 16 == 0 || fld w 132 48 % 64 != 0 then [0x40] else [])
    (fun s t w =>
      let ch := moveChan i w
      let x := s.chan c ch
      if 8 ≤ x.queue.length then .full
      else .done (finishNow (s.setChan c ch { x with queue := x.queue ++ [(fld w 132 48, fld w 180 16)] }) i w t t.next)) s
  match r with
  | none => none
  | some s' =>
    if (s'.stream i).st == .faulted then
      match s.fetch i with
      | .word w => if isOp 0x80 w && legalOp st 0x80 then some (s'.stopChans c (moveChan i w)) else some s'
      | _ => some s'
    else some s'

def execMove (st : Stream) (s : State) : Host.Outcome State Fault Refusal := attempt s (moveIssue st s)

-- Access by a move engine: memory, or as a destination the descriptor table of its own core (R133, R264)

def descTable (c a n : Nat) : Bool := coreCfg c + 0x10000 ≤ a && a + n ≤ coreCfg c + 0x50000

def State.writeReach (s : State) (c : Nat) (p : Option Part) (l : List (Nat × Nat)) : Reach :=
  s.reach p (l.filter fun r => !descTable c r.1 r.2)

/-- Bytes into memory, or into descriptor words; descriptor 0 ignores them (R127). -/
def State.moveWr (s : State) (c a : Nat) (bs : List Byte) : State :=
  if descTable c a bs.length then
    bs.zipIdx.foldl (fun s p =>
      let x := a + p.2
      if x < coreCfg c + 0x10040 then s else s.setCfgF (x / 8 * 8) (8 * (x % 8)) 8 p.1.toNat) s
  else s.wr a bs

/-- The poison of a copied run goes with its bytes (R285). -/
def State.copyPoison (s : State) (src : State) (from_ to_ n : Nat) : State :=
  ((linesOf from_ n).filter src.poison.contains).foldl (fun s l =>
    let lo := max (64 * l) from_
    let hi := min (64 * l + 64) (from_ + n)
    (linesOf (to_ + (lo - from_)) (hi - lo)).foldl State.setPoison s) s

-- Descriptors (Tables 11-1 and 11-3)

abbrev MWord := BitVec 512

def mOp (w : MWord) : Nat := fld w 0 4
def mTensor (w : MWord) : Bool := mOp w == 3 || mOp w == 4

/-- MV_DESC: a field breaks Table 11-1, 11-2 or 11-3. -/
def mDescBad (w : MWord) : Bool :=
  let common := 6 ≤ mOp w || fld w 12 20 != 0 || fld w 192 32 == 0 || 16777216 < fld w 192 32
    || fld w 224 16 == 0 || fld w 240 16 == 0
    || (fld w 8 1 != 0 && mOp w != 5) || (fld w 9 1 != 0 && mOp w != 2)
  if mTensor w then
    common || fld w 240 16 != 1 || fld w 88 104 != 0 || fld w 385 127 != 0
      || (mOp w == 4 && fld w 384 1 != 0)
  else
    common || fld w 112 16 != 0 || fld w 176 16 != 0 || fld w 448 64 != 0 || (mOp w == 1 && fld w 64 48 != 0)
      || (mOp w == 5 && fld w 240 16 != 1)

structure Foot where
  src : Nat
  dst : Nat
  len : Nat
  n1 : Nat
  n2 : Nat
  ss1 : Nat
  ds1 : Nat
  ss2 : Nat
  ds2 : Nat
deriving DecidableEq, Repr

def footOf (w : MWord) : Foot :=
  ⟨fld w 64 48, fld w 128 48, fld w 192 32, fld w 224 16, fld w 240 16, fld w 256 32, fld w 288 32, fld w 320 32,
   fld w 352 32⟩

/-- The rows of a footprint in order: source and destination address (R297). -/
def Foot.rows (f : Foot) : List (Nat × Nat) :=
  ((List.range f.n2).map fun p => (List.range f.n1).map fun i =>
    (f.src + p * f.ss2 + i * f.ss1, f.dst + p * f.ds2 + i * f.ds1)).flatten

/-- The pattern bytes of a row (R303). -/
def fillRow (w : MWord) (n : Nat) : List Byte := (List.range n).map fun o => BitVec.ofNat 8 (fld w (384 + 8 * (o % 8)) 8)

/-- How a descriptor's effect ends: the state after it, with mismatches and first mismatch, and the bytes moved; a fault
with the footprint that is left unspecified; or a wait for a sleeping domain. -/
inductive Moved where
  | ok (s : State) (mism first bytes : Nat)
  | bad (cause : Nat) (addr : Nat) (isolation : Bool) (foot : List (Nat × Nat)) (s : State)
  | asleep (dom : Nat)

/-- A descriptor's operation: a fault that its fields or tensors alone decide, with the footprint it leaves unspecified;
what it reads and writes; whether a poisoned read ends it; its effect. -/
structure MoveJob where
  stop : Option (Nat × List (Nat × Nat))
  reads : List (Nat × Nat)
  writes : List (Nat × Nat)
  poisonStops : Bool
  effect : Unit → Moved

/-- How the accesses of a job end together. -/
def MoveJob.way (j : MoveJob) (c : Nat) (p : Option Part) (s : State) : Reach :=
  (s.reach p j.reads).join (s.writeReach c p j.writes)

def MoveJob.run (j : MoveJob) (c : Nat) (p : Option Part) (s : State) : Moved :=
  match j.stop with
  | some x => .bad x.1 0 false x.2 s
  | none =>
    match j.way c p s with
    | .bad a iso => .bad 0x44 a iso j.writes s
    | .sleeping d => .asleep d
    | .ok => if j.poisonStops && s.anyPoison j.reads then .bad 0x44 0 false j.writes s else j.effect ()

/-- COPY (R297, R309): every source row is read before any byte is written; rows of overlapping footprints with
DST > SRC are written in descending order. -/
def copyJob (c : Nat) (w : MWord) (s : State) : MoveJob :=
  let f := footOf w
  let rows := f.rows
  let sb := boundOf (rows.map fun r => (r.1, f.len))
  let db := boundOf (rows.map fun r => (r.2, f.len))
  let lapped := overlaps sb.1 sb.2 db.1 db.2
  let dsts := rows.map fun r => (r.2, f.len)
  ⟨if lapped && (f.ss1 != f.ds1 || f.ss2 != f.ds2) then some (0x41, dsts) else none,
   rows.map fun r => (r.1, f.len), dsts, false, fun _ =>
    let order := if lapped && f.src < f.dst then rows.reverse else rows
    let data := order.map fun r => (r, s.rd r.1 f.len)
    let s' := data.foldl (fun a x => (a.moveWr c x.1.2 x.2).copyPoison s x.1.1 x.1.2 f.len) s
    .ok s' 0 0 (rows.length * f.len)⟩

/-- FILL (R303). -/
def fillJob (c : Nat) (w : MWord) (s : State) : MoveJob :=
  let f := footOf w
  let rows := f.rows
  ⟨none, [], rows.map fun r => (r.2, f.len), false, fun _ =>
    .ok (rows.foldl (fun a r => a.moveWr c r.2 (fillRow w f.len)) s) 0 0 (rows.length * f.len)⟩

/-- COMPARE (R304): unequal bytes, and the first unequal position in footprint order. -/
def compareJob (w : MWord) (s : State) : MoveJob :=
  let f := footOf w
  let rows := f.rows
  let pat := f.src == 0
  ⟨none, (if pat then [] else rows.map fun r => (r.1, f.len)) ++ rows.map fun r => (r.2, f.len), [], true, fun _ =>
    let eqs := (rows.map fun r =>
      ((if pat then fillRow w f.len else s.rd r.1 f.len).zip (s.rd r.2 f.len)).map fun b => b.1 == b.2).flatten
    let mism := (eqs.filter fun e => !e).length
    .ok s mism ((eqs.findIdx? fun e => !e).getD 0xFFFFFFFF) (rows.length * f.len)⟩

-- Tensor operations

/-- Block length along the positions of a destination: Bk of Table 3-7 in K-panel layout, the format's block, or 1. -/
def Desc.posBlock (d : Desc) : Nat := if d.panel then panelBk d.format else max d.format.block 1

/-- A K-panel layout exists for the format (Table 3-7). -/
def Desc.panelOk (d : Desc) : Bool :=
  !d.panel || (d.format.numeric && d.format.enc != .fp32)

/-- The runs of bytes of row r, positions c to c + n − 1, in either layout. -/
def Desc.tensorParts (d : Desc) (r c n : Nat) : List (Nat × Nat) :=
  if d.panel then panelParts d d.rows r (c / panelBk d.format) ((c + n - 1) / panelBk d.format) else d.rowParts r c n

/-- Element codes and block scale codes into row r from position c, in either layout. -/
def State.putTensor (s : State) (d : Desc) (r c : Nat) (codes scales : List Nat) : State :=
  let f := d.format
  if d.panel then
    (cut (panelBk f) codes).zipIdx.foldl (fun s p =>
      let b := c / panelBk f + p.2
      let s := s.wr (panelElemAddr d d.rows b r) (packCodes f.enc p.1)
      if f.block == 0 then s else s.wr (panelScaleAddr d d.rows b r) [BitVec.ofNat 8 (scales.getD p.2 0)]) s
  else
    let s := s.putCodes d r c codes
    if f.block == 0 then s
    else scales.zipIdx.foldl (fun s p => s.putScale d r (c + p.2 * f.block) p.1) s

/-- Fields of Table 11-3. -/
structure TFields where
  sh : Nat
  dh : Nat
  ncol : Nat
  nrows : Nat
  srow : Nat
  drow : Nat
  scol : Nat
  dcol : Nat
  tr : Bool
deriving DecidableEq, Repr

def tFields (w : MWord) : TFields :=
  ⟨fld w 64 12, fld w 76 12, fld w 192 32, fld w 224 16, fld w 256 32, fld w 288 32, fld w 320 32, fld w 352 32,
   fld w 384 1 == 1⟩

/-- BAD_HANDLE, INVALID_DESCRIPTOR, LIVE_RANGE and, where `bad`, MV_CONVERT of a move's tensors. -/
def State.tensorCauses (s : State) (i c : Nat) (f : TFields) (counted bad : Bool) : List Nat :=
  let sd := s.desc c f.sh
  let dd := s.desc c f.dh
  (if bad && f.sh != 0 && f.dh != 0 && (s.unread i c [f.sh, f.dh]).isEmpty then [0x42] else [])
    ++ (if f.sh == 0 then [0x81] else s.descCauses i c f.sh sd sd.panel counted)
    ++ (if f.dh == 0 then [0x81] else s.descCauses i c f.dh dd dd.panel counted)

/-- RELAYOUT (R305): codes and block scales, unchanged. -/
def relayoutJob (i c : Nat) (w : MWord) (s : State) : MoveJob :=
  let f := tFields w
  let sd := s.desc c f.sh
  let dd := s.desc c f.dh
  let blk := max sd.format.block 1
  let bad := sd.fmt != dd.fmt || sd.panel || !dd.panelOk
    || f.scol % blk != 0 || f.dcol % blk != 0 || f.ncol % blk != 0
    || f.dcol % dd.posBlock != 0 || f.ncol % dd.posBlock != 0
    || sd.rows < f.srow + f.nrows || sd.cols < f.scol + f.ncol
    || dd.rows < f.drow + f.nrows || dd.cols < f.dcol + f.ncol
  let rows := List.range f.nrows
  let rds := (rows.map fun k => sd.rowParts (f.srow + k) f.scol f.ncol).flatten
  let wrs := (rows.map fun k => dd.tensorParts (f.drow + k) f.dcol f.ncol).flatten
  let rb := boundOf rds
  let wb := boundOf wrs
  ⟨match minCause (s.tensorCauses i c f false bad) with
    | some cause => some (cause, [])
    | none => if overlaps rb.1 rb.2 wb.1 wb.2 then some (0x41, wrs) else none,
   rds, wrs, false, fun _ =>
      let s' := rows.foldl (fun a k =>
        let codes := (List.range f.ncol).map fun j => s.elem sd (f.srow + k) (f.scol + j)
        let scales := if sd.format.block == 0 then []
          else (List.range (f.ncol / blk)).map fun b => s.scale sd (f.srow + k) (f.scol + b * blk)
        let a := a.putTensor dd (f.drow + k) f.dcol codes scales
        -- a poisoned source row poisons every line that its data lands in (log 32)
        if s.anyPoison (sd.rowParts (f.srow + k) f.scol f.ncol) then
          (((dd.tensorParts (f.drow + k) f.dcol f.ncol).map fun r => linesOf r.1 r.2).flatten).foldl State.setPoison a
        else a) s
      .ok s' 0 0 ((rds.map Prod.snd).sum)⟩

/-- One destination row of CONVERT: values with their liveness, at row r from position c (R306). -/
def State.convertRow (s : State) (d : Desc) (seed : W64) (stepNo : W32) (r c : Nat) (xs : List (W32 × Bool)) :
    State × SentAdd :=
  let f := d.format
  let vals := xs.map Prod.fst
  let vals := if d.rot == 0 || xs.all fun x => !x.2 then vals else rotateRow d.rot d.rotInv vals
  let vals := (vals.zip (xs.map Prod.snd)).map fun v => if v.2 then v else (zero32, false)
  let blk := if f.block == 0 then max vals.length 1 else f.block
  let blocks := (cut blk vals).zipIdx.map fun b =>
    let c0 := c + blk * b.2
    let cv := convBlock d seed stepNo r c0 (b.1.map Prod.fst)
    let ws := (cv.2.zip (b.1.map Prod.snd))
    let live := b.1.any fun v => v.2
    (if live then cv.1 else 0, ws.map fun x => if x.2 then x.1.code else 0, sentSum ((ws.filter fun x => x.2).map Prod.fst))
  (s.putTensor d r c ((blocks.map fun b => b.2.1).flatten) (blocks.map fun b => b.1),
   blocks.foldl (fun a b => a.plus b.2.2) sentZero)

/-- CONVERT (R306, R307). -/
def convertJob (i c : Nat) (p : Option Part) (w : MWord) (s : State) : MoveJob :=
  let f := tFields w
  let sd := s.desc c f.sh
  let dd := s.desc c f.dh
  let dn := if f.tr then f.ncol else f.nrows
  let span := if f.tr then f.nrows else f.ncol
  let rot := max dd.rot 1
  let bad := sd.panel || !sd.format.numeric || !dd.format.numeric || dd.rotCol || !dd.panelOk
    || f.dcol % dd.posBlock != 0 || span % dd.posBlock != 0 || f.dcol % rot != 0 || span % rot != 0
    || sd.rows < f.srow + f.nrows || sd.cols < f.scol + f.ncol
    || dd.rows < f.drow + dn || dd.cols < f.dcol + span
  let live := (List.range f.nrows).filter fun k => f.srow + k < sd.live
  let rds := (live.map fun k => sd.rowParts (f.srow + k) f.scol f.ncol).flatten
  let all := ((List.range f.nrows).map fun k => sd.rowParts (f.srow + k) f.scol f.ncol).flatten
  let wrs := ((List.range dn).map fun k => dd.tensorParts (f.drow + k) f.dcol span).flatten
  let rb := boundOf all
  let wb := boundOf wrs
  ⟨match minCause (s.tensorCauses i c f true bad) with
    | some cause => some (cause, [])
    | none => if overlaps rb.1 rb.2 wb.1 wb.2 then some (0x41, wrs) else none,
   rds, wrs, true, fun _ =>
        let seed := match p with | some q => (s.part q.val).seed | none => 0
        let stepNo := match p with | some q => (s.part q.val).stepNo | none => 0
        let val (k j : Nat) : W32 × Bool :=
          if f.srow + k < sd.live then (s.read32 sd (f.srow + k) (f.scol + j), true) else (zero32, false)
        let r := (List.range dn).foldl (fun (a : State × SentAdd) k =>
          let xs := (List.range span).map fun j => if f.tr then val j k else val k j
          let x := a.1.convertRow dd seed stepNo (f.drow + k) f.dcol xs
          (x.1, a.2.plus x.2)) (s, sentZero)
        let s' := r.1.sentUpdate c dd.sent r.2
        .ok (s'.countInvalid c sd (live.map fun k => f.srow + k) f.scol f.ncol) 0 0 ((all.map Prod.snd).sum)⟩

-- GATHER_MAP (R308)

/-- What gathering one entry gives: nothing to write, the row's bytes with its cells, or a fault. -/
inductive Gathered where
  | none
  | row (data : List Byte) (runs : List (Nat × Nat)) (head : Nat)
  | bad (cause addr : Nat) (isolation : Bool) (chain : Option (Nat × Nat × List Nat))
  | asleep (dom : Nat)

/-- A row-map entry at address a. -/
def gatherOne (p : Option Part) (len a : Nat) (s : State) : Gathered :=
  let e := s.rdN a 8
  match bitsAt e 48 2 with
  | 0 => .none
  | 2 => .row (List.replicate len 0) [] 0
  | 3 => .bad 0x43 0 false none
  | _ =>
    let head := bitsAt e 0 48
    match s.access p head 16 with
    | .bad iso => .bad 0x44 head iso none
    | .sleeping k => .asleep k
    | .ok => match s.chainOf head with
      | .none => .bad 0x33 head false none
      | some (m, r, .error (b, good)) => .bad 0x33 b false (some (m, r, good))
      | some (_, _, .ok cells) =>
        let lens := cells.map fun x => bitsAt (s.rdN x 8) 56 8
        if lens.sum != len then .bad 0x43 0 false none
        else
          let runs := (cells.zip lens).map fun x => (x.1 + 16, x.2)
          match s.reach p runs with
          | .bad b iso => .bad 0x44 b iso none
          | .sleeping k => .asleep k
          | .ok => .row ((runs.map fun r => s.rd r.1 r.2).flatten) runs head

/-- The runs of a gathered row copied to address d: bytes, and the poison that goes with them. -/
def State.putRuns (s src : State) (c : Nat) : Nat → List (Nat × Nat) → State
  | _, [] => s
  | d, (a, n) :: t => State.putRuns ((s.moveWr c d (src.rd a n)).copyPoison src a d n) src c (d + n) t

/-- The entries of a map in order, each landing at its destination row; the heads read are returned. -/
def gatherAll (c : Nat) (p : Option Part) (f : Foot) (src : State) :
    List Nat → State → List Nat → Moved × List Nat
  | [], s, heads => (.ok s 0 0 0, heads.reverse)
  | k :: t, s, heads =>
    let dst := f.dst + k * f.ds1
    match gatherOne p f.len (f.src + 16 * k) src with
    | .none => gatherAll c p f src t s heads
    | .asleep d => (.asleep d, [])
    | .bad cause a iso chain =>
      let s := match chain with
        | some (m, r, good) => s.quarantine m r a good
        | none => s
      (.bad cause a iso [(dst, f.len)] s, [])
    | .row data runs head =>
      if head == 0 then gatherAll c p f src t (s.moveWr c dst data) heads
      else if runs.any fun r => overlaps r.1 r.2 dst f.len then (.bad 0x41 0 false [(dst, f.len)] s, [])
      else gatherAll c p f src t (State.putRuns s src c dst runs) (head :: heads)

/-- Releases of the chains read (R256); a pool error ends the descriptor. -/
def releaseAll (p : Option Part) : List Nat → State → Except (Nat × Bool × State) State
  | [], s => .ok s
  | h :: t, s => match s.release p h true with
    | .done s => releaseAll p t s
    | .bad cause iso s => .error (cause, iso, s)

def gatherJob (c : Nat) (p : Option Part) (w : MWord) (s : State) : MoveJob :=
  let f := footOf w
  let ks := List.range f.n1
  let wrs := (ks.filter fun k => bitsAt (s.rdN (f.src + 16 * k) 8) 48 2 != 0).map fun k => (f.dst + k * f.ds1, f.len)
  let wb := boundOf (ks.map fun k => (f.dst + k * f.ds1, f.len))
  ⟨if overlaps f.src (16 * f.n1) wb.1 wb.2 then some (0x41, wrs) else none, [(f.src, 16 * f.n1)], wrs, true, fun _ =>
    match gatherAll c p f s ks s [] with
    | (.ok s' _ _ _, heads) =>
      if fld w 8 1 == 0 then .ok s' 0 0 (heads.length * f.len)
      else match releaseAll p heads s' with
        | .ok s2 => .ok s2 0 0 (heads.length * f.len)
        | .error (cause, iso, s2) => .bad cause 0 iso [] s2
    | (.bad cause a iso _ s2, _) => .bad cause a iso wrs s2
    | (x, _) => x⟩

-- Running a descriptor

/-- What a faulted descriptor's footprint holds is left open: free bytes over what it could write (R313, log 3). -/
def State.freeFoot (s : State) (c : Nat) (p : Option Part) (l : List (Nat × Nat)) : State :=
  l.foldl (fun s r =>
    if descTable c r.1 r.2 || s.access p r.1 r.2 != .ok then s
    else
      let d := s.drawBytes r.2
      d.2.wr r.1 d.1) s

/-- A descriptor fault (R313): MVx_FAULT with CHANNEL and DESC, the records, the engine stopped. -/
def State.mvFault (s : State) (c ch cause desc addr : Nat) (iso : Bool) : State :=
  let i := mvStream c ch
  let s := if cause == 0x44 && addr != 0 then s.accessError i addr iso else s
  let s := if s.cfgF (faultReg i) 8 1 == 1 then s
    else s.setCfgW (faultReg i) (BitVec.ofNat 64 (cause + 256 + 512 * ch + 16384 + 65536 * desc))
  let s := s.raise { s.engErr i (if cause == 0x33 then 1 else 2) (0x100 + cause) with
    isolation := iso, addr := desc, detail := s.cfgW (faultReg i) }
  let t := s.stream i
  (s.setStream i { t with st := .faulted, lock := 0, lockPast := false, lockHeld := false, granted := false, queue := false }).stopChans c ch

/-- The operation of a descriptor by its OP (Table 11-2). -/
def moveJob (i c : Nat) (p : Option Part) (w : MWord) (s : State) : MoveJob :=
  match mOp w with
  | 0 => copyJob c w s
  | 1 => fillJob c w s
  | 2 => compareJob w s
  | 3 => convertJob i c p w s
  | 4 => relayoutJob i c w s
  | _ => gatherJob c p w s

/-- TILE_EVT pulses of a descriptor: one per 16 rows of COUNT1 in each plane, and one for a shorter last group (R301). -/
def tileGroups (w : MWord) : Nat := if fld w 11 1 == 0 then 0 else fld w 240 16 * ((fld w 224 16 + 15) / 16)

/-- The ranges a descriptor enters in the write-set checker: source and destination (R311). -/
def wsRanges (c : Nat) (w : MWord) (s : State) : (Nat × Nat) × (Nat × Nat) :=
  if mTensor w then
    let f := tFields w
    let sd := s.desc c f.sh
    let dd := s.desc c f.dh
    let dn := if f.tr then f.ncol else f.nrows
    let span := if f.tr then f.nrows else f.ncol
    (boundOf ((List.range f.nrows).map fun k => sd.rowParts (f.srow + k) f.scol f.ncol).flatten,
     boundOf ((List.range dn).map fun k => dd.tensorParts (f.drow + k) f.dcol span).flatten)
  else
    let f := footOf w
    let rows := f.rows
    (if mOp w == 1 || mOp w == 5 || (mOp w == 2 && f.src == 0) then (0, 0) else boundOf (rows.map fun r => (r.1, f.len)),
     boundOf (rows.map fun r => (r.2, f.len)))

def State.wsDescriptor (s : State) (c ch : Nat) (w : MWord) : State :=
  if fld w 10 1 == 1 then s
  else
    let r := wsRanges c w s
    let s := if r.1.2 == 0 then s else s.wsEnter ⟨c, ch, false, r.1.1, r.1.2⟩
    if r.2.2 == 0 then s else s.wsEnter ⟨c, ch, mOp w != 2, r.2.1, r.2.2⟩

/-- The next descriptor of a channel: its address and the descriptors left in its chain, it included. -/
def ChanSt.head (x : ChanSt) : Option (Nat × Nat × ChanSt) :=
  if x.rest.2 != 0 then some (x.rest.1, x.rest.2, x)
  else match x.queue with
    | (a, n) :: t => some (a, n, { x with queue := t, rest := (a, n) })
    | [] => none

/-- The channel may start a descriptor. -/
def State.chanReady (s : State) (c ch : Nat) : Bool :=
  (s.chan c ch).running.isNone && !s.chanStopped c ch && c < s.nCores && s.power (s.coreKey c) == .on
    && !s.frozenDie (c / 4)

/-- A descriptor address that a chain of n may have (R295). -/
def chainOk (c a n : Nat) : Bool := coreBase c ≤ a && a + 64 * n ≤ coreBase c + 0x1800000 && a % 64 == 0

/-- The channel with its descriptor at a taken. -/
def State.chanTake (s : State) (c ch a : Nat) (x : ChanSt) : State := (s.setChan c ch x).setCfgF (chanReg c ch 0) 0 48 a

/-- A move descriptor's effect: it runs, or its fault takes the channel, or a sleeping stack is woken first. -/
def moveBegin (i c ch : Nat) (p : Option Part) (a : Nat) (w : MWord) (n : Nat) (x : ChanSt) (s s1 : State) : State :=
  match (moveJob i c p w s1).run c p s1 with
  | .asleep k => s.requestWake k
  | .bad cause b iso foot s2 => (s2.freeFoot c p foot).mvFault c ch cause a b iso
  | .ok s2 mism first bytes =>
    (s2.setChan c ch { x with
      rest := (a + 64, n - 1), running := some ⟨a, w, tileGroups w, mism, first, bytes⟩ }).wsDescriptor c ch w

/-- A channel starts its next descriptor, whose OP must be the one named; a chain outside the own core store or a bad
descriptor ends in MV_DESC whichever operation was asked for. -/
def moveStart (op : Nat) (c : Core) (ch : Chan) (s : State) : Option State :=
  let c := c.val
  let ch := ch.val
  let i := mvStream c ch
  let p := s.partOf i
  if !s.chanReady c ch then none
  else match (s.chan c ch).head with
    | none => none
    | some (a, n, x) =>
      let s1 := s.chanTake c ch a x
      if !chainOk c a n then some (s1.mvFault c ch 0x40 a 0 false)
      else if s.poisoned a 64 then some (s1.mvFault c ch 0x44 a 0 false)
      else
        let w : MWord := BitVec.ofNat 512 (s.rdN a 64)
        if mDescBad w then some (s1.mvFault c ch 0x40 a 0 false)
        else if mOp w != op then none
        else some (moveBegin i c ch p a w n x s s1)

def execMoveCopy (c : Core) (ch : Chan) (s : State) : Host.Outcome State Fault Refusal := attempt s (moveStart 0 c ch s)
def execMoveFill (c : Core) (ch : Chan) (s : State) : Host.Outcome State Fault Refusal := attempt s (moveStart 1 c ch s)
def execMoveCompare (c : Core) (ch : Chan) (s : State) : Host.Outcome State Fault Refusal := attempt s (moveStart 2 c ch s)
def execMoveConvert (c : Core) (ch : Chan) (s : State) : Host.Outcome State Fault Refusal := attempt s (moveStart 3 c ch s)
def execMoveRelayout (c : Core) (ch : Chan) (s : State) : Host.Outcome State Fault Refusal := attempt s (moveStart 4 c ch s)
def execGatherMap (c : Core) (ch : Chan) (s : State) : Host.Outcome State Fault Refusal := attempt s (moveStart 5 c ch s)

/-- The count event of a move descriptor, unless CMP_EQ_ONLY met an unequal byte (R300, R304). -/
def State.moveEvent (s : State) (c ch : Nat) (r : RunningDesc) : State :=
  if fld r.word 9 1 == 1 && r.mism != 0 then s
  else
    let g := sigAt r.word 32
    s.sendEvent ⟨if g.remote then g.die else c / 4, g.pos, g.tally, g.amount, c / 4, 2 + ch / 16, s.partOfDie (c / 4)⟩

/-- A counted interrupt (R302): the count, and a MOVE_IRQ notice or the count in the one still unread. -/
def State.moveIrq (s : State) (c ch addr : Nat) : State :=
  let s := s.bumpCfg (chanReg c ch 8) 32 32 1
  let n := s.cfgF (chanReg c ch 8) 32 32
  match s.partOfDie (c / 4) with
  | none => s
  | some p =>
    let key := 32 * c + ch
    let a := mbxAddr (.vf p) 0x38
    let prod := s.mbxF a 0 16
    let cons := s.mbxF a 16 16
    let slot := tget (fun _ => 0) s.mv.irqSlots key
    if slot != 0 && (slot - 1 + 65536 - cons) % 65536 < (prod + 65536 - cons) % 65536 then
      s.setMbxF (mbxAddr (.vf p) (0x1000 + 64 * ((slot - 1) % 64) + 32)) 0 32 n
    else
      let full := 64 ≤ (prod + 65536 - cons) % 65536
      let s := s.notice (some p) 5 ([BitVec.ofNat 8 c, BitVec.ofNat 8 ch] ++ List.replicate 6 0 ++ natLe 8 addr ++ natLe 4 n)
      { s with mv := { s.mv with irqSlots := tput (fun _ => 0) s.mv.irqSlots key (if full then 0 else prod + 1) } }

/-- A descriptor leaves its channel: the comparison's registers, DONE_COUNT, its event and its interrupt. -/
def State.descriptorEnd (s : State) (c ch : Nat) (r : RunningDesc) : State :=
  let s := (s.setChan c ch { s.chan c ch with running := none }).wsLeave c ch
  let s := if mOp r.word == 2 then
    s.setCfgW (chanReg c ch 0x10) (BitVec.ofNat 64 (min r.mism 0xFFFFFFFF + 2 ^ 32 * min r.first 0xFFFFFFFF)) else s
  let s := s.bumpCfg (chanReg c ch 8) 0 32 1
  let s := s.traceEng (mvStream c ch) 6
    (natLe 6 r.addr ++ natLe 2 (ch % 32 + 32 * mOp r.word) ++ natLe 4 r.bytes)
  let s := if fld r.word 11 1 == 1 then s else s.moveEvent c ch r
  if fld r.word 7 1 == 1 then s.moveIrq c ch r.addr else s

/-- DESCRIPTOR_DONE (R300 to R302, R304), once its row groups have all pulsed. -/
def descriptorDone (c : Core) (ch : Chan) (s : State) : Option State :=
  match (s.chan c.val ch.val).running with
  | none => none
  | some r =>
    if r.groups != 0 || s.chanStopped c.val ch.val || s.frozenDie (c.val / 4) || s.power (s.coreKey c.val) != .on then none
    else some (s.descriptorEnd c.val ch.val r)

def execDescriptorDone (c : Core) (ch : Chan) (s : State) : Host.Outcome State Fault Refusal :=
  attempt s (descriptorDone c ch s)

/-- TILE_GROUP_DONE (R301): the next group of a TILE_EVT descriptor pulses its event. -/
def tileGroupDone (c : Core) (ch : Chan) (s : State) : Option State :=
  let x := s.chan c.val ch.val
  match x.running with
  | none => none
  | some r =>
    if r.groups == 0 || s.chanStopped c.val ch.val || s.frozenDie (c.val / 4) || s.power (s.coreKey c.val) != .on then none
    else some ((s.setChan c.val ch.val { x with running := some { r with groups := r.groups - 1 } }).moveEvent c.val ch.val r)

def execTileGroupDone (c : Core) (ch : Chan) (s : State) : Host.Outcome State Fault Refusal :=
  attempt s (tileGroupDone c ch s)

end Sys2Proof.Machine
end

