-- ==== Sys2Proof/Machine/Physical.lean ====
section
/-! DEFINITION. Supplies, reference clock and boot (R458 to R461, R576 to R583). -/

namespace Sys2Proof.Machine

/-- What survives the loss of the heartwood supply: fuses, boot flash with its service area, the repair log, the wear
indices, and the levels that others drive on the pins. -/
def MgmtSt.kept (m : MgmtSt) : MgmtSt :=
  { MgmtSt.init with
    sealed := m.sealed
    hwFused := m.hwFused
    fusedMin := m.fusedMin
    images := m.images
    plates := m.plates
    plateSlot := m.plateSlot
    plateSeq := m.plateSeq
    serial := m.serial
    stepping := m.stepping
    coppice := m.coppice
    failedDies := m.failedDies
    graftLog := m.graftLog
    repairs := m.repairs
    wearCe := m.wearCe
    wearAt := m.wearAt.map fun x => (x.1, 0)
    wearAge := m.wearAge
    wearPeak := m.wearPeak
    wearOn := m.wearOn
    capture := m.capture
    perst := m.perst
    jtag := m.jtag
    supply := false
    devState := 0 }

/-- HBM_STATUS of memory die m keeps what the repair log restores: retirement and the spares used (R289). -/
def State.keptStack (s old : State) (m : Nat) : State :=
  let a := stackA m
  ((s.setCfgF a 2 1 (old.cfgF a 2 1)).setCfgF a 16 16 (old.cfgF a 16 16)).setCfgF a 32 8 (old.cfgF a 32 8)

/-- COLD: every regulator output off, nothing kept but what is in fuses and flash. -/
def State.cold (s : State) : State :=
  let t := { State.reset with
    order := s.order
    freeCount := s.freeCount
    out := s.out
    pending := s.pending
    mgmt := s.mgmt.kept
    log := { LogSt.init with flash := s.log.flash }
    svc := { SvcSt.init with
      rowSpares := s.svc.rowSpares
      laneSpares := s.svc.laneSpares
      lineSpares := s.svc.lineSpares }
    net := { NetSt.init with d2dUsed := s.net.d2dUsed, deadSpares := s.net.deadSpares } }
  (List.range 12).foldl (fun t m => t.keptStack s m) t

/-- HEARTWOOD_SUPPLY_LOST: no record is written; the queued commands stand. -/
def supplyLost (s : State) : Option State := if s.mgmt.supply then some s.cold else none

def execHeartwoodSupplyLost (s : State) : Host.Outcome State Fault Refusal := attempt s (supplyLost s)

/-- HEARTWOOD_SUPPLY_UP: the count is 0, FAULT_N is released, and the SLOT straps are sampled (R576, R583). -/
def supplyUp (slot : Nat) (s : State) : Option State :=
  if s.mgmt.supply then none
  else some { s with gc := 0, mgmt := { s.mgmt with supply := true, slot := slot, faultN := false } }

def execHeartwoodSupplyUp (slot : Fin 8) (s : State) : Host.Outcome State Fault Refusal := attempt s (supplyUp slot.val s)

-- Boot (R20, R458, R460)

def FwImage.valid (i : FwImage) (low : Nat) : Bool := i.verified && decide (low ≤ i.rollback)

/-- The image that the boot ROM runs: the valid one with the higher version, slot A on a tie. -/
def MgmtSt.bootImage (m : MgmtSt) : Option (Nat × FwImage) :=
  match m.images[0]?.filter (FwImage.valid · m.fusedMin), m.images[1]?.filter (FwImage.valid · m.fusedMin) with
  | some a, some b => if a.version < b.version then some (1, b) else some (0, a)
  | some a, none => some (0, a)
  | none, some b => some (1, b)
  | none, none => none

/-- Die 0 is active, or die 1 where fuses bar die 0. -/
def MgmtSt.firstActive (m : MgmtSt) : Nat := if m.hwFused.contains 0 then 1 else 0

/-- Lysby of image i in a slot is measured and runs in HEARTWOOD. -/
def State.bootFrom (s : State) (slot : Nat) (i : FwImage) : State :=
  let s := { s with mgmt := { s.mgmt with
    devState := 1
    booted := true
    bootSlot := slot
    lysbyVersion := i.version
    standbyOk := !s.mgmt.hwFused.contains (1 - s.mgmt.active)
    lastBeat := s.gc
    lastWork := s.gc } }
  s.measure 0 i.digest

/-- BOOT: roles, then Lysby measured and running in HEARTWOOD; with no valid image the device is FAULTED. -/
def boot (s : State) : Option State :=
  if !s.mgmt.supply || s.mgmt.booted || !s.mgmt.validImage then none
  else
    let s := { s with mgmt := { s.mgmt with active := s.mgmt.firstActive, deadHw := s.mgmt.hwFused } }
    match s.mgmt.bootImage with
    | none => some { s with mgmt := { s.mgmt with devState := 9, validImage := false, faultN := true } }
    | some (slot, i) => some (s.bootFrom slot i)

def execBoot (s : State) : Host.Outcome State Fault Refusal := attempt s (boot s)

-- Main power (R580)

def mainGoodA : Nat := hwReg 0x3028

/-- Main power is good: the host ports come ON (R461). -/
def State.mainOn (s : State) : State :=
  let s := { s with mgmt := { s.mgmt with mainGood := true } }.setCfgF mainGoodA 0 1 1
  ((hostKeys.foldl State.enable s).hostTrains 0).hostTrains 1

/-- MAIN_GOOD_SET: VIN12 has been at or above 11.2 V for 2,500 ticks. -/
def mainSet (mv : Nat) (s : State) : Option State :=
  if !s.mgmt.supply || s.mgmt.mainGood || mv < 11200 then none else some s.mainOn

def execMainGoodSet (mv : Nat) (s : State) : Host.Outcome State Fault Refusal := attempt s (mainSet mv s)

/-- A domain other than a host port is not OFF. -/
def State.anyOn (s : State) : Bool := switched.any fun k => s.power k != .off || (s.dom k).going.isSome

/-- Main power is lost at mv: a fatal record where a switched domain was not OFF. -/
def State.mainOff (s : State) (mv : Nat) : State :=
  let s := { s with mgmt := { s.mgmt with mainGood := false, hostReady := [] } }.setCfgF mainGoodA 0 1 0
  if s.anyOn then
    (let s := (switched ++ hostKeys).foldl State.cutOff s
     s.takeEvent { mkErr 3 4 s.mgmt.active 0xFF 0x0406 with stamp := s.gc, detail := BitVec.ofNat 64 (mv % 2 ^ 16) })
  else hostKeys.foldl State.cutOff s

/-- MAIN_GOOD_CLEAR: VIN12 below 10.8 V for 250 ticks. -/
def mainClear (mv : Nat) (s : State) : Option State :=
  if !s.mgmt.supply || !s.mgmt.mainGood || 10800 ≤ mv then none else some (s.mainOff mv)

def execMainGoodClear (mv : Nat) (s : State) : Host.Outcome State Fault Refusal := attempt s (mainClear mv s)

/-- REFCLK_LOST: the reference has been outside ±50 ppm for 2,500 ticks (R581, Table 21-5). -/
def refclkLost (ppm : Int) (s : State) : Option State :=
  if !s.mgmt.supply || !s.mgmt.booted || (-50 ≤ ppm && ppm ≤ 50) then none
  else some (s.takeEvent { mkErr 3 4 s.mgmt.active 0xFF 0x0407 with
    stamp := s.gc, detail := BitVec.ofNat 64 (ppm % 2 ^ 32).toNat })

def execRefclkLost (ppm : Int) (s : State) : Host.Outcome State Fault Refusal := attempt s (refclkLost ppm s)

end Sys2Proof.Machine
end

