-- ==== Sys2Proof/Machine/Special.lean ====
section
/-! DEFINITION. The special functions of AC1 (R98 to R101): each a fixed procedure. -/

namespace Sys2Proof.Machine

-- Table 4-2
def cL2E : W32 := 0x3FB8AA3B#32
def cLN2 : W32 := 0x3F317218#32
def cLN2HI : W32 := 0x3F317200#32
def cLN2LO : W32 := 0x35BFBE8E#32
def cSQRT2 : W32 := 0x3FB504F3#32
def two32 : W32 := 0x40000000#32

/-- poly(r) of R99: E6, then E5, E4, E3, E2, 1.0, 1.0. -/
def polyExp (r : W32) : W32 :=
  [0x3C088889#32, 0x3D2AAAAB#32, 0x3E2AAAAB#32, 0x3F000000#32, one32, one32].foldl
    (fun p c => ffma p r c) (0x3AB60B61#32 : W32)

/-- rne32(poly(r) × 2^n). -/
def scaleExp (p : W32) (n : Val) : W32 :=
  match n with
  | .fin m e => ((val32 p).mul (Val.pow2 (m * 2 ^ e.toNat))).rne32
  | _ => nan32

/-- fma(−n, c, x) with an integer n taken exactly. -/
def fmaNeg (n : Val) (c x : W32) : W32 := ((n.neg.mul (val32 c)).add (val32 x)).rne32

def fexp (x : W32) : W32 :=
  let v := val32 x
  if v.isNan then nan32
  else if (Val.ofNat 89).lt v then posInf32
  else if v.lt (Val.ofInt (-104)) then zero32
  else
    let n := (val32 (fmul x cL2E)).rint
    let r := fmaNeg n cLN2LO (fmaNeg n cLN2HI x)
    scaleExp (polyExp r) n

def fexp2 (x : W32) : W32 :=
  let v := val32 x
  if v.isNan then nan32
  else if (Val.ofNat 128).le v then posInf32
  else if v.lt (Val.ofInt (-151)) then zero32
  else
    let n := v.rint
    let r := ((v.sub n).mul (val32 cLN2)).rne32
    scaleExp (polyExp r) n

/-- x = m × 2^e with 1 ≤ m < 2, for a positive dyadic (R100). -/
def normalise (m : Nat) (e : Int) : W32 × Int :=
  let k := Nat.log2 m
  ((Val.fin m (-(k : Int))).rne32, e + k)

def fln (x : W32) : W32 :=
  match val32 x with
  | .nan => nan32
  | .inf neg => if neg then nan32 else posInf32
  | .fin mm ee =>
    if mm < 0 then nan32
    else if mm == 0 then 0xFF800000#32
    else
      let p := normalise mm.natAbs ee
      let big := (val32 cSQRT2).lt (val32 p.1)
      let m := if big then ((val32 p.1).mul (Val.pow2 (-1))).rne32 else p.1
      let e : Val := Val.ofInt (if big then p.2 + 1 else p.2)
      let t := fdiv (fsub m one32) (fadd m one32)
      let u := fmul t t
      let q := [0x3E924925#32, 0x3ECCCCCD#32, 0x3F2AAAAB#32, two32].foldl (fun q c => ffma q u c) (0x3E638E39#32 : W32)
      let s := fmul t q
      fmaNeg e.neg cLN2HI (fmaNeg e.neg cLN2LO s)

def flog2 (x : W32) : W32 := fmul (fln x) cL2E

def fneg (x : W32) : W32 := (val32 x).neg.rne32
def fabs (x : W32) : W32 := (val32 x).abs.rne32

def fsigmoid (x : W32) : W32 := fdiv one32 (fadd one32 (fexp (fneg x)))
def ftanh (x : W32) : W32 := ffma two32 (fsigmoid (fmul two32 x)) (0xBF800000#32)
def fsilu (x : W32) : W32 := fmul x (fsigmoid x)
def frint (x : W32) : W32 := (val32 x).rint.rne32

/-- sign(c) of R110. -/
def fsign (c : W32) : W32 :=
  let v := val32 c
  if v.isNan then nan32 else if v.isZero then zero32 else if v.lt Val.zero then 0xBF800000#32 else one32

end Sys2Proof.Machine
end

