-- ==== Sys2Proof/Machine/Vector.lean ====
section
/-! DEFINITION. The vector engine (chapter 04): element-parallel operations, conversion, reductions, softmax and norms,
router scoring, the exit test, the sentinel close and the optimiser. -/

namespace Sys2Proof.Machine

/-- The fields of a VE instruction (Table 5-10), handles resolved. -/
structure VeF where
  src0 : Nat
  src1 : Nat
  src2 : Nat
  dst : Nat
  dst2 : Nat
  sub : Nat
  cond : Nat
  norm : Bool
  k : Nat
  margin : Bool
  imm0 : W32
  imm1 : W32
  paddr : Nat
  coreA : Nat
  coreB : Nat
deriving DecidableEq, Repr

def VeF.handles (f : VeF) : List Nat := [f.src0, f.src1, f.src2, f.dst, f.dst2]

def veF (t : StreamSt) (w : IWord) : VeF :=
  ⟨hIx t w (fld w 128 12), hIx t w (fld w 140 12), hIx t w (fld w 152 12), hIx t w (fld w 164 12),
   hIx t w (fld w 176 12), fld w 188 4, fld w 192 4, fld w 196 1 == 1, fld w 197 2, fld w 199 1 == 1,
   BitVec.ofNat 32 (fld w 224 32), BitVec.ofNat 32 (fld w 256 32), fld w 288 48, fld w 336 7, fld w 343 7⟩

/-- How many SUB values an opcode has (Table 5-11). -/
def subCount : Nat → Nat
  | 0x40 => 12 | 0x41 => 4 | 0x42 => 4 | 0x43 => 3 | 0x45 => 5 | _ => 1

/-- A sentinel slot is 128 B aligned and its 8,320 B lie wholly in one well (R108). -/
def slotBad (a : Nat) : Bool :=
  a % 128 != 0 || (match homeOf a, homeOf (a + 8319) with
    | .well m _, .well n _ => m != n
    | _, _ => true)

/-- Element-parallel operations other than VCVT. -/
def isElem (op : Nat) : Bool := op == 0x40 || op == 0x41 || op == 0x42 || op == 0x43

/-- Sources an element-parallel operation takes. -/
def elemArity (op sub : Nat) : Nat :=
  if op == 0x40 then ([2, 2, 2, 3, 2, 2, 1, 1, 2, 3, 1, 1] : List Nat).getD sub 1
  else if op == 0x41 then (if sub == 1 then 2 else 1) else 1

/-- Causes that the instruction's fields alone decide (R119, Table 4-9). -/
def veFieldCauses (op : Nat) (s : State) (t : StreamSt) (w : IWord) : List Nat :=
  let f := veF t w
  let hs := [fld w 128 12, fld w 140 12, fld w 152 12, fld w 164 12, fld w 176 12]
  let null (k : Nat) : Bool := hs.getD k 0 == 0
  let needs : Bool :=
    if op == 0x4B then false
    else if op == 0x4C then null 0 || null 1 || null 2
    else null 0 || null 3 || (op == 0x47 && null 1) || (op == 0x48 && (null 1 || null 2))
      || (isElem op && elemArity op f.sub == 3 && null 2)
  (if subCount op ≤ f.sub || (op == 0x40 && f.sub == 8 && 6 ≤ f.cond) then [0x01] else [])
    ++ (if op == 0x49 && (f.k == 0 || 2 < f.k) then [0x02] else [])
    ++ (if op == 0x4B && slotBad f.paddr then [0x03] else [])
    ++ (if op == 0x4B && (f.coreB < f.coreA || s.nCores ≤ f.coreB) then [0x04] else [])
    ++ (if needs || (hs.any fun h => badHandle t w h) then [0x81] else [])

-- Arithmetic of one element

/-- CMP (Table 5-10): a NaN operand makes every condition false but NE. -/
def fcmp (cond : Nat) (a b : W32) : W32 :=
  let x := val32 a
  let y := val32 b
  let r : Bool :=
    if x.isNan || y.isNan then cond == 1
    else match cond with
      | 0 => x.eq y
      | 1 => !x.eq y
      | 2 => x.lt y
      | 3 => x.le y
      | 4 => y.lt x
      | _ => y.le x
  if r then one32 else zero32

/-- An element-parallel operation (Table 5-11). -/
def elemOp (op sub cond : Nat) (a b c : W32) : W32 :=
  match op, sub with
  | 0x40, 0 => fadd a b
  | 0x40, 1 => fsub a b
  | 0x40, 2 => fmul a b
  | 0x40, 3 => ffma a b c
  | 0x40, 4 => fmin a b
  | 0x40, 5 => fmax a b
  | 0x40, 6 => fabs a
  | 0x40, 7 => fneg a
  | 0x40, 8 => fcmp cond a b
  | 0x40, 9 => if isZero32 a then canon c else canon b
  | 0x40, 10 => frint a
  | 0x40, _ => canon a
  | 0x41, 0 => frcp a
  | 0x41, 1 => fdiv a b
  | 0x41, 2 => fsqrt a
  | 0x41, _ => frsqrt a
  | 0x42, 0 => fexp2 a
  | 0x42, 1 => fexp a
  | 0x42, 2 => fln a
  | 0x42, _ => flog2 a
  | _, 0 => fsigmoid a
  | _, 1 => fsilu a
  | _, _ => ftanh a

/-- Passes of an operation (Table 4-1). -/
def passes (op sub : Nat) : Nat :=
  match op with
  | 0x40 => 1
  | 0x41 => 4
  | 0x42 => ([10, 11, 15, 16] : List Nat).getD sub 10
  | _ => ([16, 17, 18] : List Nat).getD sub 16

def clog2 (n : Nat) : Nat := if n ≤ 1 then 0 else Nat.log2 (n - 1) + 1

/-- RED(R, L) of R95. -/
def redCycles (r l : Nat) : Nat :=
  let n := ceilDiv l 512
  ceilDiv (r * n) 256 * min l 512 + 4 * clog2 n

-- Rows

/-- Row r of a source as FP32 (R587). -/
def State.row32 (s : State) (d : Desc) (r : Nat) : List W32 := (List.range d.cols).map fun c => s.read32 d r c

/-- MAX over a row: the canonical NaN when any element is NaN (R102). -/
def rowMax : List W32 → W32
  | [] => zero32
  | x :: t => t.foldl fmax (canon x)
def rowMin : List W32 → W32
  | [] => zero32
  | x :: t => t.foldl fmin (canon x)

/-- The lowest index of a NaN, or else of the greatest element (R102). -/
def argMax (xs : List W32) : Nat :=
  match xs.findIdx? fun x => (val32 x).isNan with
  | some i => i
  | none => (xs.zipIdx.foldl (fun (a : Nat × W32) p => if (val32 a.2).lt (val32 p.1) then (p.2, p.1) else a)
      (0, xs.headD 0)).1

def reduceRow (sub : Nat) (xs : List W32) : W32 :=
  match sub with
  | 0 => sumTerms xs
  | 1 => rowMax xs
  | 2 => rowMin xs
  | 3 => blockAmax xs
  | _ => (Val.ofNat (argMax xs)).rne32

/-- The exponentials of a softmax row and their sum (R103). -/
def softExp (xs : List W32) : List W32 :=
  let m := rowMax xs
  xs.map fun x => fexp (fsub x m)

def softmaxRow (xs : List W32) : List W32 :=
  let e := softExp xs
  let s := sumTerms e
  e.map fun x => fdiv x s

/-- Σx² with each term a fused product (R102). -/
def sumSquares (xs : List W32) : W32 := sumVals (xs.map fun x => (val32 x).mul (val32 x))

def rmsRow (rcpL eps : W32) (gam xs : List W32) : List W32 :=
  let r := frsqrt (ffma (sumSquares xs) rcpL eps)
  xs.zipIdx.map fun p => fmul (fmul p.1 r) (gam.getD p.2 0)

def layerRow (rcpL eps : W32) (gam bet xs : List W32) : List W32 :=
  let mu := fmul (sumTerms xs) rcpL
  let d := xs.map fun x => fsub x mu
  let r := frsqrt (ffma (sumSquares d) rcpL eps)
  d.zipIdx.map fun p => ffma (fmul p.1 r) (gam.getD p.2 0) (bet.getD p.2 0)

-- Writing results

/-- Rotation along rows or down columns of the values that enter a conversion (R53, R54, R129 rule 5). -/
def rotateRows (d : Desc) (rows : List (List W32)) : List (List W32) :=
  let n := d.rot
  if n == 0 then rows
  else if !d.rotCol then rows.map (rotateRow n d.rotInv)
  else
    let padded := rows ++ List.replicate (d.rows - rows.length) (List.replicate d.cols zero32)
    let cols := (List.range d.cols).map fun c => rotateRow n d.rotInv (padded.map fun r => r.getD c 0)
    (List.range rows.length).map fun r => cols.map fun col => col.getD r 0

/-- The live rows' values into a tensor, then +0 up to row n (R97). -/
def State.putRows (s : State) (core : Nat) (d : Desc) (rows : List (List W32)) (n width : Nat) : State :=
  let part := s.partOfDie (core / 4)
  let seed := match part with | some p => (s.part p.val).seed | none => 0
  let stepNo := match part with | some p => (s.part p.val).stepNo | none => 0
  let r := rows.zipIdx.foldl (fun (a : State × SentAdd) p =>
    let w := a.1.putRow d seed stepNo p.2 0 p.1
    (w.1, a.2.plus w.2)) (s, sentZero)
  let s := r.1.sentUpdate core d.sent r.2
  (List.range (n - rows.length)).foldl (fun s k => s.putZeros d (rows.length + k) 0 width) s

/-- A tensor's rows, as accesses. -/
def Desc.rowsParts (d : Desc) (n c : Nat) : List (Nat × Nat) := d.blockParts 0 n 0 c

/-- A VE operation: its handles, what its descriptors and fields break, its accesses, and the state after its effect
with the cycles it takes. -/
structure VeJob where
  hs : List Nat
  causes : List Nat
  reads : List (Nat × Nat)
  writes : List (Nat × Nat)
  effect : Unit → State × Nat

/-- The checks common to VE operations, then the accesses and the effect; the engine is occupied for its cycles. -/
def VeJob.run (j : VeJob) (s : State) (i : Nat) (t : StreamSt) (w : IWord) : Ran :=
  let lost := s.unread i (i / 4) j.hs
  match minCause (if lost.isEmpty then j.causes ++ (if s.anyPoison j.reads then [0x05] else []) else lost) with
  | some c => .fault c
  | none => match s.reach (s.partOf i) (j.reads ++ j.writes) with
    | .bad a iso => .bad 0x05 a iso
    | .sleeping d => .asleep d
    | .ok =>
      let r := j.effect ()
      .done (startFlight r.1 i w t r.2 0 0)

def veRun (job : State → StreamSt → IWord → VeJob) (st : Stream) (s : State) (t : StreamSt) (w : IWord) : Ran :=
  (job s t w).run s (streamIx st) t w

def numericCause (d : Desc) : List Nat := if d.format.numeric then [] else [0x82]
def emptyCause (d : Desc) : List Nat := if d.rows == 0 || d.cols == 0 then [0x02] else []
def fp32Cause (d : Desc) : List Nat := if d.fmt == 1 then [] else [0x01]

/-- A block or rotation that does not divide its axis (R30, R53; log 22). -/
def blockCause (d : Desc) : List Nat :=
  if (d.format.block != 0 && d.cols % d.format.block != 0)
    || (d.rotN != 0 && (if d.rotCol then d.rows else d.cols) % d.rot != 0) then [0x02] else []

/-- Counts the invalid reads of a source's rows (R31). -/
def State.readInvalid (s : State) (core : Nat) (d : Desc) (n : Nat) : State := s.countInvalid core d (List.range n) 0 d.cols

/-- Element-parallel operations (R95, R97, R124). -/
def elemJob (op i : Nat) (s : State) (t : StreamSt) (w : IWord) : VeJob :=
  let c := i / 4
  let f := veF t w
  let ar := elemArity op f.sub
  let d0 := s.desc c f.src0
  let d1 := s.desc c f.src1
  let d2 := s.desc c f.src2
  let dd := s.desc c f.dst
  let use1 := 2 ≤ ar && f.src1 != 0
  let use2 := ar == 3
  let same (d : Desc) : Bool := d.rows == dd.rows && d.cols == dd.cols
  let causes := s.descCauses i c f.src0 d0 false true ++ numericCause d0 ++ emptyCause d0
    ++ (if use1 then s.descCauses i c f.src1 d1 false true ++ numericCause d1 else [])
    ++ (if use2 then s.descCauses i c f.src2 d2 false true ++ numericCause d2 else [])
    ++ s.descCauses i c f.dst dd false true ++ fp32Cause dd
    ++ (if same d0 && (!use1 || same d1) && (!use2 || same d2) then [] else [0x02])
  let n := d0.live
  let reads := d0.rowsParts n d0.cols ++ (if use1 then d1.rowsParts n d1.cols else [])
    ++ (if use2 then d2.rowsParts n d2.cols else [])
  ⟨f.handles, causes, reads, dd.rowsParts dd.rows dd.cols, fun _ =>
    let rows := (List.range n).map fun r => (List.range d0.cols).map fun k =>
      elemOp op f.sub f.cond (s.read32 d0 r k) (if use1 then s.read32 d1 r k else f.imm0)
        (if use2 then s.read32 d2 r k else zero32)
    let s1 := s.readInvalid c d0 n
    let s1 := if use1 then s1.readInvalid c d1 n else s1
    let s1 := if use2 then s1.readInvalid c d2 n else s1
    (s1.putRows c dd rows dd.rows dd.cols, passes op f.sub * ceilDiv (n * d0.cols) 256 + 8)⟩

/-- VCVT (R47, R129 rule 5). -/
def vcvtJob (i : Nat) (s : State) (t : StreamSt) (w : IWord) : VeJob :=
  let c := i / 4
  let f := veF t w
  let d0 := s.desc c f.src0
  let dd := s.desc c f.dst
  let causes := s.descCauses i c f.src0 d0 false true ++ numericCause d0 ++ emptyCause d0
    ++ s.descCauses i c f.dst dd false true ++ numericCause dd
    ++ (if d0.rows == dd.rows && d0.cols == dd.cols then [] else [0x02]) ++ blockCause dd
  let n := d0.live
  ⟨f.handles, causes, d0.rowsParts n d0.cols, dd.rowsParts dd.rows dd.cols, fun _ =>
    let rows := rotateRows dd ((List.range n).map fun r => s.row32 d0 r)
    ((s.readInvalid c d0 n).putRows c dd rows dd.rows dd.cols, (if dd.sr then 10 else 8) * ceilDiv (n * d0.cols) 256 + 8)⟩

/-- VRED (R102). -/
def vredJob (i : Nat) (s : State) (t : StreamSt) (w : IWord) : VeJob :=
  let c := i / 4
  let f := veF t w
  let d0 := s.desc c f.src0
  let dd := s.desc c f.dst
  let int := f.sub == 4 && dd.fmt == 10
  let causes := s.descCauses i c f.src0 d0 false true ++ numericCause d0 ++ emptyCause d0
    ++ s.descCauses i c f.dst dd false true ++ (if int then [] else fp32Cause dd)
    ++ (if dd.rows < d0.rows || dd.cols == 0 then [0x02] else [])
  let n := d0.live
  ⟨f.handles, causes, d0.rowsParts n d0.cols, dd.rowsParts d0.rows 1, fun _ =>
    let s1 := s.readInvalid c d0 n
    let s2 := if int then
        (List.range d0.rows).foldl (fun s1 r =>
          s1.wrN (dd.base + r * dd.stride) 4 (if r < n then argMax (s.row32 d0 r) else 0)) s1
      else s1.putRows c dd ((List.range n).map fun r => [reduceRow f.sub (s.row32 d0 r)]) d0.rows 1
    (s2, redCycles n d0.cols + 8)⟩

/-- VSOFTMAX, RMSNORM, LAYERNORM (R103). -/
def rowwiseJob (op i : Nat) (s : State) (t : StreamSt) (w : IWord) : VeJob :=
  let c := i / 4
  let f := veF t w
  let d0 := s.desc c f.src0
  let d1 := s.desc c f.src1
  let d2 := s.desc c f.src2
  let dd := s.desc c f.dst
  let use1 := op != 0x46
  let use2 := op == 0x48
  let causes := s.descCauses i c f.src0 d0 false true ++ numericCause d0 ++ emptyCause d0
    ++ (if use1 then s.descCauses i c f.src1 d1 false false ++ numericCause d1
          ++ (if d1.rows == 0 || d1.cols < d0.cols then [0x02] else []) else [])
    ++ (if use2 then s.descCauses i c f.src2 d2 false false ++ numericCause d2
          ++ (if d2.rows == 0 || d2.cols < d0.cols then [0x02] else []) else [])
    ++ s.descCauses i c f.dst dd false true ++ fp32Cause dd
    ++ (if dd.rows < d0.rows || dd.cols < d0.cols then [0x02] else [])
  let n := d0.live
  let reads := d0.rowsParts n d0.cols ++ (if use1 then d1.rowParts 0 0 d0.cols else [])
    ++ (if use2 then d2.rowParts 0 0 d0.cols else [])
  ⟨f.handles, causes, reads, dd.rowsParts d0.rows d0.cols, fun _ =>
    let gam := if use1 then s.row32 d1 0 else []
    let bet := if use2 then s.row32 d2 0 else []
    let rows := (List.range n).map fun r =>
      let x := s.row32 d0 r
      if op == 0x46 then softmaxRow x
      else if op == 0x47 then rmsRow f.imm1 f.imm0 gam x
      else layerRow f.imm1 f.imm0 gam bet x
    let q := ceilDiv (n * d0.cols) 256
    let cyc := if op == 0x46 then 2 * redCycles n d0.cols + 16 * q + 8
      else if op == 0x47 then redCycles n d0.cols + 4 * ceilDiv n 256 + 2 * q + 8
      else 2 * redCycles n d0.cols + 6 * ceilDiv n 256 + 3 * q + 8
    let s1 := s.readInvalid c d0 n
    let s1 := if use1 then s1.countInvalid c d1 [0] 0 d0.cols else s1
    let s1 := if use2 then s1.countInvalid c d2 [0] 0 d0.cols else s1
    (s1.putRows c dd rows d0.rows d0.cols, cyc)⟩

/-- Score i goes before score j (R104): greater first, NaN last, then the lower index. -/
def scoreBefore (xs : List W32) (i j : Nat) : Bool :=
  let x := val32 (xs.getD i 0)
  let y := val32 (xs.getD j 0)
  if x.isNan then y.isNan && i < j
  else if y.isNan then true
  else y.lt x || (x.eq y && i < j)

/-- The first choice among the indices that satisfy p. -/
def bestScore (xs : List W32) (p : Nat → Bool) : Nat :=
  ((below xs.length p).foldl (fun (a : Option Nat) i => match a with
    | none => some i
    | some j => if scoreBefore xs i j then some i else some j) none).getD 0

/-- A gate record (Table 4-4) of one live token. -/
def gateRecord (k : Nat) (norm : Bool) (xs : List W32) : List Byte :=
  let p := softmaxRow xs
  let e0 := bestScore xs fun _ => true
  let e1 := if k == 2 then bestScore xs (fun i => i != e0) else 0xFF
  let p0 := p.getD e0 0
  let p1 := if k == 2 then p.getD e1 0 else 0
  let bad := (xs.any fun x => (val32 x).isNan) || xs.all fun x => x == 0xFF800000#32
  let fin (x : W32) : Bool := !(val32 x).isNan && !(val32 x).isInf
  let ws : W32 × W32 :=
    if bad then (nan32, if k == 2 then nan32 else 0)
    else if norm && fin p0 && fin p1 then
      if k == 2 then (fdiv p0 (fadd p0 p1), fdiv p1 (fadd p0 p1)) else (one32, 0)
    else (p0, p1)
  natLe 2 (e0 + 256 * e1) ++ natLe 2 (2 * boolNat bad) ++ natLe 4 ws.1.toNat ++ natLe 4 ws.2.toNat ++ natLe 4 p0.toNat

/-- The gate record of a padding token: zero but for PAD. -/
def padRecord : List Byte := natLe 16 0x10000

/-- A RAW destination that covers n bytes (R587). -/
def rawCauses (d : Desc) (n : Nat) : List Nat :=
  (if d.fmt != 0 || (1 < d.rows && d.stride != d.cols) then [0x01] else [])
    ++ (if d.rows * d.cols < n then [0x02] else [])

/-- A RAW destination's descriptor: VALID, in range, row layout; its STRIDE is R587's. -/
def State.rawDesc (s : State) (i c h : Nat) (d : Desc) : List Nat :=
  s.descCauses i c h { d with rows := min d.rows 1 } false false ++ (if d.rows < d.live then [0x83] else [])

/-- VROUTE (R104, R105). -/
def vrouteJob (i : Nat) (s : State) (t : StreamSt) (w : IWord) : VeJob :=
  let c := i / 4
  let f := veF t w
  let d0 := s.desc c f.src0
  let dd := s.desc c f.dst
  let causes := s.descCauses i c f.src0 d0 false true ++ numericCause d0 ++ emptyCause d0
    ++ (if 64 < d0.cols || d0.cols < f.k then [0x02] else [])
    ++ s.rawDesc i c f.dst dd ++ rawCauses dd (16 * d0.rows)
  let n := d0.live
  ⟨f.handles, causes, d0.rowsParts n d0.cols, [(dd.base, 16 * d0.rows)], fun _ =>
    let bytes := ((List.range d0.rows).map fun r => if r < n then gateRecord f.k f.norm (s.row32 d0 r) else padRecord).flatten
    ((s.readInvalid c d0 n).wr dd.base bytes, ceilDiv d0.rows 256 * ((18 + f.k) * d0.cols + 24) + 8)⟩

/-- The confidence of a token's scores (R106). -/
def exitConf (margin : Bool) (xs : List W32) : W32 :=
  let e := softExp xs
  let sm := sumTerms e
  if !margin then frcp sm
  else
    let i0 := argMax e
    let e2 := rowMax ((e.zipIdx.filter fun p => p.2 != i0).map Prod.fst)
    let e2 := if (val32 (e.getD i0 0)).isNan then nan32 else e2
    fdiv (fsub one32 e2) sm

/-- VEXIT (R106). -/
def vexitJob (i : Nat) (s : State) (t : StreamSt) (w : IWord) : VeJob :=
  let c := i / 4
  let f := veF t w
  let d0 := s.desc c f.src0
  let dd := s.desc c f.dst
  let nm := ceilDiv d0.rows 8
  let at' := ceilDiv nm 64 * 64
  let causes := s.descCauses i c f.src0 d0 false true ++ numericCause d0 ++ emptyCause d0
    ++ (if d0.cols < 2 || 512 < d0.cols then [0x02] else [])
    ++ s.rawDesc i c f.dst dd ++ rawCauses dd (at' + 4)
  let n := d0.live
  ⟨f.handles, causes, d0.rowsParts n d0.cols, [(dd.base, nm), (dd.base + at', 4)], fun _ =>
    let exits (r : Nat) : Bool := r < n && (val32 f.imm0).le (val32 (exitConf f.margin (s.row32 d0 r)))
    let bytes := (List.range nm).map fun b =>
      BitVec.ofNat 8 ((List.range 8).map fun k => if exits (8 * b + k) then 2 ^ k else 0).sum
    let cnt := (below d0.rows exits).length
    (((s.readInvalid c d0 n).wr dd.base bytes).wrN (dd.base + at') 4 cnt, ceilDiv d0.rows 256 * (15 * d0.cols + 12) + 8)⟩

-- The sentinel close (R57 to R59, R108)

/-- The larger of the newest min(L, HIST_FILL) entries of the history, newest at HIST_HEAD (R58). -/
def histMax (hist : List Nat) (head fill l : Nat) : Nat :=
  ((List.range (min l fill)).map fun k => hist.getD ((head + 16 - k) % 16) 0).foldl max 0

/-- q_max of FORMAT_MAX (Table 2-9). -/
def qMax (sel : Nat) : Nat := ([448, 57344, 2688, 448] : List Nat).getD sel 448

/-- The smallest e with 2^e × q ≥ a, for a positive finite a. -/
def scaleExp2 (a : Val) (q : Nat) : Int :=
  let e0 := a.log2Floor - Nat.log2 q - 1
  if a.le ((Val.pow2 e0).mul (Val.ofNat q)) then e0
  else if a.le ((Val.pow2 (e0 + 1)).mul (Val.ofNat q)) then e0 + 1
  else e0 + 2

/-- SCALE_NEXT (R58) of an FP32 amax. -/
def scaleNext (amax margin sel : Nat) : W32 :=
  if amax == 0 then one32
  else (Val.pow2 (max (-126) (min 127 (scaleExp2 (val32 (BitVec.ofNat 32 amax)) (qMax sel) + sext 4 margin)))).rne32

/-- The closed record and the tests that fired, from the record (as a number) and the partials (R57, R59). -/
def closeRecord (rec : Nat) (parts : List Nat) : Nat × Nat × Nat × Nat :=
  let cnt (lo : Nat) : Nat := satAdd 32 (bitsAt rec lo 32) (parts.map fun p => bitsAt p lo 32).sum
  let sat := cnt 0
  let flush := cnt 32
  let nan := cnt 64
  let inv := cnt 96
  let el := (bitsAt rec 128 64 + (parts.map fun p => bitsAt p 128 64).sum) % 2 ^ 64
  let amax := (parts.map fun p => bitsAt p 192 32).foldl max (bitsAt rec 192 32)
  let full : Nat := 0xFFFFFFFF
  let ovf := bitsAt rec 233 1 == 1 || (parts.any fun p => bitsAt p 224 1 == 1)
    || sat == full || flush == full || nan == full || inv == full
  let hist := (List.range 16).map fun k => bitsAt rec (512 + 32 * k) 32
  let head := bitsAt rec 224 4
  let fill := bitsAt rec 228 5
  let len := bitsAt rec 276 4 + 1
  let rate := bitsAt rec 256 16
  let growth := bitsAt rec 272 4
  let hOld := histMax hist head fill len
  let t0 := rate != 0 && rate * el < (sat + flush) * 2 ^ 20
  let t1 := growth != 0 && fill != 0
    && ((Val.pow2 growth).mul (val32 (BitVec.ofNat 32 hOld))).lt (val32 (BitVec.ofNat 32 amax))
  let head' := if fill == 0 then 0 else (head + 1) % 16
  let fill' := min (fill + 1) 16
  let hist' := hist.set head' amax
  let next := scaleNext (histMax hist' head' fill' len) (bitsAt rec 280 4) (bitsAt rec 284 4)
  let rw := bitsAt rec 256 32
  let low := head' * 2 ^ 224 + fill' * 2 ^ 228 + boolNat ovf * 2 ^ 233 + boolNat (t0 || t1) * 2 ^ 234
  let rec' := low + rw * 2 ^ 256 + next.toNat * 2 ^ 288 + bitsAt rec 320 32 * 2 ^ 320
    + leNat ((hist'.map fun h => natLe 4 h).flatten) * 2 ^ 512
  let tid := bitsAt rec 320 32
  (rec', boolNat t0 + 2 * boolNat t1,
   tid + 2 ^ 64 * sat + 2 ^ 96 * flush + 2 ^ 128 * nan + 2 ^ 160 * inv + 2 ^ 192 * amax, el)

/-- The address of the partial record of core k of the close. -/
def VeF.partAddr (f : VeF) (k : Nat) : Nat := f.paddr + 128 + 64 * (f.coreA + k)

/-- What VSCLOSE reads: the slot record and its partial records. -/
def VeF.closeReads (f : VeF) : List (Nat × Nat) := [(f.paddr, 128), (f.partAddr 0, 64 * (f.coreB - f.coreA + 1))]

/-- VSCLOSE (R57, R108). -/
def vscloseJob (i : Nat) (s : State) (t : StreamSt) (w : IWord) : VeJob :=
  let f := veF t w
  let p := f.coreB - f.coreA + 1
  let record := s.rdN f.paddr 128
  ⟨[], if 4 ≤ bitsAt record 284 4 then [0x03] else [], f.closeReads, [], fun _ =>
    let parts := (List.range p).map fun k => s.rdN (f.partAddr k) 64
    let cl := closeRecord record parts
    let s1 := (s.wr (f.partAddr 0) (List.replicate (64 * p) 0)).wrN f.paddr 128 cl.1
    let part := s.partOf i
    let stepNo := match part with | some q => (s.part q.val).stepNo.toNat | none => 0
    let s1 := if cl.2.1 == 0 then s1
      else s1.notice part 4 (natLe 28 (cl.2.2.1 + 2 ^ 32 * stepNo) ++ natLe 4 cl.2.1 ++ natLe 8 cl.2.2.2)
    (s1, 32 + 2 * p)⟩

/-- A job whose memory operands at `a` are read before anything else is judged (R261). -/
def readFirst (a : List (Nat × Nat)) (k : State → StreamSt → IWord → Ran) (i : Nat) (s : State) (t : StreamSt)
    (w : IWord) : Ran :=
  match s.reach (s.partOf i) a with
  | .bad b iso => .bad 0x05 b iso
  | .sleeping d => .asleep d
  | .ok => k s t w

-- The optimiser (R109, R110)

/-- One element's p, m and v from its gradient (R110). -/
def optElem (blk : Nat) (g0 p m v : W32) : W32 × W32 × W32 :=
  let c (lo : Nat) : W32 := BitVec.ofNat 32 (bitsAt blk lo 32)
  let gscale := c 32
  let nlr := fneg (c 64)
  let wd := c 96
  let g := fmul g0 gscale
  match bitsAt blk 0 4 with
  | 0 =>
    let g := ffma wd p g
    let m := ffma (c 128) m g
    (ffma nlr m p, m, v)
  | 1 =>
    let m := ffma (c 128) m (fmul (c 160) g)
    let v := ffma (c 192) v (fmul (c 224) (fmul g g))
    let d := fadd (fsqrt (fmul v (c 320))) (c 256)
    let u := fdiv (fmul m (c 288)) d
    (ffma nlr (ffma wd p u) p, m, v)
  | _ =>
    let q := ffma (c 128) m (fmul (c 160) g)
    (ffma nlr (ffma wd p (fsign q)) p, ffma (c 192) m (fmul (c 224) g), v)

/-- VOPT: p, m and, for ADAMW, v in place, and a working copy; rows at or beyond g_in's live count are left (R97). -/
def voptJob (i : Nat) (s : State) (t : StreamSt) (w : IWord) : VeJob :=
  let c := i / 4
  let f := veF t w
  let blk := s.rdN f.paddr 64
  let alg := bitsAt blk 0 4
  let dg := s.desc c f.src0
  let dp := s.desc c f.src1
  let dm := s.desc c f.src2
  let dv := s.desc c f.dst2
  let dw := s.desc c f.dst
  let useV := alg == 1
  let useW := f.dst != 0
  let same (d : Desc) : Bool := d.rows == dg.rows && d.cols == dg.cols
  let causes := (if 2 < alg || bitsAt blk 4 28 != 0 || bitsAt blk 352 160 != 0 then [0x03] else [])
    ++ s.descCauses i c f.src0 dg false true ++ numericCause dg ++ emptyCause dg
    ++ s.descCauses i c f.src1 dp false true ++ fp32Cause dp
    ++ s.descCauses i c f.src2 dm false true ++ fp32Cause dm
    ++ (if useV then (if f.dst2 == 0 then [0x81] else s.descCauses i c f.dst2 dv false true ++ fp32Cause dv) else [])
    ++ (if useW then s.descCauses i c f.dst dw false true ++ numericCause dw ++ blockCause dw else [])
    ++ (if same dp && same dm && (!useV || same dv) && (!useW || same dw) then [] else [0x02])
  let n := dg.live
  let reads := dg.rowsParts n dg.cols ++ dp.rowsParts n dp.cols ++ dm.rowsParts n dm.cols
    ++ (if useV then dv.rowsParts n dv.cols else [])
  ⟨if useV then f.handles else f.handles.take 4, causes, (f.paddr, 64) :: reads, if useW then dw.rowsParts n dw.cols else [], fun _ =>
    let out := (List.range n).map fun r => (List.range dg.cols).map fun k =>
      optElem blk (s.read32 dg r k) (s.read32 dp r k) (s.read32 dm r k) (if useV then s.read32 dv r k else 0)
    let ps := out.map fun r => r.map Prod.fst
    let s1 := (s.readInvalid c dg n).putRows c dp ps 0 0
    let s1 := s1.putRows c dm (out.map fun r => r.map fun x => x.2.1) 0 0
    let s1 := if useV then s1.putRows c dv (out.map fun r => r.map fun x => x.2.2) 0 0 else s1
    let s1 := if useW then s1.putRows c dw (rotateRows dw ps) 0 0 else s1
    let q := ceilDiv (n * dg.cols) 256
    let base := (([4, 19, 8] : List Nat).getD alg 4) * q + 8
    (s1, base + (if useW then (if dw.sr then 10 else 8) * q + 8 else 0))⟩

/-- A VE operation: its field causes, the memory operands that are read before anything else, then its job. -/
def execVe (op : Nat) (first : StreamSt → IWord → List (Nat × Nat)) (job : Nat → State → StreamSt → IWord → VeJob)
    (st : Stream) (s : State) : Option State :=
  issue st (isOp op) (veFieldCauses op)
    (fun s t w => readFirst (first t w) (veRun (job (streamIx st)) st) (streamIx st) s t w) s

def noFirst (_ : StreamSt) (_ : IWord) : List (Nat × Nat) := []
def closeFirst (t : StreamSt) (w : IWord) : List (Nat × Nat) := (veF t w).closeReads
def optFirst (t : StreamSt) (w : IWord) : List (Nat × Nat) := [((veF t w).paddr, 64)]

/-- VSIMPLE (R124, Table 5-11). -/
def execVsimple (st : Stream) (s : State) : Host.Outcome State Fault Refusal :=
  attempt s (execVe 0x40 noFirst (elemJob 0x40) st s)
/-- VIEEE (R101). -/
def execVieee (st : Stream) (s : State) : Host.Outcome State Fault Refusal :=
  attempt s (execVe 0x41 noFirst (elemJob 0x41) st s)
/-- VEXPLOG (R99, R100). -/
def execVexplog (st : Stream) (s : State) : Host.Outcome State Fault Refusal :=
  attempt s (execVe 0x42 noFirst (elemJob 0x42) st s)
/-- VCOMP (R101). -/
def execVcomp (st : Stream) (s : State) : Host.Outcome State Fault Refusal :=
  attempt s (execVe 0x43 noFirst (elemJob 0x43) st s)
/-- VCVT (R47). -/
def execVcvt (st : Stream) (s : State) : Host.Outcome State Fault Refusal :=
  attempt s (execVe 0x44 noFirst vcvtJob st s)
/-- VRED (R102). -/
def execVred (st : Stream) (s : State) : Host.Outcome State Fault Refusal :=
  attempt s (execVe 0x45 noFirst vredJob st s)
/-- VSOFTMAX (R103). -/
def execVsoftmax (st : Stream) (s : State) : Host.Outcome State Fault Refusal :=
  attempt s (execVe 0x46 noFirst (rowwiseJob 0x46) st s)
/-- RMSNORM (R103). -/
def execRmsnorm (st : Stream) (s : State) : Host.Outcome State Fault Refusal :=
  attempt s (execVe 0x47 noFirst (rowwiseJob 0x47) st s)
/-- LAYERNORM (R103). -/
def execLayernorm (st : Stream) (s : State) : Host.Outcome State Fault Refusal :=
  attempt s (execVe 0x48 noFirst (rowwiseJob 0x48) st s)
/-- VROUTE (R104, R105). -/
def execVroute (st : Stream) (s : State) : Host.Outcome State Fault Refusal :=
  attempt s (execVe 0x49 noFirst vrouteJob st s)
/-- VEXIT (R106). -/
def execVexit (st : Stream) (s : State) : Host.Outcome State Fault Refusal :=
  attempt s (execVe 0x4A noFirst vexitJob st s)
/-- VSCLOSE (R57, R108). -/
def execVsclose (st : Stream) (s : State) : Host.Outcome State Fault Refusal :=
  attempt s (execVe 0x4B closeFirst vscloseJob st s)
/-- VOPT (R110). -/
def execVopt (st : Stream) (s : State) : Host.Outcome State Fault Refusal :=
  attempt s (execVe 0x4C optFirst voptJob st s)

end Sys2Proof.Machine
end

