-- ==== Sys2Proof/Machine/Dispatch.lean ====
section
/-! DEFINITION. The meaning of each command, one arm per row of spec/opcode_table.json. -/

namespace Sys2Proof.Machine

def exec (i : Instr) (s : State) : Host.Outcome State Fault Refusal :=
  match i with
  | .nop st => Sys2Proof.Machine.execNop st s
  | .twait st => Sys2Proof.Machine.execTwait st s
  | .signal st => Sys2Proof.Machine.execSignal st s
  | .setx st => Sys2Proof.Machine.execSetx st s
  | .addx st => Sys2Proof.Machine.execAddx st s
  | .loop st => Sys2Proof.Machine.execLoop st s
  | .jump st => Sys2Proof.Machine.execJump st s
  | .brx st => Sys2Proof.Machine.execBrx st s
  | .waitgc st => Sys2Proof.Machine.execWaitgc st s
  | .fetchahead st => Sys2Proof.Machine.execFetchahead st s
  | .lock st => Sys2Proof.Machine.execLock st s
  | .halt st => Sys2Proof.Machine.execHalt st s
  | .wend st => Sys2Proof.Machine.execWend st s
  | .dset st => Sys2Proof.Machine.execDset st s
  | .dlive st => Sys2Proof.Machine.execDlive st s
  | .mxw st => Sys2Proof.Machine.execMxw st s
  | .mxo st => Sys2Proof.Machine.execMxo st s
  | .mxt st => Sys2Proof.Machine.execMxt st s
  | .mxs st => Sys2Proof.Machine.execMxs st s
  | .mxc st => Sys2Proof.Machine.execMxc st s
  | .mxd st => Sys2Proof.Machine.execMxd st s
  | .vsimple st => Sys2Proof.Machine.execVsimple st s
  | .vieee st => Sys2Proof.Machine.execVieee st s
  | .vexplog st => Sys2Proof.Machine.execVexplog st s
  | .vcomp st => Sys2Proof.Machine.execVcomp st s
  | .vcvt st => Sys2Proof.Machine.execVcvt st s
  | .vred st => Sys2Proof.Machine.execVred st s
  | .vsoftmax st => Sys2Proof.Machine.execVsoftmax st s
  | .rmsnorm st => Sys2Proof.Machine.execRmsnorm st s
  | .layernorm st => Sys2Proof.Machine.execLayernorm st s
  | .vroute st => Sys2Proof.Machine.execVroute st s
  | .vexit st => Sys2Proof.Machine.execVexit st s
  | .vsclose st => Sys2Proof.Machine.execVsclose st s
  | .vopt st => Sys2Proof.Machine.execVopt st s
  | .move st => Sys2Proof.Machine.execMove st s
  | .moveCopy c ch => Sys2Proof.Machine.execMoveCopy c ch s
  | .moveFill c ch => Sys2Proof.Machine.execMoveFill c ch s
  | .moveCompare c ch => Sys2Proof.Machine.execMoveCompare c ch s
  | .moveConvert c ch => Sys2Proof.Machine.execMoveConvert c ch s
  | .moveRelayout c ch => Sys2Proof.Machine.execMoveRelayout c ch s
  | .gatherMap c ch => Sys2Proof.Machine.execGatherMap c ch s
  | .descriptorDone c ch => Sys2Proof.Machine.execDescriptorDone c ch s
  | .tileGroupDone c ch => Sys2Proof.Machine.execTileGroupDone c ch s
  | .xsendForward st gates => Sys2Proof.Machine.execXsendForward st gates s
  | .xsendBackward st => Sys2Proof.Machine.execXsendBackward st s
  | .xrecvLanding st => Sys2Proof.Machine.execXrecvLanding st s
  | .xrecvReturn st => Sys2Proof.Machine.execXrecvReturn st s
  | .xreturn st => Sys2Proof.Machine.execXreturn st s
  | .xclose st => Sys2Proof.Machine.execXclose st s
  | .xmsgRow src d m => Sys2Proof.Machine.execXmsgRow src d m s
  | .xmsgCount src d m => Sys2Proof.Machine.execXmsgCount src d m s
  | .xmsgReturn src d m => Sys2Proof.Machine.execXmsgReturn src d m s
  | .xmsgAck src d m => Sys2Proof.Machine.execXmsgAck src d m s
  | .xmsgNack src d m => Sys2Proof.Machine.execXmsgNack src d m s
  | .xmsgReject src d m => Sys2Proof.Machine.execXmsgReject src d m s
  | .landingComplete op i_ => Sys2Proof.Machine.execLandingComplete op i_ s
  | .ceOperationBegin g => Sys2Proof.Machine.execCeOperationBegin g s
  | .credscat st => Sys2Proof.Machine.execCredscat st s
  | .callred st => Sys2Proof.Machine.execCallred st s
  | .cgather st => Sys2Proof.Machine.execCgather st s
  | .cbcast st => Sys2Proof.Machine.execCbcast st s
  | .cdigest st => Sys2Proof.Machine.execCdigest st s
  | .cmsgNode src m => Sys2Proof.Machine.execCmsgNode src m s
  | .cmsgAbsent src m => Sys2Proof.Machine.execCmsgAbsent src m s
  | .cmsgData src m => Sys2Proof.Machine.execCmsgData src m s
  | .cmsgRelay src m => Sys2Proof.Machine.execCmsgRelay src m s
  | .cmsgAck src m => Sys2Proof.Machine.execCmsgAck src m s
  | .cmsgNack src m => Sys2Proof.Machine.execCmsgNack src m s
  | .cmsgReject src m => Sys2Proof.Machine.execCmsgReject src m s
  | .countEventArrive i_ => Sys2Proof.Machine.execCountEventArrive i_ s
  | .demandFillComplete st => Sys2Proof.Machine.execDemandFillComplete st s
  | .fetchaheadFillComplete st => Sys2Proof.Machine.execFetchaheadFillComplete st s
  | .speculativeFetch st k => Sys2Proof.Machine.execSpeculativeFetch st k s
  | .heldAccessComplete i_ => Sys2Proof.Machine.execHeldAccessComplete i_ s
  | .poolAllocate st owner bytes key => Sys2Proof.Machine.execPoolAllocate st owner bytes key s
  | .poolRelease st addr chain => Sys2Proof.Machine.execPoolRelease st addr chain s
  | .poolWaiterGrant m r => Sys2Proof.Machine.execPoolWaiterGrant m r s
  | .spillCacheRefill m r => Sys2Proof.Machine.execSpillCacheRefill m r s
  | .boundaryStart p => Sys2Proof.Machine.execBoundaryStart p s
  | .paceSend p => Sys2Proof.Machine.execPaceSend p s
  | .entryPcLoad p => Sys2Proof.Machine.execEntryPcLoad p s
  | .windowOpen p => Sys2Proof.Machine.execWindowOpen p s
  | .windowClose p => Sys2Proof.Machine.execWindowClose p s
  | .sleepAnswer p dom => Sys2Proof.Machine.execSleepAnswer p dom s
  | .sleepAnswerDeadline p => Sys2Proof.Machine.execSleepAnswerDeadline p s
  | .sleepCommit p => Sys2Proof.Machine.execSleepCommit p s
  | .wakeRequest p => Sys2Proof.Machine.execWakeRequest p s
  | .latchedWake p => Sys2Proof.Machine.execLatchedWake p s
  | .scheduledWake p => Sys2Proof.Machine.execScheduledWake p s
  | .meetingCountReached p => Sys2Proof.Machine.execMeetingCountReached p s
  | .hangLimitExpiry p => Sys2Proof.Machine.execHangLimitExpiry p s
  | .holdLimitExpiry p r => Sys2Proof.Machine.execHoldLimitExpiry p r s
  | .window0Boundary p => Sys2Proof.Machine.execWindow0Boundary p s
  | .launchCount p => Sys2Proof.Machine.execLaunchCount p s
  | .normVerdict p => Sys2Proof.Machine.execNormVerdict p s
  | .load pt f => Sys2Proof.Machine.execLoad pt f s
  | .store pt f => Sys2Proof.Machine.execStore pt f s
  | .atomic pt f => Sys2Proof.Machine.execAtomic pt f s
  | .fill pt f => Sys2Proof.Machine.execFill pt f s
  | .evict pt f => Sys2Proof.Machine.execEvict pt f s
  | .inval pt f => Sys2Proof.Machine.execInval pt f s
  | .loadData pt f => Sys2Proof.Machine.execLoadData pt f s
  | .storeAck pt f => Sys2Proof.Machine.execStoreAck pt f s
  | .atomicData pt f => Sys2Proof.Machine.execAtomicData pt f s
  | .fillData pt f => Sys2Proof.Machine.execFillData pt f s
  | .invalAck pt f => Sys2Proof.Machine.execInvalAck pt f s
  | .resync pt f => Sys2Proof.Machine.execResync pt f s
  | .requestTimeout n pt => Sys2Proof.Machine.execRequestTimeout n pt s
  | .suspectResend n => Sys2Proof.Machine.execSuspectResend n s
  | .farCacheLoad st n addr len dst => Sys2Proof.Machine.execFarCacheLoad st n addr len dst s
  | .beacon pt f rx => Sys2Proof.Machine.execBeacon pt f rx s
  | .beaconSend pt => Sys2Proof.Machine.execBeaconSend pt s
  | .late pt f => Sys2Proof.Machine.execLate pt f s
  | .teardown pt f => Sys2Proof.Machine.execTeardown pt f s
  | .alarm pt f => Sys2Proof.Machine.execAlarm pt f s
  | .dataUnit pt tag data crc => Sys2Proof.Machine.execDataUnit pt tag data crc s
  | .unitAck pt lsn => Sys2Proof.Machine.execUnitAck pt lsn s
  | .unitNak pt lsn => Sys2Proof.Machine.execUnitNak pt lsn s
  | .credit pt cls count => Sys2Proof.Machine.execCredit pt cls count s
  | .spare pt lane t => Sys2Proof.Machine.execSpare pt lane t s
  | .echo pt count => Sys2Proof.Machine.execEcho pt count s
  | .echoReply pt count => Sys2Proof.Machine.execEchoReply pt count s
  | .linkAckTimer pt => Sys2Proof.Machine.execLinkAckTimer pt s
  | .laneFailure pt lane => Sys2Proof.Machine.execLaneFailure pt lane s
  | .spareSwitch pt => Sys2Proof.Machine.execSpareSwitch pt s
  | .portDown pt => Sys2Proof.Machine.execPortDown pt s
  | .d2dLinkFailure u link module lane => Sys2Proof.Machine.execD2dLinkFailure u link module lane s
  | .ptpSync pt twoStep seq t1 t2 => Sys2Proof.Machine.execPtpSync pt twoStep seq t1 t2 s
  | .ptpFollowUp pt seq t1 => Sys2Proof.Machine.execPtpFollowUp pt seq t1 s
  | .ptpDelayReq pt seq rx => Sys2Proof.Machine.execPtpDelayReq pt seq rx s
  | .ptpDelayResp pt seq t4 => Sys2Proof.Machine.execPtpDelayResp pt seq t4 s
  | .ptpSyncSend pt => Sys2Proof.Machine.execPtpSyncSend pt s
  | .sourceTimeout => Sys2Proof.Machine.execSourceTimeout s
  | .errEstGrowth => Sys2Proof.Machine.execErrEstGrowth s
  | .countBeaconSend => Sys2Proof.Machine.execCountBeaconSend s
  | .countBeaconReceive u => Sys2Proof.Machine.execCountBeaconReceive u s
  | .heartbeatSend => Sys2Proof.Machine.execHeartbeatSend s
  | .heartbeatTimeout => Sys2Proof.Machine.execHeartbeatTimeout s
  | .takeoverComplete => Sys2Proof.Machine.execTakeoverComplete s
  | .mirrorRecord => Sys2Proof.Machine.execMirrorRecord s
  | .mirrorAck => Sys2Proof.Machine.execMirrorAck s
  | .standbyFailure check => Sys2Proof.Machine.execStandbyFailure check s
  | .heartwoodSilence => Sys2Proof.Machine.execHeartwoodSilence s
  | .errorEvent e => Sys2Proof.Machine.execErrorEvent e s
  | .recordWrite => Sys2Proof.Machine.execRecordWrite s
  | .flashAppend => Sys2Proof.Machine.execFlashAppend s
  | .hbmTempSample m t => Sys2Proof.Machine.execHbmTempSample m t s
  | .bandChange m => Sys2Proof.Machine.execBandChange m s
  | .hbmScrub m hits => Sys2Proof.Machine.execHbmScrub m hits s
  | .sramScrub u hits => Sys2Proof.Machine.execSramScrub u hits s
  | .rowRemap m pc bank row bad => Sys2Proof.Machine.execRowRemap m pc bank row bad s
  | .stackRetirement m cause pc bank => Sys2Proof.Machine.execStackRetirement m cause pc bank s
  | .sensorSample u i_ t => Sys2Proof.Machine.execSensorSample u i_ t s
  | .energySlotMeasured slot owned shared input peak => Sys2Proof.Machine.execEnergySlotMeasured slot owned shared input peak s
  | .thermalClamp u => Sys2Proof.Machine.execThermalClamp u s
  | .thermalClampRelease u => Sys2Proof.Machine.execThermalClampRelease u s
  | .currentLimit deciAmps => Sys2Proof.Machine.execCurrentLimit deciAmps s
  | .currentLimitRelease => Sys2Proof.Machine.execCurrentLimitRelease s
  | .avgLimit avgW => Sys2Proof.Machine.execAvgLimit avgW s
  | .avgLimitRelease avgW => Sys2Proof.Machine.execAvgLimitRelease avgW s
  | .regOvercurrent u out => Sys2Proof.Machine.execRegOvercurrent u out s
  | .thermalTrip u => Sys2Proof.Machine.execThermalTrip u s
  | .packageSleep => Sys2Proof.Machine.execPackageSleep s
  | .domainTransitionDone dom => Sys2Proof.Machine.execDomainTransitionDone dom s
  | .heartwoodSupplyUp slot => Sys2Proof.Machine.execHeartwoodSupplyUp slot s
  | .boot => Sys2Proof.Machine.execBoot s
  | .heartwoodSupplyLost => Sys2Proof.Machine.execHeartwoodSupplyLost s
  | .mainGoodSet mv => Sys2Proof.Machine.execMainGoodSet mv s
  | .mainGoodClear mv => Sys2Proof.Machine.execMainGoodClear mv s
  | .refclkLost ppm => Sys2Proof.Machine.execRefclkLost ppm s
  | .perstAssert hp => Sys2Proof.Machine.execPerstAssert hp s
  | .ageingSample readings => Sys2Proof.Machine.execAgeingSample readings s
  | .graftFinalCopy d => Sys2Proof.Machine.execGraftFinalCopy d s
  | .graftMapSwitch d => Sys2Proof.Machine.execGraftMapSwitch d s
  | .graftForwardEnd d => Sys2Proof.Machine.execGraftForwardEnd d s
  | .cut p => Sys2Proof.Machine.execCut p s
  | .frameCapture pt f => Sys2Proof.Machine.execFrameCapture pt f s
  | .cutResume p => Sys2Proof.Machine.execCutResume p s
  | .engineHalt st => Sys2Proof.Machine.execEngineHalt st s
  | .traceTrigger ring => Sys2Proof.Machine.execTraceTrigger ring s
  | .snapshotLatch i_ => Sys2Proof.Machine.execSnapshotLatch i_ s
  | .tgenRunEnd m pc made => Sys2Proof.Machine.execTgenRunEnd m pc made s
  | .tgenStart m pc => Sys2Proof.Machine.execTgenStart m pc s
  | .tgenStop m pc => Sys2Proof.Machine.execTgenStop m pc s
  | .cmdProdWrite b k v => Sys2Proof.Machine.execCmdProdWrite b k v s
  | .rspConsWrite b k v => Sys2Proof.Machine.execRspConsWrite b k v s
  | .mbxIrqTake b => Sys2Proof.Machine.execMbxIrqTake b s
  | .portTake hp v => Sys2Proof.Machine.execPortTake hp v s
  | .peakWTake => Sys2Proof.Machine.execPeakWTake s
  | .fifoPeakTake => Sys2Proof.Machine.execFifoPeakTake s
  | .trcFire ring => Sys2Proof.Machine.execTrcFire ring s
  | .jnlReadWrite p v => Sys2Proof.Machine.execJnlReadWrite p v s
  | .doorbellWrite p k v => Sys2Proof.Machine.execDoorbellWrite p k v s
  | .bar2Access b off len data => Sys2Proof.Machine.execBar2Access b off len data s
  | .accWinWrite c v => Sys2Proof.Machine.execAccWinWrite c v s
  | .registerWrite t v => Sys2Proof.Machine.execRegisterWrite t v s
  | .i3cPrivateWrite h bytes => Sys2Proof.Machine.execI3cPrivateWrite h bytes s
  | .i3cPrivateRead h n => Sys2Proof.Machine.execI3cPrivateRead h n s
  | .entdaa h others addr => Sys2Proof.Machine.execEntdaa h others addr s
  | .rstdaa h => Sys2Proof.Machine.execRstdaa h s
  | .setmwl h n => Sys2Proof.Machine.execSetmwl h n s
  | .setmrl h n => Sys2Proof.Machine.execSetmrl h n s
  | .getpid h => Sys2Proof.Machine.execGetpid h s
  | .getbcr h => Sys2Proof.Machine.execGetbcr h s
  | .getdcr h => Sys2Proof.Machine.execGetdcr h s
  | .getstatus h => Sys2Proof.Machine.execGetstatus h s
  | .enec h events => Sys2Proof.Machine.execEnec h events s
  | .disec h events => Sys2Proof.Machine.execDisec h events s
  | .pendingCommandComplete i_ failed => Sys2Proof.Machine.execPendingCommandComplete i_ failed s
  | .deviceStart b k => Sys2Proof.Machine.execDeviceStart b k s
  | .deviceStop b k => Sys2Proof.Machine.execDeviceStop b k s
  | .deviceReset b k => Sys2Proof.Machine.execDeviceReset b k s
  | .deviceIdentity b k => Sys2Proof.Machine.execDeviceIdentity b k s
  | .deviceMeasure b k => Sys2Proof.Machine.execDeviceMeasure b k s
  | .deviceStatus b k => Sys2Proof.Machine.execDeviceStatus b k s
  | .powerCap b k => Sys2Proof.Machine.execPowerCap b k s
  | .firmwareCommit b k => Sys2Proof.Machine.execFirmwareCommit b k s
  | .jobLoad b k img => Sys2Proof.Machine.execJobLoad b k img s
  | .jobUnload b k => Sys2Proof.Machine.execJobUnload b k s
  | .jobLaunch b k => Sys2Proof.Machine.execJobLaunch b k s
  | .jobTeardown b k => Sys2Proof.Machine.execJobTeardown b k s
  | .jobResume b k => Sys2Proof.Machine.execJobResume b k s
  | .jobVariant b k => Sys2Proof.Machine.execJobVariant b k s
  | .inputCommit b k => Sys2Proof.Machine.execInputCommit b k s
  | .poolAudit b k => Sys2Proof.Machine.execPoolAudit b k s
  | .pacePlan b k => Sys2Proof.Machine.execPacePlan b k s
  | .paceRead b k => Sys2Proof.Machine.execPaceRead b k s
  | .plateStage b k pl sigOk => Sys2Proof.Machine.execPlateStage b k pl sigOk s
  | .plateApply b k => Sys2Proof.Machine.execPlateApply b k s
  | .overlayApply b k sigOk => Sys2Proof.Machine.execOverlayApply b k sigOk s
  | .overlayRemove b k => Sys2Proof.Machine.execOverlayRemove b k s
  | .overlayList b k => Sys2Proof.Machine.execOverlayList b k s
  | .nodeAssign b k => Sys2Proof.Machine.execNodeAssign b k s
  | .timeSource b k => Sys2Proof.Machine.execTimeSource b k s
  | .partQuery b k => Sys2Proof.Machine.execPartQuery b k s
  | .graftPrepare b k => Sys2Proof.Machine.execGraftPrepare b k s
  | .graftCommit b k => Sys2Proof.Machine.execGraftCommit b k s
  | .graftAbort b k => Sys2Proof.Machine.execGraftAbort b k s
  | .graftStatus b k => Sys2Proof.Machine.execGraftStatus b k s
  | .normArm b k => Sys2Proof.Machine.execNormArm b k s
  | .normAnswer b k => Sys2Proof.Machine.execNormAnswer b k s
  | .proofArm b k => Sys2Proof.Machine.execProofArm b k s
  | .proofCompareCommand b k => Sys2Proof.Machine.execProofCompareCommand b k s
  | .journalOpen b k => Sys2Proof.Machine.execJournalOpen b k s
  | .journalClose b k => Sys2Proof.Machine.execJournalClose b k s
  | .exportStart b k => Sys2Proof.Machine.execExportStart b k s
  | .importStart b k => Sys2Proof.Machine.execImportStart b k s
  | .stopAt b k => Sys2Proof.Machine.execStopAt b k s
  | .stopCancel b k => Sys2Proof.Machine.execStopCancel b k s
  | .debugHalt b k => Sys2Proof.Machine.execDebugHalt b k s
  | .debugRun b k => Sys2Proof.Machine.execDebugRun b k s
  | .peek b k => Sys2Proof.Machine.execPeek b k s
  | .take b k => Sys2Proof.Machine.execTake b k s
  | .traceArm b k => Sys2Proof.Machine.execTraceArm b k s
  | .countersSnap b k => Sys2Proof.Machine.execCountersSnap b k s
  | .serviceEnter b k => Sys2Proof.Machine.execServiceEnter b k s
  | .serviceExit b k => Sys2Proof.Machine.execServiceExit b k s
  | .tgenRun b k => Sys2Proof.Machine.execTgenRun b k s
  | .tgenRead b k => Sys2Proof.Machine.execTgenRead b k s
  | .recordRead b k => Sys2Proof.Machine.execRecordRead b k s
  | .wearRead b k => Sys2Proof.Machine.execWearRead b k s
  | .stackRetire b k => Sys2Proof.Machine.execStackRetire b k s
  | .returnPrepare b k => Sys2Proof.Machine.execReturnPrepare b k s
  | .gcWaitSatisfied st => Sys2Proof.Machine.execGcWaitSatisfied st s
  | .engineInstructionComplete st => Sys2Proof.Machine.execEngineInstructionComplete st s
  | .tallyFifoApply c => Sys2Proof.Machine.execTallyFifoApply c s
  | .linkTrainingComplete pt peer => Sys2Proof.Machine.execLinkTrainingComplete pt peer s
  | .perstDeassert hp => Sys2Proof.Machine.execPerstDeassert hp s
  | .snapshotWriteTimeout i_ => Sys2Proof.Machine.execSnapshotWriteTimeout i_ s
  | .ibiRetry => Sys2Proof.Machine.execIbiRetry s
  | .boundaryScan i_ => Sys2Proof.Machine.execBoundaryScan i_ s

end Sys2Proof.Machine
end

