-- ==== Sys2Proof/Machine/Tick.lean ====
section
/-! DEFINITION. A tick of 4 ns (log 6): the count (R406, R407), engine cycles (R551, R552, R558), the cycles an
instruction still takes, tally banks (R136), wear time (R544), and entries with unknown codes (log 46). -/

namespace Sys2Proof.Machine

/-- Every entry of a table changed by f; entries that become the default leave it. -/
def tmap {α : Type} [DecidableEq α] (d : Nat → α) (f : Nat → α → α) (t : Tbl α) : Tbl α :=
  (t.map fun x => (x.1, f x.1 x.2)).filter fun x => x.2 != d x.1

-- Engine clocks (R508)

/-- The power domain of a stream. -/
def State.streamDom (s : State) (i : Nat) : Nat := if i < 512 then s.coreKey (i / 4) else s.dieKey ((i - 512) / 2)

/-- The pace of a stream's clock. -/
def State.streamPace (s : State) (i : Nat) : Nat :=
  match s.partOfDie (ixDie i) with
  | some p => min (s.part p.val).pace 7
  | none => 0

/-- Engine cycles of the present tick at pace q: 8 at P0, a tenth less for each step. -/
def State.cyclesNow (s : State) (q : Nat) : Nat := (s.gc + 1) * 4 * (10 - q) / 5 - s.gc * 4 * (10 - q) / 5

-- Slots (Table 20-1)

/-- The XE's operations have messages, and none of them has credit. -/
def State.xeNoCredit (s : State) (d : Nat) : Bool :=
  let ms := (s.xch.ops.filter fun o => o.die == d && !o.failed).flatMap fun o => o.todo.map fun x => (o, x)
  !ms.isEmpty && ms.all fun y =>
    let q := xQueue y.1.word
    y.2.mtype != 2 && decide (s.xqCredits d q ≤ s.creditsOut d q y.2.slot)

/-- A count event of the engine is held back by a full tally FIFO (R136). -/
def State.eventHeld (s : State) (i : Nat) : Bool :=
  s.eng.events.any fun e => e.srcDie == ixDie i && e.srcEng == ixEng i
    && decide (64 ≤ (s.bank (4 * e.die + e.pos)).fifo.length)

/-- The slot code that the cycles of stream i count under; none while an instruction's own count runs, or where the stream
runs and no condition of Table 20-1 holds. -/
def State.slotCode (s : State) (i : Nat) : Option Nat :=
  let x := s.stream i
  let d := ixDie i
  if x.st == .halted || s.frozenStream i then some 2
  else if x.flight.isSome then none
  else if i < 512 && 2 ≤ i % 4 && (List.range 16).any (fun k => (s.chan (i / 4) (16 * (i % 2) + k)).running.isSome) then some 0
  else if x.st == .waitFetch then some 3
  else if x.st == .run && x.queue then some 4
  else if s.eng.held.any (fun h => h.stream == some i) then some 5
  else if i == xeIx d && s.xch.waits.any (fun w => s.xch.ops.any fun o => o.id == w.op && o.die == d) then some 8
  else if i == xeIx d && s.xeNoCredit d then some 9
  else if s.eventHeld i then some 10
  else match x.st with
    | .idle => some 16
    | .waitTally => some 17
    | .waitGc => some 18
    | .waitBoundary => some 19
    | _ => none

/-- The node to which a stream's waits are charged (R552): the first peer late for the window that is open. -/
def State.latePeer (s : State) (i : Nat) : Option Nat :=
  match s.partOfDie (ixDie i) with
  | none => none
  | some p =>
    let t := s.part p.val
    if t.closed.isSome then none else (t.peers.find? fun y => y.1 == t.window).map fun y => y.2.1

/-- The slot after R552. -/
def State.chargedCode (s : State) (i : Nat) : Option Nat :=
  match s.slotCode i with
  | some c => if (c == 9 || c == 17 || c == 19) && (s.latePeer i).isSome then some 20 else some c
  | none => none

/-- A run of cycles under one code other than BUSY ends with a STALL entry, stamped with its last cycle. -/
def State.endRun (s : State) (i : Nat) : State :=
  let x := s.stream i
  if x.idleRun == 0 then s
  else
    let g := s.gc
    { ({ s with gc := g - 1 }).traceEng i 4 (natLe 1 x.idleCode ++ natLe 4 x.idleRun) with gc := g }

/-- The cycles of this tick go to the slot of a code. -/
def State.countCycles (s : State) (i : Nat) : State :=
  let n := s.cyclesNow (s.streamPace i)
  match s.chargedCode i with
  | some 0 =>
    let s := (s.endRun i).bumpCtr i 0 n
    s.setStream i { s.stream i with idleCode := 0, idleRun := 0 }
  | some c =>
    let x := s.stream i
    let s := if x.idleCode == c then s else s.endRun i
    let r := if x.idleCode == c then x.idleRun else 0
    let s := s.bumpCtr i (8 * c) n
    let s := if c == 20 then s.setCfgF (ctrBase i + 0xC8) 0 14 ((s.latePeer i).getD 0) else s
    s.setStream i { s.stream i with idleCode := c, idleRun := r + n }
  | none => (s.endRun i).setStream i { s.stream i with idleCode := 0, idleRun := 0 }

/-- The instruction in flight on a stream has so many fewer fifths of a cycle to go. -/
def State.runFlight (s : State) (i : Nat) : State :=
  let x := s.stream i
  match x.flight with
  | some f =>
    if s.frozenStream i || x.st == .halted then s
    else s.setStream i { x with flight := some { f with left := f.left - 4 * (10 - s.streamPace i) } }
  | none => s

/-- One stream's part of a tick: cycles while its domain is ON, SLEEP_TICKS while it sleeps. -/
def State.tickStream (s : State) (i : Nat) : State :=
  match s.power (s.streamDom i) with
  | .on => (s.countCycles i).runFlight i
  | .sleep => s.bumpCtr i 0xC0 1
  | .off => s

def bankAged (_ : Nat) (b : Bank) : Bank := { b with applied := 0 }

/-- ON_TICKS of the units whose domains are on (Table 19-11): dies by their own domain, stacks by their memory die's, I/O
dies by their router's. -/
def State.tickWear (s : State) : State :=
  let on : List Nat := (below 34 fun x => s.power (136 + x) == .on) ++ ((below 12 fun m => s.power (222 + m) == .on).flatMap
    fun m => [34 + m, 46 + m]) ++ ((below 4 fun i => s.power (216 + i) == .on).map fun i => 58 + i)
    ++ ((below 48 fun p => s.power (234 + p) == .on).map fun p => 62 + p)
    ++ ((below 2 fun h => !s.mgmt.deadHw.contains h).map fun h => 110 + h)
  { s with mgmt := { s.mgmt with wearOn := on.foldl bump s.mgmt.wearOn } }

/-- A tick passes. While the count holds (R407) it does not advance. -/
def State.tick (s : State) : State :=
  if !s.mgmt.supply then s
  else
    let s := if s.lysbyUp then s.serveUnknown else s
    let s := (List.range 576).foldl State.tickStream s
    let s := { s with eng := { s.eng with banks := tmap (fun _ => bankZero) bankAged s.eng.banks } }
    let s := s.tickWear
    if s.time.hold == 0 then { s with gc := s.gc + 1 } else { s with time := { s.time with hold := s.time.hold - 1 } }

end Sys2Proof.Machine
end

