-- ==== Sys2Proof/Safety.lean ====
section
/-! DEFINITION. What counts as a safe run, and the conditions in whose terms the statements are made. -/

namespace Sys2Proof

/-- A step answers a next state. -/
def Completes (s : Machine.State) : Prop := ∃ t, Machine.step s = .next t

namespace Machine

/-- Stream `st` has instruction `w` to issue in state s: the stream may be asked, `w` is the word its fetch gives, its opcode
is legal there, no cause common to all opcodes stands against it, and its waits have been satisfied or can be now (R119). -/
structure Issues (st : Stream) (w : IWord) (s : State) : Prop where
  may : s.mayIssue (streamIx st) = true
  word : s.fetch (streamIx st) = .word w
  legal : legalOp st (opOf w) = true
  clean : s.commonCauses (streamIx st) w = []
  waits : (s.stream (streamIx st)).granted = true
    ∨ (s.waitOvf (streamIx st) (waitsOf w) = false ∧ s.waitsMet (streamIx st) (waitsOf w) = true
        ∧ s.outranked (streamIx st) (waitsOf w) = false)

/-- The state once the waits of the instruction have subtracted (R119). -/
def State.afterWaits (s : State) (i : Nat) (w : IWord) : State :=
  if (s.stream i).granted then s else s.takeWaits i (waitsOf w)

/-- The stream as its instruction runs. -/
def issuing (t : StreamSt) : StreamSt := { t with st := .run, granted := true }

/-- The ME instruction of row c and shape sh completes: what it must meet, and the state it gives. -/
def matrixCompletes (c : Stream → Instr) (sh : Shape) : Prop :=
  ∀ (st : Stream) (w : IWord) (s : State) (g : Nat) (cls : Cls), Issues st w s → opOf w = shapeOp sh →
    let i := streamIx st
    let u := s.afterWaits i w
    let t := issuing (s.stream i)
    let f := meF t w
    let j := u.meJob sh (i / 4) t w g cls
    meFieldCauses sh s (s.stream i) w = [] → u.unread i (i / 4) [f.a, f.b] = [] →
    pairFor sh (sparse24 sh w) (u.desc (i / 4) f.a).fmt (u.desc (i / 4) f.b).fmt = some (g, cls) →
    u.meCauses i j w = [] → u.reach (u.partOf i) (u.meAreas j) = .ok →
    exec (c st) s = .next (u.meFinish i t w j)

/-- The VE operation of row c and opcode op completes: what it must meet, and the state it gives. -/
def vectorCompletes (c : Stream → Instr) (op : Nat) (first : StreamSt → IWord → List (Nat × Nat))
    (job : Nat → State → StreamSt → IWord → VeJob) : Prop :=
  ∀ (st : Stream) (w : IWord) (s : State), Issues st w s → opOf w = op →
    let i := streamIx st
    let u := s.afterWaits i w
    let t := issuing (s.stream i)
    let j := job i u t w
    veFieldCauses op s (s.stream i) w = [] → u.reach (u.partOf i) (first t w) = .ok → u.unread i (i / 4) j.hs = [] →
    j.causes = [] → u.anyPoison j.reads = false → u.reach (u.partOf i) (j.reads ++ j.writes) = .ok →
    exec (c st) s = .next (startFlight (j.effect ()).1 i w t (j.effect ()).2 0 0)

/-- The operation op of a move descriptor completes under row c: what it must meet, and the state it gives. -/
def moveCompletes (c : Core → Chan → Instr) (op : Nat) : Prop :=
  ∀ (k : Core) (h : Chan) (s u : State) (a n mism first bytes : Nat) (x : ChanSt),
    s.chanReady k.val h.val = true → (s.chan k.val h.val).head = some (a, n, x) → chainOk k.val a n = true →
    s.poisoned a 64 = false →
    let w : MWord := BitVec.ofNat 512 (s.rdN a 64)
    let p := s.partOf (mvStream k.val h.val)
    let v := s.chanTake k.val h.val a x
    let j := moveJob (mvStream k.val h.val) k.val p w v
    mDescBad w = false → mOp w = op → j.stop = none → j.way k.val p v = .ok →
    (j.poisonStops && v.anyPoison j.reads) = false → j.effect () = .ok u mism first bytes →
    exec (c k h) s = .next ((u.setChan k.val h.val { x with
      rest := (a + 64, n - 1), running := some ⟨a, w, tileGroups w, mism, first, bytes⟩ }).wsDescriptor k.val h.val w)

/-- The XE instruction of row c completes in its role: what it must meet, and the state it gives. -/
def exchangeCompletes (c : Stream → Instr) (role : XRole) (gates : Nat) (mine : IWord → Bool) : Prop :=
  ∀ (st : Stream) (w : IWord) (s : State), Issues st w s → mine w = true →
    let i := streamIx st
    let u := s.afterWaits i w
    let t := issuing (s.stream i)
    let a := u.xeRecord i w
    xHandles i (s.stream i) w = [] → roleCause role w = [] →
    (u.xch.ops.filter fun o => o.die == ixDie i && !o.failed).length < 16 →
    xMb w < u.cfgF (dieCfg (ixDie i) + 0x120) 48 8 → u.reach (u.partOf i) [(a, 64)] = .ok →
    u.xeCauses role i gates t w a = [] → u.reach (u.partOf i) (u.xeAreas role i gates t w a) = .ok →
    exec (c st) s = .next (u.xeStart role i gates t w a)

/-- A message of type mtype that arrives under row c completes: in the receive buffer, or at its open receive. -/
def arrivalCompletes (c : Node → CDie → Msg → Instr) (mtype : Nat) : Prop :=
  ∀ (src : Node) (d : CDie) (m : Msg) (s t : State) (o : XOp), fld m.hdr 0 4 = mtype → s.xeAwake d.val = true →
    msgCrcOk m = true →
    let u := s.traceMsg (xeIx d.val) true false src.val m
    let v := u.countRx src.val m.port.val (32 + m.payload.length)
    (src.val = u.node ∨ (u.ctxValid src.val = true ∧ u.ctxState src.val ≠ 2)) →
    v.nodeIn (s.partOfDie d.val) src.val = true → v.rejects d.val m = false →
    ((v.msgSeg d.val m).bind (fun a => v.receiveOf d.val a m) = none → v.bufBytes d.val + 32 + m.payload.length ≤ 0x40000 →
        exec (c src d m) s = .next { v with xch := { v.xch with buf := v.xch.buf ++ [⟨d.val, src.val, m⟩] } })
    ∧ ((v.msgSeg d.val m).bind (fun a => v.receiveOf d.val a m) = some o → o.failed = false →
        (mtype = 1 → v.landRow o src.val m = some t → exec (c src d m) s = .next t)
        ∧ (mtype = 2 → exec (c src d m) s = .next (v.landCount o src.val m))
        ∧ (mtype = 3 → exec (c src d m) s = .next (v.placeReturn o src.val m)))

/-- The CE instruction of row c and opcode op completes: what it must meet, and the state it gives. -/
def collectiveCompletes (c : Stream → Instr) (op : Nat) : Prop :=
  ∀ (st : Stream) (w : IWord) (s : State), Issues st w s → opOf w = op →
    let i := streamIx st
    let u := s.afterWaits i w
    let t := issuing (s.stream i)
    let g := cGroup w
    cHandles i (s.stream i) w = [] → (u.ce.ops.filter fun o => o.die == ixDie i && !o.failed).length < 16 →
    u.ceQueueBad i w = false → u.reach (u.partOf i) [(u.cgMembers g, 16 * u.cgSize g)] = .ok → u.ceCauses i t w = [] →
    exec (c st) s = .next (u.ceAccept i t w)

/-- A collective message that `ok` describes arrives under row c and completes: in the receive buffer, or at the running
operation. -/
def cmsgCompletes (c : Node → Msg → Instr) (ok : Msg → Bool) : Prop :=
  ∀ (src : Node) (m : Msg) (s t : State) (o : COp),
    let g := fld m.hdr 12 11
    let d := g / 64
    let u := s.traceMsg (ceIx d) true true src.val m
    let v := u.countRx src.val m.port.val (32 + m.payload.length)
    ok m = true → s.xeAwake d = true → cmsgCrcOk m = true →
    (src.val = u.node ∨ (u.ctxValid src.val = true ∧ u.ctxState src.val ≠ 2)) →
    v.nodeIn (s.partOfDie d) src.val = true → fld m.hdr 192 16 = v.stepOf (s.partOfDie d) % 65536 → v.cgEnabled g = true →
    (v.runningCop g = none → behind16 (fld m.hdr 112 16) (v.cgOpseq g) = false → v.cBufBytes d + 32 + m.payload.length ≤ 0x40000 →
        exec (c src m) s = .next { v with ce := { v.ce with buf := v.ce.buf ++ [⟨d, src.val, m⟩] } })
    ∧ (v.runningCop g = some o → fld m.hdr 112 16 = o.opseq → v.cTake o src.val m = some t → exec (c src m) s = .next t)

/-- Frame f of operation op and class cls reaches port p and is let in: the port brings it, it is addressed to this device and
well formed, its context is valid and not FENCED, and no cut captures it (R317, R320, R321, R337). -/
structure ComesIn (p op cls : Nat) (f : Frame) (s : State) : Prop where
  live : s.portLive p = true
  opcode : fOp f = op
  dst : fDst f = s.node
  cls : fClass f = cls
  status : fStatus f ≤ 5
  size : f.payload.length = if op = 1 ∨ op = 4 then 0 else fLen f
  len : fLen f ≤ 4096
  valid : s.ctxValid (fSrc f) = true
  up : s.ctxState (fSrc f) ≠ 2
  running : s.frozenFor f = false

/-- Request frame f of operation op is in its turn at its home on port p, with its bytes l in awake memory (R339, R342). -/
structure AtHome (p op : Nat) (f : Frame) (l : List (Nat × Nat)) (s : State) : Prop where
  comes : ComesIn p op 3 f s
  awake : (s.takeArrived p f).homeAcc l = .ok
  turn : (s.takeArrived p f).turn p f = .now

/-- Response frame f of operation op answers request r with status OK. -/
structure Answers (p op : Nat) (f : Frame) (r : Req) (s : State) : Prop where
  comes : ComesIn p op 2 f s
  request : (s.takeArrived p f).reqOf p f = some r
  good : fStatus f = 0

/-- Lysby takes the head entry of pair k of block b as a command of row r, and none of the checks that all commands share
stands against it: its form, a VF without partition, rights, the device's state, the seal (R439, R440, R473 to R475, R549). -/
structure Taken (r : CmdRow) (b : Blk) (k : Nat) (s : State) : Prop where
  may : s.mayTake = true
  turn : s.nextTake = some (b, k)
  code : entCode (s.headEntry b k) = r.code
  form : entBad r (s.headEntry b k) = false
  used : s.noPart b = false
  rights : mayAsk b k (classOf r (s.headEntry b k)) (s.headEntry b k) = true
  healthy : s.mgmt.devState = 9 → classOf r (s.headEntry b k) = .read ∨ r.code = 0x0103
  ready : entDev (s.headEntry b k) = false → classOf r (s.headEntry b k) ≠ .read → s.mgmt.devState = 2
  unsealed : s.sealedAgainst (classOf r (s.headEntry b k)) r.code = false

/-- The state that a taken command of row r starts from: its entry has left the ring, and it counts as work. -/
def State.given (s : State) (r : CmdRow) (b : Blk) (k : Nat) : State :=
  ((s.takeHead b k).worked (classOf r (s.headEntry b k))).wakeFor r (s.headEntry b k)

/-- An overlay command of the entry's scope may act: the device READY with no partition active, or the partition configured
and in no replay (R467, R430). -/
def State.overlayMay (s : State) (e : BitVec 512) : Bool :=
  if entDev e then s.mgmt.devState == 2 && (s.blocker restStates).isNone
  else [2, 3, 4, 5, 6, 7].contains (s.part (entPart e)).state && (s.part (entPart e)).replay.isNone

/-- The command of row r completes at once where `ok` holds: status OK, its result and its effect. -/
def commandOk (c : Blk → Fin 12 → Instr) (r : CmdRow) (ok : Blk → Fin 12 → State → BitVec 512 → Prop) (n : Note)
    (res : State → BitVec 512 → List Byte) (eff : State → BitVec 512 → State) : Prop :=
  ∀ (b : Blk) (k : Fin 12) (s : State), Taken r b k.val s →
    let e := s.headEntry b k.val
    let u := s.given r b k.val
    ok b k u e → exec (c b k) s = .next (((eff u e).noteCmd n b k.val e stOk).final b k.val e stOk s.gc (res u e))

/-- The command of row r is accepted where `ok` holds: status PENDING, its effect at acceptance, and what it keeps until its
final response. -/
def commandPends (c : Blk → Fin 12 → Instr) (r : CmdRow) (ok : State → BitVec 512 → Prop) (n : State → BitVec 512 → Note)
    (data : State → BitVec 512 → List Nat) (image : Option JobImage) (slot : State → BitVec 512 → Option PlateSlot)
    (eff : State → BitVec 512 → State) : Prop :=
  ∀ (b : Blk) (k : Fin 12) (s : State), Taken r b k.val s →
    let e := s.headEntry b k.val
    let u := s.given r b k.val
    ok u e → exec (c b k) s
      = .next (((eff u e).noteCmd (n u e) b k.val e stPending).pend b k.val e (data u e) image (slot u e))

-- Tables, memory and frames

/-- The tables that State keeps are in their canonical form, and the poisoned lines rise. -/
structure State.Form (s : State) : Prop where
  mem : Memory.wf s.mem = true
  poison : s.poison.Pairwise (· < ·)
  cfg : tblWf cfgReset s.cfg = true
  mbx : tblWf (fun _ => 0) s.mbx = true
  doms : tblWf (fun _ => domOff) s.doms = true
  parts : tblWf (fun _ => partReset) s.parts = true

/-- An address lies in one of these ranges. -/
def inAreas (l : List (Nat × Nat)) (a : Nat) : Bool := l.any fun x => decide (x.1 ≤ a) && decide (a < x.1 + x.2)

/-- The bytes of trace ring k of die d. -/
def State.ringArea (s : State) (d k : Nat) : Nat × Nat :=
  (s.cfgF (Sys2Proof.Machine.ringBase d k + 8) 0 48, 32 * 2 ^ s.cfgF (Sys2Proof.Machine.ringBase d k + 8) 48 5)

/-- The bytes of every trace ring. -/
def State.ringAreas (s : State) : List (Nat × Nat) :=
  (List.range 32).flatMap fun d => (List.range 12).map fun k => s.ringArea d k

/-- The partial records that a core keeps in the sentinel slots of the tensors of these handles (R107). -/
def State.partialAreas (s : State) (core : Nat) (hs : List Nat) : List (Nat × Nat) :=
  hs.map fun h => ((s.desc core h).sent + 128 + 64 * core, 32)

/-- Waits w of stream i subtract from this tally. -/
def waitsOn (i : Nat) (w : IWord) (core tally : Nat) : Bool :=
  (waitsOf w).any fun x => !x.keep && waitCore i x == core && x.tally == tally

/-- The rows of the control instructions whose effect lies in their own stream. -/
def isControl (st : Stream) (c : Instr) : Prop :=
  c = .nop st ∨ c = .twait st ∨ c = .signal st ∨ c = .setx st ∨ c = .addx st ∨ c = .loop st ∨ c = .jump st ∨ c = .brx st
    ∨ c = .waitgc st ∨ c = .gcWaitSatisfied st ∨ c = .lock st ∨ c = .halt st ∨ c = .wend st

/-- The rows of the engine programs: what tells that a word is the row's, and the causes of its own that are decided before
its waits. MOVE is not among them: its faults stop channels too (R313). -/
def engineRows (st : Stream) : List (Instr × (IWord → Bool) × (State → StreamSt → IWord → List Nat)) :=
  [(.nop st, isOp 0, noCauses), (.twait st, isOp 1, noCauses), (.signal st, isOp 2, noCauses), (.setx st, isOp 3, noCauses),
    (.addx st, isOp 4, noCauses), (.loop st, isOp 5, loopCauses),
    (.jump st, isOp 6, fun _ t w => if branchOk t w then [] else [0x86]),
    (.brx st, isOp 7, fun _ t w => if 4 ≤ fld w 131 3 || (brxTaken t w && !branchOk t w) then [0x86] else []),
    (.waitgc st, isOp 8, noCauses), (.fetchahead st, isOp 9, aheadCauses (streamIx st)),
    (.lock st, isOp 0x0A, fun _ _ w => if fld w 128 7 == 0 || 64 < fld w 128 7 then [0x87] else []),
    (.halt st, isOp 0x0B, noCauses), (.wend st, isOp 0x0C, fun _ t w => if fld w 128 32 != t.window then [0x8A] else []),
    (.dset st, isOp 0x0D, dsetCauses (streamIx st)), (.dlive st, isOp 0x0E, dsetCauses (streamIx st))]
  ++ [(.mxw st, isOp 0x20, meFieldCauses .mxw), (.mxo st, isOp 0x21, meFieldCauses .mxo),
    (.mxt st, isOp 0x22, meFieldCauses .mxt), (.mxs st, isOp 0x23, meFieldCauses .mxs),
    (.mxc st, isOp 0x24, meFieldCauses .mxc), (.mxd st, isOp 0x25, meFieldCauses .mxd)]
  ++ [(.vsimple st, isOp 0x40, veFieldCauses 0x40), (.vieee st, isOp 0x41, veFieldCauses 0x41),
    (.vexplog st, isOp 0x42, veFieldCauses 0x42), (.vcomp st, isOp 0x43, veFieldCauses 0x43),
    (.vcvt st, isOp 0x44, veFieldCauses 0x44), (.vred st, isOp 0x45, veFieldCauses 0x45),
    (.vsoftmax st, isOp 0x46, veFieldCauses 0x46), (.rmsnorm st, isOp 0x47, veFieldCauses 0x47),
    (.layernorm st, isOp 0x48, veFieldCauses 0x48), (.vroute st, isOp 0x49, veFieldCauses 0x49),
    (.vexit st, isOp 0x4A, veFieldCauses 0x4A), (.vsclose st, isOp 0x4B, veFieldCauses 0x4B),
    (.vopt st, isOp 0x4C, veFieldCauses 0x4C)]
  ++ [(.xsendForward st 0, fun w => isOp 0xA0 w && xDir w == 0, fun _ t w => xHandles (streamIx st) t w ++ roleCause .send w),
    (.xsendBackward st, fun w => isOp 0xA0 w && xDir w == 1, fun _ t w => xHandles (streamIx st) t w ++ roleCause .send w),
    (.xrecvLanding st, fun w => isOp 0xA1 w && nullH (xRoutes w),
      fun _ t w => xHandles (streamIx st) t w ++ roleCause .landing w),
    (.xrecvReturn st, fun w => isOp 0xA1 w && !nullH (xRoutes w),
      fun _ t w => xHandles (streamIx st) t w ++ roleCause .ret w),
    (.xreturn st, isOp 0xA2, fun _ t w => xHandles (streamIx st) t w ++ roleCause .back w),
    (.xclose st, isOp 0xA3, fun _ t w => xHandles (streamIx st) t w ++ roleCause .close w)]
  ++ [(.cgather st, isOp 0xC0, fun _ t w => cHandles (streamIx st) t w), (.credscat st, isOp 0xC1, fun _ t w =>
      cHandles (streamIx st) t w), (.callred st, isOp 0xC2, fun _ t w => cHandles (streamIx st) t w),
    (.cbcast st, isOp 0xC3, fun _ t w => cHandles (streamIx st) t w), (.cdigest st, isOp 0xC4, fun _ t w =>
      cHandles (streamIx st) t w)]

/-- What engine instructions of stream i leave as it is, whatever they do: other streams, tallies their waits do not take,
and every part of the device but the engines, memory and configuration space. -/
structure EngineFrame (i : Nat) (s t : State) : Prop where
  streams : ∀ j, j ≠ i → t.stream j = s.stream j
  tallies : ∀ core tally, tally < 1024 → (∀ w, s.fetch i = .word w → waitsOn i w core tally = false) →
    t.tally core tally = s.tally core tally
  count : t.gc = s.gc
  pool : t.pool = s.pool
  moves : t.mv = s.mv
  exchange : t.xch = s.xch
  collective : t.ce = s.ce
  fabric : t.net = s.net
  time : t.time = s.time
  service : t.svc = s.svc
  power : t.pw = s.pw
  queue : t.pending = s.pending

/-- The pair of the ring that a command of chapter 17 is taken from. -/
def lysbyPair : Instr → Option (Blk × Fin 12)
  | .deviceStart b k | .deviceStop b k | .deviceReset b k | .deviceIdentity b k => some (b, k)
  | .deviceMeasure b k | .deviceStatus b k | .powerCap b k | .firmwareCommit b k => some (b, k)
  | .jobLoad b k _ | .jobUnload b k | .jobLaunch b k | .jobTeardown b k => some (b, k)
  | .jobResume b k | .jobVariant b k | .inputCommit b k | .poolAudit b k => some (b, k)
  | .pacePlan b k | .paceRead b k | .plateStage b k _ _ | .plateApply b k => some (b, k)
  | .overlayApply b k _ | .overlayRemove b k | .overlayList b k | .nodeAssign b k => some (b, k)
  | .timeSource b k | .partQuery b k | .graftPrepare b k | .graftCommit b k => some (b, k)
  | .graftAbort b k | .graftStatus b k | .normArm b k | .normAnswer b k => some (b, k)
  | .proofArm b k | .proofCompareCommand b k | .journalOpen b k | .journalClose b k => some (b, k)
  | .exportStart b k | .importStart b k | .stopAt b k | .stopCancel b k => some (b, k)
  | .debugHalt b k | .debugRun b k | .peek b k | .take b k => some (b, k)
  | .traceArm b k | .countersSnap b k | .serviceEnter b k | .serviceExit b k => some (b, k)
  | .tgenRun b k | .tgenRead b k | .recordRead b k | .wearRead b k => some (b, k)
  | .stackRetire b k | .returnPrepare b k => some (b, k)
  | _ => none

/-- The status that the newest response of pair k of block b carries. -/
def State.lastStatus (s : State) (b : Blk) (k : Nat) : Nat :=
  fld (BitVec.ofNat 512 (leNat (s.mbxBytes (rspSlot b k (s.rspProd b k + 65535)) 64))) 40 8

end Machine

end Sys2Proof
end

