-- ==== Sys2Proof/Certificates/Slice0/Obligations.lean ====
section
/-! DEFINITION. The statements about this model. -/

section

open Sys2Proof Sys2Proof.Machine

-- Engine programs

/-- R119, R120: a control instruction that issues and meets no fault of its own completes at once: the stream goes on as
its row says, its signals are sent and one issue cycle is counted. Choices of the model that it rests on: log 25, 85. -/
def Obligations.ControlInstructionsComplete : Prop :=
  ∀ (st : Stream) (w : IWord) (s : State), Issues st w s →
    let i := streamIx st
    let u := s.afterWaits i w
    let t := issuing (s.stream i)
    (opOf w = 0 → exec (.nop st) s = .next (finishNow u i w t t.next))
    ∧ (opOf w = 1 → exec (.twait st) s = .next (finishNow u i w t t.next))
    ∧ (opOf w = 2 → exec (.signal st) s = .next (finishNow u i w t t.next))
    ∧ (opOf w = 3 → exec (.setx st) s = .next (finishNow u i w t (t.xw (fld w 128 3) (BitVec.ofNat 32 (fld w 160 32))).next))
    ∧ (opOf w = 4 → exec (.addx st) s = .next (finishNow u i w t
        (t.xw (fld w 128 3) (t.xr (fld w 128 3) + BitVec.ofNat 32 (fld w 160 32))).next))
    ∧ (opOf w = 5 → (s.stream i).loops.length < 4 → fld w 132 12 ≠ 0 →
        (∀ l ∈ (s.stream i).loops, loopStop (s.stream i) w ≤ l.stop) →
        exec (.loop st) s = .next (finishNow u i w t
          (if loopCount t w = 0 then t.goTo (loopStop t w) t.loops
           else t.goTo (t.pc + 64) (⟨t.pc + 64, loopStop t w, loopCount t w⟩ :: t.loops))))
    ∧ (opOf w = 6 → branchOk (s.stream i) w = true → exec (.jump st) s = .next (finishNow u i w t (branch t w)))
    ∧ (opOf w = 7 → fld w 131 3 < 4 → (brxTaken (s.stream i) w = true → branchOk (s.stream i) w = true) →
        exec (.brx st) s = .next (finishNow u i w t (if brxTaken t w then branch t w else t.next)))
    ∧ (opOf w = 10 → 1 ≤ fld w 128 7 → fld w 128 7 ≤ 64 →
        exec (.lock st) s = .next (finishNow u i w t { t.next with lock := fld w 128 7 }))
    ∧ (opOf w = 11 → exec (.halt st) s = .next (finishNow u i w t { t.next with st := .idle }))
    ∧ (opOf w = 12 → fld w 128 32 = (s.stream i).window →
        exec (.wend st) s = .next (finishNow u i w t
          (if t.ahead.isEmpty then { t.next with st := .waitBoundary } else { t.next with wend := true })))

/-- R122: WAITGC below its count puts the stream in WAIT_GC and subtracts nothing; at or above it the instruction
completes, at its issue and for a stream that waits. Choices of the model that it rests on: log 25. -/
def Obligations.WaitgcCompletes : Prop :=
  ∀ (st : Stream) (w : IWord) (s : State), Issues st w s → opOf w = 8 →
    let i := streamIx st
    let u := s.afterWaits i w
    let t := issuing (s.stream i)
    (fld w 128 64 ≤ s.gc → exec (.waitgc st) s = .next (finishNow u i w t t.next))
    ∧ (fld w 128 64 ≤ s.gc → (s.stream i).st = .waitGc →
        exec (.gcWaitSatisfied st) s = .next (finishNow u i w t t.next))
    ∧ (s.gc < fld w 128 64 → s.waitOvf i (waitsOf w) = false →
        exec (.waitgc st) s = .next (s.setStream i { s.stream i with st := .waitGc }))

/-- R131, R144, Table 5-8: DSET, DLIVE and FETCHAHEAD complete; DSET writes one word of the descriptor, DLIVE its
LIVE_ROWS, clamped to the extent, FETCHAHEAD queues its lines under the next window's generation. Choices of the model
that it rests on: log 25. -/
def Obligations.DescriptorInstructionsComplete : Prop :=
  ∀ (st : Stream) (w : IWord) (s : State), Issues st w s →
    let i := streamIx st
    let u := s.afterWaits i w
    let t := issuing (s.stream i)
    (opOf w = 9 → fld w 128 48 % 256 = 0 → 1 ≤ fld w 176 13 → fld w 176 13 ≤ 4096 →
        s.codeRange i (fld w 128 48) (256 * fld w 176 13) = true →
        exec (.fetchahead st) s = .next ((((u.traceIssue i t w).setStream i { t.next with
          ahead := t.ahead ++ [⟨(List.range (fld w 176 13)).map fun k => fld w 128 48 + 256 * k, t.window + 1, w⟩] })).bumpCtr i 0 1))
    ∧ (∀ c v, opOf w = 13 → handle14 i (s.stream i) w (fld w 128 14) = some (c, v) →
        (i < 512 → fld w 128 14 / 4096 = (i / 4) % 4) →
        exec (.dset st) s = .next (finishNow
          (u.setDescWord c v (fld w 144 3) (BitVec.ofNat 64 (fld w 192 64))) i w t t.next))
    ∧ (∀ c v, opOf w = 14 → handle14 i (s.stream i) w (fld w 128 14) = some (c, v) →
        (i < 512 → fld w 128 14 / 4096 = (i / 4) % 4) →
        u.access (u.partOf i) (fld w 144 48) 4 = .ok → u.poisoned (fld w 144 48) 4 = false →
        exec (.dlive st) s = .next (finishNow (u.setDescWord c v 2 (setFld (u.cfgW (descAddr c v + 16)) 32 32
          (dliveValue (u.rdN (fld w 144 48) 4) (fld w 192 32) (u.desc c v).extent))) i w t t.next))

/-- R66 to R111: a matrix instruction that issues, meets no cause of Table 3-15 and reaches its operands takes effect and
occupies its engine for the cycles of Table 3-2; so does a vector operation with Tables 4-9 and 4-1. Choices of the model
that it rests on: log 20, 21, 22, 23, 24, 25, 62. -/
def Obligations.MatrixAndVectorInstructionsComplete : Prop :=
  matrixCompletes .mxw .mxw ∧ matrixCompletes .mxo .mxo ∧ matrixCompletes .mxt .mxt
    ∧ matrixCompletes .mxs .mxs ∧ matrixCompletes .mxc .mxc ∧ matrixCompletes .mxd .mxd
    ∧ vectorCompletes .vsimple 0x40 noFirst (elemJob 0x40) ∧ vectorCompletes .vieee 0x41 noFirst (elemJob 0x41)
    ∧ vectorCompletes .vexplog 0x42 noFirst (elemJob 0x42) ∧ vectorCompletes .vcomp 0x43 noFirst (elemJob 0x43)
    ∧ vectorCompletes .vcvt 0x44 noFirst vcvtJob ∧ vectorCompletes .vred 0x45 noFirst vredJob
    ∧ vectorCompletes .vsoftmax 0x46 noFirst (rowwiseJob 0x46) ∧ vectorCompletes .rmsnorm 0x47 noFirst (rowwiseJob 0x47)
    ∧ vectorCompletes .layernorm 0x48 noFirst (rowwiseJob 0x48) ∧ vectorCompletes .vroute 0x49 noFirst vrouteJob
    ∧ vectorCompletes .vexit 0x4A noFirst vexitJob ∧ vectorCompletes .vsclose 0x4B closeFirst vscloseJob
    ∧ vectorCompletes .vopt 0x4C optFirst voptJob

-- Move engines

/-- R125, R294, R300, R301: MOVE puts its chain into its channel's queue where that has room; a descriptor that is done
leaves its channel, counts, writes a comparison's registers, and sends its event and interrupt; a row group that is done
sends its event. Choices of the model that it rests on: log 27, 31. -/
def Obligations.MoveChainsComplete : Prop :=
  (∀ (st : Stream) (w : IWord) (s : State), Issues st w s → opOf w = 0x80 → fld w 180 16 ≠ 0 → fld w 132 48 % 64 = 0 →
      let i := streamIx st
      let u := s.afterWaits i w
      let t := issuing (s.stream i)
      let ch := moveChan i w
      let x := u.chan (i / 4) ch
      x.queue.length < 8 → exec (.move st) s = .next (finishNow
        (u.setChan (i / 4) ch { x with queue := x.queue ++ [(fld w 132 48, fld w 180 16)] }) i w t t.next))
  ∧ (∀ (c : Core) (ch : Chan) (s : State) (r : RunningDesc), (s.chan c.val ch.val).running = some r → r.groups = 0 →
      s.chanStopped c.val ch.val = false → s.frozenDie (c.val / 4) = false → s.power (s.coreKey c.val) = .on →
      exec (.descriptorDone c ch) s = .next (s.descriptorEnd c.val ch.val r))
  ∧ (∀ (c : Core) (ch : Chan) (s : State) (r : RunningDesc), (s.chan c.val ch.val).running = some r → r.groups ≠ 0 →
      s.chanStopped c.val ch.val = false → s.frozenDie (c.val / 4) = false → s.power (s.coreKey c.val) = .on →
      exec (.tileGroupDone c ch) s = .next ((s.setChan c.val ch.val { s.chan c.val ch.val with
        running := some { r with groups := r.groups - 1 } }).moveEvent c.val ch.val r))

/-- R297 to R308: a channel that is idle and whose next descriptor is one of the six operations, well formed and inside
its core store, runs it where its fields, its accesses and its reads allow it: the effect takes place and the descriptor
is under way. Choices of the model that it rests on: log 27, 28, 29, 32. -/
def Obligations.MoveOperationsComplete : Prop :=
  moveCompletes .moveCopy 0 ∧ moveCompletes .moveFill 1 ∧ moveCompletes .moveCompare 2 ∧ moveCompletes .moveConvert 3
    ∧ moveCompletes .moveRelayout 4 ∧ moveCompletes .gatherMap 5

-- Count events, instruction lines, held accesses

/-- R22, R134 to R136, R144 to R146: a count event that reaches its bank is applied or queued, queued events are applied
four at a time, and an access held for a domain that is ON goes on; a demand fill, a FETCHAHEAD fill and a speculative
fetch complete: the line is read and lies in its slot, or in the fetch buffer where the slot is pinned; after its last
line a FETCHAHEAD sends its signals. Choices of the model that it rests on: log 18. -/
def Obligations.CountEventsAndLineFillsComplete : Prop :=
  (∀ (i : Nat) (e : CountEvent) (s : State), s.eng.events[i]? = some e → (s.eng.events.take i).any (sameLane e) = false →
      let k := s.coreKey (4 * e.die + e.pos)
      let u : State := { s with eng := { s.eng with events := s.eng.events.eraseIdx i } }
      let v := u.sleepTouch k
      let b := v.bank (4 * e.die + e.pos)
      u.power k = .on → u.frozenDie e.die = false →
      (b.applied < 4 → b.fifo = [] → exec (.countEventArrive i) s
          = .next ((v.setBank (4 * e.die + e.pos) { b with applied := b.applied + 1 }).applyEvent e))
      ∧ (4 ≤ b.applied ∨ b.fifo ≠ [] → b.fifo.length < 64 → exec (.countEventArrive i) s
          = .next (v.setBank (4 * e.die + e.pos) { b with fifo := b.fifo ++ [e] })))
  ∧ (∀ (c : Core) (s : State), (s.bank c.val).fifo ≠ [] → s.power (s.coreKey c.val) = .on → s.frozenDie (c.val / 4) = false →
      exec (.tallyFifoApply c) s = .next (((s.bank c.val).fifo.take 4).foldl State.applyEvent
        (s.setBank c.val ⟨min 4 (s.bank c.val).fifo.length, (s.bank c.val).fifo.drop 4⟩)))
  ∧ (∀ (i : Nat) (h : Held) (s : State), s.eng.held[i]? = some h → h.event = none → h.host = none → s.power h.dom = .on →
      exec (.heldAccessComplete i) s = .next { s with eng := { s.eng with held := s.eng.held.eraseIdx i } })
  ∧ (∀ (i : Nat) (h : Held) (x : HostAccess) (s : State), s.eng.held[i]? = some h → h.host = some x → s.power h.dom = .on →
      exec (.heldAccessComplete i) s
        = .next (({ s with eng := { s.eng with held := s.eng.held.eraseIdx i } } : State).hostAccess x))
  ∧ (∀ (i : Nat) (h : Held) (e : CountEvent) (s : State), s.eng.held[i]? = some h → h.event = some e → h.host = none → s.power h.dom = .on →
      s.frozenDie e.die = false →
      let u : State := { s with eng := { s.eng with held := s.eng.held.eraseIdx i } }
      let b := u.bank (4 * e.die + e.pos)
      b.applied < 4 → b.fifo = [] → exec (.heldAccessComplete i) s
        = .next ((u.setBank (4 * e.die + e.pos) { b with applied := b.applied + 1 }).applyEvent e))
  ∧ (∀ (st : Stream) (s : State) (data : List Byte),
      let i := streamIx st
      let t := s.stream i
      let la := t.pc / 256 * 256
      t.st = .waitFetch → s.power (s.engDom i) = .on → s.frozenStream i = false →
      s.access (s.partOf i) la 256 = .ok → s.readLine i la = some data →
      (s.pinnedOther i la = true → exec (.demandFillComplete st) s
          = .next ((s.setStream i { t with st := .run, fbuf := some (la, data) }).traceFetch i la 0 3))
      ∧ (s.pinnedOther i la = false → exec (.demandFillComplete st) s
          = .next (((s.setIline (cacheKey i la) ⟨true, la, data, none⟩).setStream i { t with st := .run }).traceFetch i la 0 0)))
  ∧ (∀ (st : Stream) (s : State) (a : Ahead) (la : Nat) (more : List Nat) (rest : List Ahead),
      let i := streamIx st
      let t := s.stream i
      let u := s.aheadLine i la a.gen
      t.ahead = a :: rest → a.lines = la :: more → s.power (s.engDom i) = .on → s.frozenStream i = false →
      (more ≠ [] → exec (.fetchaheadFillComplete st) s
          = .next (u.setStream i { t with ahead := { a with lines := more } :: rest }))
      ∧ (more = [] → t.wend = false → exec (.fetchaheadFillComplete st) s
          = .next ((u.setStream i { t with ahead := rest }).sendSigs i a.word)))
  ∧ (∀ (st : Stream) (k : Fin 2) (s : State) (data : List Byte),
      let i := streamIx st
      let la := ((s.stream i).pc / 256 + 1 + k.val) * 256
      let l := s.iline (cacheKey i la)
      (s.stream i).st ≠ .idle → (s.stream i).st ≠ .faulted → s.power (s.engDom i) = .on → ixDie i < s.nDies →
      s.frozenStream i = false → (l.valid && l.addr == la) = false → (l.valid && l.pin.isSome) = false →
      s.readLine i la = some data → exec (.speculativeFetch st k) s
        = .next ((s.setIline (cacheKey i la) ⟨true, la, data, none⟩).traceFetch i la 2 0))

-- The buffer pool

/-- R248 to R256: a request that its region can serve is granted its chain, one that it cannot joins the queue; a chain
that is whole is released; the waiters of a region are granted in order; the spill cache is refilled. Choices of the model
that it rests on: log 30, 35. -/
def Obligations.PoolCommandsComplete : Prop :=
  (∀ (st : Stream) (o : Fin 4096) (bytes key m a : Nat) (s t : State),
      let i := streamIx st
      ixDie i < s.nDies → s.power (s.engDom i) = .on → s.frozenDie (ixDie i) = false → s.homeDie (ixDie i) o.val key = some m →
      (s.allocAt (s.partOf i) m o.val bytes = .head a t → exec (.poolAllocate st o bytes key) s
          = .next { t with pool := { t.pool with granted := t.pool.granted ++ [(⟨i, o.val, bytes, key, 0⟩, a)] } })
      ∧ (s.allocAt (s.partOf i) m o.val bytes = .wait → s.dieWaiters m < 256 →
          let r := s.cfgF (ownA m o.val) 2 6
          exec (.poolAllocate st o bytes key) s = .next ((s.setWaiters m r
            (s.waiters (regKey m r) ++ [⟨i, o.val, bytes, key, 0⟩])).bumpCfg (ownA m o.val + 24) 0 32 1)))
  ∧ (∀ (st : Stream) (a : Nat) (chain : Bool) (s t : State),
      let i := streamIx st
      ixDie i < s.nDies → s.power (s.engDom i) = .on → s.frozenDie (ixDie i) = false →
      s.release (s.partOf i) a chain = .done t → exec (.poolRelease st a chain) s = .next t)
  ∧ (∀ (m : MDie) (r : Fin 64) (s : State), s.power (memKey m.val) = .on →
      exec (.poolWaiterGrant m r) s = .next (grantWaiters m.val r.val 256 s))
  ∧ (∀ (m : MDie) (r : Fin 64) (s : State), s.cfgF (regA m.val r.val) 0 1 = 1 →
      4 * (s.spillCache (regKey m.val r.val)).length < s.cacheShare m.val r.val → s.ringCount m.val r.val ≠ 0 →
      s.pool.dead.contains (regKey m.val r.val) = false →
      exec (.spillCacheRefill m r) s = .next (s.refill m.val r.val))

-- Token exchange

/-- R213 to R217, Table 8-1: an XE instruction of each kind that issues with room among the 16 operations, a segment
record it can reach, no cause of Tables 7-9 and 8-10 and areas it can reach begins its operation. Choices of the model
that it rests on: log 33, 36, 62, 63. -/
def Obligations.ExchangeInstructionsComplete : Prop :=
  (∀ gates, exchangeCompletes (fun st => .xsendForward st gates) .send gates (fun w => isOp 0xA0 w && xDir w == 0))
    ∧ exchangeCompletes .xsendBackward .send 0 (fun w => isOp 0xA0 w && xDir w == 1)
    ∧ exchangeCompletes .xrecvLanding .landing 0 (fun w => isOp 0xA1 w && nullH (xRoutes w))
    ∧ exchangeCompletes .xrecvReturn .ret 0 (fun w => isOp 0xA1 w && !nullH (xRoutes w))
    ∧ exchangeCompletes .xreturn .back 0 (isOp 0xA2) ∧ exchangeCompletes .xclose .close 0 (isOp 0xA3)

/-- R219, R223, R224: a ROW, COUNT or RETURN whose checks hold waits in the receive buffer while no receive for it is open
and the buffer has room; at its open receive a COUNT and a RETURN take effect, and a ROW as its landing answers. Choices
of the model that it rests on: log 37. -/
def Obligations.ExchangeMessagesComplete : Prop :=
  arrivalCompletes .xmsgRow 1 ∧ arrivalCompletes .xmsgCount 2 ∧ arrivalCompletes .xmsgReturn 3

/-- R218, R220, R221: an ACK, NACK or REJECT that answers an outstanding message returns its credit; the ACK ends the
message, a NACK below the last attempt sends it again with ATTEMPT one higher, a REJECT ends the operation in XCH_REJECT.
Choices of the model that it rests on: log 37, 64. -/
def Obligations.ExchangeAnswersComplete : Prop :=
  ∀ (src : Node) (d : CDie) (m : Msg) (s : State) (o : XOp) (x : XOut), s.xeAwake d.val = true → msgCrcOk m = true →
    s.answered d.val src.val m = some (o, x) → o.failed = false →
    let p : XOp := { o with unacked := o.unacked.erase x }
    let u := ((s.heard src.val).traceMsg (xeIx d.val) true false src.val m).setXop p
    (fld m.hdr 0 4 = 4 → exec (.xmsgAck src d m) s = .next ((u.sendCheck o.id).pumpDie d.val))
    ∧ (fld m.hdr 0 4 = 5 → x.attempt ≠ 3 → exec (.xmsgNack src d m) s
        = .next ((u.setXop { p with todo := { x with attempt := x.attempt + 1 } :: p.todo }).pumpDie d.val))
    ∧ (fld m.hdr 0 4 = 6 → exec (.xmsgReject src d m) s = .next ((u.xEnd p 0x28 false).pumpDie d.val))

/-- R230, R231: a landing area whose sources have all been counted and whose rows have all landed completes: landing
entry, row map, header with DONE; the last area of the operation completes the operation. Choices of the model that it
rests on: log 38. -/
def Obligations.LandingCompletes : Prop :=
  ∀ (id : Nat) (k : Fin 8) (s u : State) (o : XOp), s.xop id = some o → o.role = .landing → o.failed = false →
    k.val < o.rows → o.done.contains k.val = false → s.xeAwake o.die = true →
    let g := s.seg o.seg
    let h := s.rdN (o.area k.val) 64
    let counts := headCounts h
    let ex := s.expert0 g + (o.row0 + k.val)
    let stepNo := s.stepOf (s.partOfDie o.die)
    let v := if o.dir == 1 then s else s.wrN (s.entA (g.landIx (o.row0 + k.val))) 16 (landingEntry ex stepNo counts)
    headSeen h = 0xFF → headLanded h = counts.sum →
    (v.writeRowMap (o.area k.val) g.q counts).stashUpdate o (o.row0 + k.val) counts.sum = .ok u →
    let y := if o.dir == 1 || counts.sum == 0 then u else u.visit o.die (xLayer o.word) (o.row0 + k.val) stepNo
    let o' : XOp := { o with done := nins o.done k.val }
    let z := (y.wrN (o.area k.val) 64 (landHeader counts.sum 1 0xFF ex stepNo counts.sum counts)).setXop o'
    exec (.landingComplete id k) s = .next (if o'.done.length == o'.rows then z.xDone o' else z)

-- Collectives

/-- R358, R361 to R363, R371: a CE instruction of each kind whose queue, group, stages and operand sizes obey their rules
joins its queue and retires. Choices of the model that it rests on: log 41, 62. -/
def Obligations.CollectiveInstructionsComplete : Prop :=
  collectiveCompletes .cgather 0xC0 ∧ collectiveCompletes .credscat 0xC1 ∧ collectiveCompletes .callred 0xC2
    ∧ collectiveCompletes .cbcast 0xC3 ∧ collectiveCompletes .cdigest 0xC4

/-- R362, R363: the first operation of a queue begins where its contribution can be read: it takes the queue's next OPSEQ,
gives its own parts, sends what it can, and takes the messages that waited for it. Choices of the model that it rests on:
log 41. -/
def Obligations.CollectiveOperationBegins : Prop :=
  ∀ (g : Fin 2048) (s : State) (o : COp), (s.ce.ops.find? fun x => x.group == g.val) = some o → o.begun = false →
    o.failed = false → s.xeAwake o.die = true →
    let q := s.cePrepared o g.val
    s.reach (s.partOfDie o.die) q.reads = .ok →
    ((o.kind.reduces || o.kind == .digest) && s.anyPoison q.reads) = false →
    exec (.ceOperationBegin g) s = .next (s.ceStart q g.val)

/-- R373 to R377: a NODE, ABSENT, DATA or relayed message whose checks hold and whose operation does not run yet waits in
the receive buffer while that has room; one for the running operation is used as that operation answers. Choices of the
model that it rests on: log 37, 41. -/
def Obligations.CollectiveMessagesComplete : Prop :=
  cmsgCompletes .cmsgNode (direct 1) ∧ cmsgCompletes .cmsgAbsent (direct 2) ∧ cmsgCompletes .cmsgData (direct 3)
    ∧ cmsgCompletes .cmsgRelay (fun m => 1 ≤ fld m.hdr 0 4 && fld m.hdr 0 4 ≤ 3 && fld m.hdr 10 1 == 1)

/-- R376: an ACK, NACK or REJECT that answers a message of a running operation: the ACK lets what it held go, a NACK below
the last attempt sends the message again with ATTEMPT one higher, a REJECT of a direct message ends the operation. Choices
of the model that it rests on: log 41. -/
def Obligations.CollectiveAnswersComplete : Prop :=
  ∀ (src : Node) (m : Msg) (s : State) (o : COp) (x : CSent), cmsgCrcOk m = true → s.cAnswered src.val m = some (o, x) →
    s.xeAwake o.die = true → o.failed = false → x.relay = false →
    let p : COp := { o with sent := o.sent.erase x }
    let u := ((s.heard src.val).traceMsg (ceIx o.die) true true src.val m).setCop p
    let h := setBits x.m.hdr.toNat 128 2 (fld x.m.hdr 128 2 + 1)
    let h := setBits h 224 32 (crc32c ((natLe 32 h).take 28)).toNat
    (fld m.hdr 0 4 = 4 → exec (.cmsgAck src m) s = .next ((u.cAck o.id x.owed).cPumpAll o.die))
    ∧ (fld m.hdr 0 4 = 5 → fld x.m.hdr 128 2 ≠ 3 → exec (.cmsgNack src m) s
        = .next (((u.bumpCfg (cgA o.group + 24) 32 32 1).setCop
            { p with resend := p.resend ++ [{ x with m := { x.m with hdr := BitVec.ofNat 256 h } }] }).cPumpAll o.die))
    ∧ (fld m.hdr 0 4 = 6 → exec (.cmsgReject src m) s = .next ((u.cFail p 0x65).cPumpAll o.die))

-- Windows and boundaries

/-- R123, R126: an instruction in flight whose cycles are over retires: its cycles are counted and its signals go out.
Choices of the model that it rests on: log 25, 26, 61. -/
def Obligations.FlightsComplete : Prop :=
  ∀ (st : Stream) (s : State) (f : Flight), (s.stream (streamIx st)).flight = some f → f.left = 0 →
    s.frozenStream (streamIx st) = false → exec (.engineInstructionComplete st) s = .next (s.engineEnd (streamIx st) f)

/-- R159 to R172, R419: the close of a window, the boundary B at its meeting count, the pace at B + 4, the entry PCs at B
+ 28 and the open at B + 32 each take place when they may; so do the boundary of window 0 at LC − 32 and its launch at LC.
Choices of the model that it rests on: log 68, 69, 71. -/
def Obligations.WindowEventsComplete : Prop :=
  ∀ (p : Part) (s : State),
    let t := s.part p.val
    (t.inWindow = true → s.openStream p.val = none → s.opsDone p.val = true → s.copyOwed p.val = false →
      exec (.windowClose p) s = .next (s.closeWindow p))
    ∧ (s.mayBound t = true → ((s.answered_ p.val).part p.val).holds = [] →
        exec (.boundaryStart p) s = .next ((s.answered_ p.val).runBoundary p))
    ∧ (t.state = 4 → t.bAt = none → t.lc ≤ s.gc + 32 → s.mgmt.takeover = none →
        exec (.window0Boundary p) s = .next (s.runBoundary0 p))
    ∧ (∀ b, t.bAt = some b → t.phase = 1 → b + 4 ≤ s.gc → exec (.paceSend p) s = .next (s.setPart p.val { t with
        phase := 2, pace := t.nextPace, variant := t.nextVariant, compiled := t.nextCompiled }))
    ∧ (∀ b, t.bAt = some b → t.phase = 2 → b + 28 ≤ s.gc →
        let a := s.winF t (if t.state = 4 then 0 else t.window + 1) 128 48
        exec (.entryPcLoad p) s = .next (s.setPart p.val { t with
          phase := 3, entries := s.entryPcs p.val t.entryBase, bwAddr := a, bwPlan := s.bwPlanAt a }))
    ∧ (∀ b, t.bAt = some b → t.state = 5 → t.phase = 3 → b + 32 ≤ s.gc → t.frozen = false → s.graftOwed p.val = false →
        exec (.windowOpen p) s = .next (s.openWindow p (t.window + 1)))
    ∧ (t.state = 4 → t.phase = 3 → t.lc ≤ s.gc → s.graftOwed p.val = false →
        exec (.launchCount p) s = .next (s.launched p))

/-- R176 to R179, R395, R535: a late window, one past its hang limit, a hold past its limit and a norm check at B + 224
have their effects. Choices of the model that it rests on: log 83. -/
def Obligations.LatenessCompletes : Prop :=
  ∀ (p : Part) (s : State),
    let t := s.part p.val
    (t.inWindow = true → t.late = none → s.mc t t.window ≤ s.gc → exec (.meetingCountReached p) s = .next (s.lateStart p))
    ∧ (t.inWindow = true → t.hangFrom.getD (s.mc t t.window) + t.plan.hang ≤ s.gc →
        t.holds.any (fun h => h.reason == 2) = false →
        exec (.hangLimitExpiry p) s = .next (s.hold p 2 (some (s.hangEvent p))))
    ∧ (∀ r h, (t.holds.find? fun h => h.reason == holdCode r) = some h → holdCode r ≠ 8 → h.expired = false →
        h.since + t.plan.hang ≤ s.gc → exec (.holdLimitExpiry p r) s = .next (s.holdExpires p r h))
    ∧ (∀ b v, t.normAt = some b → t.verdict = some v → b + 224 ≤ s.gc →
        exec (.normVerdict p) s = .next (s.giveVerdict p v))

/-- R181 to R183: a participant answers a sleep proposal, the proposal without every READY ends at C − 4, an agreed one
takes effect at C; a wake is latched, taken after the minimum dwell, and scheduled for the active cores of the next
window. Choices of the model that it rests on: log 68. -/
def Obligations.SleepAgreementCompletes : Prop :=
  ∀ (p : Part) (s : State),
    let t := s.part p.val
    (∀ x dom, t.sleep = some x → x.done = false → s.gc < x.commit → x.doms.contains (domKey dom) = true →
      x.ready.contains (domKey dom) = false → exec (.sleepAnswer p dom) s = .next (s.setPart p.val { t with
        sleep := some (if s.mustRefuse (domKey dom) then { x with refused := true }
          else { x with ready := x.ready ++ [domKey dom] }) }))
    ∧ (∀ x, t.sleep = some x → x.done = false → x.commit ≤ s.gc + 4 → x.agreed = false →
        exec (.sleepAnswerDeadline p) s = .next (s.setPart p.val { t with
          sleep := none, sleepCancels := t.sleepCancels + 1 }))
    ∧ (∀ x, t.sleep = some x → x.done = false → x.commit ≤ s.gc → x.agreed = true →
        exec (.sleepCommit p) s = .next (x.doms.foldl (fun s k => s.setDom k { s.dom k with st := .sleep, going := none })
          (s.setPart p.val { t with sleep := some { x with done := true } })))
    ∧ exec (.wakeRequest p) s = .next (s.setPart p.val (t.wakeAt s.gc))
    ∧ (∀ x w, t.sleep = some x → x.wake = some w → x.done = true → x.doms ≠ [] →
        max w (x.commit + if x.deep then 1250 else 125) ≤ s.gc →
        exec (.latchedWake p) s = .next (x.doms.foldl (fun s k => s.wakeDom x.deep k)
          (s.setPart p.val { t with sleep := some { x with doms := [] } })))
    ∧ (t.opened.isSome = true → t.last = false → t.closed.isSome = true → s.gc < s.mc t t.window →
        s.wakesDue p.val ≠ [] → exec (.scheduledWake p) s
          = .next ((s.wakesDue p.val).foldl (fun s x => s.wakeDom x.2 x.1) s))

-- Fabric: requests at the home, answers at the requester

/-- R339 to R352: a LOAD, STORE, ATOMIC, FILL or EVICT in its turn at its home, in a region that allows it, is performed
and answered, and its stream goes on; an INVAL of a held line drops it. Choices of the model that it rests on: log 42. -/
def Obligations.HomeRequestsComplete : Prop :=
  ∀ (pt : Port) (f : Frame) (s : State) (r : Region),
    let u := s.takeArrived pt.val f
    let q := u.ctxPart (fSrc f)
    let done (t : State) : State := t.pastTurn pt.val f
    (AtHome pt.val 1 f [(fAddr f, fLen f)] s → fLen f ≠ 0 → u.checkRegion q f (fLen f) (fun r => r.permR) = .ok r →
      exec (.load pt f) s = .next (done (u.respond pt.val 0x21 0 f (u.rd (fAddr f) (fLen f)) (u.pmaskOf (fAddr f) (fLen f)))))
    ∧ (AtHome pt.val 2 f [(fAddr f, fLen f)] s → fLen f ≠ 0 → u.checkRegion q f (fLen f) (fun r => r.permW) = .ok r →
        exec (.store pt f) s = .next (done (u.homeWrite pt.val f r)))
    ∧ (AtHome pt.val 3 f [(fAddr f, aopWidth (fAop f))] s → aopBad f = false →
        u.checkRegion q f (fLen f) (fun r => r.permA) = .ok r →
        exec (.atomic pt f) s = .next (done (u.homeModify pt.val f r)))
    ∧ (AtHome pt.val 4 f [(fAddr f / 256 * 256, 256)] s → u.checkRegion q f 1 (fun r => r.permR) = .ok r →
        exec (.fill pt f) s = .next (done (u.homeGive pt.val f r)))
    ∧ (AtHome pt.val 5 f [] s → exec (.evict pt f) s = .next (done (homeEvict f u)))
    ∧ (∀ k l, AtHome pt.val 6 f [] s → u.fcFind (fSrc f) (fAddr f / 256) = some (k, l) →
        exec (.inval pt f) s = .next (done ((if l.filling then u.setFc k (some { l with doomed := true })
          else u.setFc k none).respond pt.val 0x26 0 f [] 0)))

/-- R338 to R354: an answer with status OK ends its request and has its effect; RESYNC, a request past its timeout and the
retry of a SUSPECT context send requests again. Choices of the model that it rests on: log 42, 64. -/
def Obligations.FabricAnswersComplete : Prop :=
  (∀ (pt : Port) (f : Frame) (s : State) (r : Req),
      let u := (s.takeArrived pt.val f).answerReq r
      (∀ i dst, Answers pt.val 0x21 f r s → r.use = .load i dst →
        exec (.loadData pt f) s = .next (u.wrPay dst f.payload 0 (fPmask f)))
      ∧ (∀ i, Answers pt.val 0x22 f r s → r.use = .store i → exec (.storeAck pt f) s = .next u)
      ∧ (∀ i dst, Answers pt.val 0x23 f r s → r.use = .atomic i dst →
          exec (.atomicData pt f) s = .next (u.wrPay dst f.payload 0 (fPmask f)))
      ∧ (Answers pt.val 0x24 f r s → r.use = .fill → s.reqOf pt.val f = some r →
          exec (.fillData pt f) s = .next (fillData ⟨setFld f.hdr 64 48 (fAddr r.frame), f.payload⟩ u))
      ∧ (∀ id, Answers pt.val 0x26 f r s → r.use = .inval id →
          let v : State := { u with net := { u.net with
            invs := u.net.invs.map fun w => if w.id == id then { w with left := w.left - 1 } else w } }
          exec (.invalAck pt f) s = .next v.invsDone)
      ∧ (ComesIn pt.val 0x2F 2 f s → exec (.resync pt f) s
          = .next ((s.takeArrived pt.val f).resynced (fSrc f) pt.val (fSeq f))))
  ∧ (∀ (n : Node) (pt : Port) (s : State) (r : Req), s.ctxState n.val = 0 → r ∈ s.reqsOf n.val → r.port = pt.val →
      r.sentAt + s.cfgF (ctxA n.val + 16) 0 32 ≤ s.gc →
      exec (.requestTimeout n pt) s = .next (s.resendStream n.val pt.val))
  ∧ (∀ (n : Node) (s : State) (r : Req) (u : Nat) (rest : List Req) (us : List Nat), s.ctxState n.val = 1 →
      s.reqsOf n.val = r :: rest → s.usable n.val = u :: us → r.sentAt + 65536 ≤ s.gc →
      exec (.suspectResend n) s = .next (if (u :: us).contains r.port then s.resendReq r else s.moveReq r u))

/-- R343, R346, R349: a LOAD of an exchange or collective engine to a context that is UP leaves as a request, or is served
by the far cache. Choices of the model that it rests on: log 64. -/
def Obligations.FarLoadsComplete : Prop :=
  ∀ (st : Stream) (n : Node) (a len dst : Nat) (s t : State),
    let i := streamIx st
    512 ≤ i → s.power (s.engDom i) = .on → s.frozenDie (ixDie i) = false → s.ctxState n.val = 0 → s.ctxValid n.val = true →
    some (Fin.ofNat 8 (s.ctxPart n.val)) = s.partOf i → 1 ≤ len → len ≤ 4096 → s.noPort n.val = false →
    s.access (s.partOf i) dst len = .ok →
    (s.cfgF (ctxA n.val) 6 1 = 0 → s.issueReq 1 n.val a len [] (.load i dst) = some t →
      exec (.farCacheLoad st n a len dst) s = .next t)
    ∧ (s.cfgF (ctxA n.val) 6 1 = 1 → s.fcSets ≠ 0 → a % 256 + len ≤ 256 → s.fcLoad n.val a len i dst = some t →
        exec (.farCacheLoad st n a len dst) s = .next t)

-- Ports and links

/-- R325 to R328: on a NATIVE port that is up, a data unit in order is taken, ACK and NAK act on the replay store, CREDIT
gives credits back, and the acknowledgement timer sends an ACK. Choices of the model that it rests on: log 39. -/
def Obligations.LinkUnitsComplete : Prop :=
  ∀ (pt : Port) (s : State), s.native pt.val = true →
    let p := pt.val
    let l := s.lnk p
    (∀ tag data crc, unitCrc tag data = crc → fld tag 0 2 = 0 → fld tag 8 16 = l.rxLsn →
      exec (.dataUnit pt tag data crc) s = .next (s.unitTaken p tag data))
    ∧ (∀ lsn, (l.store.findIdx fun u => u.1 == lsn.toNat) < l.store.length →
        let n := l.store.findIdx fun u => u.1 == lsn.toNat
        exec (.unitAck pt lsn) s = .next (linkPump p 4096 (s.setLnk p { l with store := l.store.drop (n + 1) }))
        ∧ exec (.unitNak pt lsn) s = .next ((l.store.drop n).foldl
            (fun s u => s.emit (.data p u.2.1 u.2.2 (unitCrc u.2.1 u.2.2)))
            ((s.setLnk p { l with store := l.store.drop n }).bumpCfg (portA p + 0x18) 0 32 1)))
    ∧ (∀ cls count, s.portSpan p = false → exec (.credit pt cls count) s = .next (linkPump p 4096 (s.setLnk p { l with
        credits := l.credits.set cls.val (min (l.credits.getD cls.val 0 + count) (creditsFull.getD cls.val 0)) })))
    ∧ (∀ count, exec (.echo pt count) s = .next (s.sendCtl p 6 count.toNat))
    ∧ (∀ count, exec (.echoReply pt count) s = .next (s.setCfgF (portA p + 8) 32 32 (s.gc - count.toNat)))
    ∧ (l.ackAt + 256 ≤ s.gc → exec (.linkAckTimer pt) s = .next (s.sendAck p))

/-- R274, R318, R319, R457, R532: lane sparing, a port's loss and its training, a failed lane between dies, and an ALARM
of another device. Choices of the model that it rests on: log 83. -/
def Obligations.LinkEventsComplete : Prop :=
  ∀ (pt : Port) (s : State),
    let p := pt.val
    (∀ lane t, s.native p = true → s.spareFree p = true → exec (.spare pt lane t) s = .next (s.armSpare p lane.val t))
    ∧ (∀ lane t, (s.lnk p).spare = some (lane, t) → t ≤ s.gc → exec (.spareSwitch pt) s = .next (s.laneSwitched p lane t))
    ∧ (∀ lane : Fin 5, s.linkUp p = true → s.spareFree p = true → lane.val < 4 → exec (.laneFailure pt lane) s
        = .next ((s.armSpare p lane.val (s.gc + 1024)).sendCtl p 4 (lane.val + 256 * (s.gc + 1024))))
    ∧ (s.linkUp p = true → s.spareFree p = false → exec (.portDown pt) s
        = .next (s.takeDown p (if s.link p = 3 ∨ (s.lnk p).spare.isSome then 1 else 2)))
    ∧ (∀ peer, s.canTrain p = true → s.portMode p = 1 → (s.nodeAssigned && peer.val == s.node) = false →
        exec (.linkTrainingComplete pt peer) s
          = .next (((s.setCfgF (portA p + 8) 16 14 peer.val).setLnk p linkReset).setLinkState p 2))
    ∧ (∀ (u : Unit52) (link : Fin 6) (module : Fin 16) (lane : Fin 64),
        let k := unitKey u
        s.net.d2dLost.contains (k, link.val) = false →
        tget (fun _ => 0) s.net.d2dUsed ((k * 6 + link.val) * 16 + module.val)
          + (s.net.d2d.filter fun x => x.1 == k && x.2.1 == link.val && x.2.2.1 == module.val).length < 4 →
        exec (.d2dLinkFailure u link module lane) s
          = .next { s with net := { s.net with d2d := s.net.d2d ++ [(k, link.val, module.val, lane.val)] } })
    ∧ (∀ f, ComesIn p 0x0C 0 f s → exec (.alarm pt f) s = .next ((s.takeArrived p f).alarmed (leNat f.payload)))

-- Time

/-- R408 to R417: BEACON and PTP messages of a SOURCE port discipline the count, those of a SERVE port go out; the source
that falls silent gives way, the error estimate grows in HOLDOVER, and the logic dies' copies follow their beacons.
Choices of the model that it rests on: log 10, 11. -/
def Obligations.TimeMessagesComplete : Prop :=
  (∀ (pt : Port) (s : State),
      let p := pt.val
      (∀ (f : Frame) (rx : Nat), ComesIn p 9 1 f s → fLen f = 32 → s.beaconPort p 1 = true →
        let w := leNat f.payload
        (bitsAt w 80 3 = 2 ∨ bitsAt w 80 3 = 3) → bitsAt w 112 14 = s.time.root →
        let off : Int := ((256 * bitsAt w 0 64 + bitsAt w 64 8 : Nat) : Int)
          + (128 * s.cfgF (portA p + 8) 32 32 + 16 * s.tAsym p) - (rx : Int)
        exec (.beacon pt f rx) s = .next ((s.takeArrived p f).timeUpdate p (off / 16) (some (bitsAt w 72 8))))
      ∧ (s.beaconPort p 2 = true → s.nodeAssigned = true → s.sendDue p 16384 = true →
          exec (.beaconSend pt) s = .next (s.beaconOut p))
      ∧ (∀ twoStep seq t1 t2, s.ptpPort p 1 = true → exec (.ptpSync pt twoStep seq t1 t2) s
          = .next (if twoStep then s.setPtp p (some ⟨seq, none, t2, none⟩) else s.sendDelayReq p ⟨seq, some t1, t2, none⟩))
      ∧ (∀ seq t1 x, s.ptpPort p 1 = true → s.ptp p = some x → x.seq = seq → x.t1 = none →
          exec (.ptpFollowUp pt seq t1) s = .next (s.sendDelayReq p { x with t1 := some t1 }))
      ∧ (∀ seq rx, s.ptpPort p 2 = true → exec (.ptpDelayReq pt seq rx) s = .next (s.emit (.ptp p 9 seq rx)))
      ∧ (∀ seq t1 t2 t3 t4, s.ptpPort p 1 = true → s.ptp p = some ⟨seq, some t1, t2, some t3⟩ →
          exec (.ptpDelayResp pt seq t4) s
            = .next ((s.setPtp p none).timeUpdate p (t1 - t2 + ((t2 - t1) + (t4 - t3)) / 2 + s.tAsym p) none))
      ∧ (s.ptpPort p 2 = true → s.sendDue p 244141 = true →
          let seq := BitVec.ofNat 16 (tget (fun _ => 0) s.time.bseq p)
          exec (.ptpSyncSend pt) s = .next (((s.noteSent p).emit (.ptp p 0 seq s.stamp16)).emit (.ptp p 8 seq s.stamp16))))
  ∧ (∀ s : State,
      (s.gcSrc ≠ 63 → s.heardAt s.gcSrc + 2 ^ 20 ≤ s.gc → s.gcState = 2 →
        (∀ p ∈ s.time.sources, s.heardAt p + 2 ^ 20 ≤ s.gc) →
        exec .sourceTimeout s = .next ({ s with time := { s.time with growAt := s.gc } }.setGcState 3))
      ∧ (s.gcState = 3 → s.time.growAt + 16384 ≤ s.gc →
          let u := { s with time := { s.time with growAt := s.time.growAt + 16384 } }.bumpCfg (hwReg 0x2008) 32 32 1
          exec .errEstGrowth s = .next (if u.gcBound < u.gcErr then u.setGcState 4 else u))
      ∧ (s.mgmt.supply = true → s.time.beaconAt + 256 ≤ s.gc → exec .countBeaconSend s = .next { s with time := { s.time with
          beaconAt := s.gc, owing := below 52 fun k => k != 50 + s.mgmt.active } })
      ∧ (∀ u, s.time.owing.contains (unitKey u) = true → exec (.countBeaconReceive u) s = .next { s with time := { s.time with
          owing := ndel s.time.owing (unitKey u), copies := tput (fun _ => 0) s.time.copies (unitKey u) 0 } }))

/-- R176, R355, R418: a LATE beacon of a partner in the meeting set of its window, with the launch tag, is noted with its
arrival count; a TEARDOWN frame that carries the launch tag of its context's partition tears the launch down. Choices of
the model that it rests on: log 73. -/
def Obligations.PartitionFramesComplete : Prop :=
  (∀ (pt : Port) (f : Frame) (s : State) (j : JobImage), ComesIn pt.val 0x0A 1 f s → fLen f = 24 →
      let u := s.takeArrived pt.val f
      let q := u.ctxPart (fSrc f)
      let t := u.part q
      let body := leNat f.payload
      let w := bitsAt body 0 32
      let k := u.meetSet t w
      BitVec.ofNat 64 (bitsAt body 64 64) = t.tag → u.hasJob q = true → t.job = some j → k ≠ 0 →
      ((j.meetSets.getD k []).any fun n => n.val == fSrc f) = true → t.peers.any (fun x => x.1 == w) = false → t.window ≤ w →
      exec (.late pt f) s = .next (u.setPart q { t with peers := t.peers ++ [(w, fSrc f, u.gc)] }))
  ∧ (∀ (pt : Port) (f : Frame) (s : State), ComesIn pt.val 0x0B 0 f s → fLen f = 8 →
      let u := s.takeArrived pt.val f
      let q : Part := Fin.ofNat 8 (u.ctxPart (fSrc f))
      let t := u.part q.val
      t.tag = BitVec.ofNat 64 (leNat f.payload) → [4, 5, 6, 7].contains t.state = true → t.tornDown = false →
      exec (.teardown pt f) s = .next (u.tearDown q).1)

-- Heartwood, I3C, records

/-- R433 to R436: the active die beats, its mirror records are acknowledged in 40 ticks, the standby that fails is
reported, the standby that misses the beat claims the role and serves 3,780 ticks after the last beat, and silence asserts
FAULT_N. Choices of the model that it rests on: log 47. -/
def Obligations.HeartwoodEventsComplete : Prop :=
  ∀ s : State,
    (s.hwAlive s.mgmt.active = true → s.mgmt.lastBeat + 256 ≤ s.gc →
      exec .heartbeatSend s = .next { s with mgmt := { s.mgmt with lastBeat := s.gc } })
    ∧ (s.mgmt.standbyOk = true → s.mgmt.supply = true → s.mgmt.booted = true → s.mgmt.takeover = none →
        s.mgmt.lastBeat + 1280 ≤ s.gc → exec .heartbeatTimeout s = .next { s with mgmt := { s.mgmt with
          takeover := some s.mgmt.lastBeat, deadHw := s.mgmt.deadHw ++ [s.mgmt.active], active := 1 - s.mgmt.active % 2
          standbyOk := false, mirror := [], lastBeat := s.gc } })
    ∧ (∀ h, s.mgmt.takeover = some h → h + 3780 ≤ s.gc →
        let u := allBlks.foldl (fun s b => s.setIrq b 14) { s with mgmt := { s.mgmt with takeover := none } }
        exec .takeoverComplete s = .next (u.takeEvent
          { mkErr 0 4 u.otherHw 0xFF 0x0502 with stamp := u.gc, detail := BitVec.ofNat 64 h }))
    ∧ (s.mgmt.standbyOk = true → s.lysbyUp = true →
        exec .mirrorRecord s = .next { s with mgmt := { s.mgmt with mirror := s.mgmt.mirror ++ [s.gc] } })
    ∧ (∀ t l, s.mgmt.mirror = t :: l → s.gc ≤ t + 40 →
        exec .mirrorAck s = .next { s with mgmt := { s.mgmt with mirror := l } })
    ∧ (∀ c : Fin 4, s.mgmt.standbyOk = true → s.lysbyUp = true → c.val ≠ 0 →
        (c.val = 2 → ∃ t ∈ s.mgmt.mirror, t + 40 < s.gc) →
        let u : State := { s with mgmt := { s.mgmt with
          standbyOk := false, mirror := [], deadHw := s.mgmt.deadHw ++ [s.otherHw] } }
        exec (.standbyFailure c) s = .next (u.takeEvent
          { mkErr 0 4 s.otherHw 0xFF 0x0501 with stamp := s.gc, detail := BitVec.ofNat 64 c.val }))
    ∧ (s.mgmt.supply = true → s.mgmt.booted = true → s.mgmt.standbyOk = false → s.mgmt.lastBeat + 1280 ≤ s.gc →
        exec .heartwoodSilence s = .next { s with mgmt := { s.mgmt with faultN := true, deadHw := [0, 1] } })

/-- R452 to R455, Table 16-13: the I3C port of a live heartwood die takes and drops its address, and with an address
answers each command code and the private transfers; a pending in-band interrupt is made again. Choices of the model that
it rests on: log 8, 48. -/
def Obligations.I3cTransfersComplete : Prop :=
  ∀ (h : Fin 2) (s : State), s.hwAlive h.val = true →
    let c := s.i3c h.val
    (∀ others addr, c.addr = none → (∀ o ∈ others, s.i3cPid h.val < o) →
      exec (.entdaa h others addr) s = .next (s.setI3c h.val { c with addr := some addr.toNat }))
    ∧ exec (.rstdaa h) s = .next (s.setI3c h.val { c with addr := none })
    ∧ (c.addr.isSome = true →
        (∀ n, exec (.setmwl h n) s = .next (s.setI3c h.val { c with mwl := min n 256 }))
        ∧ (∀ n, exec (.setmrl h n) s = .next (s.setI3c h.val { c with mrl := min n 256 }))
        ∧ exec (.getpid h) s = .next (s.emit (.bytes (natLe 6 (s.i3cPid h.val)).reverse))
        ∧ exec (.getbcr h) s = .next (s.emit (.bytes [6])) ∧ exec (.getdcr h) s = .next (s.emit (.bytes [0]))
        ∧ exec (.getstatus h) s = .next (s.emit (.bytes
            [0, BitVec.ofNat 8 (boolNat (h.val == s.mgmt.active && !s.mgmt.ibi.isEmpty))]))
        ∧ (∀ ev, exec (.enec h ev) s = .next (s.setI3c h.val { c with events := (BitVec.ofNat 8 c.events ||| ev).toNat }))
        ∧ (∀ ev, exec (.disec h ev) s = .next (s.setI3c h.val { c with events := (BitVec.ofNat 8 c.events &&& ~~~ev).toNat }))
        ∧ (∀ bytes, 2 ≤ (bytes.take c.mwl).length →
            let bs := bytes.take c.mwl
            let u := s.setI3c h.val { c with off := leNat (bs.take 2) }
            exec (.i3cPrivateWrite h bytes) s
              = .next (if h.val = s.mgmt.active then u.i3cStore (leNat (bs.take 2)) (bs.drop 2) else u))
        ∧ (∀ n, h.val ≠ s.mgmt.active → c.off + min n c.mrl ≤ 0x1000 →
            exec (.i3cPrivateRead h n) s = .next (s.emit (.bytes (s.mbxView .i3c c.off (min n c.mrl)))))
        ∧ (∀ n, h.val = s.mgmt.active → exec (.i3cPrivateRead h n) s
            = .next ((if (0x18 + 0x10000 - c.off) % 0x10000 < min n c.mrl then s.irqTake .i3c else s).emit
                (.bytes (s.mbxView .i3c c.off (min n c.mrl))))))
    ∧ (∀ y l, h.val = s.mgmt.active → s.mgmt.ibi = y :: l → s.ibiReady = true → exec .ibiRetry s = .next (s.emit (.ibi y)))

/-- R525 to R530, R547: an event enters heartwood, the head of its FIFO becomes a record every 40 ticks, and a UC or fatal
record goes to flash. Choices of the model that it rests on: log 9, 83. -/
def Obligations.RecordsComplete : Prop :=
  ∀ s : State,
    (∀ e, exec (.errorEvent (some e)) s = .next (s.takeEvent e))
    ∧ (∀ e l, s.log.raised = e :: l → exec (.errorEvent none) s
        = .next (({ s with log := { s.log with raised := l } }).takeEvent e))
    ∧ (∀ x rest, s.log.fifo = x :: rest → s.recordDue = true → exec .recordWrite s = .next (s.writeRecord x rest))
    ∧ (∀ r k rest, s.log.flashDue = (r, k) :: rest → (∀ x ∈ s.log.flashDue, s.gc < x.2 + 10 * oneSecond) →
        (s.log.appends.filter fun t => s.gc < t + oneSecond).length < 64 → s.log.flash.length < 16384 →
        ∃ t, exec .flashAppend s = .next t ∧ t.log.flash = s.log.flash ++ [r] ∧ t.log.flashDue = rest
          ∧ t.log.appends = (s.log.appends.filter fun t => s.gc < t + oneSecond) ++ [s.gc])

-- Memory dies at work

/-- R282 to R293: temperature samples and bands, scrubs, row and stack repair, and the traffic generators. Choices of the
model that it rests on: log 44, 74, 86. -/
def Obligations.MemoryServiceCompletes : Prop :=
  ∀ (m : MDie) (s : State), s.retired m.val = false →
    (∀ t, s.power (memKey m.val) ≠ .off →
      let b := s.cfgF (stackA m.val) 0 2
      let u := s.setCfgF (stackA m.val) 8 8 t
      exec (.hbmTempSample m t) s = .next { u with svc := { u.svc with
        bandDue := tput (fun _ => none) u.svc.bandDue m.val (if bandAfter b t = b then none else some (bandAfter b t, u.gc)) } })
    ∧ (∀ b k, tget (fun _ => none) s.svc.bandDue m.val = some (b, k) → exec (.bandChange m) s = .next (s.enterBand m.val b))
    ∧ (∀ hits, s.power (memKey m.val) = .on → cnt s.svc.hbmTick m.val + 2 ^ 20 ≤ s.gc →
        exec (.hbmScrub m hits) s = .next (s.hbmSwept m.val (hits.map fun h => (h.1.val, h.2.val))))
    ∧ (∀ u hits, s.power (s.sramDom (sramUnit u)) = .on → cnt s.svc.sramTick (sramUnit u) + 2 ^ 16 ≤ s.gc →
        exec (.sramScrub u hits) s = .next (s.sramSwept (sramUnit u) (hits.map Fin.val)))
    ∧ (∀ pc bank row bad, s.power (memKey m.val) ≠ .off → exec (.rowRemap m pc bank row bad) s
        = .next ((s.poisonRow m.val pc.val bank.val row.val (bad.map Fin.val)).repairRow
            ((64 * m.val + pc.val) * 64 + bank.val, row.val)))
    ∧ (∀ (c : Fin 6) pc bank, c.val ≠ 0 → c.val ≠ 5 → exec (.stackRetirement m c pc bank) s
        = .next (s.retireStack m.val c.val (pc % 256) (bank % 256)))
    ∧ (∀ p : Fin 64, s.tgenMay m.val = true → s.cfgF (tgA m.val p.val + 0x30) 0 1 = 0 →
        exec (.tgenStart m p) s = .next (s.startTgen m.val p.val))
    ∧ (∀ p : Fin 64, s.cfgF (tgA m.val p.val + 0x30) 0 1 = 1 →
        exec (.tgenStop m p) s = .next (s.setTgen m.val p.val { s.tgen m.val p.val with stopping := true }))
    ∧ (∀ (p : Fin 64) (made : Nat), s.cfgF (tgA m.val p.val + 0x30) 0 1 = 1 →
        ((s.tgenSet m.val p.val).count ≠ 0 ∨ (s.tgen m.val p.val).stopping = true) →
        exec (.tgenRunEnd m p made) s
          = .next ((s.tgenRan m.val p.val made).1.tgenResult m.val p.val (s.tgenRan m.val p.val made).2))

-- Power, sensors, protection

/-- R507 to R515: a domain's transition completes, an idle package sleeps, sensors and the energy of a slot are booked.
Choices of the model that it rests on: log 40, 68, 75. -/
def Obligations.PowerEventsComplete : Prop :=
  ∀ s : State,
    (∀ dom, (s.dom (domKey dom)).going.isSome = true →
      exec (.domainTransitionDone dom) s = .next (s.settleDom (domKey dom)))
    ∧ (s.mgmt.devState = 2 → s.mgmt.asleep = false → s.allIdle = true → s.mgmt.lastWork + oneSecond ≤ s.gc →
        exec .packageSleep s = .next s.sleepPackage)
    ∧ (∀ (u : Unit52) (i : Fin 6) (t : Int), i.val < sensorsOf (unitKey u) →
        exec (.sensorSample u i t) s = .next (s.sensed (unitKey u) i.val t))
    ∧ (∀ slot owned shared input peak, 2500 * (slot + 1) + 100 ≤ s.gc →
        exec (.energySlotMeasured slot owned shared input peak) s = .next (s.bookSlot slot owned shared input peak))

/-- R518 to R522, Table 18-5: each protection acts at its threshold and is released below it; an overcurrent output turns
its domain off, and a trip turns every domain off. Thresholds are in quarter degrees and tenths of an ampere. Choices of
the model that it rests on: log 40. -/
def Obligations.ProtectionsComplete : Prop :=
  ∀ s : State,
    (∀ u, 420 ≤ (s.thermalTop (thermalKey u)).1 → s.pw.clamps.contains (thermalKey u) = false →
      (thermalKey u < 50 ∨ 52 ≤ thermalKey u) → exec (.thermalClamp u) s = .next (s.clampUnit (thermalKey u)))
    ∧ (∀ u, s.pw.clamps.contains (thermalKey u) = true → s.cooled (thermalKey u) = true →
        exec (.thermalClampRelease u) s = .next (s.freeUnit (thermalKey u)))
    ∧ (∀ da, s.currClamp = false → s.currLimit ≤ da → exec (.currentLimit da) s = .next (s.limitCurrent da))
    ∧ (s.currClamp = true → exec .currentLimitRelease s = .next (s.setCfgF (hwReg 0x3000) 33 1 0).setAlert)
    ∧ (∀ w, 102 * s.envUnder s.pw.cap < w * 100 → s.avgRung < s.rungs → (s.avgRung = 0 ∨ s.pw.rungAt + 2500 ≤ s.gc) →
        exec (.avgLimit w) s = .next (s.rungUp (s.avgRung + 1)))
    ∧ (∀ w, s.avgRung ≠ 0 → w * 100 < 95 * s.envUnder s.pw.cap → s.pw.rungAt + 2500 ≤ s.gc →
        exec (.avgLimitRelease w) s = .next (s.setRung (s.avgRung - 1)).setAlert)
    ∧ (∀ (u : Unit52) (out : Fin 21) d, outputDom (unitKey u) out.val = some d →
        (s.power d ≠ .off ∨ (s.dom d).going.isSome = true) →
        exec (.regOvercurrent u out) s = .next (s.overcurrent (unitKey u) out.val d))
    ∧ (∀ u, (if 52 ≤ thermalKey u then 440 else 460) ≤ (s.thermalTop (thermalKey u)).1 →
        s.cfgF (hwReg 0x3000) 39 1 = 0 → exec (.thermalTrip u) s = .next (s.trip (thermalKey u)))

/-- R458 to R461, R576 to R583: supplies come and go, the boot runs the valid image of the higher version or ends in
FAULTED, main power and PERST switch the host ports, and a reference out of range is recorded as fatal. Choices of the
model that it rests on: log 12, 13, 15, 16. -/
def Obligations.SupplyEventsComplete : Prop :=
  ∀ s : State,
    (∀ slot : Fin 8, s.mgmt.supply = false → exec (.heartwoodSupplyUp slot) s
      = .next { s with gc := 0, mgmt := { s.mgmt with supply := true, slot := slot.val, faultN := false } })
    ∧ (s.mgmt.supply = true → exec .heartwoodSupplyLost s = .next s.cold)
    ∧ (s.mgmt.supply = true → s.mgmt.booted = false → s.mgmt.validImage = true →
        let u : State := { s with mgmt := { s.mgmt with active := s.mgmt.firstActive, deadHw := s.mgmt.hwFused } }
        (∀ slot i, u.mgmt.bootImage = some (slot, i) → exec .boot s = .next (u.bootFrom slot i))
        ∧ (u.mgmt.bootImage = none → exec .boot s
            = .next { u with mgmt := { u.mgmt with devState := 9, validImage := false, faultN := true } }))
    ∧ (∀ mv, s.mgmt.supply = true → s.mgmt.mainGood = false → 11200 ≤ mv → exec (.mainGoodSet mv) s = .next s.mainOn)
    ∧ (∀ mv, s.mgmt.supply = true → s.mgmt.mainGood = true → mv < 10800 →
        exec (.mainGoodClear mv) s = .next (s.mainOff mv))
    ∧ (∀ ppm : Int, s.mgmt.supply = true → s.mgmt.booted = true → (ppm < -50 ∨ 50 < ppm) → exec (.refclkLost ppm) s
        = .next (s.takeEvent { mkErr 3 4 s.mgmt.active 0xFF 0x0407 with
            stamp := s.gc, detail := BitVec.ofNat 64 (ppm % 2 ^ 32).toNat }))
    ∧ (∀ hp : Fin 2, s.mgmt.perst.contains hp.val = false → exec (.perstAssert hp) s = .next { s with mgmt := { s.mgmt with
        perst := s.mgmt.perst ++ [hp.val], hostReady := s.mgmt.hostReady.filter fun x => x.1 != hp.val } })
    ∧ (∀ hp : Fin 2, s.mgmt.perst.contains hp.val = true →
        let u : State := { s with mgmt := { s.mgmt with perst := s.mgmt.perst.filter fun x => x != hp.val } }
        exec (.perstDeassert hp) s = .next (u.hostTrains hp.val))

/-- R539 to R544: ageing readings are kept, and a graft makes its final copy, switches the map and ends its forwarding.
Choices of the model that it rests on: log 65, 66. -/
def Obligations.WearAndGraftComplete : Prop :=
  ∀ s : State,
    (∀ readings, s.mgmt.supply = true → s.mgmt.booted = true → (∀ t, s.mgmt.aged = some t → t + 2 ^ 38 ≤ s.gc) →
      exec (.ageingSample readings) s = .next { s with mgmt := { s.mgmt with
        aged := some s.gc
        wearAge := (readings.map fun r => (r.1.val, r.2)).foldl (fun t r => tput (fun _ => 0) t r.1 r.2) s.mgmt.wearAge } })
    ∧ (∀ (d : CDie) g, s.graftOf d.val = some g → s.faulted = false →
        (g.phase = 3 → s.copyMay g = true → exec (.graftFinalCopy d) s = .next (s.putGraft { g with phase := 4 }))
        ∧ (g.phase = 4 → g.agreed ≠ 0 → g.agreed ≤ s.gc → exec (.graftMapSwitch d) s = .next (s.switchMap g g.agreed)))
    ∧ (∀ (d : CDie) g, s.graftOf d.val = some g → g.phase = 5 → g.until_ ≤ s.gc → exec (.graftForwardEnd d) s
        = .next ((s.disableAll (dieDomains g.old)).setGrafts (s.mgmt.grafts.filter fun h => h.die != d.val)))

-- Cut, debug, trace, JTAG

/-- R502, R553 to R570: the cut and its resume, captured frames, halts, trace triggers, snapshots, traffic of the debug
registers and of the scan chain. Choices of the model that it rests on: log 59, 78, 80. -/
def Obligations.DebugEventsComplete : Prop :=
  ∀ s : State,
    (∀ (p : Part) n, (s.part p.val).cutAt = some n → (s.part p.val).cutDue s.gc = true →
      ((s.part p.val).opening = true → (s.part p.val).phase = 3) → s.graftOwed p.val = false →
      exec (.cut p) s = .next (s.cutPart p n))
    ∧ (∀ (p : Part) n, (s.part p.val).resumeAt = some n → (s.part p.val).frozen = true → n ≤ s.gc →
        exec (.cutResume p) s = .next (s.thaw p))
    ∧ (∀ (pt : Port) f, s.portLive pt.val = true → s.frozenFor f = true → 2 ≤ fClass f → fDst f = s.node →
        exec (.frameCapture pt f) s = .next (s.captureFrame pt.val f))
    ∧ (∀ st k byCut, (s.stream (streamIx st)).haltAt = some (k, byCut) → s.mayHalt (streamIx st) k = true →
        exec (.engineHalt st) s = .next (s.haltStream (streamIx st) k byCut))
    ∧ (∀ ring : Fin 384,
        let a := Sys2Proof.Machine.ringBase (ring.val / 12) (ring.val % 12)
        s.cfgF a 0 2 = 1 → s.cfgF a 13 3 = 0 → (s.cfgW (a + 0x30)).toNat ≤ s.gc →
        exec (.traceTrigger ring) s = .next (s.ringTrigger (ring.val / 12) (ring.val % 12)))
    ∧ (∀ ring : Fin 384, exec (.trcFire ring) s
        = .next ((s.fire (ring.val / 12) (ring.val % 12)).2.emit (.readback (s.fire (ring.val / 12) (ring.val % 12)).1)))
    ∧ (∀ i c k, s.mgmt.cmds[i]? = some c → c.data = [k] → entCode c.entry = 0x0908 → k ≤ s.gc →
        exec (.snapshotLatch i) s = .next { s with mgmt := { s.mgmt with
          cmds := s.mgmt.cmds.set i { c with data := k :: (s.snapHead c.entry k ++ s.snapWords c.entry) } } })
    ∧ (∀ i c, s.mgmt.cmds[i]? = some c → entCode c.entry = 0x0908 → c.data.headD 0 + 250000 ≤ s.gc →
        exec (.snapshotWriteTimeout i) s = .next ((s.finish c stFailed (failResult 7)).bumpCfg (hwReg 0x5038) 0 32 1))
    ∧ (∀ (c : Core) v, exec (.accWinWrite c v) s = .next (s.setCfgW (coreCfg c.val + 0x900) (v &&& 3)))
    ∧ (∀ i, i ≠ .idcode → (drivesPins i = true → s.allOff = true) →
        exec (.boundaryScan i) s = .next { s with mgmt := { s.mgmt with jtag := i } })
    ∧ exec (.boundaryScan .idcode) s
        = .next (State.emit { s with mgmt := { s.mgmt with jtag := .idcode } } (.readback s.idcode))

-- Host and tray controller

/-- R423, R440 to R448, R472: an agent that reaches a block writes its index registers, takes its causes and writes its
registers; the host takes the port, advances a journal, rings doorbells and reaches HBM through its aperture; the takes of
peak power and peak FIFO level read and reset. Choices of the model that it rests on: log 18, 45, 70, 84. -/
def Obligations.HostAccessesComplete : Prop :=
  ∀ s : State,
    (∀ b (k : Fin 12) v, s.reaches b = true → k.val < pairsOf b →
      exec (.cmdProdWrite b k v) s = .next (s.ringCmd b k.val v) ∧ exec (.rspConsWrite b k v) s = .next (s.ringRsp b k.val v))
    ∧ (∀ b, s.reaches b = true →
        exec (.mbxIrqTake b) s = .next ((s.irqTake b).emit (.readback (s.mbxRead b 0x18 false).toNat)))
    ∧ (∀ b off v, s.reaches b = true → off % 8 = 0 →
        exec (.registerWrite (.mbx b off) v) s = .next (s.mbxPlain b off v))
    ∧ (∀ a v, s.lysbyUp = true → a % 8 = 0 → exec (.registerWrite (.cfg a) v) s = .next (s.cfgWrite a v))
    ∧ (∀ (hp : Fin 2) v, s.hostUp hp.val = true → hp.val ≠ s.mgmt.hostPort → fld v 0 1 = 1 →
        exec (.portTake hp v) s = .next (allBlks.foldl (fun s b => s.setIrq b 15)
          { s with mgmt := { s.mgmt with hostPort := hp.val } }))
    ∧ exec .peakWTake s = .next (s.takePeakW.emit (.readback (s.cfgW (hwReg 0x3008)).toNat))
    ∧ exec .fifoPeakTake s = .next (s.takeFifoPeak.emit (.readback (s.cfgW (hwReg 0x5028)).toNat))
    ∧ (s.hostUp s.mgmt.hostPort = true →
        (∀ (p : Part) v, exec (.jnlReadWrite p v) s = .next
          (if (s.mbxW (bar4Addr p.val 0x10)).toNat < v.toNat then s.setMbxF (bar4Addr p.val 0x20) 2 1 1
           else s.setMbxW (bar4Addr p.val 0x18) v))
        ∧ (∀ (p : Part) v, fld v 2 1 = 1 →
            exec (.registerWrite (.bar4 p 0x20) v) s = .next (s.setMbxF (bar4Addr p.val 0x20) 2 1 0))
        ∧ (∀ p k v, exec (.doorbellWrite p k v) s = .next (s.pendBell p k v))
        ∧ (∀ b off len data,
            let a := s.apertureAddr b off
            b ≠ .i3c → 1 ≤ len → off + len ≤ 2 ^ 36 → isHbm a = true → s.access (vfPart b) a len = .ok →
            exec (.bar2Access b off len data) s = .next (match data with
              | none => s.emit (.bytes (s.rd a len))
              | some bs => s.wr a (bs.take len))))

-- Lysby's commands

/-- R461 to R482, Table 17-2: start, stop, reset, identity, measurement, status, cap and rollback commit. Choices of the
model that it rests on: log 49, 50, 51. -/
def Obligations.DeviceCommandsComplete : Prop :=
  (∀ x slot, commandPends .deviceStart (devRow 0x0101 0 .power)
      (fun u e => u.mgmt.devState = 1 ∧ u.busyWith e .power = false ∧ u.mgmt.mainGood = true ∧ u.bootPlate = some (x, slot))
      (fun _ _ => .none) (fun _ _ => [1]) none (fun _ _ => none)
      (fun u _ => (u.applyPlate x slot).readyKeys.foldl State.enable (u.applyPlate x slot)))
  ∧ commandPends .deviceStop (devRow 0x0102 0 .power)
      (fun u e => u.mgmt.devState = 2 ∧ u.blocker idleStates = none ∧ u.busyWith e .power = false)
      (fun _ _ => .none) (fun _ _ => []) none (fun _ _ => none) (fun u _ => u.disableAll switched)
  ∧ commandPends .deviceReset (devRow 0x0103 0 .power) (fun u _ => u.mgmt.devState ≠ 0)
      (fun _ _ => .none) (fun _ _ => []) none (fun _ _ => none) (fun u _ => u.startReset)
  ∧ commandOk .deviceIdentity (devRow 0x0104 0 .read) (fun _ _ _ _ => True) .none (fun u _ => u.identity) (fun u _ => u)
  ∧ commandOk .deviceMeasure (devRow 0x0105 1 .read) (fun _ _ _ e => payF e 0 1 < 8) .none
      (fun u e => u.mgmt.meas.getD (payF e 0 1) []) (fun u _ => u)
  ∧ commandOk .deviceStatus (devRow 0x0106 0 .read) (fun _ _ _ _ => True) .none (fun u _ => u.status) (fun u _ => u)
  ∧ commandOk .powerCap (devRow 0x0107 2 .power)
      (fun _ _ u e => u.mgmt.devState ∈ [1, 2, 8] ∧ u.busyWith e .power = false
        ∧ (payF e 0 2 = 0 ∨ (400 ≤ payF e 0 2 ∧ payF e 0 2 ≤ u.envelope)))
      .none (fun _ _ => []) (fun u e => u.setCap (payF e 0 2))
  ∧ commandOk .firmwareCommit (devRow 0x0108 1 .admin)
      (fun _ _ u e => u.mgmt.devState ∈ [1, 2, 8] ∧ u.busyWith e .admin = false ∧ u.mgmt.fusedMin ≤ payF e 0 1
        ∧ payF e 0 1 ≤ u.runningRollback)
      .none (fun _ e => natLe 1 (payF e 0 1)) (fun u e => { u with mgmt := { u.mgmt with fusedMin := payF e 0 1 } })

/-- R456, R457, R464 to R468, R492 to R494, Tables 17-5 and 17-6: plates are staged and applied, overlays applied, removed
and listed, the node and the time roles set, and a partition queried. Choices of the model that it rests on: log 5, 43,
52. -/
def Obligations.ConfigurationCommandsComplete : Prop :=
  (∀ (b : Blk) (k : Fin 12) (pl : Plate) (s : State), Taken (devRow 0x0401 12 .admin) b k.val s →
      let e := s.headEntry b k.val
      let u := s.given (devRow 0x0401 12 .admin) b k.val
      u.mgmt.devState ∈ [2, 8] → u.busyWith e .admin = false → u.bufOk e (payF e 0 8) (payF e 8 4) = true →
      payF e 8 4 ≤ 0x100000 → u.plateOk pl = true → exec (.plateStage b k pl true) s
        = .next (u.pend b k.val e [] none (some ⟨pl, sha384 (u.rd (payF e 0 8) (payF e 8 4)), true⟩)))
  ∧ (∀ x, commandPends .plateApply (devRow 0x0402 1 .admin)
      (fun u e => u.mgmt.devState = 2 ∧ u.blocker idleStates = none ∧ u.busyWith e .admin = false
        ∧ u.mgmt.plates[payF e 0 1]? = some (some x) ∧ payF e 0 1 < 2 ∧ x.good = true ∧ u.plateOk x.plate = true)
      (fun _ _ => .none) (fun _ e => [payF e 0 1]) none (fun _ _ => none) (fun u _ => u))
  ∧ (∀ h, commandPends (fun b k => .overlayApply b k true) ⟨0x0403, .either, .admin, .admin, 10⟩
      (fun u e => u.overlayMay e = true ∧ (u.mgmt.overlays.findIdx? fun o => o.isNone) = some h
        ∧ u.bufOk e (payF e 0 8) (payF e 8 2) = true ∧ u.overlayOk (entScope e) (u.rd (payF e 0 8) (payF e 8 2)) = true)
      (fun u e => .window (u.overlayWindow e)) (fun u e => [h, (u.overlayWindow e).getD 0xFFFFFFFF]) none (fun _ _ => none)
      (fun u e =>
        let bs := u.rd (payF e 0 8) (payF e 8 2)
        u.setOverlay h (some ⟨entScope e, leNat ((sha384 bs).take 8), sha384 bs,
          (List.range (bitsAt (leNat (bs.take 16)) 40 16)).map (overlayEntry bs), 0⟩)))
  ∧ (∀ o, commandPends .overlayRemove ⟨0x0404, .either, .admin, .admin, 1⟩
      (fun u e => u.overlayMay e = true ∧ u.handleBusy (payF e 0 1) = false
        ∧ u.mgmt.overlays[payF e 0 1]? = some (some o) ∧ o.part = entScope e)
      (fun u e => .window (u.overlayWindow e)) (fun u e => [payF e 0 1, (u.overlayWindow e).getD 0xFFFFFFFF]) none
      (fun _ _ => none) (fun u e => u.setOverlay (payF e 0 1) (some { o with phase := 2 })))
  ∧ commandOk .overlayList (devRow 0x0405 0 .read) (fun _ _ _ _ => True) .none
      (fun u _ => (u.mgmt.overlays.map overlayLine).flatten) (fun u _ => u)
  ∧ commandOk .nodeAssign (devRow 0x0501 4 .fabric)
      (fun _ _ u e => u.mgmt.devState = 2 ∧ u.blocker idleStates = none ∧ u.busyWith e .fabric = false
        ∧ payF e 0 2 < 16384 ∧ payF e 2 2 < 4096)
      .none (fun _ _ => [])
      (fun u e =>
        let v := ((u.setCfgF (ioCfg 0) 0 14 (payF e 0 2)).setCfgF (ioCfg 0) 14 1 1).setCfgF (ioCfg 0) 16 12 (payF e 2 2)
        v.net.heldPorts.foldl State.startPort { v with net := { v.net with heldPorts := [] } })
  ∧ commandOk .timeSource (devRow 0x0502 22 .fabric)
      (fun _ _ u e => u.mgmt.devState ∈ [2, 8] ∧ u.blocker restStates = none ∧ u.busyWith e .fabric = false
        ∧ u.sourcesOk e = true)
      .none (fun _ _ => []) (fun u e => u.takeSources e)
  ∧ commandOk .partQuery (partRow 0x0503 0 .read) (fun _ _ _ _ => True) .plain (fun u e => u.partReport (entPart e)) (fun u _ => u)

/-- R419, R429, R450, R484 to R488, Table 17-3: a job is loaded, unloaded, launched, torn down, resumed, given a variant
set and input batches, and its pools audited. Choices of the model that it rests on: log 5, 53, 55, 81. -/
def Obligations.JobCommandsComplete : Prop :=
  (∀ img, commandPends (fun b k => .jobLoad b k img) (jobRow 0x0201 16)
      (fun u e => (u.part (entPart e)).state = 2 ∧ u.nodeAssigned = true ∧ u.busyWith e .job = false
        ∧ payF e 8 8 ≠ 0 ∧ u.inPartHbm (entPart e) (payF e 0 8) (payF e 8 8) = true
        ∧ imageBad u ((u.clearForLoad (entPart e)).writeImage img) (Fin.ofNat 8 (entPart e)) img = false
        ∧ u.needsFailed (entPart e) = false)
      (fun _ _ => .plain) (fun _ _ => []) (some img) (fun _ _ => none) (fun u _ => u))
  ∧ commandPends .jobUnload (jobRow 0x0202 0)
      (fun u e => (u.part (entPart e)).state ∈ [3, 6, 7] ∧ u.busyWith e .job = false)
      (fun _ _ => .plain) (fun _ _ => []) none (fun _ _ => none)
      (fun u e => ((u.endPartCmds (entPart e) u.mgmt.nextCmd 3).endStops (entPart e) 6 none).dropOrphans)
  ∧ (∀ j, commandOk .jobLaunch (jobRow 0x0203 52)
      (fun _ _ u e => (u.part (entPart e)).state = 3 ∧ u.busyWith e .job = false ∧ (u.part (entPart e)).job = some j
        ∧ u.gc + 2500 ≤ payF e 0 8 ∧ payF e 20 4 = 0 ∧ payF e 32 20 = 0 ∧ u.jobFits (entPart e) j = true
        ∧ (jobMeets j = true → 2 ≤ u.gcState))
      .plain (fun _ _ => []) (fun u e => u.launchJob (entPart e) e none))
  ∧ commandPends .jobTeardown (jobRow 0x0204 8)
      (fun u e => (u.part (entPart e)).state ∈ activeStates ∧ u.busyWith e .job = false
        ∧ BitVec.ofNat 64 (payF e 0 8) = (u.part (entPart e)).tag
        ∧ ((u.part (entPart e)).state = 4 → (u.part (entPart e)).lc ≤ u.gc))
      (fun _ _ => .plain) (fun u e => [(u.tearDown (Fin.ofNat 8 (entPart e))).2]) none (fun _ _ => none)
      (fun u e =>
        let v := (u.tearDown (Fin.ofNat 8 (entPart e))).1
        (v.endPartCmds (entPart e) u.mgmt.nextCmd 2).dropOrphans)
  ∧ commandPends .jobResume (jobRow 0x0205 0)
      (fun u e => (u.part (entPart e)).state ∈ [6, 7] ∧ (u.part (entPart e)).tornDown = false
        ∧ ((u.part (entPart e)).state = 7 → (u.part (entPart e)).last = false) ∧ u.busyWith e .job = false)
      (fun u e => .window (some ((u.part (entPart e)).window + 1))) (fun _ _ => []) none (fun _ _ => none)
      (fun u e => u.resume (entPart e))
  ∧ (∀ j, commandOk .jobVariant (jobRow 0x0206 1)
      (fun _ _ u e => (u.part (entPart e)).state ∈ jobStates ∧ (u.part (entPart e)).replay = none
        ∧ u.busyWith e .job = false ∧ (u.part (entPart e)).job = some j ∧ payF e 0 1 < j.sets.length)
      .latched
      (fun u e =>
        let t := u.part (entPart e)
        natLe 4 ((if t.state == 4 then t.step0 else t.stepNo) + 1).toNat)
      (fun u e => u.setPart (entPart e) { u.part (entPart e) with setNext := some (payF e 0 1) }))
  ∧ commandOk .inputCommit (jobRow 0x0207 20)
      (fun _ _ u e => (u.part (entPart e)).state ∈ activeStates ∧ u.busyWith e .job = false
        ∧ payF e 16 4 = (u.part (entPart e)).batch ∧ 1 ≤ payF e 8 8 ∧ payF e 8 8 ≤ 2 ^ 20
        ∧ u.inPartHbm (entPart e) (payF e 0 8) (payF e 8 8) = true ∧ (u.takeBatch e).2 = false)
      .plain (fun u e => sha256 (u.batchBytes e)) (fun u e => (u.takeBatch e).1)
  ∧ commandPends .inputCommit (jobRow 0x0207 20)
      (fun u e => (u.part (entPart e)).state ∈ activeStates ∧ u.busyWith e .job = false
        ∧ payF e 16 4 = (u.part (entPart e)).batch ∧ 2 ^ 20 < payF e 8 8 ∧ payF e 8 8 ≤ 2 ^ 40
        ∧ u.inPartHbm (entPart e) (payF e 0 8) (payF e 8 8) = true)
      (fun _ _ => .plain) (fun _ _ => []) none (fun _ _ => none) (fun u e => u.nextBatch (entPart e))
  ∧ commandPends .poolAudit (jobRow 0x0208 12)
      (fun u e => (u.part (entPart e)).state ∈ jobStates ∧ u.busyWith e .job = false
        ∧ u.inPartHbm (entPart e) (payF e 0 8) (payF e 8 4) = true)
      (fun _ _ => .plain)
      (fun u e => ((u.ownersOf (entPart e)).map fun x =>
        [x.1, x.2, u.cfgF (ownA x.1 x.2 + 8) 32 32, u.cfgF (ownA x.1 x.2 + 16) 32 32]).flatten)
      none (fun _ _ => none) (fun u _ => u)

/-- R168, R389 to R405, R423, R490, R498 to R500, Tables 17-4, 17-8 and 17-9: pace plans, norm bounds and answers, proofs,
journal, export and import. Choices of the model that it rests on: log 57, 58, 81. -/
def Obligations.SettingCommandsComplete : Prop :=
  commandOk .pacePlan (jobRow 0x0301 16)
      (fun _ _ u e => (u.part (entPart e)).state = 3 ∧ (u.part (entPart e)).replay = none ∧ u.busyWith e .job = false
        ∧ planOk (planOf e) = true ∧ u.shareSum (entPart e) (planOf e).share ≤ 64)
      .plain (fun _ _ => []) (fun u e => u.setPart (entPart e) ((u.part (entPart e)).takePlan (planOf e)))
  ∧ commandOk .pacePlan (jobRow 0x0301 16)
      (fun _ _ u e => (u.part (entPart e)).state ∈ [4, 5, 6, 7] ∧ (u.part (entPart e)).replay = none
        ∧ u.busyWith e .job = false ∧ planOk (planOf e) = true ∧ u.shareSum (entPart e) (planOf e).share ≤ 64)
      .latched (fun _ _ => []) (fun u e => u.planWaits (entPart e) (planOf e))
  ∧ commandOk .paceRead (partRow 0x0302 0 .read) (fun _ _ u e => (u.part (entPart e)).state ∈ [4, 5, 6, 7]) .plain
      (fun u e => u.paceReport (entPart e)) (fun u _ => u)
  ∧ commandOk .normArm (jobRow 0x0701 11)
      (fun _ _ u e => (u.part (entPart e)).state ∈ jobStates ∧ (u.part (entPart e)).replay = none
        ∧ u.busyWith e .job = false ∧ boundsOk (boundsOf e) = true)
      .latched (fun _ _ => []) (fun u e => u.setPart (entPart e) { u.part (entPart e) with bounds := boundsOf e })
  ∧ commandOk .normAnswer (jobRow 0x0702 1)
      (fun _ _ u e => (u.part (entPart e)).asksNorm = true ∧ (u.part (entPart e)).replay = none ∧ u.busyWith e .job = false
        ∧ (payF e 0 1 = 1 ∨ (payF e 0 1 = 0 ∧ ∃ v, (u.part (entPart e)).verdict = some v ∧ isFinite32 v.norm = true)))
      .latched (fun _ _ => []) (fun u e => u.setPart (entPart e) { u.part (entPart e) with answer := some (payF e 0 1) })
  ∧ commandOk .proofArm (jobRow 0x0703 5)
      (fun _ _ u e => (u.part (entPart e)).state ∈ jobStates ∧ u.busyWith e .job = false ∧ payF e 4 1 < 2
        ∧ ((payF e 0 2 = 0 ∧ payF e 2 2 = 0) ∨ (payF e 0 2 ≠ 0 ∧ payF e 2 2 < payF e 0 2)))
      .latched (fun _ _ => [])
      (fun u e => u.setPart (entPart e) { u.part (entPart e) with
        proofNext := some (payF e 0 2, payF e 2 2, payF e 4 1 == 1) })
  ∧ commandPends .proofCompareCommand (jobRow 0x0704 12)
      (fun u e => (u.part (entPart e)).state ∈ jobStates ∧ u.jnlOpen (entPart e) = true ∧ u.busyWith e .job = false
        ∧ (payF e 8 4 = 0 ∨ u.inPartHbm (entPart e) (payF e 0 8) (128 * payF e 8 4) = true))
      (fun _ _ => .plain) (fun _ _ => []) none (fun _ _ => none) (fun u _ => u)
  ∧ commandOk .journalOpen (jobRow 0x0801 9)
      (fun _ _ u e => (u.part (entPart e)).state ∈ [2, 3] ∧ u.jnlOpen (entPart e) = false ∧ u.busyWith e .job = false
        ∧ 12 ≤ payF e 8 1 ∧ payF e 8 1 ≤ 26 ∧ payF e 0 8 % 4096 = 0
        ∧ u.inPartHbm (entPart e) (payF e 0 8) (64 * 2 ^ payF e 8 1) = true)
      .none (fun _ _ => []) (fun u e => u.openJournal (entPart e) (payF e 0 8) (payF e 8 1))
  ∧ commandOk .journalClose (jobRow 0x0802 0)
      (fun _ _ u e => (u.part (entPart e)).state ∈ [2, 3, 7] ∧ u.busyWith e .job = false)
      .none (fun u e => natLe 8 (u.jnlWrite (entPart e))) (fun u e => u.closeJournal (entPart e))
  ∧ commandPends .exportStart (jobRow 0x0803 24)
      (fun u e => (u.part (entPart e)).state ∈ [6, 7] ∧ u.busyWith e .job = false ∧ payF e 0 1 < 2
        ∧ u.inPartHbm (entPart e) (payF e 8 8) (payF e 16 8) = true
        ∧ exportBytes (u.extents (entPart e) (payF e 0 1)) ≤ payF e 16 8)
      (fun _ _ => .plain) (fun _ _ => []) none (fun _ _ => none) (fun u _ => u)
  ∧ commandPends .importStart (jobRow 0x0804 16)
      (fun u e => (u.part (entPart e)).state = 3 ∧ u.busyWith e .job = false
        ∧ u.inPartHbm (entPart e) (payF e 0 8) (payF e 8 8) = true
        ∧ ∀ l, u.importOf (payF e 0 8) (payF e 8 8) = some l → isWorking l = true →
            u.rd (payF e 0 8 + 32) 32 = u.tableDigest (entPart e))
      (fun _ _ => .plain) (fun _ _ => []) none (fun _ _ => none) (fun u _ => u)

/-- R495, R496, R541, Table 17-7: a graft is prepared, committed, given up and queried. Choices of the model that it rests
on: log 65. -/
def Obligations.GraftCommandsComplete : Prop :=
  (∀ x, commandPends .graftPrepare (graftRow 0x0601 2 .admin)
      (fun u e => (u.part (entPart e)).replay = none ∧ (u.part (entPart e)).state ∈ [2, 3, 4, 5, 6, 7]
        ∧ u.dieIn (entPart e) (payF e 0 1) = true ∧ (payF e 1 1 = 0xFF ∨ u.mgmt.coppice.contains (payF e 1 1) = true)
        ∧ u.mgmt.grafts.any Graft.open_ = false ∧ u.spareFor (payF e 1 1) = some x)
      (fun _ _ => .plain) (fun _ e => [payF e 0 1]) none (fun _ _ => none)
      (fun u e => u.startGraft (payF e 0 1) (entPart e) x))
  ∧ (∀ g, commandPends .graftCommit (graftRow 0x0602 16 .admin)
      (fun u e => (u.part (entPart e)).replay = none ∧ u.graftOf (payF e 0 1) = some g ∧ g.part = entPart e ∧ g.phase = 2
        ∧ (u.part (entPart e)).state ∈ activeStates ∧ g.earliest ≤ payF e 8 8)
      (fun u e => .window (u.commitWindow (entPart e) (payF e 8 8))) (fun _ _ => [g.die]) none (fun _ _ => none)
      (fun u e => u.putGraft { g with phase := 3, count := payF e 8 8 }))
  ∧ (∀ g, commandOk .graftAbort (graftRow 0x0603 1 .admin)
      (fun _ _ u e => (u.part (entPart e)).replay = none ∧ u.graftOf (payF e 0 1) = some g ∧ g.part = entPart e ∧ g.phase = 2)
      .plain (fun _ _ => []) (fun u _ => u.dropGraft g.die))
  ∧ (∀ g, commandOk .graftStatus (graftRow 0x0604 1 .read)
      (fun _ _ u e => u.dieIn (entPart e) (payF e 0 1) = true ∧ u.graftOf (payF e 0 1) = some g ∧ g.phase ≠ 5)
      .plain (fun _ _ => natLe 1 g.code ++ natLe 1 g.spare ++ natLe 6 0 ++ natLe 8 g.agreed) (fun u _ => u))

/-- R502, R503, R553 to R564, Table 17-10: stops, halts and runs, peek and take, trace rings and counter snapshots.
Choices of the model that it rests on: log 78, 79, 80. -/
def Obligations.DebugCommandsComplete : Prop :=
  commandPends .stopAt ⟨0x0901, .either, .job, .admin, 8⟩
      (fun u e => (if entDev e then u.mgmt.devState = 2 ∧ u.stopTargets e ≠ []
          else (u.part (entPart e)).state ∈ activeStates) ∧ u.gc + 2500 ≤ payF e 0 8)
      (fun _ _ => .plain) (fun u e => [bitSet (u.stopTargets e)]) none (fun _ _ => none) (fun u e => u.setStop e (payF e 0 8))
  ∧ commandOk .stopCancel ⟨0x0902, .either, .job, .admin, 0⟩ (fun _ _ u e => u.stopsOf e ≠ []) .plain (fun _ _ => [])
      (fun u e => u.cancelStops e)
  ∧ commandPends .debugHalt (jobRow 0x0903 3)
      (fun u e => (u.part (entPart e)).state ∈ [5, 6] ∧ u.busyWith e .job = false ∧ u.haltOk (entPart e) e = true)
      (fun _ _ => .plain) (fun _ _ => []) none (fun _ _ => none) (fun u e => u.askHalt e)
  ∧ commandOk .debugRun (jobRow 0x0904 3)
      (fun _ _ u e => (u.part (entPart e)).state ∈ [5, 6] ∧ u.anyHalted (entPart e) = true ∧ u.busyWith e .job = false
        ∧ u.haltOk (entPart e) e = true)
      .plain (fun _ _ => []) (fun u e => u.runHalted e)
  ∧ commandOk .peek ⟨0x0905, .either, .read, .read, 24⟩
      (fun b k u e => 1 ≤ payF e 8 4 ∧ payF e 8 4 ≤ 48 ∧ payF e 16 8 = 0
        ∧ u.mayReach b k.val e (payF e 0 8) (payF e 8 4) = true
        ∧ (inCfg (payF e 0 8) (payF e 8 4) = true
          ∨ (u.mapped (payF e 0 8) (payF e 8 4) = true ∧ u.poisoned (payF e 0 8) (payF e 8 4) = false))
        ∧ (∀ d, u.domAt (payF e 0 8) = some d → u.power d = .on))
      .none (fun u e => u.view (payF e 0 8) (payF e 8 4)) (fun u _ => u)
  ∧ (∀ v t, commandOk .take ⟨0x0906, .either, .job, .admin, 8⟩
      (fun b k u e => (entDev e = true ∨ (u.part (entPart e)).state ∈ jobStates)
        ∧ u.mayReach b k.val e (payF e 0 8) 8 = true ∧ u.takeAt (payF e 0 8) = some (v, t))
      .plain (fun _ _ => natLe 8 v) (fun _ _ => t))
  ∧ commandOk .traceArm (jobRow 0x0907 24)
      (fun _ _ u e => (u.part (entPart e)).state ∈ jobStates ∧ u.dieIn (entPart e) (payF e 0 2 / 12) = true
        ∧ u.cfgF (Sys2Proof.Machine.ringBase (payF e 0 2 / 12) (payF e 0 2 % 12) + 8) 48 5 ≠ 0
        ∧ payF e 2 1 ≤ 16 ∧ payF e 3 1 < 2 ∧ payF e 4 1 < 4)
      .plain (fun _ _ => []) (fun u e => u.armRing (payF e 0 2 / 12) (payF e 0 2 % 12) e)
  ∧ commandPends .countersSnap ⟨0x0908, .either, .read, .read, 12⟩
      (fun u e => (entDev e = true ∨ (u.part (entPart e)).state ∈ jobStates)
        ∧ u.bufOk e (payF e 0 8) (payF e 8 4) = true ∧ u.snapBytes e ≤ payF e 8 4)
      (fun _ _ => .plain) (fun u _ => [(u.gc + 2500 + 255) / 256 * 256]) none (fun _ _ => none) (fun u _ => u)

/-- R290 to R292, R504, R505, R545 to R548, Table 17-11: the service state, traffic generators, records, wear, stack
retirement and return. Choices of the model that it rests on: log 74, 82. -/
def Obligations.ServiceCommandsComplete : Prop :=
  commandOk .serviceEnter (devRow 0x0A01 0 .service)
      (fun _ _ u e => u.mgmt.devState = 2 ∧ u.blocker idleStates = none ∧ u.busyWith e .service = false)
      .none (fun _ _ => []) (fun u _ => setDev 8 u)
  ∧ commandOk .serviceExit (devRow 0x0A02 0 .service) (fun _ _ u e => u.mgmt.devState = 8 ∧ u.busyWith e .service = false)
      .none (fun _ _ => []) (fun u _ => setDev 2 u.stopTgens)
  ∧ commandOk .tgenRun (devRow 0x0A03 36 .service)
      (fun _ _ u e => u.mgmt.devState ∈ [2, 8] ∧ payF e 0 1 < 12 ∧ u.tgenFree (payF e 0 1) = true
        ∧ u.busyWith e .service = false
        ∧ (∀ i < payF e 2 1 + 1 - payF e 1 1, u.cfgF (tgA (payF e 0 1) (payF e 1 1 + i) + 0x30) 0 1 ≠ 1)
        ∧ payF e 1 1 ≤ payF e 2 1 ∧ payF e 2 1 < 64 ∧ payF e 8 8 % 4 = 1 ∧ payF e 8 8 / 2 ^ 20 = 0
        ∧ u.power (memKey (payF e 0 1)) = .on)
      .none (fun _ _ => []) (fun u e => u.runTgens e)
  ∧ commandOk .tgenRead (devRow 0x0A04 2 .read)
      (fun _ _ u e => u.mgmt.devState ∈ [2, 8] ∧ payF e 0 1 < 12 ∧ payF e 1 1 < 64) .none
      (fun u e => ([0x30, 0x38, 0x40, 0x48].map fun o => natLe 8 (u.cfgW (tgA (payF e 0 1) (payF e 1 1) + o)).toNat).flatten)
      (fun u _ => u)
  ∧ (∀ bs, commandOk .recordRead ⟨0x0A05, .either, .read, .read, 9⟩
      (fun _ _ u e => payF e 8 1 < 2 ∧ u.record (payF e 0 8) = some bs
        ∧ (entDev e = true ∨ (bitsAt (leNat (bs.take 1)) 7 1 = 0 ∧ bitsAt (leNat (bs.take 1)) 4 3 = entPart e)))
      .plain (fun _ e => if payF e 8 1 == 0 then bs.take 48 else bs.drop 48) (fun u _ => u))
  ∧ commandOk .wearRead (devRow 0x0A06 2 .read) (fun _ _ _ e => payF e 0 2 < 113) .none
      (fun u e => u.wearBytes (payF e 0 2)) (fun u _ => u)
  ∧ commandOk .stackRetire (devRow 0x0A07 16 .service)
      (fun _ _ u e => u.mgmt.devState = 8 ∧ u.busyWith e .service = false ∧ payF e 0 1 < 12
        ∧ BitVec.ofNat 64 (payF e 8 8) = u.mgmt.serial ∧ u.retired (payF e 0 1) = false)
      .none (fun _ _ => []) (fun u e => u.retireStack (payF e 0 1) 5 0xFF 0xFF)
  ∧ commandPends .returnPrepare (devRow 0x0A08 8 .service)
      (fun u e => u.mgmt.devState = 8 ∧ u.busyWith e .service = false ∧ BitVec.ofNat 64 (payF e 0 8) = u.mgmt.serial)
      (fun _ _ => .none) (fun _ _ => []) none (fun _ _ => none) (fun u _ => u)

/-- R476: the event that a pending command waits for gives its final response: shown of a stop, an unload, a staged plate
and a load. Choices of the model that it rests on: log 5. -/
def Obligations.FinalResponsesComplete : Prop :=
  ∀ (i : Nat) (failed : List Nat) (s : State) (c : PendCmd), s.mgmt.cmds[i]? = some c → s.lysbyUp = true →
    (entCode c.entry = 0x0102 → exec (.pendingCommandComplete i failed) s
      = .next (State.finish { s.settleAll switched with
          mgmt := { (s.settleAll switched).mgmt with devState := 1, asleep := false } } c stOk []))
    ∧ (entCode c.entry = 0x0202 → exec (.pendingCommandComplete i failed) s
        = .next ((s.dropJob (Fin.ofNat 8 (entPart c.entry))).finish c stOk []))
    ∧ (∀ x, entCode c.entry = 0x0401 → c.slot = some x → exec (.pendingCommandComplete i failed) s
        = .next (State.finish { s with mgmt := { s.mgmt with plates := s.mgmt.plates.set (1 - s.mgmt.plateSlot) (some x) } }
            c stOk (natLe 1 (1 - s.mgmt.plateSlot) ++ natLe 3 0 ++ natLe 4 x.plate.seq)))
    ∧ (∀ j, entCode c.entry = 0x0201 → c.image = some j → s.partOn (entPart c.entry) = true →
        let p := entPart c.entry
        let bytes := s.rd (payF c.entry 0 8) (payF c.entry 8 8)
        let u := s.loadJob (Fin.ofNat 8 p) j bytes
        exec (.pendingCommandComplete i failed) s
          = .next ((u.setPart p { u.part p with digest := sha256 bytes }).finish c stOk (sha256 bytes)))

-- The machine as a whole

/-- A step takes the command at the front of the queue and runs it with the queue's rest; on an empty queue a tick passes
(log 6). -/
def Obligations.StepRunsFrontCommand : Prop :=
  (∀ (c : Instr) (l : List Instr) (s : State), s.pending = c :: l → step s = exec c { s with pending := l })
  ∧ ∀ s : State, s.pending = [] → step s = .next s.tick

/-- R114, R140, R92, R93, R314, R282, R409, R435, R450, R460, R522, R557, R21: what registers read after reset, as their
tables give it, and every sapwood domain OFF. Choices of the model that it rests on: log 7, 14. -/
def Obligations.ResetValues : Prop :=
  (∀ i, i < 576 → State.reset.statusWord i = 0)
  ∧ (∀ c t, c < 128 → t < 1024 → State.reset.tlyEntry c t = 0)
  ∧ (∀ c, c < 128 → State.reset.cfgRead (coreCfg c + 0x100) = 0 ∧ State.reset.cfgRead (coreCfg c + 0x108) = 0
      ∧ State.reset.cfgRead (coreCfg c + 0x110) = 0)
  ∧ (∀ c h, c < 128 → h < 16 → State.reset.cfgRead (chanReg c h 0x10) = 0xFFFFFFFF00000000)
  ∧ (∀ d k, d < 32 → k < 12 → State.reset.cfgRead (ringBase d k + 0x18) = 0xFFFFFFFFFFFFFFFF)
  ∧ (∀ m, m < 12 → State.reset.cfgRead (stackA m) = 0)
  ∧ State.reset.cfgRead (hwCfg 0 + 0x2000) = 0 ∧ State.reset.cfgRead (hwCfg 0 + 0x2008) = 0x3F0
  ∧ State.reset.mgmt.devState = 1 ∧ State.reset.mgmt.meas = List.replicate 8 (List.replicate 48 0)
  ∧ ∀ k, State.reset.power k = .off

/-- R409: the count registers lie in each heartwood die's block, live in the active die's alone: there GC_VALUE reads the
count, and each register of the standby die reads as zero. -/
def Obligations.CountRegistersOfTheActiveDie : Prop :=
  ∀ (s : State) (h : Nat), h < 2 →
    (h = s.mgmt.active → s.cfgRead (hwCfg h + 0x2000) = BitVec.ofNat 64 s.gc
      ∧ ∀ k, k ∈ [8, 0x10, 0x18] → s.cfgRead (hwCfg h + 0x2000 + k) = s.cfgW (hwReg (0x2000 + k)))
    ∧ (h ≠ s.mgmt.active → ∀ k, k ∈ [0, 8, 0x10, 0x18] → s.cfgRead (hwCfg h + 0x2000 + k) = 0)

/-- The tables of the state after reset are in their canonical form. Choices of the model that it rests on: log 2. -/
def Obligations.ResetHasForm : Prop := State.reset.Form

/-- Every step keeps the canonical form of memory and of the other tables. Choices of the model that it rests on: log 2. -/
def Obligations.StepKeepsForm : Prop := ∀ s t : State, s.Form → step s = .next t → t.Form

/-- R407: the count never goes back in a step, but where the heartwood supply is lost or comes up. Choices of the model
that it rests on: log 12. -/
def Obligations.CountNeverGoesBack : Prop :=
  ∀ s t : State, (∀ l, s.pending ≠ .heartwoodSupplyLost :: l) → (∀ k l, s.pending ≠ .heartwoodSupplyUp k :: l) →
    step s = .next t → s.gc ≤ t.gc

/-- Commands run first in, first out, each once; what the block has put out stays put out, and its ordering code stays.
Choices of the model that it rests on: log 4, 34. -/
def Obligations.QueueAndOutputs : Prop :=
  ∀ s t : State, step s = .next t →
    t.pending = s.pending.tail ∧ t.order = s.order ∧ s.freeCount ≤ t.freeCount ∧ ∃ l, t.out = s.out ++ l

/-- R285, R442: a write through an aperture stores its bytes at its address and none elsewhere, and clears the poison of the
lines it covers whole and of no other. -/
def Obligations.ApertureWriteStores : Prop :=
  ∀ (b : Blk) (off : Nat) (bs : List Byte) (s : State), Memory.wf s.mem = true → s.hostUp s.mgmt.hostPort = true → b ≠ .i3c →
    bs ≠ [] → off + bs.length ≤ 2 ^ 36 →
    let a := s.apertureAddr b off
    isHbm a = true → s.access (vfPart b) a bs.length = .ok →
    ∃ t, exec (.bar2Access b off bs.length (some bs)) s = .next t ∧ t.rd a bs.length = bs
      ∧ (∀ x, inAreas [(a, bs.length)] x = false → t.rd1 x = s.rd1 x)
      ∧ (∀ l, l ∈ t.poison ↔ l ∈ s.poison ∧ ¬ (a ≤ 64 * l ∧ 64 * l + 64 ≤ a + bs.length))
      ∧ t = { s with mem := t.mem, poison := t.poison }

/-- R112, R119, R120, R134: a control instruction changes its own stream, the tallies that its waits name, what its signals
put on their way, the entry in its trace ring and its count of issue cycles; nothing else, whether it waits, faults or
completes. X changes by SETX and ADDX alone. -/
def Obligations.ControlInstructionsFrame : Prop :=
  ∀ (st : Stream) (c : Instr) (s t : State), isControl st c → exec c s = .next t →
    let i := streamIx st
    let r := ringOf i
    EngineFrame i s t
    ∧ (∀ a, inAreas [s.ringArea r.1 r.2] a = false → t.rd1 a = s.rd1 a)
    ∧ t.poison = s.poison ∧ t.mbx = s.mbx ∧ t.doms = s.doms ∧ t.parts = s.parts ∧ t.mgmt = s.mgmt ∧ t.order = s.order
    ∧ t.freeCount = s.freeCount ∧ t.out = s.out ∧ t.eng.acc = s.eng.acc ∧ t.eng.icache = s.eng.icache
    ∧ (∀ a, a ≠ faultReg i → a ≠ ctrBase i → inAreas [(ringBase r.1 r.2, 64)] a = false → t.cfgW a = s.cfgW a)
    ∧ (c ≠ .setx st → c ≠ .addx st → (t.stream i).x = (s.stream i).x)

/-- R70 to R72, R97, R107: a matrix instruction stores in the block of OUT that it writes, in its core's partial records
in the slots of its operands, and in trace rings; every other byte keeps its value. Choices of the model that it rests on:
log 25. -/
def Obligations.MatrixInstructionsFrame : Prop :=
  ∀ (st : Stream) (c : Stream → Instr) (sh : Shape) (s t : State),
    (c, sh) ∈ [(Instr.mxw, Shape.mxw), (.mxo, .mxo), (.mxt, .mxt), (.mxs, .mxs), (.mxc, .mxc), (.mxd, .mxd)] →
    exec (c st) s = .next t →
    let i := streamIx st
    EngineFrame i s t
    ∧ ∀ a, inAreas s.ringAreas a = false →
      (∀ w, s.fetch i = .word w →
        let u := s.afterWaits i w
        let f := meF (s.stream i) w
        inAreas (u.partialAreas (i / 4) [f.a, f.b, f.out]) a = false
        ∧ ∀ g cls, pairFor sh (sparse24 sh w) (u.desc (i / 4) f.a).fmt (u.desc (i / 4) f.b).fmt = some (g, cls) →
          inAreas (u.meJob sh (i / 4) (issuing (s.stream i)) w g cls).writes a = false) →
      t.rd1 a = s.rd1 a

/-- R97, R102 to R107: a vector operation other than VSCLOSE and VOPT stores in its destination, in its core's partial
records in the slots of its tensors, and in its trace ring; every other byte keeps its value. Choices of the model that it
rests on: log 25. -/
def Obligations.VectorInstructionsFrame : Prop :=
  ∀ (st : Stream) (c : Stream → Instr) (job : Nat → State → StreamSt → IWord → VeJob) (s t : State),
    (c, job) ∈ [(Instr.vsimple, elemJob 0x40), (.vieee, elemJob 0x41), (.vexplog, elemJob 0x42), (.vcomp, elemJob 0x43),
      (.vcvt, vcvtJob), (.vred, vredJob), (.vsoftmax, rowwiseJob 0x46), (.rmsnorm, rowwiseJob 0x47),
      (.layernorm, rowwiseJob 0x48), (.vroute, vrouteJob), (.vexit, vexitJob)] →
    exec (c st) s = .next t →
    let i := streamIx st
    EngineFrame i s t
    ∧ ∀ a, inAreas [s.ringArea (ringOf i).1 (ringOf i).2] a = false →
      (∀ w, s.fetch i = .word w →
        let u := s.afterWaits i w
        inAreas (u.partialAreas (i / 4) (veF (s.stream i) w).handles) a = false
        ∧ inAreas (job i u (issuing (s.stream i)) w).writes a = false) →
      t.rd1 a = s.rd1 a

/-- R439: in a state whose tables are in their canonical form, a command of chapter 17 whose response is BUSY, BAD_ARGS,
REFUSED_STATE or REFUSED_RIGHTS has no side effect: what it changes is its ring, the interrupt bit of its pair, and the count from which package sleep is timed (R511).
Choices of the model that it rests on: log 75, 77. -/
def Obligations.TurnedAwayCommandsHaveNoEffect : Prop :=
  ∀ (c : Instr) (b : Blk) (k : Fin 12) (s t : State), s.Form → lysbyPair c = some (b, k) → exec c s = .next t →
    t.cmdCons b k.val ≠ s.cmdCons b k.val → 2 ≤ t.lastStatus b k.val → t.lastStatus b k.val ≤ 5 →
    t = { s with mgmt := t.mgmt, mbx := t.mbx, out := t.out }
    ∧ t.mgmt = { s.mgmt with lastTake := t.mgmt.lastTake, bells := t.mgmt.bells, lastWork := t.mgmt.lastWork, ibi := t.mgmt.ibi }
    ∧ (t.out = s.out ∨ ∃ o, t.out = s.out ++ [o])
    ∧ ∀ a, inAreas [(ringA b k.val, 16), (rspSlot b k.val (s.rspProd b k.val), 64), (mbxAddr b 0x18, 8)] a = false →
      t.mbxW a = s.mbxW a

/-- R138: an event that would carry a tally above 16,777,215 leaves it there with OVF set and a UC record that names the tally
and the event's source; the next instruction that waits on the tally ends in TALLY_OVF. -/
def Obligations.TallyOverflow : Prop :=
  (∀ (i : Nat) (e : CountEvent) (s : State), s.eng.events[i]? = some e → (s.eng.events.take i).any (sameLane e) = false →
      let core := 4 * e.die + e.pos
      s.power (s.coreKey core) = .on → s.frozenDie e.die = false → (s.bank core).applied < 4 → (s.bank core).fifo = [] →
      16777215 < (s.tally core e.tally).value + e.amount →
      ∃ (t : State) (v : ErrEvent), exec (.countEventArrive i) s = .next t ∧ t.tally core e.tally = ⟨16777215, true⟩
        ∧ t.log.raised = s.log.raised ++ [v] ∧ v.cls = 2 ∧ v.logical.toNat = core % 65536
        ∧ v.detail = BitVec.ofNat 64 (e.tally + e.pos * 2 ^ 16 + e.srcDie * 2 ^ 24 + e.srcEng * 2 ^ 32))
  ∧ (∀ (c : Core) (e : CountEvent) (s : State), (s.bank c.val).fifo = [e] → 4 * e.die + e.pos = c.val →
      s.power (s.coreKey c.val) = .on → s.frozenDie (c.val / 4) = false → 16777215 < (s.tally c.val e.tally).value + e.amount →
      ∃ (t : State) (v : ErrEvent), exec (.tallyFifoApply c) s = .next t ∧ t.tally c.val e.tally = ⟨16777215, true⟩
        ∧ t.log.raised = s.log.raised ++ [v] ∧ v.cls = 2 ∧ v.logical.toNat = c.val
        ∧ v.detail = BitVec.ofNat 64 (e.tally + e.pos * 2 ^ 16 + e.srcDie * 2 ^ 24 + e.srcEng * 2 ^ 32))
  ∧ ∀ (st : Stream) (w : IWord) (s : State) (x : Wait), s.mayIssue (streamIx st) = true → s.fetch (streamIx st) = .word w →
      legalOp st (opOf w) = true → s.commonCauses (streamIx st) w = [] → (s.stream (streamIx st)).granted = false →
      x ∈ waitsOf w → (s.tally (waitCore (streamIx st) x) x.tally).ovf = true →
      (∀ r ∈ engineRows st, r.2.1 w = true → r.2.2 s (s.stream (streamIx st)) w = [] →
        exec r.1 s = .next (s.fault (streamIx st) 0x85))
        ∧ (opOf w = 0x80 → fld w 180 16 ≠ 0 → fld w 132 48 % 64 = 0 → exec (.move st) s
          = .next ((s.fault (streamIx st) 0x85).stopChans (streamIx st / 4) (moveChan (streamIx st) w)))

/-- R117: the control opcodes are legal in every stream and every other opcode in the streams of its engine class alone; an
undefined opcode, or one of another class, ends the instruction in BAD_OPCODE. -/
def Obligations.OpcodesOfTheClasses : Prop :=
  (∀ (st : Stream) (op : Nat), legalOp st op = true ↔ op ≤ 0x0E ∨ match st with
      | .core _ .me => 0x20 ≤ op ∧ op ≤ 0x25
      | .core _ .ve => 0x40 ≤ op ∧ op ≤ 0x4C
      | .core _ .mv0 => op = 0x80
      | .core _ .mv1 => op = 0x80
      | .die _ .xe => 0xA0 ≤ op ∧ op ≤ 0xA3
      | .die _ .ce => 0xC0 ≤ op ∧ op ≤ 0xC4)
  ∧ (∀ (st : Stream) (w : IWord) (s : State), s.mayIssue (streamIx st) = true → s.fetch (streamIx st) = .word w →
      legalOp st (opOf w) = false → exec (.move st) s = .next (s.fault (streamIx st) 0x80)
        ∧ ∀ r ∈ engineRows st, exec r.1 s = .next (s.fault (streamIx st) 0x80))

/-- R582: PERST_N touches its own host port's readiness and nothing else: rings and the responses in them, pending commands,
partitions, the serving port and the other host port stay as they are. -/
def Obligations.PerstTouchesItsPortAlone : Prop :=
  ∀ (hp : Fin 2) (c : Instr) (s t : State), c = .perstAssert hp ∨ c = .perstDeassert hp → exec c s = .next t →
    t = { s with mgmt := { s.mgmt with perst := t.mgmt.perst, hostReady := t.mgmt.hostReady } }
    ∧ (∀ h, h ≠ hp.val → (t.mgmt.perst.contains h = s.mgmt.perst.contains h)
        ∧ t.mgmt.hostReady.filter (fun x => x.1 == h) = s.mgmt.hostReady.filter (fun x => x.1 == h))
    ∧ (c = .perstAssert hp → t.mgmt.perst.contains hp.val = true)
    ∧ (c = .perstDeassert hp → t.mgmt.perst.contains hp.val = false)

end
end

