-- ==== Sys2Proof/Laws/Commands.lean ====
section
/-! SUPPORT. What the take of one command does, said once for every row of chapter 17. -/

namespace Sys2Proof.Machine

/-- A taken command that passes the shared checks is answered as its body says. -/
theorem lysby_taken {r : CmdRow} {b : Blk} {k : Nat} {s : State} (h : Taken r b k s) (body : State → BitVec 512 → Ans) :
    lysby r b k body s = some (((s.takeHead b k).worked (classOf r (s.headEntry b k))).answerCmd
      (classOf r (s.headEntry b k)) b k (s.headEntry b k) (body (s.given r b k) (s.headEntry b k))) := by
  obtain ⟨h1, h2, h3, h4, h5, h6, h7, h8, _⟩ := h
  have e1 : ∀ c, (((s.takeHead b k).worked c).noPart b) = s.noPart b := by
    intro c; unfold State.worked; split <;> rfl
  have e2 : ∀ c, (((s.takeHead b k).worked c).mgmt.devState) = s.mgmt.devState := by
    intro c; unfold State.worked; split <;> rfl
  unfold lysby
  simp only [h1, h2, h3, bne_self_eq_false, Bool.not_true, Bool.or_false, Bool.false_eq_true, if_false]
  unfold State.runCmd
  simp only [h4, e1, e2, h5, h6, Bool.false_eq_true, if_false, Bool.not_true]
  rw [if_neg, if_neg]
  · rfl
  · intro hh
    simp only [Bool.and_eq_true, Bool.not_eq_true', bne_iff_ne, ne_eq] at hh
    exact hh.2 (h8 hh.1.1 hh.1.2)
  · intro hh
    simp only [Bool.and_eq_true, beq_iff_eq, bne_iff_ne, ne_eq] at hh
    rcases h7 hh.1.1 with h | h
    · exact hh.1.2 h
    · exact hh.2 h

/-- A command that is done at once answers OK. -/
theorem lysby_ok {r : CmdRow} {b : Blk} {k : Nat} {s t : State} {body : State → BitVec 512 → Ans} {n : Note} {res : List Byte}
    (h : Taken r b k s) (hb : body (s.given r b k) (s.headEntry b k) = .ok n res t) :
    lysby r b k body s = some ((t.noteCmd n b k (s.headEntry b k) stOk).final b k (s.headEntry b k) stOk s.gc res) := by
  have e : ∀ c, (((s.takeHead b k).worked c).gc) = s.gc := by intro c; unfold State.worked; split <;> rfl
  have e2 : ∀ c c' n, (((s.takeHead b k).worked c).sealedAgainst c' n) = s.sealedAgainst c' n := by
    intro c c' n; unfold State.worked; split <;> rfl
  rw [lysby_taken h, hb]
  simp only [State.answerCmd, e2, h.code, h.unsealed, e, Bool.false_eq_true, if_false]

/-- A command that is accepted answers PENDING. -/
theorem lysby_pend {r : CmdRow} {b : Blk} {k : Nat} {s t : State} {body : State → BitVec 512 → Ans} {n : Note} {data : List Nat}
    {image : Option JobImage} {slot : Option PlateSlot}
    (h : Taken r b k s) (hb : body (s.given r b k) (s.headEntry b k) = .pend n data image slot t) :
    lysby r b k body s
      = some ((t.noteCmd n b k (s.headEntry b k) stPending).pend b k (s.headEntry b k) data image slot) := by
  have e2 : ∀ c c' n, (((s.takeHead b k).worked c).sealedAgainst c' n) = s.sealedAgainst c' n := by
    intro c c' n; unfold State.worked; split <;> rfl
  rw [lysby_taken h, hb]
  simp only [State.answerCmd, e2, h.code, h.unsealed, Bool.false_eq_true, if_false]

end Sys2Proof.Machine
end

