-- ==== Sys2Proof/Laws/Tables.lean ====
section
/-! SUPPORT. The laws of the sparse tables: reading after writing, and the canonical form. -/

namespace Sys2Proof.Machine

variable {α : Type} [DecidableEq α] {d : Nat → α}

/-- A write leaves every other key as it is. -/
theorem tget_tput_ne (t : Tbl α) {k i : Nat} (v : α) (h : i ≠ k) : tget d (tput d t k v) i = tget d t i := by
  induction t with
  | nil => unfold tput; split <;> simp [tget, h]
  | cons x t ih =>
    obtain ⟨j, u⟩ := x
    unfold tput
    split
    · split
      · rfl
      · simp [tget, h]
    · split
      · rename_i h1 h2
        subst h2
        split <;> simp [tget, h]
      · simp only [tget, ih]

theorem tblWfFrom_mono {t : Tbl α} {a b : Nat} (h : a ≤ b) (k : tblWfFrom d b t = true) : tblWfFrom d a t = true := by
  cases t with
  | nil => rfl
  | cons x t =>
    simp only [tblWfFrom, Bool.and_eq_true, decide_eq_true_eq] at k ⊢
    exact ⟨⟨by omega, k.1.2⟩, k.2⟩

/-- A key below all those of a table in its form reads as the default. -/
theorem tget_below {t : Tbl α} {a k : Nat} (h : tblWfFrom d a t = true) (hk : k < a) : tget d t k = d k := by
  induction t generalizing a with
  | nil => rfl
  | cons x t ih =>
    simp only [tblWfFrom, Bool.and_eq_true, decide_eq_true_eq] at h
    simp only [tget]
    rw [if_neg (by omega)]
    exact ih h.2 (by omega)

theorem tget_tput_from {t : Tbl α} {a : Nat} (h : tblWfFrom d a t = true) (k : Nat) (v : α) :
    tget d (tput d t k v) k = v := by
  induction t generalizing a with
  | nil => unfold tput; split <;> simp_all [tget]
  | cons x t ih =>
    obtain ⟨j, u⟩ := x
    simp only [tblWfFrom, Bool.and_eq_true, decide_eq_true_eq] at h
    unfold tput
    split
    · rename_i h1
      split
      · rename_i h2
        simp only [tget, h2]
        rw [if_neg (by omega)]
        exact tget_below h.2 (by omega)
      · simp [tget]
    · split
      · rename_i h1 h2
        split
        · rename_i h3
          rw [tget_below h.2 (by omega)]
          exact h3.symm
        · simp [tget]
      · rename_i h1 h2
        simp only [tget, if_neg h2]
        exact ih h.2

/-- A read after a write gives the value written. -/
theorem tget_tput (t : Tbl α) (h : tblWf d t = true) (k : Nat) (v : α) : tget d (tput d t k v) k = v := tget_tput_from h k v

theorem tput_from {t : Tbl α} {a k : Nat} (h : tblWfFrom d a t = true) (hk : a ≤ k) (v : α) :
    tblWfFrom d a (tput d t k v) = true := by
  induction t generalizing a with
  | nil => unfold tput; split <;> simp_all [tblWfFrom]
  | cons x t ih =>
    obtain ⟨j, u⟩ := x
    have h' := h
    simp only [tblWfFrom, Bool.and_eq_true, decide_eq_true_eq] at h
    unfold tput
    split
    · split
      · exact h'
      · rename_i h1 h2
        simp only [tblWfFrom, Bool.and_eq_true, decide_eq_true_eq]
        exact ⟨⟨hk, h2⟩, ⟨⟨by omega, h.1.2⟩, h.2⟩⟩
    · split
      · split
        · exact tblWfFrom_mono (by omega) h.2
        · rename_i h1 h2 h3
          simp only [tblWfFrom, Bool.and_eq_true, decide_eq_true_eq]
          exact ⟨⟨hk, h3⟩, tblWfFrom_mono (by omega) h.2⟩
      · rename_i h1 h2
        simp only [tblWfFrom, Bool.and_eq_true, decide_eq_true_eq]
        exact ⟨⟨h.1.1, h.1.2⟩, ih h.2 (by omega)⟩

/-- A write keeps the canonical form. -/
theorem tblWf_tput {t : Tbl α} (h : tblWf d t = true) (k : Nat) (v : α) : tblWf d (tput d t k v) = true :=
  tput_from h (Nat.zero_le _) v

theorem filter_from {t : Tbl α} {a : Nat} (h : tblWfFrom d a t = true) (p : Nat × α → Bool) :
    tblWfFrom d a (t.filter p) = true := by
  induction t generalizing a with
  | nil => rfl
  | cons x t ih =>
    obtain ⟨j, u⟩ := x
    simp only [tblWfFrom, Bool.and_eq_true, decide_eq_true_eq] at h
    simp only [List.filter]
    split
    · simp only [tblWfFrom, Bool.and_eq_true, decide_eq_true_eq]
      exact ⟨h.1, ih h.2⟩
    · exact tblWfFrom_mono (by omega) (ih h.2)

/-- Entries taken away leave the canonical form. -/
theorem tblWf_filter {t : Tbl α} (h : tblWf d t = true) (p : Nat × α → Bool) : tblWf d (t.filter p) = true := filter_from h p

/-- Bytes written keep memory's form. -/
theorem wf_wrMem (bs : List Byte) : ∀ (m : List Host.Cell) (a : Nat), Memory.wf m = true → Memory.wf (wrMem m a bs) = true := by
  induction bs with
  | nil => intro m a h; exact h
  | cons b bs ih => intro m a h; exact ih _ _ (tblWf_tput h a b)

/-- Bytes written lie at their addresses and leave every other address alone. -/
theorem tget_wrMem_ne (bs : List Byte) : ∀ (m : List Host.Cell) (a x : Nat), (x < a ∨ a + bs.length ≤ x) →
    tget memReset (wrMem m a bs) x = tget memReset m x := by
  induction bs with
  | nil => intro m a x _; rfl
  | cons b bs ih =>
    intro m a x h
    simp only [List.length_cons] at h
    simp only [wrMem]
    rw [ih _ _ _ (by omega), tget_tput_ne _ _ (by omega)]

theorem tget_wrMem (bs : List Byte) : ∀ (m : List Host.Cell) (a i : Nat), Memory.wf m = true → (h : i < bs.length) →
    tget memReset (wrMem m a bs) (a + i) = bs[i] := by
  induction bs with
  | nil => intro m a i _ h; exact absurd h (by simp)
  | cons b bs ih =>
    intro m a i w h
    simp only [wrMem]
    cases i with
    | zero =>
      rw [tget_wrMem_ne _ _ _ _ (by omega)]
      exact tget_tput m w a b
    | succ i =>
      have := ih (tput memReset m a b) (a + 1) i (tblWf_tput w a b) (by simpa using h)
      rw [show a + (i + 1) = a + 1 + i by omega, this]; rfl

theorem mem_nins (l : List Nat) (k x : Nat) : x ∈ nins l k ↔ x = k ∨ x ∈ l := by
  induction l with
  | nil => simp [nins]
  | cons j t ih =>
    unfold nins
    split
    · simp
    · split
      · rename_i h; subst h; simp
      · simp only [List.mem_cons, ih]
        constructor
        · rintro (h | h | h) <;> simp [h]
        · rintro (h | h | h) <;> simp [h]

/-- A line inserted keeps the poisoned lines rising. -/
theorem nins_rising {l : List Nat} (h : l.Pairwise (· < ·)) (k : Nat) : (nins l k).Pairwise (· < ·) := by
  induction l with
  | nil => simp [nins]
  | cons j t ih =>
    have h' := h
    rw [List.pairwise_cons] at h
    unfold nins
    split
    · rename_i h1
      rw [List.pairwise_cons]
      refine ⟨?_, h'⟩
      intro x hx
      rcases List.mem_cons.1 hx with e | e
      · omega
      · have := h.1 x e; omega
    · split
      · exact h'
      · rw [List.pairwise_cons]
        refine ⟨?_, ih h.2⟩
        intro x hx
        rcases (mem_nins t k x).1 hx with e | e
        · omega
        · exact h.1 x e

end Sys2Proof.Machine
end

