-- ==== Sys2Proof/Laws/Keeps.lean ====
section
/-! SUPPORT. What every operation of the machine keeps: the canonical form of the tables, the queue, the ordering code, what
has been put out, and the direction of the count. The files KeepsOf<Module> say it for each operation, in one lemma each. -/

namespace Sys2Proof.Machine

/-- State t keeps what state s had. -/
structure Keeps (s t : State) : Prop where
  form : s.Form → t.Form
  pending : t.pending = s.pending
  order : t.order = s.order
  free : s.freeCount ≤ t.freeCount
  out : ∃ l, t.out = s.out ++ l
  count : s.gc ≤ t.gc

variable {s0 s t : State}

theorem Keeps.refl (s : State) : Keeps s s := ⟨id, rfl, rfl, Nat.le_refl _, ⟨[], by simp⟩, Nat.le_refl _⟩

theorem Keeps.trans {a b c : State} (h : Keeps a b) (k : Keeps b c) : Keeps a c := by
  obtain ⟨l, hl⟩ := h.out
  obtain ⟨m, hm⟩ := k.out
  exact ⟨fun x => k.form (h.form x), k.pending.trans h.pending, k.order.trans h.order, Nat.le_trans h.free k.free,
    ⟨l ++ m, by rw [hm, hl, List.append_assoc]⟩, Nat.le_trans h.count k.count⟩

/-- A state that differs in the structured parts of the device alone. -/
theorem Keeps.same (h : Keeps s0 s) (e1 : t.mem = s.mem) (e2 : t.poison = s.poison) (e3 : t.cfg = s.cfg) (e4 : t.mbx = s.mbx)
    (e5 : t.doms = s.doms) (e6 : t.parts = s.parts) (e7 : t.pending = s.pending) (e8 : t.order = s.order)
    (e9 : t.freeCount = s.freeCount) (e10 : t.out = s.out) (e11 : t.gc = s.gc) : Keeps s0 t := by
  refine h.trans ⟨fun x => ⟨?_, ?_, ?_, ?_, ?_, ?_⟩, e7, e8, Nat.le_of_eq e9.symm, ⟨[], by simp [e10]⟩,
    Nat.le_of_eq e11.symm⟩
  · rw [e1]; exact x.mem
  · rw [e2]; exact x.poison
  · rw [e3]; exact x.cfg
  · rw [e4]; exact x.mbx
  · rw [e5]; exact x.doms
  · rw [e6]; exact x.parts

/-- An update of the structured parts of the device. -/
theorem Keeps.lit {eng : EngSt} {pool : PoolSt} {mv : MoveSt} {xch : XchSt} {ce : CeSt} {net : NetSt} {mgmt : MgmtSt}
    {time : TimeSt} {svc : SvcSt} {pw : PowerSt} {log : LogSt} (h : Keeps s0 s) :
    Keeps s0 ⟨s.gc, eng, s.mem, s.poison, s.cfg, s.mbx, s.doms, s.parts, pool, mv, xch, ce, net, mgmt, time, svc, pw, log,
      s.order, s.freeCount, s.out, s.pending⟩ :=
  h.same rfl rfl rfl rfl rfl rfl rfl rfl rfl rfl rfl

/-- An update of any part but the queue, the ordering code and the outputs. -/
theorem Keeps.litAll {gc free : Nat} {mem : List Host.Cell} {poison : List Nat} {cfg mbx : Tbl W64} {doms : Tbl Dom}
    {parts : Tbl PartSt} {eng : EngSt} {pool : PoolSt} {mv : MoveSt} {xch : XchSt} {ce : CeSt} {net : NetSt} {mgmt : MgmtSt}
    {time : TimeSt} {svc : SvcSt} {pw : PowerSt} {log : LogSt} (h : Keeps s0 s) (hg : s.gc ≤ gc) (hf : s.freeCount ≤ free)
    (h1 : Memory.wf s.mem = true → Memory.wf mem = true) (h2 : s.poison.Pairwise (· < ·) → poison.Pairwise (· < ·))
    (h3 : tblWf cfgReset s.cfg = true → tblWf cfgReset cfg = true)
    (h4 : tblWf (fun _ => 0) s.mbx = true → tblWf (fun _ => 0) mbx = true)
    (h5 : tblWf (fun _ => domOff) s.doms = true → tblWf (fun _ => domOff) doms = true)
    (h6 : tblWf (fun _ => partReset) s.parts = true → tblWf (fun _ => partReset) parts = true) :
    Keeps s0 ⟨gc, eng, mem, poison, cfg, mbx, doms, parts, pool, mv, xch, ce, net, mgmt, time, svc, pw, log,
      s.order, free, s.out, s.pending⟩ :=
  h.trans ⟨fun x => ⟨h1 x.mem, h2 x.poison, h3 x.cfg, h4 x.mbx, h5 x.doms, h6 x.parts⟩, rfl, rfl, hf, ⟨[], by simp⟩, hg⟩

/-- One table of the form replaced by another in its form. -/
theorem Keeps.setForm (h : Keeps s0 s) (f : s.Form → t.Form) (e7 : t.pending = s.pending) (e8 : t.order = s.order)
    (e9 : s.freeCount ≤ t.freeCount) (e10 : t.out = s.out) (e11 : t.gc = s.gc) : Keeps s0 t :=
  h.trans ⟨f, e7, e8, e9, ⟨[], by simp [e10]⟩, Nat.le_of_eq e11.symm⟩

-- Results that hold a state

/-- What an optional result, where there is one, satisfies. -/
def OptP {α : Type} (P : α → Prop) (o : Option α) : Prop := ∀ x, o = some x → P x

theorem OptP.of_none {α : Type} {P : α → Prop} : OptP P (none : Option α) := by intro x h; cases h
theorem OptP.of_some {α : Type} {P : α → Prop} {x : α} (h : P x) : OptP P (some x) := by intro y e; cases e; exact h
theorem OptP.get {o : Option State} (h : OptP (fun x => Keeps s0 x) o) (e : o = some t) : Keeps s0 t := h _ e
theorem OptP.get1 {β : Type} {o : Option (State × β)} {x : State × β} (h : OptP (fun x => Keeps s0 x.1) o) (e : o = some x) :
    Keeps s0 x.1 := h _ e
theorem OptP.get1' {β : Type} {o : Option (State × β)} {b : β} (h : OptP (fun x => Keeps s0 x.1) o) (e : o = some (t, b)) :
    Keeps s0 t := h _ e
theorem OptP.get2 {β : Type} {o : Option (β × State)} {x : β × State} (h : OptP (fun x => Keeps s0 x.2) o) (e : o = some x) :
    Keeps s0 x.2 := h _ e
theorem OptP.get2' {β : Type} {o : Option (β × State)} {b : β} (h : OptP (fun x => Keeps s0 x.2) o) (e : o = some (b, t)) :
    Keeps s0 t := h _ e
theorem OptP.getD {o : Option State} {d : State} (h : OptP (fun x => Keeps s0 x) o) (k : Keeps s0 d) : Keeps s0 (o.getD d) := by
  cases o with
  | none => exact k
  | some x => exact h x rfl
theorem OptP.map {α : Type} {o : Option α} {f : α → State} (k : ∀ x, Keeps s0 (f x)) : OptP (fun x => Keeps s0 x) (o.map f) := by
  cases o with
  | none => exact OptP.of_none
  | some x => exact OptP.of_some (k x)
theorem OptP.mapP {α β : Type} {P : β → Prop} {o : Option α} {f : α → β} (k : ∀ x, P (f x)) : OptP P (o.map f) := by
  cases o with
  | none => exact OptP.of_none
  | some x => exact OptP.of_some (k x)
theorem OptP.mapS {o : Option State} {f : State → State} (h : OptP (fun x => Keeps s0 x) o)
    (k : ∀ x, Keeps s0 x → Keeps s0 (f x)) : OptP (fun x => Keeps s0 x) (o.map f) := by
  cases o with
  | none => exact OptP.of_none
  | some x => exact OptP.of_some (k x (h x rfl))
theorem OptP.bindS {β : Type} {P : β → Prop} {o : Option State} {f : State → Option β} (h : OptP (fun x => Keeps s0 x) o)
    (k : ∀ x, Keeps s0 x → OptP P (f x)) : OptP P (o.bind f) := by
  cases o with
  | none => exact OptP.of_none
  | some x => exact k x (h x rfl)
theorem OptP.bind {α β : Type} {P : β → Prop} {o : Option α} {f : α → Option β} (k : ∀ x, OptP P (f x)) : OptP P (o.bind f) := by
  cases o with
  | none => exact OptP.of_none
  | some x => exact k x

theorem pair1 {β : Type} {p : State × β} {b : β} (h : Keeps s0 p.1) (e : p = (t, b)) : Keeps s0 t := by subst e; exact h
theorem pair2 {β : Type} {p : β × State} {b : β} (h : Keeps s0 p.2) (e : p = (b, t)) : Keeps s0 t := by subst e; exact h

/-- What the result of a computation satisfies, and what its error does. -/
def ExP {ε α : Type} (P : ε → Prop) (Q : α → Prop) : Except ε α → Prop
  | .error x => P x
  | .ok x => Q x

theorem ExP.ok {ε α : Type} {P : ε → Prop} {Q : α → Prop} {x : α} (h : Q x) : ExP P Q (.ok x : Except ε α) := h
theorem ExP.error {ε α : Type} {P : ε → Prop} {Q : α → Prop} {x : ε} (h : P x) : ExP P Q (.error x : Except ε α) := h
/-- The errors that hold a state, and those that hold none. -/
theorem ExP.getOk {ε : Type} {o : Except ε State} (h : ExP (fun _ => True) (fun x => Keeps s0 x) o) (e : o = .ok t) :
    Keeps s0 t := by subst e; exact h
theorem ExP.getOk' {ε β : Type} {o : Except ε (State × β)} {b : β} (h : ExP (fun _ => True) (fun x => Keeps s0 x.1) o)
    (e : o = .ok (t, b)) : Keeps s0 t := by subst e; exact h
theorem ExP.getOk2 {β : Type} {o : Except (β × State) State} (h : ExP (fun x => Keeps s0 x.2) (fun x => Keeps s0 x) o)
    (e : o = .ok t) : Keeps s0 t := by subst e; exact h
theorem ExP.getErr2 {β : Type} {o : Except (β × State) State} {b : β}
    (h : ExP (fun x => Keeps s0 x.2) (fun x => Keeps s0 x) o) (e : o = .error (b, t)) : Keeps s0 t := by subst e; exact h
theorem ExP.getOk3 {β γ : Type} {o : Except (β × γ × State) State}
    (h : ExP (fun x => Keeps s0 x.2.2) (fun x => Keeps s0 x) o) (e : o = .ok t) : Keeps s0 t := by subst e; exact h
theorem ExP.getErr3 {β γ : Type} {o : Except (β × γ × State) State} {b : β} {c : γ}
    (h : ExP (fun x => Keeps s0 x.2.2) (fun x => Keeps s0 x) o) (e : o = .error (b, c, t)) : Keeps s0 t := by subst e; exact h

def RanK (s0 : State) : Ran → Prop
  | .done t => Keeps s0 t
  | _ => True
theorem RanK.done (h : Keeps s0 t) : RanK s0 (.done t) := h
theorem RanK.fault {c : Nat} : RanK s0 (.fault c) := trivial
theorem RanK.bad {c a : Nat} {i : Bool} : RanK s0 (.bad c a i) := trivial
theorem RanK.asleep {d : Nat} : RanK s0 (.asleep d) := trivial
theorem RanK.full : RanK s0 .full := trivial
theorem RanK.get {r : Ran} (h : RanK s0 r) (e : r = .done t) : Keeps s0 t := by subst e; exact h

def AnsK (s0 : State) : Ans → Prop
  | .failed _ t => Keeps s0 t
  | .ok _ _ t => Keeps s0 t
  | .pend _ _ _ _ t => Keeps s0 t
  | _ => True
theorem AnsK.failed {n : Nat} (h : Keeps s0 t) : AnsK s0 (.failed n t) := h
theorem AnsK.ok {n : Note} {l : List Byte} (h : Keeps s0 t) : AnsK s0 (.ok n l t) := h
theorem AnsK.pend {n : Note} {l : List Nat} {i : Option JobImage} {p : Option PlateSlot} (h : Keeps s0 t) :
    AnsK s0 (.pend n l i p t) := h
theorem AnsK.rights : AnsK s0 .rights := trivial
theorem AnsK.refused {n : Nat} {p : Option Nat} : AnsK s0 (.refused n p) := trivial
theorem AnsK.busy : AnsK s0 .busy := trivial
theorem AnsK.bad {l : List Byte} : AnsK s0 (.bad l) := trivial
theorem AnsK.getFailed {a : Ans} {n : Nat} (h : AnsK s0 a) (e : a = .failed n t) : Keeps s0 t := by subst e; exact h
theorem AnsK.getOk {a : Ans} {n : Note} {l : List Byte} (h : AnsK s0 a) (e : a = .ok n l t) : Keeps s0 t := by subst e; exact h
theorem AnsK.getPend {a : Ans} {n : Note} {l : List Nat} {i : Option JobImage} {p : Option PlateSlot} (h : AnsK s0 a)
    (e : a = .pend n l i p t) : Keeps s0 t := by subst e; exact h

def AllocK (s0 : State) : Alloc → Prop
  | .head _ t => Keeps s0 t
  | _ => True
theorem AllocK.head {a : Nat} (h : Keeps s0 t) : AllocK s0 (.head a t) := h
theorem AllocK.wait : AllocK s0 .wait := trivial
theorem AllocK.bad {c : Nat} {i : Bool} : AllocK s0 (.bad c i) := trivial
theorem AllocK.get {r : Alloc} {a : Nat} (h : AllocK s0 r) (e : r = .head a t) : Keeps s0 t := by subst e; exact h

def ReleaseK (s0 : State) : Release → Prop
  | .done t => Keeps s0 t
  | .bad _ _ t => Keeps s0 t
theorem ReleaseK.done (h : Keeps s0 t) : ReleaseK s0 (.done t) := h
theorem ReleaseK.bad {c : Nat} {i : Bool} (h : Keeps s0 t) : ReleaseK s0 (.bad c i t) := h
theorem ReleaseK.get {r : Release} (h : ReleaseK s0 r) (e : r = .done t) : Keeps s0 t := by subst e; exact h
theorem ReleaseK.getBad {r : Release} {c : Nat} {i : Bool} (h : ReleaseK s0 r) (e : r = .bad c i t) : Keeps s0 t := by
  subst e; exact h

def MovedK (s0 : State) : Moved → Prop
  | .ok t _ _ _ => Keeps s0 t
  | .bad _ _ _ _ t => Keeps s0 t
  | .asleep _ => True
theorem MovedK.ok {a b c : Nat} (h : Keeps s0 t) : MovedK s0 (.ok t a b c) := h
theorem MovedK.bad {c a : Nat} {i : Bool} {l : List (Nat × Nat)} (h : Keeps s0 t) : MovedK s0 (.bad c a i l t) := h
theorem MovedK.asleep {d : Nat} : MovedK s0 (.asleep d) := trivial
theorem MovedK.get {r : Moved} {a b c : Nat} (h : MovedK s0 r) (e : r = .ok t a b c) : Keeps s0 t := by subst e; exact h
theorem MovedK.getBad {r : Moved} {c a : Nat} {i : Bool} {l : List (Nat × Nat)} (h : MovedK s0 r) (e : r = .bad c a i l t) :
    Keeps s0 t := by subst e; exact h

def SendingK (s0 : State) : Sending → Prop
  | .sent t => Keeps s0 t
  | .wait t => Keeps s0 t
  | .bad _ _ _ => True
theorem SendingK.sent (h : Keeps s0 t) : SendingK s0 (.sent t) := h
theorem SendingK.wait (h : Keeps s0 t) : SendingK s0 (.wait t) := h
theorem SendingK.bad {c a : Nat} {i : Bool} : SendingK s0 (.bad c a i) := trivial
theorem SendingK.get {r : Sending} (h : SendingK s0 r) (e : r = .sent t) : Keeps s0 t := by subst e; exact h
theorem SendingK.getWait {r : Sending} (h : SendingK s0 r) (e : r = .wait t) : Keeps s0 t := by subst e; exact h

def CSendingK (s0 : State) : CSending → Prop
  | .sent t => Keeps s0 t
  | .wait t => Keeps s0 t
  | .bad _ => True
theorem CSendingK.sent (h : Keeps s0 t) : CSendingK s0 (.sent t) := h
theorem CSendingK.wait (h : Keeps s0 t) : CSendingK s0 (.wait t) := h
theorem CSendingK.bad {c : Nat} : CSendingK s0 (.bad c) := trivial
theorem CSendingK.get {r : CSending} (h : CSendingK s0 r) (e : r = .sent t) : Keeps s0 t := by subst e; exact h
theorem CSendingK.getWait {r : CSending} (h : CSendingK s0 r) (e : r = .wait t) : Keeps s0 t := by subst e; exact h

theorem MovedK.fst {β : Type} {p : Moved × β} {x : Moved} {l : β} (h : MovedK s0 p.1) (e : p = (x, l)) : MovedK s0 x := by
  subst e; exact h
theorem MovedK.getP {β : Type} {p : Moved × β} {a b c : Nat} {l : β} (h : MovedK s0 p.1) (e : p = (.ok t a b c, l)) :
    Keeps s0 t := by subst e; exact h
theorem MovedK.getBadP {β : Type} {p : Moved × β} {c a : Nat} {i : Bool} {f : List (Nat × Nat)} {l : β} (h : MovedK s0 p.1)
    (e : p = (.bad c a i f t, l)) : Keeps s0 t := by subst e; exact h

/-- A vector operation's effect. -/
def VeK (s0 : State) (j : VeJob) : Prop := Keeps s0 (j.effect ()).1
theorem VeK.mk {hs c : List Nat} {r w : List (Nat × Nat)} {f : Unit → State × Nat} (h : Keeps s0 (f ()).1) :
    VeK s0 ⟨hs, c, r, w, f⟩ := h

theorem VeK.eff {j : VeJob} (h : VeK s0 j) : Keeps s0 (j.effect ()).1 := h

/-- A move operation's effect. -/
def MvK (s0 : State) (j : MoveJob) : Prop := MovedK s0 (j.effect ())
theorem MvK.mk {a : Option (Nat × List (Nat × Nat))} {r w : List (Nat × Nat)} {p : Bool} {f : Unit → Moved}
    (h : MovedK s0 (f ())) : MvK s0 ⟨a, r, w, p, f⟩ := h

theorem MvK.eff {j : MoveJob} (h : MvK s0 j) : MovedK s0 (j.effect ()) := h

/-- The next state of an outcome. -/
def OutK (s0 : State) (o : Host.Outcome State Fault Refusal) : Prop := ∀ x, o = .next x → Keeps s0 x
theorem OutK.next (h : Keeps s0 t) : OutK s0 (.next t) := by intro x e; cases e; exact h
theorem attempt_keeps {o : Option State} (h : Keeps s0 s) (k : OptP (fun x => Keeps s0 x) o) : OutK s0 (attempt s o) :=
  OutK.next (k.getD h)

-- Folds

theorem Keeps.foldl {α : Type} {f : State → α → State} {l : List α} (h : Keeps s0 s)
    (k : ∀ t x, Keeps s0 t → Keeps s0 (f t x)) : Keeps s0 (l.foldl f s) := by
  induction l generalizing s with
  | nil => exact h
  | cons x l ih => exact ih (k s x h)
theorem Keeps.foldl1 {α β : Type} {f : State × β → α → State × β} {p : State × β} {l : List α} (h : Keeps s0 p.1)
    (k : ∀ q x, Keeps s0 q.1 → Keeps s0 (f q x).1) : Keeps s0 (l.foldl f p).1 := by
  induction l generalizing p with
  | nil => exact h
  | cons x l ih => exact ih (k p x h)
theorem Keeps.foldl2 {α β : Type} {f : β × State → α → β × State} {p : β × State} {l : List α} (h : Keeps s0 p.2)
    (k : ∀ q x, Keeps s0 q.2 → Keeps s0 (f q x).2) : Keeps s0 (l.foldl f p).2 := by
  induction l generalizing p with
  | nil => exact h
  | cons x l ih => exact ih (k p x h)
theorem OptP.foldl {α : Type} {P : State → Prop} {f : Option State → α → Option State} {o : Option State} {l : List α}
    (h : OptP P o) (k : ∀ q x, OptP P q → OptP P (f q x)) : OptP P (l.foldl f o) := by
  induction l generalizing o with
  | nil => exact h
  | cons x l ih => exact ih (k o x h)

theorem ite_keeps {s0 : State} {c : Prop} [Decidable c] {a b : Option State} (h : OptP (fun x0 => Keeps s0 x0) a)
    (k : OptP (fun x0 => Keeps s0 x0) b) : OptP (fun x0 => Keeps s0 x0) (if c then a else b) := by
  by_cases c <;> simp_all only [if_true, if_false]

end Sys2Proof.Machine
end

