-- ==== Sys2Proof/Laws/KeepsOfOps.lean ====
section
/-! SUPPORT. What the operations of Ops keep. -/

namespace Sys2Proof.Machine

theorem State.setCfgW_keeps {s0 : State} {a0 a1 a2} (h0 : Keeps s0 a0) : Keeps s0 (State.setCfgW a0 a1 a2) :=
  h0.setForm (fun x => ⟨x.mem, x.poison, tblWf_tput x.cfg _ _, x.mbx, x.doms, x.parts⟩) rfl rfl (Nat.le_refl _) rfl rfl

theorem State.setStream_keeps {s0 : State} {a0 a1 a2} (h0 : Keeps s0 a0) :
    Keeps s0 (State.setStream a0 a1 a2) := by
  unfold State.setStream
  repeat' first
    | with_reducible intro _ | with_reducible assumption | with_reducible exact OptP.of_none
    | with_reducible apply OptP.of_some
    | (extract_lets +onlyGivenNames x; first | (have hx : Keeps s0 x := ?_; clear_value x; rotate_left; subst x; rotate_right) | clear_value x | subst x)
    | with_reducible apply Keeps.lit

theorem State.setCfgF_keeps {s0 : State} {a0 a1 a2 a3 a4} (h0 : Keeps s0 a0) :
    Keeps s0 (State.setCfgF a0 a1 a2 a3 a4) := by
  unfold State.setCfgF
  repeat' first
    | with_reducible intro _ | with_reducible assumption | with_reducible apply State.setCfgW_keeps
    | with_reducible exact OptP.of_none | with_reducible apply OptP.of_some

theorem State.bumpCfg_keeps {s0 : State} {a0 a1 a2 a3 a4} (h0 : Keeps s0 a0) :
    Keeps s0 (State.bumpCfg a0 a1 a2 a3 a4) := by
  unfold State.bumpCfg
  repeat' first
    | with_reducible intro _ | with_reducible assumption | with_reducible apply State.setCfgF_keeps
    | with_reducible exact OptP.of_none | with_reducible apply OptP.of_some

theorem State.wr_keeps {s0 : State} {a0 a1 a2} (h0 : Keeps s0 a0) : Keeps s0 (State.wr a0 a1 a2) :=
  h0.setForm (fun x => ⟨wf_wrMem _ _ _ x.mem, x.poison.filter _, x.cfg, x.mbx, x.doms, x.parts⟩) rfl rfl (Nat.le_refl _) rfl rfl

theorem State.raise_keeps {s0 : State} {a0 a1} (h0 : Keeps s0 a0) :
    Keeps s0 (State.raise a0 a1) := by
  unfold State.raise
  repeat' first
    | with_reducible intro _ | with_reducible assumption | with_reducible exact OptP.of_none
    | with_reducible apply OptP.of_some
    | (extract_lets +onlyGivenNames x; first | (have hx : Keeps s0 x := ?_; clear_value x; rotate_left; subst x; rotate_right) | clear_value x | subst x)
    | with_reducible apply Keeps.lit

theorem State.emit_keeps {s0 : State} {a0 a1} (h0 : Keeps s0 a0) : Keeps s0 (State.emit a0 a1) :=
  h0.trans ⟨fun x => ⟨x.mem, x.poison, x.cfg, x.mbx, x.doms, x.parts⟩, rfl, rfl, Nat.le_refl _, ⟨[a1], rfl⟩, Nat.le_refl _⟩

theorem State.wrN_keeps {s0 : State} {a0 a1 a2 a3} (h0 : Keeps s0 a0) :
    Keeps s0 (State.wrN a0 a1 a2 a3) := by
  unfold State.wrN
  repeat' first
    | with_reducible intro _ | with_reducible assumption | with_reducible apply State.wr_keeps
    | with_reducible exact OptP.of_none | with_reducible apply OptP.of_some

theorem State.setMbxW_keeps {s0 : State} {a0 a1 a2} (h0 : Keeps s0 a0) : Keeps s0 (State.setMbxW a0 a1 a2) :=
  h0.setForm (fun x => ⟨x.mem, x.poison, x.cfg, tblWf_tput x.mbx _ _, x.doms, x.parts⟩) rfl rfl (Nat.le_refl _) rfl rfl

theorem State.setMbxF_keeps {s0 : State} {a0 a1 a2 a3 a4} (h0 : Keeps s0 a0) :
    Keeps s0 (State.setMbxF a0 a1 a2 a3 a4) := by
  unfold State.setMbxF
  repeat' first
    | with_reducible intro _ | with_reducible assumption | with_reducible apply State.setMbxW_keeps
    | with_reducible exact OptP.of_none | with_reducible apply OptP.of_some

theorem State.setIrq_keeps {s0 : State} {a0 a1 a2} (h0 : Keeps s0 a0) :
    Keeps s0 (State.setIrq a0 a1 a2) := by
  unfold State.setIrq
  repeat' first
    | with_reducible intro _ | with_reducible assumption | with_reducible apply State.emit_keeps
    | with_reducible apply State.setMbxF_keeps | with_reducible exact OptP.of_none | with_reducible apply OptP.of_some
    | (extract_lets +onlyGivenNames x; first | (have hx : Keeps s0 x := ?_; clear_value x; rotate_left; subst x; rotate_right) | clear_value x | subst x)
    | split | with_reducible apply Keeps.lit

theorem State.setMbxBytes_keeps {s0 : State} {a0 a1 a2} (h0 : Keeps s0 a0) :
    Keeps s0 (State.setMbxBytes a0 a1 a2) := by
  unfold State.setMbxBytes
  repeat' first
    | with_reducible intro _ | with_reducible assumption | with_reducible apply State.setMbxW_keeps
    | with_reducible exact OptP.of_none | with_reducible apply OptP.of_some | with_reducible apply Keeps.foldl
    | with_reducible apply Keeps.foldl1 | with_reducible apply Keeps.foldl2

theorem State.postTo_keeps {s0 : State} {a0 a1 a2} (h0 : Keeps s0 a0) :
    Keeps s0 (State.postTo a0 a1 a2) := by
  unfold State.postTo
  repeat' first
    | with_reducible intro _ | with_reducible assumption | with_reducible apply State.setIrq_keeps
    | with_reducible apply State.setMbxBytes_keeps | with_reducible apply State.setMbxF_keeps
    | with_reducible exact OptP.of_none | with_reducible apply OptP.of_some
    | (extract_lets +onlyGivenNames x; first | (have hx : Keeps s0 x := ?_; clear_value x; rotate_left; subst x; rotate_right) | clear_value x | subst x)
    | split

theorem State.setPart_keeps {s0 : State} {a0 a1 a2} (h0 : Keeps s0 a0) : Keeps s0 (State.setPart a0 a1 a2) :=
  h0.setForm (fun x => ⟨x.mem, x.poison, x.cfg, x.mbx, x.doms, tblWf_tput x.parts _ _⟩) rfl rfl (Nat.le_refl _) rfl rfl

theorem State.setTally_keeps {s0 : State} {a0 a1 a2 a3} (h0 : Keeps s0 a0) :
    Keeps s0 (State.setTally a0 a1 a2 a3) := by
  unfold State.setTally
  repeat' first
    | with_reducible intro _ | with_reducible assumption | with_reducible exact OptP.of_none
    | with_reducible apply OptP.of_some
    | (extract_lets +onlyGivenNames x; first | (have hx : Keeps s0 x := ?_; clear_value x; rotate_left; subst x; rotate_right) | clear_value x | subst x)
    | with_reducible apply Keeps.lit

theorem State.drawBytes_keeps {s0 : State} {a0 a1} (h0 : Keeps s0 a0) : Keeps s0 (State.drawBytes a0 a1).2 :=
  h0.setForm (fun x => ⟨x.mem, x.poison, x.cfg, x.mbx, x.doms, x.parts⟩) rfl rfl (Nat.le_add_right _ _) rfl rfl

theorem State.setBank_keeps {s0 : State} {a0 a1 a2} (h0 : Keeps s0 a0) :
    Keeps s0 (State.setBank a0 a1 a2) := by
  unfold State.setBank
  repeat' first
    | with_reducible intro _ | with_reducible assumption | with_reducible exact OptP.of_none
    | with_reducible apply OptP.of_some
    | (extract_lets +onlyGivenNames x; first | (have hx : Keeps s0 x := ?_; clear_value x; rotate_left; subst x; rotate_right) | clear_value x | subst x)
    | with_reducible apply Keeps.lit

theorem State.sendEvent_keeps {s0 : State} {a0 a1} (h0 : Keeps s0 a0) :
    Keeps s0 (State.sendEvent a0 a1) := by
  unfold State.sendEvent
  repeat' first
    | with_reducible intro _ | with_reducible assumption | with_reducible apply State.raise_keeps
    | with_reducible exact OptP.of_none | with_reducible apply OptP.of_some
    | (extract_lets +onlyGivenNames x; first | (have hx : Keeps s0 x := ?_; clear_value x; rotate_left; subst x; rotate_right) | clear_value x | subst x)
    | split | with_reducible apply Keeps.lit

theorem State.breach_keeps {s0 : State} {a0 a1 a2} (h0 : Keeps s0 a0) :
    Keeps s0 (State.breach a0 a1 a2) := by
  unfold State.breach
  repeat' first
    | with_reducible intro _ | with_reducible assumption | with_reducible apply State.raise_keeps
    | with_reducible exact OptP.of_none | with_reducible apply OptP.of_some
    | (extract_lets +onlyGivenNames x; first | (have hx : Keeps s0 x := ?_; clear_value x; rotate_left; subst x; rotate_right) | clear_value x | subst x)

theorem State.setPoison_keeps {s0 : State} {a0 a1} (h0 : Keeps s0 a0) : Keeps s0 (State.setPoison a0 a1) :=
  h0.setForm (fun x => ⟨x.mem, nins_rising x.poison _, x.cfg, x.mbx, x.doms, x.parts⟩) rfl rfl (Nat.le_refl _) rfl rfl

theorem State.sentUpdate_keeps {s0 : State} {a0 a1 a2 a3} (h0 : Keeps s0 a0) :
    Keeps s0 (State.sentUpdate a0 a1 a2 a3) := by
  unfold State.sentUpdate
  repeat' first
    | with_reducible intro _ | with_reducible assumption | with_reducible apply State.wr_keeps
    | with_reducible exact OptP.of_none | with_reducible apply OptP.of_some
    | (extract_lets +onlyGivenNames x; first | (have hx : Keeps s0 x := ?_; clear_value x; rotate_left; subst x; rotate_right) | clear_value x | subst x)
    | split

theorem State.setDom_keeps {s0 : State} {a0 a1 a2} (h0 : Keeps s0 a0) : Keeps s0 (State.setDom a0 a1 a2) :=
  h0.setForm (fun x => ⟨x.mem, x.poison, x.cfg, x.mbx, tblWf_tput x.doms _ _, x.parts⟩) rfl rfl (Nat.le_refl _) rfl rfl

theorem State.setDescWord_keeps {s0 : State} {a0 a1 a2 a3 a4} (h0 : Keeps s0 a0) :
    Keeps s0 (State.setDescWord a0 a1 a2 a3 a4) := by
  unfold State.setDescWord
  repeat' first
    | with_reducible intro _ | with_reducible assumption | with_reducible apply State.setCfgW_keeps
    | with_reducible exact OptP.of_none | with_reducible apply OptP.of_some | split

theorem State.wr1_keeps {s0 : State} {a0 a1 a2} (h0 : Keeps s0 a0) : Keeps s0 (State.wr1 a0 a1 a2) :=
  h0.setForm (fun x => ⟨tblWf_tput x.mem _ _, x.poison, x.cfg, x.mbx, x.doms, x.parts⟩) rfl rfl (Nat.le_refl _) rfl rfl

end Sys2Proof.Machine
end

