-- ==== Sys2Proof/Laws/KeepsOfTrace.lean ====
section
/-! SUPPORT. What the operations of Trace keep. -/

namespace Sys2Proof.Machine

theorem State.bumpCtr_keeps {s0 : State} {a0 a1 a2 a3} (h0 : Keeps s0 a0) :
    Keeps s0 (State.bumpCtr a0 a1 a2 a3) := by
  unfold State.bumpCtr
  repeat' first
    | with_reducible intro _ | with_reducible assumption | with_reducible apply State.setCfgW_keeps
    | with_reducible exact OptP.of_none | with_reducible apply OptP.of_some | split

theorem State.ringPut_keeps {s0 : State} {a0 a1 a2 a3} (h0 : Keeps s0 a0) :
    Keeps s0 (State.ringPut a0 a1 a2 a3) := by
  unfold State.ringPut
  repeat' first
    | with_reducible intro _ | with_reducible assumption | with_reducible apply State.setCfgW_keeps
    | with_reducible apply State.wr_keeps | with_reducible exact OptP.of_none | with_reducible apply OptP.of_some
    | (extract_lets +onlyGivenNames x; first | (have hx : Keeps s0 x := ?_; clear_value x; rotate_left; subst x; rotate_right) | clear_value x | subst x)

theorem State.trace_keeps {s0 : State} {a0 a1 a2 a3 a4 a5} (h0 : Keeps s0 a0) :
    Keeps s0 (State.trace a0 a1 a2 a3 a4 a5) := by
  unfold State.trace
  repeat' first
    | with_reducible intro _ | with_reducible assumption | with_reducible apply State.bumpCfg_keeps
    | with_reducible apply State.ringPut_keeps | with_reducible apply State.setCfgF_keeps
    | with_reducible exact OptP.of_none | with_reducible apply OptP.of_some
    | (extract_lets +onlyGivenNames x; first | (have hx : Keeps s0 x := ?_; clear_value x; rotate_left; subst x; rotate_right) | clear_value x | subst x)
    | split

theorem State.traceEng_keeps {s0 : State} {a0 a1 a2 a3} (h0 : Keeps s0 a0) :
    Keeps s0 (State.traceEng a0 a1 a2 a3) := by
  unfold State.traceEng
  repeat' first
    | with_reducible intro _ | with_reducible assumption | with_reducible apply State.trace_keeps
    | with_reducible exact OptP.of_none | with_reducible apply OptP.of_some

theorem State.ringTrigger_keeps {s0 : State} {a0 a1 a2} (h0 : Keeps s0 a0) :
    Keeps s0 (State.ringTrigger a0 a1 a2) := by
  unfold State.ringTrigger
  repeat' first
    | with_reducible intro _ | with_reducible assumption | with_reducible apply State.ringPut_keeps
    | with_reducible apply State.setCfgF_keeps | with_reducible apply State.setCfgW_keeps
    | with_reducible exact OptP.of_none | with_reducible apply OptP.of_some
    | (extract_lets +onlyGivenNames x; first | (have hx : Keeps s0 x := ?_; clear_value x; rotate_left; subst x; rotate_right) | clear_value x | subst x)
    | split

theorem State.report_keeps {s0 : State} {a0 a1 a2 a3 a4 a5} (h0 : Keeps s0 a0) :
    Keeps s0 (State.report a0 a1 a2 a3 a4 a5) := by
  unfold State.report
  repeat' first
    | with_reducible intro _ | with_reducible assumption | with_reducible apply State.ringTrigger_keeps
    | with_reducible apply State.trace_keeps | with_reducible exact OptP.of_none | with_reducible apply OptP.of_some
    | with_reducible apply Keeps.foldl | with_reducible apply Keeps.foldl1 | with_reducible apply Keeps.foldl2
    | (extract_lets +onlyGivenNames x; first | (have hx : Keeps s0 x := ?_; clear_value x; rotate_left; subst x; rotate_right) | clear_value x | subst x)
    | split

theorem State.notice_keeps {s0 : State} {a0 a1 a2 a3} (h0 : Keeps s0 a0) :
    Keeps s0 (State.notice a0 a1 a2 a3) := by
  unfold State.notice
  repeat' first
    | with_reducible intro _ | with_reducible assumption | with_reducible apply State.postTo_keeps
    | with_reducible apply State.report_keeps | with_reducible exact OptP.of_none | with_reducible apply OptP.of_some
    | (extract_lets +onlyGivenNames x; first | (have hx : Keeps s0 x := ?_; clear_value x; rotate_left; subst x; rotate_right) | clear_value x | subst x)
    | split

theorem State.bumpGroup_keeps {s0 : State} {a0 a1 a2 a3} (h0 : Keeps s0 a0) :
    Keeps s0 (State.bumpGroup a0 a1 a2 a3) := by
  unfold State.bumpGroup
  repeat' first
    | with_reducible intro _ | with_reducible assumption | with_reducible exact OptP.of_none
    | with_reducible apply OptP.of_some
    | (extract_lets +onlyGivenNames x; first | (have hx : Keeps s0 x := ?_; clear_value x; rotate_left; subst x; rotate_right) | clear_value x | subst x)
    | with_reducible apply Keeps.lit

end Sys2Proof.Machine
end

