-- ==== Sys2Proof/Laws/KeepsOfJournal.lean ====
section
/-! SUPPORT. What the operations of Journal keep. -/

namespace Sys2Proof.Machine

theorem State.jnlPut_keeps {s0 : State} {a0 a1 a2} (h0 : Keeps s0 a0) :
    Keeps s0 (State.jnlPut a0 a1 a2) := by
  unfold State.jnlPut
  repeat' first
    | with_reducible intro _ | with_reducible assumption | with_reducible apply State.setMbxW_keeps
    | with_reducible apply State.wr_keeps | with_reducible exact OptP.of_none | with_reducible apply OptP.of_some
    | (extract_lets +onlyGivenNames x; first | (have hx : Keeps s0 x := ?_; clear_value x; rotate_left; subst x; rotate_right) | clear_value x | subst x)

theorem State.journalFor_keeps {s0 : State} {a0 a1 a2 a3 a4 a5} (h0 : Keeps s0 a0) :
    Keeps s0 (State.journalFor a0 a1 a2 a3 a4 a5) := by
  unfold State.journalFor
  repeat' first
    | with_reducible intro _ | with_reducible assumption | with_reducible apply State.jnlPut_keeps
    | with_reducible apply State.setPart_keeps | with_reducible exact OptP.of_none | with_reducible apply OptP.of_some
    | with_reducible apply Keeps.foldl | with_reducible apply Keeps.foldl1 | with_reducible apply Keeps.foldl2
    | (extract_lets +onlyGivenNames x; first | (have hx : Keeps s0 x := ?_; clear_value x; rotate_left; subst x; rotate_right) | clear_value x | subst x)
    | split

theorem State.journal_keeps {s0 : State} {a0 a1 a2 a3 a4} (h0 : Keeps s0 a0) :
    Keeps s0 (State.journal a0 a1 a2 a3 a4) := by
  unfold State.journal
  repeat' first
    | with_reducible intro _ | with_reducible assumption | with_reducible apply State.journalFor_keeps
    | with_reducible exact OptP.of_none | with_reducible apply OptP.of_some

theorem State.ingress_keeps {s0 : State} {a0 a1 a2 a3 a4} (h0 : Keeps s0 a0) :
    Keeps s0 (State.ingress a0 a1 a2 a3 a4) := by
  unfold State.ingress
  repeat' first
    | with_reducible intro _ | with_reducible assumption | with_reducible apply State.setPart_keeps
    | with_reducible exact OptP.of_none | with_reducible apply OptP.of_some
    | (extract_lets +onlyGivenNames x; first | (have hx : Keeps s0 x := ?_; clear_value x; rotate_left; subst x; rotate_right) | clear_value x | subst x)
    | split

theorem State.diverge_keeps {s0 : State} {a0 a1 a2 a3 a4} (h0 : Keeps s0 a0) :
    Keeps s0 (State.diverge a0 a1 a2 a3 a4) := by
  unfold State.diverge
  repeat' first
    | with_reducible intro _ | with_reducible assumption | with_reducible apply State.journal_keeps
    | with_reducible apply State.notice_keeps | with_reducible apply State.setPart_keeps
    | with_reducible exact OptP.of_none | with_reducible apply OptP.of_some
    | (extract_lets +onlyGivenNames x; first | (have hx : Keeps s0 x := ?_; clear_value x; rotate_left; subst x; rotate_right) | clear_value x | subst x)
    | split

theorem State.journalProof_keeps {s0 : State} {a0 a1 a2 a3 a4 a5 a6} (h0 : Keeps s0 a0) :
    Keeps s0 (State.journalProof a0 a1 a2 a3 a4 a5 a6) := by
  unfold State.journalProof
  repeat' first
    | with_reducible intro _ | with_reducible assumption | with_reducible apply State.diverge_keeps
    | with_reducible apply State.journal_keeps | with_reducible exact OptP.of_none | with_reducible apply OptP.of_some
    | (extract_lets +onlyGivenNames x; first | (have hx : Keeps s0 x := ?_; clear_value x; rotate_left; subst x; rotate_right) | clear_value x | subst x)
    | split

end Sys2Proof.Machine
end

