-- ==== Sys2Proof/Laws/KeepsOfLink.lean ====
section
/-! SUPPORT. What the operations of Link keep. -/

namespace Sys2Proof.Machine

theorem State.setLnk_keeps {s0 : State} {a0 a1 a2} (h0 : Keeps s0 a0) :
    Keeps s0 (State.setLnk a0 a1 a2) := by
  unfold State.setLnk
  repeat' first
    | with_reducible intro _ | with_reducible assumption | with_reducible exact OptP.of_none
    | with_reducible apply OptP.of_some
    | (extract_lets +onlyGivenNames x; first | (have hx : Keeps s0 x := ?_; clear_value x; rotate_left; subst x; rotate_right) | clear_value x | subst x)
    | with_reducible apply Keeps.lit

theorem linkPump_keeps {s0 : State} {a0 a1 a2} (h2 : Keeps s0 a2) :
    Keeps s0 (linkPump a0 a1 a2) := by
  induction a1 generalizing a0 a2 with
  | zero =>
    rw [linkPump]
    repeat' first
      | with_reducible intro _ | with_reducible assumption
      | with_reducible apply State.emit_keeps | with_reducible apply State.setLnk_keeps | with_reducible exact OptP.of_none
      | with_reducible apply OptP.of_some
      | (extract_lets +onlyGivenNames x; first | (have hx : Keeps s0 x := ?_; clear_value x; rotate_left; subst x; rotate_right) | clear_value x | subst x)
      | split
  | succ n ih =>
    rw [linkPump]
    repeat' first
      | with_reducible intro _ | with_reducible assumption | with_reducible apply ih
      | with_reducible apply State.emit_keeps | with_reducible apply State.setLnk_keeps | with_reducible exact OptP.of_none
      | with_reducible apply OptP.of_some
      | (extract_lets +onlyGivenNames x; first | (have hx : Keeps s0 x := ?_; clear_value x; rotate_left; subst x; rotate_right) | clear_value x | subst x)
      | split

theorem State.sendFrame_keeps {s0 : State} {a0 a1 a2} (h0 : Keeps s0 a0) :
    Keeps s0 (State.sendFrame a0 a1 a2) := by
  unfold State.sendFrame
  repeat' first
    | with_reducible intro _ | with_reducible assumption | with_reducible apply State.emit_keeps
    | with_reducible apply State.setLnk_keeps | with_reducible apply linkPump_keeps | with_reducible exact OptP.of_none
    | with_reducible apply OptP.of_some
    | (extract_lets +onlyGivenNames x; first | (have hx : Keeps s0 x := ?_; clear_value x; rotate_left; subst x; rotate_right) | clear_value x | subst x)
    | split

theorem State.dropFrame_keeps {s0 : State} {a0 a1} (h0 : Keeps s0 a0) :
    Keeps s0 (State.dropFrame a0 a1) := by
  unfold State.dropFrame
  repeat' first
    | with_reducible intro _ | with_reducible assumption | with_reducible apply State.bumpCfg_keeps
    | with_reducible exact OptP.of_none | with_reducible apply OptP.of_some

theorem State.setLinkState_keeps {s0 : State} {a0 a1 a2} (h0 : Keeps s0 a0) :
    Keeps s0 (State.setLinkState a0 a1 a2) := by
  unfold State.setLinkState
  repeat' first
    | with_reducible intro _ | with_reducible assumption | with_reducible apply State.setCfgF_keeps
    | with_reducible exact OptP.of_none | with_reducible apply OptP.of_some

theorem State.armSpare_keeps {s0 : State} {a0 a1 a2 a3} (h0 : Keeps s0 a0) :
    Keeps s0 (State.armSpare a0 a1 a2 a3) := by
  unfold State.armSpare
  repeat' first
    | with_reducible intro _ | with_reducible assumption | with_reducible apply State.setLnk_keeps
    | with_reducible exact OptP.of_none | with_reducible apply OptP.of_some
    | (extract_lets +onlyGivenNames x; first | (have hx : Keeps s0 x := ?_; clear_value x; rotate_left; subst x; rotate_right) | clear_value x | subst x)

theorem State.laneSwitched_keeps {s0 : State} {a0 a1 a2 a3} (h0 : Keeps s0 a0) :
    Keeps s0 (State.laneSwitched a0 a1 a2 a3) := by
  unfold State.laneSwitched
  repeat' first
    | with_reducible intro _ | with_reducible assumption | with_reducible apply State.raise_keeps
    | with_reducible apply State.setCfgF_keeps | with_reducible apply State.setLinkState_keeps
    | with_reducible apply State.setLnk_keeps | with_reducible exact OptP.of_none | with_reducible apply OptP.of_some
    | (extract_lets +onlyGivenNames x; first | (have hx : Keeps s0 x := ?_; clear_value x; rotate_left; subst x; rotate_right) | clear_value x | subst x)

theorem State.sendCtl_keeps {s0 : State} {a0 a1 a2 a3} (h0 : Keeps s0 a0) :
    Keeps s0 (State.sendCtl a0 a1 a2 a3) := by
  unfold State.sendCtl
  repeat' first
    | with_reducible intro _ | with_reducible assumption | with_reducible apply State.emit_keeps
    | with_reducible exact OptP.of_none | with_reducible apply OptP.of_some

theorem State.sendAck_keeps {s0 : State} {a0 a1} (h0 : Keeps s0 a0) :
    Keeps s0 (State.sendAck a0 a1) := by
  unfold State.sendAck
  repeat' first
    | with_reducible intro _ | with_reducible assumption | with_reducible apply State.sendCtl_keeps
    | with_reducible apply State.setLnk_keeps | with_reducible exact OptP.of_none | with_reducible apply OptP.of_some
    | (extract_lets +onlyGivenNames x; first | (have hx : Keeps s0 x := ?_; clear_value x; rotate_left; subst x; rotate_right) | clear_value x | subst x)

theorem State.sendNak_keeps {s0 : State} {a0 a1} (h0 : Keeps s0 a0) :
    Keeps s0 (State.sendNak a0 a1) := by
  unfold State.sendNak
  repeat' first
    | with_reducible intro _ | with_reducible assumption | with_reducible apply State.sendCtl_keeps
    | with_reducible apply State.setLnk_keeps | with_reducible exact OptP.of_none | with_reducible apply OptP.of_some
    | (extract_lets +onlyGivenNames x; first | (have hx : Keeps s0 x := ?_; clear_value x; rotate_left; subst x; rotate_right) | clear_value x | subst x)
    | split

theorem State.unitTaken_keeps {s0 : State} {a0 a1 a2 a3} (h0 : Keeps s0 a0) :
    Keeps s0 (State.unitTaken a0 a1 a2 a3) := by
  unfold State.unitTaken
  repeat' first
    | with_reducible intro _ | with_reducible assumption | with_reducible apply State.dropFrame_keeps
    | with_reducible apply State.raise_keeps | with_reducible apply State.sendAck_keeps
    | with_reducible apply State.sendCtl_keeps | with_reducible apply State.setLnk_keeps
    | with_reducible exact OptP.of_none | with_reducible apply OptP.of_some | with_reducible apply OptP.getD
    | with_reducible apply OptP.mapS | with_reducible apply OptP.map | with_reducible apply OptP.mapP
    | (extract_lets +onlyGivenNames x; first | (have hx : Keeps s0 x := ?_; clear_value x; rotate_left; subst x; rotate_right) | clear_value x | subst x)
    | split | with_reducible apply Keeps.lit

theorem creditIn_keeps {s0 : State} {a0 a1 a2 a3} (h3 : Keeps s0 a3) :
    OptP (fun x0 => Keeps s0 x0) (creditIn a0 a1 a2 a3) := by
  unfold creditIn
  repeat' first
    | with_reducible intro _ | with_reducible assumption | with_reducible apply State.setLnk_keeps
    | with_reducible apply linkPump_keeps | with_reducible exact OptP.of_none | with_reducible apply OptP.of_some
    | (extract_lets +onlyGivenNames x; first | (have hx : Keeps s0 x := ?_; clear_value x; rotate_left; subst x; rotate_right) | (have hx : OptP (fun y => Keeps s0 y) x := ?_; clear_value x; rotate_left; subst x; rotate_right) | clear_value x | subst x)
    | split

theorem dataUnit_keeps {s0 : State} {a0 a1 a2 a3 a4} (h4 : Keeps s0 a4) :
    OptP (fun x0 => Keeps s0 x0) (dataUnit a0 a1 a2 a3 a4) := by
  unfold dataUnit
  repeat' first
    | with_reducible intro _ | with_reducible assumption | with_reducible apply State.bumpCfg_keeps
    | with_reducible apply State.sendNak_keeps | with_reducible apply State.unitTaken_keeps
    | with_reducible exact OptP.of_none | with_reducible apply OptP.of_some | split

theorem execCredit_keeps {s0 : State} {a0 a1 a2 a3} (h3 : Keeps s0 a3) :
    OutK s0 (execCredit a0 a1 a2 a3) := by
  unfold execCredit
  repeat' first
    | with_reducible intro _ | with_reducible assumption | with_reducible apply creditIn_keeps
    | with_reducible apply attempt_keeps | with_reducible exact OptP.of_none | with_reducible apply OptP.of_some
    | with_reducible apply OutK.next

theorem execDataUnit_keeps {s0 : State} {a0 a1 a2 a3 a4} (h4 : Keeps s0 a4) :
    OutK s0 (execDataUnit a0 a1 a2 a3 a4) := by
  unfold execDataUnit
  repeat' first
    | with_reducible intro _ | with_reducible assumption | with_reducible apply dataUnit_keeps
    | with_reducible apply attempt_keeps | with_reducible exact OptP.of_none | with_reducible apply OptP.of_some
    | with_reducible apply OutK.next

theorem execEcho_keeps {s0 : State} {a0 a1 a2} (h2 : Keeps s0 a2) :
    OutK s0 (execEcho a0 a1 a2) := by
  unfold execEcho
  repeat' first
    | with_reducible intro _ | with_reducible assumption | with_reducible apply State.sendCtl_keeps
    | with_reducible apply attempt_keeps | with_reducible exact OptP.of_none | with_reducible apply OptP.of_some
    | with_reducible apply OutK.next | split

theorem execEchoReply_keeps {s0 : State} {a0 a1 a2} (h2 : Keeps s0 a2) :
    OutK s0 (execEchoReply a0 a1 a2) := by
  unfold execEchoReply
  repeat' first
    | with_reducible intro _ | with_reducible assumption | with_reducible apply State.setCfgF_keeps
    | with_reducible apply attempt_keeps | with_reducible exact OptP.of_none | with_reducible apply OptP.of_some
    | with_reducible apply OutK.next | split

theorem execLinkAckTimer_keeps {s0 : State} {a0 a1} (h1 : Keeps s0 a1) :
    OutK s0 (execLinkAckTimer a0 a1) := by
  unfold execLinkAckTimer
  repeat' first
    | with_reducible intro _ | with_reducible assumption | with_reducible apply State.sendAck_keeps
    | with_reducible apply attempt_keeps | with_reducible exact OptP.of_none | with_reducible apply OptP.of_some
    | with_reducible apply OutK.next | split

theorem execSpare_keeps {s0 : State} {a0 a1 a2 a3} (h3 : Keeps s0 a3) :
    OutK s0 (execSpare a0 a1 a2 a3) := by
  unfold execSpare
  repeat' first
    | with_reducible intro _ | with_reducible assumption | with_reducible apply State.armSpare_keeps
    | with_reducible apply attempt_keeps | with_reducible exact OptP.of_none | with_reducible apply OptP.of_some
    | with_reducible apply OutK.next | split

theorem spareSwitch_keeps {s0 : State} {a0 a1} (h1 : Keeps s0 a1) :
    OptP (fun x0 => Keeps s0 x0) (spareSwitch a0 a1) := by
  unfold spareSwitch
  repeat' first
    | with_reducible intro _ | with_reducible assumption | with_reducible apply State.laneSwitched_keeps
    | with_reducible exact OptP.of_none | with_reducible apply OptP.of_some | split

theorem execSpareSwitch_keeps {s0 : State} {a0 a1} (h1 : Keeps s0 a1) :
    OutK s0 (execSpareSwitch a0 a1) := by
  unfold execSpareSwitch
  repeat' first
    | with_reducible intro _ | with_reducible assumption | with_reducible apply spareSwitch_keeps
    | with_reducible apply attempt_keeps | with_reducible exact OptP.of_none | with_reducible apply OptP.of_some
    | with_reducible apply OutK.next

theorem unitAckIn_keeps {s0 : State} {a0 a1 a2} (h2 : Keeps s0 a2) :
    OptP (fun x0 => Keeps s0 x0) (unitAckIn a0 a1 a2) := by
  unfold unitAckIn
  repeat' first
    | with_reducible intro _ | with_reducible assumption | with_reducible apply State.setLnk_keeps
    | with_reducible apply linkPump_keeps | with_reducible exact OptP.of_none | with_reducible apply OptP.of_some
    | (extract_lets +onlyGivenNames x; first | (have hx : Keeps s0 x := ?_; clear_value x; rotate_left; subst x; rotate_right) | (have hx : OptP (fun y => Keeps s0 y) x := ?_; clear_value x; rotate_left; subst x; rotate_right) | clear_value x | subst x)
    | split

theorem execUnitAck_keeps {s0 : State} {a0 a1 a2} (h2 : Keeps s0 a2) :
    OutK s0 (execUnitAck a0 a1 a2) := by
  unfold execUnitAck
  repeat' first
    | with_reducible intro _ | with_reducible assumption | with_reducible apply unitAckIn_keeps
    | with_reducible apply attempt_keeps | with_reducible exact OptP.of_none | with_reducible apply OptP.of_some
    | with_reducible apply OutK.next

theorem unitNakIn_keeps {s0 : State} {a0 a1 a2} (h2 : Keeps s0 a2) :
    OptP (fun x0 => Keeps s0 x0) (unitNakIn a0 a1 a2) := by
  unfold unitNakIn
  repeat' first
    | with_reducible intro _ | with_reducible assumption | with_reducible apply State.bumpCfg_keeps
    | with_reducible apply State.emit_keeps | with_reducible apply State.setLnk_keeps | with_reducible exact OptP.of_none
    | with_reducible apply OptP.of_some | with_reducible apply Keeps.foldl | with_reducible apply Keeps.foldl1
    | with_reducible apply Keeps.foldl2
    | (extract_lets +onlyGivenNames x; first | (have hx : Keeps s0 x := ?_; clear_value x; rotate_left; subst x; rotate_right) | (have hx : OptP (fun y => Keeps s0 y) x := ?_; clear_value x; rotate_left; subst x; rotate_right) | clear_value x | subst x)
    | split

theorem execUnitNak_keeps {s0 : State} {a0 a1 a2} (h2 : Keeps s0 a2) :
    OutK s0 (execUnitNak a0 a1 a2) := by
  unfold execUnitNak
  repeat' first
    | with_reducible intro _ | with_reducible assumption | with_reducible apply unitNakIn_keeps
    | with_reducible apply attempt_keeps | with_reducible exact OptP.of_none | with_reducible apply OptP.of_some
    | with_reducible apply OutK.next

end Sys2Proof.Machine
end

