-- ==== Sys2Proof/Laws/KeepsOfReply.lean ====
section
/-! SUPPORT. What the operations of Reply keep. -/

namespace Sys2Proof.Machine

theorem State.putResponse_keeps {s0 : State} {a0 a1 a2 a3} (h0 : Keeps s0 a0) :
    Keeps s0 (State.putResponse a0 a1 a2 a3) := by
  unfold State.putResponse
  repeat' first
    | with_reducible intro _ | with_reducible assumption | with_reducible apply State.setIrq_keeps
    | with_reducible apply State.setMbxBytes_keeps | with_reducible apply State.setMbxF_keeps
    | with_reducible exact OptP.of_none | with_reducible apply OptP.of_some
    | (extract_lets +onlyGivenNames x; first | (have hx : Keeps s0 x := ?_; clear_value x; rotate_left; subst x; rotate_right) | clear_value x | subst x)

theorem State.final_keeps {s0 : State} {a0 a1 a2 a3 a4 a5 a6} (h0 : Keeps s0 a0) :
    Keeps s0 (State.final a0 a1 a2 a3 a4 a5 a6) := by
  unfold State.final
  repeat' first
    | with_reducible intro _ | with_reducible assumption | with_reducible apply State.putResponse_keeps
    | with_reducible exact OptP.of_none | with_reducible apply OptP.of_some

theorem State.journalCommand_keeps {s0 : State} {a0 a1 a2 a3 a4 a5 a6} (h0 : Keeps s0 a0) :
    Keeps s0 (State.journalCommand a0 a1 a2 a3 a4 a5 a6) := by
  unfold State.journalCommand
  repeat' first
    | with_reducible intro _ | with_reducible assumption | with_reducible apply State.journal_keeps
    | with_reducible exact OptP.of_none | with_reducible apply OptP.of_some | with_reducible apply OptP.getD

theorem State.latch_keeps {s0 : State} {a0 a1 a2 a3 a4} (h0 : Keeps s0 a0) :
    Keeps s0 (State.latch a0 a1 a2 a3 a4) := by
  unfold State.latch
  repeat' first
    | with_reducible intro _ | with_reducible assumption | with_reducible apply State.journalCommand_keeps
    | with_reducible apply State.setPart_keeps | with_reducible apply State.wrN_keeps | with_reducible exact OptP.of_none
    | with_reducible apply OptP.of_some
    | (extract_lets +onlyGivenNames x; first | (have hx : Keeps s0 x := ?_; clear_value x; rotate_left; subst x; rotate_right) | clear_value x | subst x)
    | split

theorem State.finish_keeps {s0 : State} {a0 a1 a2 a3} (h0 : Keeps s0 a0) :
    Keeps s0 (State.finish a0 a1 a2 a3) := by
  unfold State.finish
  repeat' first
    | with_reducible intro _ | with_reducible assumption | with_reducible apply State.final_keeps
    | with_reducible exact OptP.of_none | with_reducible apply OptP.of_some
    | (extract_lets +onlyGivenNames x; first | (have hx : Keeps s0 x := ?_; clear_value x; rotate_left; subst x; rotate_right) | clear_value x | subst x)
    | with_reducible apply Keeps.lit

theorem State.endStops_keeps {s0 : State} {a0 a1 a2 a3} (h0 : Keeps s0 a0) :
    Keeps s0 (State.endStops a0 a1 a2 a3) := by
  unfold State.endStops
  repeat' first
    | with_reducible intro _ | with_reducible assumption | with_reducible apply State.finish_keeps
    | with_reducible apply State.setPart_keeps | with_reducible exact OptP.of_none | with_reducible apply OptP.of_some
    | with_reducible apply Keeps.foldl | with_reducible apply Keeps.foldl1 | with_reducible apply Keeps.foldl2
    | (extract_lets +onlyGivenNames x; first | (have hx : Keeps s0 x := ?_; clear_value x; rotate_left; subst x; rotate_right) | (have hx : ∀ s, Keeps s0 s → Keeps s0 (x s) := ?_; clear_value x; rotate_left; subst x; (try dsimp -zeta only); rotate_right) | (have hx : ∀ s k, Keeps s0 s → Keeps s0 (x s k) := ?_; clear_value x; rotate_left; subst x; (try dsimp -zeta only); rotate_right) | (have hx : ∀ s k l, Keeps s0 s → Keeps s0 (x s k l) := ?_; clear_value x; rotate_left; subst x; (try dsimp -zeta only); rotate_right) | (have hx : ∀ k, Keeps s0 (x k) := ?_; clear_value x; rotate_left; subst x; (try dsimp -zeta only); rotate_right) | (have hx : ∀ k l, Keeps s0 (x k l) := ?_; clear_value x; rotate_left; subst x; (try dsimp -zeta only); rotate_right) | clear_value x | subst x)
    | split | with_reducible apply Keeps.lit | with_reducible apply_assumption

theorem State.endCmds_keeps {s0 : State} {a0 a1 a2} (h0 : Keeps s0 a0) :
    Keeps s0 (State.endCmds a0 a1 a2) := by
  unfold State.endCmds
  repeat' first
    | with_reducible intro _ | with_reducible assumption | with_reducible apply State.finish_keeps
    | with_reducible exact OptP.of_none | with_reducible apply OptP.of_some | with_reducible apply Keeps.foldl
    | with_reducible apply Keeps.foldl1 | with_reducible apply Keeps.foldl2

end Sys2Proof.Machine
end

