-- ==== Sys2Proof/Laws/KeepsOfPlates.lean ====
section
/-! SUPPORT. What the operations of Plates keep. -/

namespace Sys2Proof.Machine

theorem State.measure_keeps {s0 : State} {a0 a1 a2} (h0 : Keeps s0 a0) :
    Keeps s0 (State.measure a0 a1 a2) := by
  unfold State.measure
  repeat' first
    | with_reducible intro _ | with_reducible assumption | with_reducible exact OptP.of_none
    | with_reducible apply OptP.of_some
    | (extract_lets +onlyGivenNames x; first | (have hx : Keeps s0 x := ?_; clear_value x; rotate_left; subst x; rotate_right) | clear_value x | subst x)
    | with_reducible apply Keeps.lit

theorem State.setGoverned_keeps {s0 : State} {a0 a1 a2} (h0 : Keeps s0 a0) :
    Keeps s0 (State.setGoverned a0 a1 a2) := by
  unfold State.setGoverned
  repeat' first
    | with_reducible intro _ | with_reducible assumption | with_reducible apply State.setCfgW_keeps
    | with_reducible exact OptP.of_none | with_reducible apply OptP.of_some
    | (extract_lets +onlyGivenNames x; first | (have hx : Keeps s0 x := ?_; clear_value x; rotate_left; subst x; rotate_right) | clear_value x | subst x)
    | split | with_reducible apply Keeps.lit

theorem State.plateModes_keeps {s0 : State} {a0 a1} (h0 : Keeps s0 a0) :
    Keeps s0 (State.plateModes a0 a1) := by
  unfold State.plateModes
  repeat' first
    | with_reducible intro _ | with_reducible assumption | with_reducible apply State.setGoverned_keeps
    | with_reducible exact OptP.of_none | with_reducible apply OptP.of_some | with_reducible apply Keeps.foldl
    | with_reducible apply Keeps.foldl1 | with_reducible apply Keeps.foldl2
    | (extract_lets +onlyGivenNames x; first | (have hx : Keeps s0 x := ?_; clear_value x; rotate_left; subst x; rotate_right) | clear_value x | subst x)
    | split

theorem State.startPort_keeps {s0 : State} {a0 a1} (h0 : Keeps s0 a0) :
    Keeps s0 (State.startPort a0 a1) := by
  unfold State.startPort
  repeat' first
    | with_reducible intro _ | with_reducible assumption | with_reducible apply State.setLinkState_keeps
    | with_reducible exact OptP.of_none | with_reducible apply OptP.of_some | split

theorem State.platePorts_keeps {s0 : State} {a0 a1} (h0 : Keeps s0 a0) :
    Keeps s0 (State.platePorts a0 a1) := by
  unfold State.platePorts
  repeat' first
    | with_reducible intro _ | with_reducible assumption | with_reducible apply State.setGoverned_keeps
    | with_reducible apply State.setLinkState_keeps | with_reducible apply State.startPort_keeps
    | with_reducible exact OptP.of_none | with_reducible apply OptP.of_some | with_reducible apply Keeps.foldl
    | with_reducible apply Keeps.foldl1 | with_reducible apply Keeps.foldl2
    | (extract_lets +onlyGivenNames x; first | (have hx : Keeps s0 x := ?_; clear_value x; rotate_left; subst x; rotate_right) | clear_value x | subst x)
    | split

theorem State.applyPlate_keeps {s0 : State} {a0 a1 a2} (h0 : Keeps s0 a0) :
    Keeps s0 (State.applyPlate a0 a1 a2) := by
  unfold State.applyPlate
  repeat' first
    | with_reducible intro _ | with_reducible assumption | with_reducible apply State.measure_keeps
    | with_reducible apply State.plateModes_keeps | with_reducible apply State.platePorts_keeps
    | with_reducible apply State.setCfgW_keeps | with_reducible apply State.setPart_keeps
    | with_reducible exact OptP.of_none | with_reducible apply OptP.of_some | with_reducible apply Keeps.foldl
    | with_reducible apply Keeps.foldl1 | with_reducible apply Keeps.foldl2
    | (extract_lets +onlyGivenNames x; first | (have hx : Keeps s0 x := ?_; clear_value x; rotate_left; subst x; rotate_right) | clear_value x | subst x)
    | split | with_reducible apply Keeps.litAll | with_reducible exact id | exact Nat.le_refl _
    | exact Nat.le_add_right _ _ | exact tblWf_filter (by assumption) _ | exact List.Pairwise.filter _ (by assumption)
    | rfl

theorem State.recompute_keeps {s0 : State} {a0 a1 a2} (h0 : Keeps s0 a0) :
    Keeps s0 (State.recompute a0 a1 a2) := by
  unfold State.recompute
  repeat' first
    | with_reducible intro _ | with_reducible assumption | with_reducible apply State.setCfgW_keeps
    | with_reducible exact OptP.of_none | with_reducible apply OptP.of_some
    | (extract_lets +onlyGivenNames x; first | (have hx : Keeps s0 x := ?_; clear_value x; rotate_left; subst x; rotate_right) | clear_value x | subst x)
    | split | with_reducible apply Keeps.lit

theorem State.setOverlay_keeps {s0 : State} {a0 a1 a2} (h0 : Keeps s0 a0) :
    Keeps s0 (State.setOverlay a0 a1 a2) := by
  unfold State.setOverlay
  repeat' first
    | with_reducible intro _ | with_reducible assumption | with_reducible exact OptP.of_none
    | with_reducible apply OptP.of_some
    | (extract_lets +onlyGivenNames x; first | (have hx : Keeps s0 x := ?_; clear_value x; rotate_left; subst x; rotate_right) | clear_value x | subst x)
    | with_reducible apply Keeps.lit

theorem State.overlayOff_keeps {s0 : State} {a0 a1} (h0 : Keeps s0 a0) :
    Keeps s0 (State.overlayOff a0 a1) := by
  unfold State.overlayOff
  repeat' first
    | with_reducible intro _ | with_reducible assumption | with_reducible apply State.measure_keeps
    | with_reducible apply State.recompute_keeps | with_reducible apply State.setOverlay_keeps
    | with_reducible exact OptP.of_none | with_reducible apply OptP.of_some | with_reducible apply Keeps.foldl
    | with_reducible apply Keeps.foldl1 | with_reducible apply Keeps.foldl2
    | (extract_lets +onlyGivenNames x; first | (have hx : Keeps s0 x := ?_; clear_value x; rotate_left; subst x; rotate_right) | clear_value x | subst x)
    | split | with_reducible apply Keeps.lit

theorem State.overlayOn_keeps {s0 : State} {a0 a1} (h0 : Keeps s0 a0) :
    Keeps s0 (State.overlayOn a0 a1) := by
  unfold State.overlayOn
  repeat' first
    | with_reducible intro _ | with_reducible assumption | with_reducible apply State.measure_keeps
    | with_reducible apply State.recompute_keeps | with_reducible apply State.setOverlay_keeps
    | with_reducible exact OptP.of_none | with_reducible apply OptP.of_some | with_reducible apply Keeps.foldl
    | with_reducible apply Keeps.foldl1 | with_reducible apply Keeps.foldl2
    | (extract_lets +onlyGivenNames x; first | (have hx : Keeps s0 x := ?_; clear_value x; rotate_left; subst x; rotate_right) | clear_value x | subst x)
    | split | with_reducible apply Keeps.lit

theorem State.overlaysDue_keeps {s0 : State} {a0 a1} (h0 : Keeps s0 a0) :
    Keeps s0 (State.overlaysDue a0 a1) := by
  unfold State.overlaysDue
  repeat' first
    | with_reducible intro _ | with_reducible assumption | with_reducible apply State.finish_keeps
    | with_reducible apply State.overlayOff_keeps | with_reducible apply State.overlayOn_keeps
    | with_reducible exact OptP.of_none | with_reducible apply OptP.of_some | with_reducible apply Keeps.foldl
    | with_reducible apply Keeps.foldl1 | with_reducible apply Keeps.foldl2
    | (extract_lets +onlyGivenNames x; first | (have hx : Keeps s0 x := ?_; clear_value x; rotate_left; subst x; rotate_right) | clear_value x | subst x)
    | split

end Sys2Proof.Machine
end

