-- ==== Sys2Proof/Laws/KeepsOfRecords.lean ====
section
/-! SUPPORT. What the operations of Records keep. -/

namespace Sys2Proof.Machine

theorem State.sendFirst_keeps {s0 : State} {a0 a1 a2} (h0 : Keeps s0 a0) :
    Keeps s0 (State.sendFirst a0 a1 a2) := by
  unfold State.sendFirst
  repeat' first
    | with_reducible intro _ | with_reducible assumption | with_reducible apply State.sendFrame_keeps
    | with_reducible exact OptP.of_none | with_reducible apply OptP.of_some | split

theorem State.alarmTo_keeps {s0 : State} {a0 a1 a2} (h0 : Keeps s0 a0) :
    Keeps s0 (State.alarmTo a0 a1 a2) := by
  unfold State.alarmTo
  extract_lets code same others put send
  have hp : ∀ t k, Keeps s0 (put a0 t k) := fun _ _ => h0.lit
  have hs : ∀ k, Keeps s0 (send a0 k) := fun _ => State.sendFirst_keeps (State.bumpCfg_keeps (hp _ _))
  split
  · exact hs _
  · split
    · exact State.bumpCfg_keeps (hp _ _)
    · exact hs _

theorem State.alarm_keeps {s0 : State} {a0 a1} (h0 : Keeps s0 a0) :
    Keeps s0 (State.alarm a0 a1) := by
  unfold State.alarm
  repeat' first
    | with_reducible intro _ | with_reducible assumption | with_reducible apply State.alarmTo_keeps
    | with_reducible apply State.setIrq_keeps | with_reducible exact OptP.of_none | with_reducible apply OptP.of_some
    | with_reducible apply Keeps.foldl | with_reducible apply Keeps.foldl1 | with_reducible apply Keeps.foldl2
    | (extract_lets +onlyGivenNames x; first | (have hx : Keeps s0 x := ?_; clear_value x; rotate_left; subst x; rotate_right) | clear_value x | subst x)
    | split | with_reducible apply Keeps.lit

theorem State.lose_keeps {s0 : State} {a0 a1 a2} (h0 : Keeps s0 a0) :
    Keeps s0 (State.lose a0 a1 a2) := by
  unfold State.lose
  repeat' first
    | with_reducible intro _ | with_reducible assumption | with_reducible apply State.setCfgW_keeps
    | with_reducible exact OptP.of_none | with_reducible apply OptP.of_some
    | (extract_lets +onlyGivenNames x; first | (have hx : Keeps s0 x := ?_; clear_value x; rotate_left; subst x; rotate_right) | clear_value x | subst x)

theorem State.noteKey_keeps {s0 : State} {a0 a1} (h0 : Keeps s0 a0) :
    Keeps s0 (State.noteKey a0 a1) := by
  unfold State.noteKey
  repeat' first
    | with_reducible intro _ | with_reducible assumption | with_reducible exact OptP.of_none
    | with_reducible apply OptP.of_some
    | (extract_lets +onlyGivenNames x; first | (have hx : Keeps s0 x := ?_; clear_value x; rotate_left; subst x; rotate_right) | clear_value x | subst x)
    | with_reducible apply Keeps.lit

theorem State.setLevel_keeps {s0 : State} {a0} (h0 : Keeps s0 a0) :
    Keeps s0 (State.setLevel a0) := by
  unfold State.setLevel
  repeat' first
    | with_reducible intro _ | with_reducible assumption | with_reducible apply State.setCfgF_keeps
    | with_reducible exact OptP.of_none | with_reducible apply OptP.of_some
    | (extract_lets +onlyGivenNames x; first | (have hx : Keeps s0 x := ?_; clear_value x; rotate_left; subst x; rotate_right) | clear_value x | subst x)

theorem State.setFifo_keeps {s0 : State} {a0 a1} (h0 : Keeps s0 a0) :
    Keeps s0 (State.setFifo a0 a1) := by
  unfold State.setFifo
  repeat' first
    | with_reducible intro _ | with_reducible assumption | with_reducible apply State.setLevel_keeps
    | with_reducible exact OptP.of_none | with_reducible apply OptP.of_some
    | (extract_lets +onlyGivenNames x; first | (have hx : Keeps s0 x := ?_; clear_value x; rotate_left; subst x; rotate_right) | clear_value x | subst x)
    | with_reducible apply Keeps.lit

theorem State.enqueue_keeps {s0 : State} {a0 a1} (h0 : Keeps s0 a0) :
    Keeps s0 (State.enqueue a0 a1) := by
  unfold State.enqueue
  repeat' first
    | with_reducible intro _ | with_reducible assumption | with_reducible apply State.lose_keeps
    | with_reducible apply State.noteKey_keeps | with_reducible apply State.setFifo_keeps
    | with_reducible exact OptP.of_none | with_reducible apply OptP.of_some
    | (extract_lets +onlyGivenNames x; first | (have hx : Keeps s0 x := ?_; clear_value x; rotate_left; subst x; rotate_right) | clear_value x | subst x)
    | split | with_reducible apply Keeps.lit

theorem State.wearEvent_keeps {s0 : State} {a0 a1} (h0 : Keeps s0 a0) :
    Keeps s0 (State.wearEvent a0 a1) := by
  unfold State.wearEvent
  repeat' first
    | with_reducible intro _ | with_reducible assumption | with_reducible exact OptP.of_none
    | with_reducible apply OptP.of_some
    | (extract_lets +onlyGivenNames x; first | (have hx : Keeps s0 x := ?_; clear_value x; rotate_left; subst x; rotate_right) | clear_value x | subst x)
    | split | with_reducible apply Keeps.lit

theorem State.takeEvent_keeps {s0 : State} {a0 a1} (h0 : Keeps s0 a0) :
    Keeps s0 (State.takeEvent a0 a1) := by
  unfold State.takeEvent
  repeat' first
    | with_reducible intro _ | with_reducible assumption | with_reducible apply State.alarm_keeps
    | with_reducible apply State.enqueue_keeps | with_reducible apply State.setCfgW_keeps
    | with_reducible apply State.setFifo_keeps | with_reducible apply State.wearEvent_keeps
    | with_reducible exact OptP.of_none | with_reducible apply OptP.of_some
    | (extract_lets +onlyGivenNames x; first | (have hx : Keeps s0 x := ?_; clear_value x; rotate_left; subst x; rotate_right) | clear_value x | subst x)
    | split

theorem State.hold_keeps {s0 : State} {a0 a1 a2 a3} (h0 : Keeps s0 a0) :
    Keeps s0 (State.hold a0 a1 a2 a3) := by
  unfold State.hold
  repeat' first
    | with_reducible intro _ | with_reducible assumption | with_reducible apply State.notice_keeps
    | with_reducible apply State.setPart_keeps | with_reducible apply State.takeEvent_keeps
    | with_reducible exact OptP.of_none | with_reducible apply OptP.of_some
    | (extract_lets +onlyGivenNames x; first | (have hx : Keeps s0 x := ?_; clear_value x; rotate_left; subst x; rotate_right) | clear_value x | subst x)
    | split

theorem State.writeRecord_keeps {s0 : State} {a0 a1 a2} (h0 : Keeps s0 a0) :
    Keeps s0 (State.writeRecord a0 a1 a2) := by
  unfold State.writeRecord
  repeat' first
    | with_reducible intro _ | with_reducible assumption | with_reducible apply State.enqueue_keeps
    | with_reducible apply State.report_keeps | with_reducible apply State.setCfgW_keeps
    | with_reducible apply State.setFifo_keeps | with_reducible exact OptP.of_none | with_reducible apply OptP.of_some
    | (extract_lets +onlyGivenNames x; first | (have hx : Keeps s0 x := ?_; clear_value x; rotate_left; subst x; rotate_right) | clear_value x | subst x)
    | split | with_reducible apply Keeps.lit

theorem errorEvent_keeps {s0 : State} {a0 a1} (h1 : Keeps s0 a1) :
    OptP (fun x0 => Keeps s0 x0) (errorEvent a0 a1) := by
  unfold errorEvent
  repeat' first
    | with_reducible intro _ | with_reducible assumption | with_reducible apply State.takeEvent_keeps
    | with_reducible exact OptP.of_none | with_reducible apply OptP.of_some
    | (extract_lets +onlyGivenNames x; first | (have hx : Keeps s0 x := ?_; clear_value x; rotate_left; subst x; rotate_right) | (have hx : OptP (fun y => Keeps s0 y) x := ?_; clear_value x; rotate_left; subst x; rotate_right) | clear_value x | subst x)
    | split | with_reducible apply Keeps.lit

theorem execErrorEvent_keeps {s0 : State} {a0 a1} (h1 : Keeps s0 a1) :
    OutK s0 (execErrorEvent a0 a1) := by
  unfold execErrorEvent
  repeat' first
    | with_reducible intro _ | with_reducible assumption | with_reducible apply errorEvent_keeps
    | with_reducible apply attempt_keeps | with_reducible exact OptP.of_none | with_reducible apply OptP.of_some
    | with_reducible apply OutK.next

theorem flashAppend_keeps {s0 : State} {a0} (h0 : Keeps s0 a0) :
    OptP (fun x0 => Keeps s0 x0) (flashAppend a0) := by
  unfold flashAppend
  repeat' first
    | with_reducible intro _ | with_reducible assumption | with_reducible apply State.bumpCfg_keeps
    | with_reducible exact OptP.of_none | with_reducible apply OptP.of_some
    | (extract_lets +onlyGivenNames x; first | (have hx : Keeps s0 x := ?_; clear_value x; rotate_left; subst x; rotate_right) | (have hx : OptP (fun y => Keeps s0 y) x := ?_; clear_value x; rotate_left; subst x; rotate_right) | clear_value x | subst x)
    | split | with_reducible apply Keeps.lit

theorem execFlashAppend_keeps {s0 : State} {a0} (h0 : Keeps s0 a0) :
    OutK s0 (execFlashAppend a0) := by
  unfold execFlashAppend
  repeat' first
    | with_reducible intro _ | with_reducible assumption | with_reducible apply flashAppend_keeps
    | with_reducible apply attempt_keeps | with_reducible exact OptP.of_none | with_reducible apply OptP.of_some
    | with_reducible apply OutK.next

theorem recordWrite_keeps {s0 : State} {a0} (h0 : Keeps s0 a0) :
    OptP (fun x0 => Keeps s0 x0) (recordWrite a0) := by
  unfold recordWrite
  repeat' first
    | with_reducible intro _ | with_reducible assumption | with_reducible apply State.writeRecord_keeps
    | with_reducible exact OptP.of_none | with_reducible apply OptP.of_some | split

theorem execRecordWrite_keeps {s0 : State} {a0} (h0 : Keeps s0 a0) :
    OutK s0 (execRecordWrite a0) := by
  unfold execRecordWrite
  repeat' first
    | with_reducible intro _ | with_reducible assumption | with_reducible apply recordWrite_keeps
    | with_reducible apply attempt_keeps | with_reducible exact OptP.of_none | with_reducible apply OptP.of_some
    | with_reducible apply OutK.next

end Sys2Proof.Machine
end

