-- ==== Sys2Proof/Laws/KeepsOfBoundary.lean ====
section
/-! SUPPORT. What the operations of Boundary keep. -/

namespace Sys2Proof.Machine

theorem State.putVerdict_keeps {s0 : State} {a0 a1 a2} (h0 : Keeps s0 a0) :
    Keeps s0 (State.putVerdict a0 a1 a2) := by
  unfold State.putVerdict
  repeat' first
    | with_reducible intro _ | with_reducible assumption | with_reducible apply State.journal_keeps
    | with_reducible apply State.setPart_keeps | with_reducible apply State.wr_keeps | with_reducible exact OptP.of_none
    | with_reducible apply OptP.of_some | with_reducible apply OptP.bindS | with_reducible apply OptP.bind
    | (extract_lets +onlyGivenNames x; first | (have hx : Keeps s0 x := ?_; clear_value x; rotate_left; subst x; rotate_right) | clear_value x | subst x)
    | split

theorem State.resolveNorm_keeps {s0 : State} {a0 a1 a2 a3} (h0 : Keeps s0 a0) :
    Keeps s0 (State.resolveNorm a0 a1 a2 a3) := by
  unfold State.resolveNorm
  repeat' first
    | with_reducible intro _ | with_reducible assumption | with_reducible apply State.putVerdict_keeps
    | with_reducible apply State.setPart_keeps | with_reducible exact OptP.of_none | with_reducible apply OptP.of_some
    | (extract_lets +onlyGivenNames x; first | (have hx : Keeps s0 x := ?_; clear_value x; rotate_left; subst x; rotate_right) | clear_value x | subst x)
    | split

theorem State.answered__keeps {s0 : State} {a0 a1} (h0 : Keeps s0 a0) :
    Keeps s0 (State.answered_ a0 a1) := by
  unfold State.answered_
  repeat' first
    | with_reducible intro _ | with_reducible assumption | with_reducible apply State.resolveNorm_keeps
    | with_reducible apply State.setMbxF_keeps | with_reducible apply State.setPart_keeps
    | with_reducible exact OptP.of_none | with_reducible apply OptP.of_some
    | (extract_lets +onlyGivenNames x; first | (have hx : Keeps s0 x := ?_; clear_value x; rotate_left; subst x; rotate_right) | clear_value x | subst x)
    | split

theorem State.ringBell_keeps {s0 : State} {a0 a1 a2 a3 a4 a5} (h0 : Keeps s0 a0) :
    Keeps s0 (State.ringBell a0 a1 a2 a3 a4 a5) := by
  unfold State.ringBell
  repeat' first
    | with_reducible intro _ | with_reducible assumption | with_reducible apply State.journalFor_keeps
    | with_reducible apply State.sendEvent_keeps | with_reducible apply State.wr_keeps | with_reducible exact OptP.of_none
    | with_reducible apply OptP.of_some
    | (extract_lets +onlyGivenNames x; first | (have hx : Keeps s0 x := ?_; clear_value x; rotate_left; subst x; rotate_right) | clear_value x | subst x)
    | split

theorem State.bells_keeps {s0 : State} {a0 a1 a2} (h0 : Keeps s0 a0) :
    Keeps s0 (State.bells a0 a1 a2) := by
  unfold State.bells
  repeat' first
    | with_reducible intro _ | with_reducible assumption | with_reducible apply State.ringBell_keeps
    | with_reducible apply State.setMbxF_keeps | with_reducible exact OptP.of_none | with_reducible apply OptP.of_some
    | with_reducible apply Keeps.foldl | with_reducible apply Keeps.foldl1 | with_reducible apply Keeps.foldl2
    | (extract_lets +onlyGivenNames x; first | (have hx : Keeps s0 x := ?_; clear_value x; rotate_left; subst x; rotate_right) | clear_value x | subst x)
    | split

theorem State.clearCounts_keeps {s0 : State} {a0 a1} (h0 : Keeps s0 a0) :
    Keeps s0 (State.clearCounts a0 a1) := by
  unfold State.clearCounts
  repeat' first
    | with_reducible intro _ | with_reducible assumption | with_reducible exact OptP.of_none
    | with_reducible apply OptP.of_some
    | (extract_lets +onlyGivenNames x; first | (have hx : Keeps s0 x := ?_; clear_value x; rotate_left; subst x; rotate_right) | clear_value x | subst x)
    | with_reducible apply Keeps.lit

theorem State.unpin_keeps {s0 : State} {a0 a1} (h0 : Keeps s0 a0) :
    Keeps s0 (State.unpin a0 a1) := by
  unfold State.unpin
  repeat' first
    | with_reducible intro _ | with_reducible assumption | with_reducible exact OptP.of_none
    | with_reducible apply OptP.of_some
    | (extract_lets +onlyGivenNames x; first | (have hx : Keeps s0 x := ?_; clear_value x; rotate_left; subst x; rotate_right) | clear_value x | subst x)
    | split | with_reducible apply Keeps.lit

theorem State.openWindow_keeps {s0 : State} {a0 a1 a2} (h0 : Keeps s0 a0) :
    Keeps s0 (State.openWindow a0 a1 a2) := by
  unfold State.openWindow
  repeat' first
    | with_reducible intro _ | with_reducible assumption | with_reducible apply State.clearCounts_keeps
    | with_reducible apply State.finish_keeps | with_reducible apply State.setPart_keeps
    | with_reducible apply State.setStream_keeps | with_reducible apply State.unpin_keeps
    | with_reducible exact OptP.of_none | with_reducible apply OptP.of_some | with_reducible apply Keeps.foldl
    | with_reducible apply Keeps.foldl1 | with_reducible apply Keeps.foldl2
    | (extract_lets +onlyGivenNames x; first | (have hx : Keeps s0 x := ?_; clear_value x; rotate_left; subst x; rotate_right) | clear_value x | subst x)

theorem State.writeProof_keeps {s0 : State} {a0 a1} (h0 : Keeps s0 a0) :
    Keeps s0 (State.writeProof a0 a1) := by
  unfold State.writeProof
  repeat' first
    | with_reducible intro _ | with_reducible assumption | with_reducible apply State.setCfgW_keeps
    | with_reducible exact OptP.of_none | with_reducible apply OptP.of_some | with_reducible apply Keeps.foldl
    | with_reducible apply Keeps.foldl1 | with_reducible apply Keeps.foldl2
    | (extract_lets +onlyGivenNames x; first | (have hx : Keeps s0 x := ?_; clear_value x; rotate_left; subst x; rotate_right) | clear_value x | subst x)

theorem State.launched_keeps {s0 : State} {a0 a1} (h0 : Keeps s0 a0) :
    Keeps s0 (State.launched a0 a1) := by
  unfold State.launched
  repeat' first
    | with_reducible intro _ | with_reducible assumption | with_reducible apply State.openWindow_keeps
    | with_reducible apply State.setPart_keeps | with_reducible apply State.setStream_keeps
    | with_reducible apply State.writeProof_keeps | with_reducible exact OptP.of_none | with_reducible apply OptP.of_some
    | with_reducible apply Keeps.foldl | with_reducible apply Keeps.foldl1 | with_reducible apply Keeps.foldl2
    | (extract_lets +onlyGivenNames x; first | (have hx : Keeps s0 x := ?_; clear_value x; rotate_left; subst x; rotate_right) | clear_value x | subst x)
    | split

theorem launchCount_keeps {s0 : State} {a0 a1} (h1 : Keeps s0 a1) :
    OptP (fun x0 => Keeps s0 x0) (launchCount a0 a1) := by
  unfold launchCount
  repeat' first
    | with_reducible intro _ | with_reducible assumption | with_reducible apply State.launched_keeps
    | with_reducible exact OptP.of_none | with_reducible apply OptP.of_some
    | (extract_lets +onlyGivenNames x; first | (have hx : Keeps s0 x := ?_; clear_value x; rotate_left; subst x; rotate_right) | (have hx : OptP (fun y => Keeps s0 y) x := ?_; clear_value x; rotate_left; subst x; rotate_right) | clear_value x | subst x)
    | split

theorem State.dropLines_keeps {s0 : State} {a0 a1} (h0 : Keeps s0 a0) :
    Keeps s0 (State.dropLines a0 a1) := by
  unfold State.dropLines
  repeat' first
    | with_reducible intro _ | with_reducible assumption | with_reducible exact OptP.of_none
    | with_reducible apply OptP.of_some
    | (extract_lets +onlyGivenNames x; first | (have hx : Keeps s0 x := ?_; clear_value x; rotate_left; subst x; rotate_right) | clear_value x | subst x)
    | split | with_reducible apply Keeps.lit

theorem State.enterHold_keeps {s0 : State} {a0 a1 a2} (h0 : Keeps s0 a0) :
    Keeps s0 (State.enterHold a0 a1 a2) := by
  unfold State.enterHold
  repeat' first
    | with_reducible intro _ | with_reducible assumption | with_reducible apply State.hold_keeps
    | with_reducible apply State.notice_keeps | with_reducible apply State.setMbxF_keeps
    | with_reducible apply State.setPart_keeps | with_reducible exact OptP.of_none | with_reducible apply OptP.of_some
    | (extract_lets +onlyGivenNames x; first | (have hx : Keeps s0 x := ?_; clear_value x; rotate_left; subst x; rotate_right) | clear_value x | subst x)
    | split

theorem State.giveVerdict_keeps {s0 : State} {a0 a1 a2} (h0 : Keeps s0 a0) :
    Keeps s0 (State.giveVerdict a0 a1 a2) := by
  unfold State.giveVerdict
  repeat' first
    | with_reducible intro _ | with_reducible assumption | with_reducible apply State.notice_keeps
    | with_reducible apply State.putVerdict_keeps | with_reducible apply State.setPart_keeps
    | with_reducible exact OptP.of_none | with_reducible apply OptP.of_some
    | (extract_lets +onlyGivenNames x; first | (have hx : Keeps s0 x := ?_; clear_value x; rotate_left; subst x; rotate_right) | clear_value x | subst x)
    | split

theorem State.graftsDue_keeps {s0 : State} {a0 a1 a2} (h0 : Keeps s0 a0) :
    Keeps s0 (State.graftsDue a0 a1 a2) := by
  unfold State.graftsDue
  repeat' first
    | with_reducible intro _ | with_reducible assumption | with_reducible exact OptP.of_none
    | with_reducible apply OptP.of_some
    | (extract_lets +onlyGivenNames x; first | (have hx : Keeps s0 x := ?_; clear_value x; rotate_left; subst x; rotate_right) | clear_value x | subst x)
    | split | with_reducible apply Keeps.lit

theorem State.guardAll_keeps {s0 : State} {a0 a1} (h0 : Keeps s0 a0) :
    Keeps s0 (State.guardAll a0 a1) := by
  unfold State.guardAll
  repeat' first
    | with_reducible intro _ | with_reducible assumption | with_reducible apply State.setPart_keeps
    | with_reducible exact OptP.of_none | with_reducible apply OptP.of_some | with_reducible apply Keeps.foldl
    | with_reducible apply Keeps.foldl1 | with_reducible apply Keeps.foldl2
    | (extract_lets +onlyGivenNames x; first | (have hx : Keeps s0 x := ?_; clear_value x; rotate_left; subst x; rotate_right) | clear_value x | subst x)
    | split

theorem State.lastClose_keeps {s0 : State} {a0 a1} (h0 : Keeps s0 a0) :
    Keeps s0 (State.lastClose a0 a1) := by
  unfold State.lastClose
  repeat' first
    | with_reducible intro _ | with_reducible assumption | with_reducible apply State.endStops_keeps
    | with_reducible apply State.notice_keeps | with_reducible apply State.setPart_keeps
    | with_reducible exact OptP.of_none | with_reducible apply OptP.of_some
    | (extract_lets +onlyGivenNames x; first | (have hx : Keeps s0 x := ?_; clear_value x; rotate_left; subst x; rotate_right) | clear_value x | subst x)

theorem State.logRepair_keeps {s0 : State} {a0 a1 a2 a3 a4} (h0 : Keeps s0 a0) :
    Keeps s0 (State.logRepair a0 a1 a2 a3 a4) := by
  unfold State.logRepair
  repeat' first
    | with_reducible intro _ | with_reducible assumption | with_reducible exact OptP.of_none
    | with_reducible apply OptP.of_some
    | (extract_lets +onlyGivenNames x; first | (have hx : Keeps s0 x := ?_; clear_value x; rotate_left; subst x; rotate_right) | clear_value x | subst x)
    | with_reducible apply Keeps.lit

theorem State.replayBells_keeps {s0 : State} {a0 a1 a2 a3} (h0 : Keeps s0 a0) :
    Keeps s0 (State.replayBells a0 a1 a2 a3) := by
  unfold State.replayBells
  repeat' first
    | with_reducible intro _ | with_reducible assumption | with_reducible apply State.ringBell_keeps
    | with_reducible exact OptP.of_none | with_reducible apply OptP.of_some | with_reducible apply Keeps.foldl
    | with_reducible apply Keeps.foldl1 | with_reducible apply Keeps.foldl2

theorem State.replayCommands_keeps {s0 : State} {a0 a1 a2 a3} (h0 : Keeps s0 a0) :
    Keeps s0 (State.replayCommands a0 a1 a2 a3) := by
  unfold State.replayCommands
  repeat' first
    | with_reducible intro _ | with_reducible assumption | with_reducible apply State.setPart_keeps
    | with_reducible exact OptP.of_none | with_reducible apply OptP.of_some | with_reducible apply Keeps.foldl
    | with_reducible apply Keeps.foldl1 | with_reducible apply Keeps.foldl2
    | (extract_lets +onlyGivenNames x; first | (have hx : Keeps s0 x := ?_; clear_value x; rotate_left; subst x; rotate_right) | clear_value x | subst x)
    | split

theorem State.stepAdvance_keeps {s0 : State} {a0 a1 a2} (h0 : Keeps s0 a0) :
    Keeps s0 (State.stepAdvance a0 a1 a2) := by
  unfold State.stepAdvance
  repeat' first
    | with_reducible intro _ | with_reducible assumption | with_reducible apply State.dropLines_keeps
    | with_reducible apply State.setPart_keeps | with_reducible apply State.writeProof_keeps
    | with_reducible exact OptP.of_none | with_reducible apply OptP.of_some
    | (extract_lets +onlyGivenNames x; first | (have hx : Keeps s0 x := ?_; clear_value x; rotate_left; subst x; rotate_right) | clear_value x | subst x)
    | split

theorem State.traceBoundary_keeps {s0 : State} {a0 a1 a2 a3 a4 a5 a6} (h0 : Keeps s0 a0) :
    Keeps s0 (State.traceBoundary a0 a1 a2 a3 a4 a5 a6) := by
  unfold State.traceBoundary
  repeat' first
    | with_reducible intro _ | with_reducible assumption | with_reducible apply State.trace_keeps
    | with_reducible exact OptP.of_none | with_reducible apply OptP.of_some | with_reducible apply Keeps.foldl
    | with_reducible apply Keeps.foldl1 | with_reducible apply Keeps.foldl2
    | (extract_lets +onlyGivenNames x; first | (have hx : Keeps s0 x := ?_; clear_value x; rotate_left; subst x; rotate_right) | clear_value x | subst x)

theorem State.takeChoice_keeps {s0 : State} {a0 a1 a2 a3} (h0 : Keeps s0 a0) :
    Keeps s0 (State.takeChoice a0 a1 a2 a3) := by
  unfold State.takeChoice
  repeat' first
    | with_reducible intro _ | with_reducible assumption | with_reducible apply State.bumpGroup_keeps
    | with_reducible apply State.journalFor_keeps | with_reducible apply State.setPart_keeps
    | with_reducible apply State.traceBoundary_keeps | with_reducible exact OptP.of_none
    | with_reducible apply OptP.of_some
    | (extract_lets +onlyGivenNames x; first | (have hx : Keeps s0 x := ?_; clear_value x; rotate_left; subst x; rotate_right) | clear_value x | subst x)
    | split

theorem State.openNext_keeps {s0 : State} {a0 a1 a2 a3} (h0 : Keeps s0 a0) :
    Keeps s0 (State.openNext a0 a1 a2 a3) := by
  unfold State.openNext
  repeat' first
    | with_reducible intro _ | with_reducible assumption | with_reducible apply State.bells_keeps
    | with_reducible apply State.replayBells_keeps | with_reducible apply State.replayCommands_keeps
    | with_reducible apply State.stepAdvance_keeps | with_reducible apply State.takeChoice_keeps
    | with_reducible exact OptP.of_none | with_reducible apply OptP.of_some
    | (extract_lets +onlyGivenNames x; first | (have hx : Keeps s0 x := ?_; clear_value x; rotate_left; subst x; rotate_right) | clear_value x | subst x)
    | split

theorem State.repairD2d_keeps {s0 : State} {a0 a1} (h0 : Keeps s0 a0) :
    Keeps s0 (State.repairD2d a0 a1) := by
  unfold State.repairD2d
  repeat' first
    | with_reducible intro _ | with_reducible assumption | with_reducible apply State.logRepair_keeps
    | with_reducible apply State.raise_keeps | with_reducible exact OptP.of_none | with_reducible apply OptP.of_some
    | (extract_lets +onlyGivenNames x; first | (have hx : Keeps s0 x := ?_; clear_value x; rotate_left; subst x; rotate_right) | clear_value x | subst x)
    | split | with_reducible apply Keeps.lit

theorem State.repairLane_keeps {s0 : State} {a0 a1} (h0 : Keeps s0 a0) :
    Keeps s0 (State.repairLane a0 a1) := by
  unfold State.repairLane
  repeat' first
    | with_reducible intro _ | with_reducible assumption | with_reducible apply State.bumpCfg_keeps
    | with_reducible apply State.logRepair_keeps | with_reducible apply State.raise_keeps
    | with_reducible exact OptP.of_none | with_reducible apply OptP.of_some
    | (extract_lets +onlyGivenNames x; first | (have hx : Keeps s0 x := ?_; clear_value x; rotate_left; subst x; rotate_right) | clear_value x | subst x)
    | split | with_reducible apply Keeps.lit

theorem State.repairLine_keeps {s0 : State} {a0 a1} (h0 : Keeps s0 a0) :
    Keeps s0 (State.repairLine a0 a1) := by
  unfold State.repairLine
  repeat' first
    | with_reducible intro _ | with_reducible assumption | with_reducible apply State.logRepair_keeps
    | with_reducible apply State.raise_keeps | with_reducible exact OptP.of_none | with_reducible apply OptP.of_some
    | (extract_lets +onlyGivenNames x; first | (have hx : Keeps s0 x := ?_; clear_value x; rotate_left; subst x; rotate_right) | clear_value x | subst x)
    | split | with_reducible apply Keeps.lit

theorem State.repairRow_keeps {s0 : State} {a0 a1} (h0 : Keeps s0 a0) :
    Keeps s0 (State.repairRow a0 a1) := by
  unfold State.repairRow
  repeat' first
    | with_reducible intro _ | with_reducible assumption | with_reducible apply State.bumpCfg_keeps
    | with_reducible apply State.logRepair_keeps | with_reducible apply State.raise_keeps
    | with_reducible exact OptP.of_none | with_reducible apply OptP.of_some
    | (extract_lets +onlyGivenNames x; first | (have hx : Keeps s0 x := ?_; clear_value x; rotate_left; subst x; rotate_right) | clear_value x | subst x)
    | split | with_reducible apply Keeps.lit

theorem State.repairs_keeps {s0 : State} {a0 a1} (h0 : Keeps s0 a0) :
    Keeps s0 (State.repairs a0 a1) := by
  unfold State.repairs
  repeat' first
    | with_reducible intro _ | with_reducible assumption | with_reducible apply State.repairD2d_keeps
    | with_reducible apply State.repairLane_keeps | with_reducible apply State.repairLine_keeps
    | with_reducible apply State.repairRow_keeps | with_reducible exact OptP.of_none | with_reducible apply OptP.of_some
    | with_reducible apply Keeps.foldl | with_reducible apply Keeps.foldl1 | with_reducible apply Keeps.foldl2
    | (extract_lets +onlyGivenNames x; first | (have hx : Keeps s0 x := ?_; clear_value x; rotate_left; subst x; rotate_right) | clear_value x | subst x)
    | with_reducible apply Keeps.lit

theorem State.startCheck_keeps {s0 : State} {a0 a1} (h0 : Keeps s0 a0) :
    Keeps s0 (State.startCheck a0 a1) := by
  unfold State.startCheck
  repeat' first
    | with_reducible intro _ | with_reducible assumption | with_reducible apply State.setPart_keeps
    | with_reducible exact OptP.of_none | with_reducible apply OptP.of_some | with_reducible apply OptP.bindS
    | with_reducible apply OptP.bind
    | (extract_lets +onlyGivenNames x; first | (have hx : Keeps s0 x := ?_; clear_value x; rotate_left; subst x; rotate_right) | clear_value x | subst x)
    | split

theorem State.takeLatched_keeps {s0 : State} {a0 a1} (h0 : Keeps s0 a0) :
    Keeps s0 (State.takeLatched a0 a1).1 := by
  unfold State.takeLatched
  repeat' first
    | with_reducible intro _ | with_reducible assumption | with_reducible apply State.graftsDue_keeps
    | with_reducible apply State.overlaysDue_keeps | with_reducible apply State.setPart_keeps
    | with_reducible exact OptP.of_none | with_reducible apply OptP.of_some
    | (extract_lets +onlyGivenNames x; first | (have hx : Keeps s0 x := ?_; clear_value x; rotate_left; subst x; rotate_right) | (have hx : Keeps s0 x.1 := ?_; clear_value x; rotate_left; subst x; rotate_right) | clear_value x | subst x)

theorem State.windowCounts_keeps {s0 : State} {a0 a1} (h0 : Keeps s0 a0) :
    Keeps s0 (State.windowCounts a0 a1) := by
  unfold State.windowCounts
  repeat' first
    | with_reducible intro _ | with_reducible assumption | with_reducible apply State.bumpGroup_keeps
    | with_reducible exact OptP.of_none | with_reducible apply OptP.of_some | with_reducible apply OptP.getD
    | (extract_lets +onlyGivenNames x; first | (have hx : Keeps s0 x := ?_; clear_value x; rotate_left; subst x; rotate_right) | clear_value x | subst x)
    | split

theorem State.runBoundary_keeps {s0 : State} {a0 a1} (h0 : Keeps s0 a0) :
    Keeps s0 (State.runBoundary a0 a1) := by
  unfold State.runBoundary
  repeat' first
    | with_reducible intro _ | with_reducible assumption | with_reducible apply State.enterHold_keeps
    | with_reducible apply State.guardAll_keeps | with_reducible apply State.lastClose_keeps
    | with_reducible apply State.openNext_keeps | with_reducible apply State.repairs_keeps
    | with_reducible apply State.setPart_keeps | with_reducible apply State.startCheck_keeps
    | with_reducible apply State.takeLatched_keeps | with_reducible apply State.windowCounts_keeps
    | with_reducible exact OptP.of_none | with_reducible apply OptP.of_some | with_reducible apply Keeps.foldl
    | with_reducible apply Keeps.foldl1 | with_reducible apply Keeps.foldl2
    | (extract_lets +onlyGivenNames x; first | (have hx : Keeps s0 x := ?_; clear_value x; rotate_left; subst x; rotate_right) | (have hx : Keeps s0 x.1 := ?_; clear_value x; rotate_left; subst x; rotate_right) | clear_value x | subst x)
    | split | with_reducible refine pair1 ?_ (by assumption)

theorem State.runBoundary0_keeps {s0 : State} {a0 a1} (h0 : Keeps s0 a0) :
    Keeps s0 (State.runBoundary0 a0 a1) := by
  unfold State.runBoundary0
  repeat' first
    | with_reducible intro _ | with_reducible assumption | with_reducible apply State.guardAll_keeps
    | with_reducible apply State.openNext_keeps | with_reducible apply State.takeLatched_keeps
    | with_reducible exact OptP.of_none | with_reducible apply OptP.of_some
    | (extract_lets +onlyGivenNames x; first | (have hx : Keeps s0 x := ?_; clear_value x; rotate_left; subst x; rotate_right) | (have hx : Keeps s0 x.1 := ?_; clear_value x; rotate_left; subst x; rotate_right) | clear_value x | subst x)
    | split | with_reducible refine pair1 ?_ (by assumption)

theorem boundaryStart_keeps {s0 : State} {a0 a1} (h1 : Keeps s0 a1) :
    OptP (fun x0 => Keeps s0 x0) (boundaryStart a0 a1) := by
  unfold boundaryStart
  repeat' first
    | with_reducible intro _ | with_reducible assumption | with_reducible apply State.answered__keeps
    | with_reducible apply State.runBoundary_keeps | with_reducible exact OptP.of_none | with_reducible apply OptP.of_some
    | (extract_lets +onlyGivenNames x; first | (have hx : Keeps s0 x := ?_; clear_value x; rotate_left; subst x; rotate_right) | (have hx : OptP (fun y => Keeps s0 y) x := ?_; clear_value x; rotate_left; subst x; rotate_right) | clear_value x | subst x)
    | split

theorem entryPcLoad_keeps {s0 : State} {a0 a1} (h1 : Keeps s0 a1) :
    OptP (fun x0 => Keeps s0 x0) (entryPcLoad a0 a1) := by
  unfold entryPcLoad
  repeat' first
    | with_reducible intro _ | with_reducible assumption | with_reducible apply State.setPart_keeps
    | with_reducible exact OptP.of_none | with_reducible apply OptP.of_some
    | (extract_lets +onlyGivenNames x; first | (have hx : Keeps s0 x := ?_; clear_value x; rotate_left; subst x; rotate_right) | (have hx : OptP (fun y => Keeps s0 y) x := ?_; clear_value x; rotate_left; subst x; rotate_right) | clear_value x | subst x)
    | split

theorem execBoundaryStart_keeps {s0 : State} {a0 a1} (h1 : Keeps s0 a1) :
    OutK s0 (execBoundaryStart a0 a1) := by
  unfold execBoundaryStart
  repeat' first
    | with_reducible intro _ | with_reducible assumption | with_reducible apply boundaryStart_keeps
    | with_reducible apply attempt_keeps | with_reducible exact OptP.of_none | with_reducible apply OptP.of_some
    | with_reducible apply OutK.next

theorem execEntryPcLoad_keeps {s0 : State} {a0 a1} (h1 : Keeps s0 a1) :
    OutK s0 (execEntryPcLoad a0 a1) := by
  unfold execEntryPcLoad
  repeat' first
    | with_reducible intro _ | with_reducible assumption | with_reducible apply entryPcLoad_keeps
    | with_reducible apply attempt_keeps | with_reducible exact OptP.of_none | with_reducible apply OptP.of_some
    | with_reducible apply OutK.next

theorem execLaunchCount_keeps {s0 : State} {a0 a1} (h1 : Keeps s0 a1) :
    OutK s0 (execLaunchCount a0 a1) := by
  unfold execLaunchCount
  repeat' first
    | with_reducible intro _ | with_reducible assumption | with_reducible apply launchCount_keeps
    | with_reducible apply attempt_keeps | with_reducible exact OptP.of_none | with_reducible apply OptP.of_some
    | with_reducible apply OutK.next

theorem normVerdict_keeps {s0 : State} {a0 a1} (h1 : Keeps s0 a1) :
    OptP (fun x0 => Keeps s0 x0) (normVerdict a0 a1) := by
  unfold normVerdict
  repeat' first
    | with_reducible intro _ | with_reducible assumption | with_reducible apply State.giveVerdict_keeps
    | with_reducible exact OptP.of_none | with_reducible apply OptP.of_some | split

theorem execNormVerdict_keeps {s0 : State} {a0 a1} (h1 : Keeps s0 a1) :
    OutK s0 (execNormVerdict a0 a1) := by
  unfold execNormVerdict
  repeat' first
    | with_reducible intro _ | with_reducible assumption | with_reducible apply normVerdict_keeps
    | with_reducible apply attempt_keeps | with_reducible exact OptP.of_none | with_reducible apply OptP.of_some
    | with_reducible apply OutK.next

theorem paceSend_keeps {s0 : State} {a0 a1} (h1 : Keeps s0 a1) :
    OptP (fun x0 => Keeps s0 x0) (paceSend a0 a1) := by
  unfold paceSend
  repeat' first
    | with_reducible intro _ | with_reducible assumption | with_reducible apply State.setPart_keeps
    | with_reducible exact OptP.of_none | with_reducible apply OptP.of_some
    | (extract_lets +onlyGivenNames x; first | (have hx : Keeps s0 x := ?_; clear_value x; rotate_left; subst x; rotate_right) | (have hx : OptP (fun y => Keeps s0 y) x := ?_; clear_value x; rotate_left; subst x; rotate_right) | clear_value x | subst x)
    | split

theorem execPaceSend_keeps {s0 : State} {a0 a1} (h1 : Keeps s0 a1) :
    OutK s0 (execPaceSend a0 a1) := by
  unfold execPaceSend
  repeat' first
    | with_reducible intro _ | with_reducible assumption | with_reducible apply paceSend_keeps
    | with_reducible apply attempt_keeps | with_reducible exact OptP.of_none | with_reducible apply OptP.of_some
    | with_reducible apply OutK.next

theorem window0Boundary_keeps {s0 : State} {a0 a1} (h1 : Keeps s0 a1) :
    OptP (fun x0 => Keeps s0 x0) (window0Boundary a0 a1) := by
  unfold window0Boundary
  repeat' first
    | with_reducible intro _ | with_reducible assumption | with_reducible apply State.runBoundary0_keeps
    | with_reducible exact OptP.of_none | with_reducible apply OptP.of_some
    | (extract_lets +onlyGivenNames x; first | (have hx : Keeps s0 x := ?_; clear_value x; rotate_left; subst x; rotate_right) | (have hx : OptP (fun y => Keeps s0 y) x := ?_; clear_value x; rotate_left; subst x; rotate_right) | clear_value x | subst x)
    | split

theorem execWindow0Boundary_keeps {s0 : State} {a0 a1} (h1 : Keeps s0 a1) :
    OutK s0 (execWindow0Boundary a0 a1) := by
  unfold execWindow0Boundary
  repeat' first
    | with_reducible intro _ | with_reducible assumption | with_reducible apply window0Boundary_keeps
    | with_reducible apply attempt_keeps | with_reducible exact OptP.of_none | with_reducible apply OptP.of_some
    | with_reducible apply OutK.next

theorem windowOpen_keeps {s0 : State} {a0 a1} (h1 : Keeps s0 a1) :
    OptP (fun x0 => Keeps s0 x0) (windowOpen a0 a1) := by
  unfold windowOpen
  repeat' first
    | with_reducible intro _ | with_reducible assumption | with_reducible apply State.openWindow_keeps
    | with_reducible exact OptP.of_none | with_reducible apply OptP.of_some
    | (extract_lets +onlyGivenNames x; first | (have hx : Keeps s0 x := ?_; clear_value x; rotate_left; subst x; rotate_right) | (have hx : OptP (fun y => Keeps s0 y) x := ?_; clear_value x; rotate_left; subst x; rotate_right) | clear_value x | subst x)
    | split

theorem execWindowOpen_keeps {s0 : State} {a0 a1} (h1 : Keeps s0 a1) :
    OutK s0 (execWindowOpen a0 a1) := by
  unfold execWindowOpen
  repeat' first
    | with_reducible intro _ | with_reducible assumption | with_reducible apply windowOpen_keeps
    | with_reducible apply attempt_keeps | with_reducible exact OptP.of_none | with_reducible apply OptP.of_some
    | with_reducible apply OutK.next

end Sys2Proof.Machine
end

