-- ==== Sys2Proof/Laws/KeepsOfIssue.lean ====
section
/-! SUPPORT. What the operations of Issue keep. -/

namespace Sys2Proof.Machine

theorem State.traceIssue_keeps {s0 : State} {a0 a1 a2 a3} (h0 : Keeps s0 a0) :
    Keeps s0 (State.traceIssue a0 a1 a2 a3) := by
  unfold State.traceIssue
  repeat' first
    | with_reducible intro _ | with_reducible assumption | with_reducible apply State.traceEng_keeps
    | with_reducible exact OptP.of_none | with_reducible apply OptP.of_some

theorem State.accessError_keeps {s0 : State} {a0 a1 a2 a3} (h0 : Keeps s0 a0) :
    Keeps s0 (State.accessError a0 a1 a2 a3) := by
  unfold State.accessError
  repeat' first
    | with_reducible intro _ | with_reducible assumption | with_reducible apply State.raise_keeps
    | with_reducible exact OptP.of_none | with_reducible apply OptP.of_some
    | (extract_lets +onlyGivenNames x; first | (have hx : Keeps s0 x := ?_; clear_value x; rotate_left; subst x; rotate_right) | clear_value x | subst x)

theorem State.setIline_keeps {s0 : State} {a0 a1 a2} (h0 : Keeps s0 a0) :
    Keeps s0 (State.setIline a0 a1 a2) := by
  unfold State.setIline
  repeat' first
    | with_reducible intro _ | with_reducible assumption | with_reducible exact OptP.of_none
    | with_reducible apply OptP.of_some
    | (extract_lets +onlyGivenNames x; first | (have hx : Keeps s0 x := ?_; clear_value x; rotate_left; subst x; rotate_right) | clear_value x | subst x)
    | with_reducible apply Keeps.lit

theorem State.recordFault_keeps {s0 : State} {a0 a1 a2 a3} (h0 : Keeps s0 a0) :
    Keeps s0 (State.recordFault a0 a1 a2 a3) := by
  unfold State.recordFault
  repeat' first
    | with_reducible intro _ | with_reducible assumption | with_reducible apply State.setCfgW_keeps
    | with_reducible exact OptP.of_none | with_reducible apply OptP.of_some | split

theorem State.sendSigs_keeps {s0 : State} {a0 a1 a2} (h0 : Keeps s0 a0) :
    Keeps s0 (State.sendSigs a0 a1 a2) := by
  unfold State.sendSigs
  repeat' first
    | with_reducible intro _ | with_reducible assumption | with_reducible apply State.sendEvent_keeps
    | with_reducible exact OptP.of_none | with_reducible apply OptP.of_some | with_reducible apply Keeps.foldl
    | with_reducible apply Keeps.foldl1 | with_reducible apply Keeps.foldl2 | split

theorem State.faultAt_keeps {s0 : State} {a0 a1 a2 a3} (h0 : Keeps s0 a0) :
    Keeps s0 (State.faultAt a0 a1 a2 a3) := by
  unfold State.faultAt
  repeat' first
    | with_reducible intro _ | with_reducible assumption | with_reducible apply State.raise_keeps
    | with_reducible apply State.recordFault_keeps | with_reducible apply State.setStream_keeps
    | with_reducible exact OptP.of_none | with_reducible apply OptP.of_some
    | (extract_lets +onlyGivenNames x; first | (have hx : Keeps s0 x := ?_; clear_value x; rotate_left; subst x; rotate_right) | clear_value x | subst x)

theorem State.fault_keeps {s0 : State} {a0 a1 a2} (h0 : Keeps s0 a0) :
    Keeps s0 (State.fault a0 a1 a2) := by
  unfold State.fault
  repeat' first
    | with_reducible intro _ | with_reducible assumption | with_reducible apply State.faultAt_keeps
    | with_reducible exact OptP.of_none | with_reducible apply OptP.of_some

theorem State.holdStream_keeps {s0 : State} {a0 a1 a2} (h0 : Keeps s0 a0) :
    Keeps s0 (State.holdStream a0 a1 a2) := by
  unfold State.holdStream
  repeat' first
    | with_reducible intro _ | with_reducible assumption | with_reducible exact OptP.of_none
    | with_reducible apply OptP.of_some
    | (extract_lets +onlyGivenNames x; first | (have hx : Keeps s0 x := ?_; clear_value x; rotate_left; subst x; rotate_right) | clear_value x | subst x)
    | with_reducible apply Keeps.lit

theorem State.startOn_keeps {s0 : State} {a0 a1} (h0 : Keeps s0 a0) :
    Keeps s0 (State.startOn a0 a1) := by
  unfold State.startOn
  repeat' first
    | with_reducible intro _ | with_reducible assumption | with_reducible apply State.setDom_keeps
    | with_reducible exact OptP.of_none | with_reducible apply OptP.of_some
    | (extract_lets +onlyGivenNames x; first | (have hx : Keeps s0 x := ?_; clear_value x; rotate_left; subst x; rotate_right) | clear_value x | subst x)
    | split

theorem State.requestWake_keeps {s0 : State} {a0 a1} (h0 : Keeps s0 a0) :
    Keeps s0 (State.requestWake a0 a1) := by
  unfold State.requestWake
  repeat' first
    | with_reducible intro _ | with_reducible assumption | with_reducible apply State.setPart_keeps
    | with_reducible apply State.startOn_keeps | with_reducible exact OptP.of_none | with_reducible apply OptP.of_some
    | split

theorem startFlight_keeps {s0 : State} {a0 a1 a2 a3 a4 a5 a6} (h0 : Keeps s0 a0) :
    Keeps s0 (startFlight a0 a1 a2 a3 a4 a5 a6) := by
  unfold startFlight
  repeat' first
    | with_reducible intro _ | with_reducible assumption | with_reducible apply State.setStream_keeps
    | with_reducible apply State.traceIssue_keeps | with_reducible exact OptP.of_none | with_reducible apply OptP.of_some
    | (extract_lets +onlyGivenNames x; first | (have hx : Keeps s0 x := ?_; clear_value x; rotate_left; subst x; rotate_right) | clear_value x | subst x)

theorem State.missAt_keeps {s0 : State} {a0 a1} (h0 : Keeps s0 a0) :
    Keeps s0 (State.missAt a0 a1) := by
  unfold State.missAt
  repeat' first
    | with_reducible intro _ | with_reducible assumption | with_reducible apply State.setStream_keeps
    | with_reducible exact OptP.of_none | with_reducible apply OptP.of_some
    | (extract_lets +onlyGivenNames x; first | (have hx : Keeps s0 x := ?_; clear_value x; rotate_left; subst x; rotate_right) | clear_value x | subst x)
    | with_reducible apply Keeps.lit

theorem State.sleepTouch_keeps {s0 : State} {a0 a1} (h0 : Keeps s0 a0) :
    Keeps s0 (State.sleepTouch a0 a1) := by
  unfold State.sleepTouch
  repeat' first
    | with_reducible intro _ | with_reducible assumption | with_reducible apply State.setPart_keeps
    | with_reducible exact OptP.of_none | with_reducible apply OptP.of_some | split

theorem State.takeWaits_keeps {s0 : State} {a0 a1 a2} (h0 : Keeps s0 a0) :
    Keeps s0 (State.takeWaits a0 a1 a2) := by
  unfold State.takeWaits
  repeat' first
    | with_reducible intro _ | with_reducible assumption | with_reducible apply State.setTally_keeps
    | with_reducible exact OptP.of_none | with_reducible apply OptP.of_some | with_reducible apply Keeps.foldl
    | with_reducible apply Keeps.foldl1 | with_reducible apply Keeps.foldl2
    | (extract_lets +onlyGivenNames x; first | (have hx : Keeps s0 x := ?_; clear_value x; rotate_left; subst x; rotate_right) | clear_value x | subst x)
    | split

theorem finishNow_keeps {s0 : State} {a0 a1 a2 a3 a4} (h0 : Keeps s0 a0) :
    Keeps s0 (finishNow a0 a1 a2 a3 a4) := by
  unfold finishNow
  repeat' first
    | with_reducible intro _ | with_reducible assumption | with_reducible apply State.bumpCtr_keeps
    | with_reducible apply State.sendSigs_keeps | with_reducible apply State.setStream_keeps
    | with_reducible apply State.traceIssue_keeps | with_reducible exact OptP.of_none | with_reducible apply OptP.of_some
    | (extract_lets +onlyGivenNames x; first | (have hx : Keeps s0 x := ?_; clear_value x; rotate_left; subst x; rotate_right) | clear_value x | subst x)

theorem issue_keeps {s0 : State} {a0 a1 a2 a3 a4} (h3 : (∀ v0, Keeps s0 v0 → (∀ v1, (∀ v2, RanK s0 (((a3 v0) v1) v2))))) (h4 : Keeps s0 a4) :
    OptP (fun x0 => Keeps s0 x0) (issue a0 a1 a2 a3 a4) := by
  unfold issue
  repeat' first
    | with_reducible intro _ | with_reducible assumption | with_reducible apply h3
    | with_reducible apply State.accessError_keeps | with_reducible apply State.fault_keeps
    | with_reducible apply State.holdStream_keeps | with_reducible apply State.missAt_keeps
    | with_reducible apply State.requestWake_keeps | with_reducible apply State.setStream_keeps
    | with_reducible apply State.takeWaits_keeps | with_reducible exact OptP.of_none | with_reducible apply OptP.of_some
    | with_reducible apply RanK.done | with_reducible exact RanK.fault | with_reducible exact RanK.bad
    | with_reducible exact RanK.asleep | with_reducible exact RanK.full
    | (extract_lets +onlyGivenNames x; first | (have hx : Keeps s0 x := ?_; clear_value x; rotate_left; subst x; rotate_right) | (have hx : OptP (fun y => Keeps s0 y) x := ?_; clear_value x; rotate_left; subst x; rotate_right) | clear_value x | subst x)
    | split | with_reducible refine RanK.get ?_ (by assumption)

end Sys2Proof.Machine
end

