-- ==== Sys2Proof/Laws/KeepsOfNet.lean ====
section
/-! SUPPORT. What the operations of Net keep. -/

namespace Sys2Proof.Machine

theorem State.suspect_keeps {s0 : State} {a0 a1} (h0 : Keeps s0 a0) :
    Keeps s0 (State.suspect a0 a1) := by
  unfold State.suspect
  repeat' first
    | with_reducible intro _ | with_reducible assumption | with_reducible apply State.raise_keeps
    | with_reducible apply State.setCfgF_keeps | with_reducible exact OptP.of_none | with_reducible apply OptP.of_some
    | (extract_lets +onlyGivenNames x; first | (have hx : Keeps s0 x := ?_; clear_value x; rotate_left; subst x; rotate_right) | clear_value x | subst x)
    | split

theorem State.setTxSeq_keeps {s0 : State} {a0 a1 a2} (h0 : Keeps s0 a0) :
    Keeps s0 (State.setTxSeq a0 a1 a2) := by
  unfold State.setTxSeq
  repeat' first
    | with_reducible intro _ | with_reducible assumption | with_reducible exact OptP.of_none
    | with_reducible apply OptP.of_some
    | (extract_lets +onlyGivenNames x; first | (have hx : Keeps s0 x := ?_; clear_value x; rotate_left; subst x; rotate_right) | clear_value x | subst x)
    | with_reducible apply Keeps.lit

theorem State.isolationDrop_keeps {s0 : State} {a0 a1 a2 a3} (h0 : Keeps s0 a0) :
    Keeps s0 (State.isolationDrop a0 a1 a2 a3) := by
  unfold State.isolationDrop
  repeat' first
    | with_reducible intro _ | with_reducible assumption | with_reducible apply State.bumpCfg_keeps
    | with_reducible apply State.raise_keeps | with_reducible exact OptP.of_none | with_reducible apply OptP.of_some
    | (extract_lets +onlyGivenNames x; first | (have hx : Keeps s0 x := ?_; clear_value x; rotate_left; subst x; rotate_right) | clear_value x | subst x)

theorem State.countTx_keeps {s0 : State} {a0 a1 a2 a3} (h0 : Keeps s0 a0) :
    Keeps s0 (State.countTx a0 a1 a2 a3) := by
  unfold State.countTx
  repeat' first
    | with_reducible intro _ | with_reducible assumption | with_reducible apply State.setTxSeq_keeps
    | with_reducible exact OptP.of_none | with_reducible apply OptP.of_some | split

theorem State.msgPort_keeps {s0 : State} {a0 a1} (h0 : Keeps s0 a0) :
    Keeps s0 (State.msgPort a0 a1).2 := by
  unfold State.msgPort
  repeat' first
    | with_reducible intro _ | with_reducible assumption | with_reducible exact OptP.of_none
    | with_reducible apply OptP.of_some
    | (extract_lets +onlyGivenNames x; first | (have hx : Keeps s0 x := ?_; clear_value x; rotate_left; subst x; rotate_right) | (have hx : Keeps s0 x.2 := ?_; clear_value x; rotate_left; subst x; rotate_right) | clear_value x | subst x)
    | split | with_reducible apply Keeps.lit

theorem State.traceMsg_keeps {s0 : State} {a0 a1 a2 a3 a4 a5} (h0 : Keeps s0 a0) :
    Keeps s0 (State.traceMsg a0 a1 a2 a3 a4 a5) := by
  unfold State.traceMsg
  repeat' first
    | with_reducible intro _ | with_reducible assumption | with_reducible apply State.traceEng_keeps
    | with_reducible exact OptP.of_none | with_reducible apply OptP.of_some

theorem State.wrMasked_keeps {s0 : State} {a0 a1 a2 a3 a4} (h0 : Keeps s0 a0) :
    Keeps s0 (State.wrMasked a0 a1 a2 a3 a4) := by
  unfold State.wrMasked
  repeat' first
    | with_reducible intro _ | with_reducible assumption | with_reducible apply State.setPoison_keeps
    | with_reducible apply State.wr_keeps | with_reducible exact OptP.of_none | with_reducible apply OptP.of_some
    | with_reducible apply Keeps.foldl | with_reducible apply Keeps.foldl1 | with_reducible apply Keeps.foldl2
    | (extract_lets +onlyGivenNames x; first | (have hx : Keeps s0 x := ?_; clear_value x; rotate_left; subst x; rotate_right) | clear_value x | subst x)
    | split

theorem State.wrPay_keeps {s0 : State} {a0 a1 a2 a3 a4} (h0 : Keeps s0 a0) :
    Keeps s0 (State.wrPay a0 a1 a2 a3 a4) := by
  unfold State.wrPay
  repeat' first
    | with_reducible intro _ | with_reducible assumption | with_reducible apply State.wr_keeps
    | with_reducible apply State.wrMasked_keeps | with_reducible exact OptP.of_none | with_reducible apply OptP.of_some
    | split

theorem State.setRxSeq_keeps {s0 : State} {a0 a1 a2} (h0 : Keeps s0 a0) :
    Keeps s0 (State.setRxSeq a0 a1 a2) := by
  unfold State.setRxSeq
  repeat' first
    | with_reducible intro _ | with_reducible assumption | with_reducible exact OptP.of_none
    | with_reducible apply OptP.of_some
    | (extract_lets +onlyGivenNames x; first | (have hx : Keeps s0 x := ?_; clear_value x; rotate_left; subst x; rotate_right) | clear_value x | subst x)
    | with_reducible apply Keeps.lit

theorem State.countRx_keeps {s0 : State} {a0 a1 a2 a3} (h0 : Keeps s0 a0) :
    Keeps s0 (State.countRx a0 a1 a2 a3) := by
  unfold State.countRx
  repeat' first
    | with_reducible intro _ | with_reducible assumption | with_reducible apply State.setRxSeq_keeps
    | with_reducible exact OptP.of_none | with_reducible apply OptP.of_some | split

theorem State.heard_keeps {s0 : State} {a0 a1} (h0 : Keeps s0 a0) :
    Keeps s0 (State.heard a0 a1) := by
  unfold State.heard
  repeat' first
    | with_reducible intro _ | with_reducible assumption | with_reducible apply State.setCfgF_keeps
    | with_reducible exact OptP.of_none | with_reducible apply OptP.of_some | split

theorem State.nodeBreach_keeps {s0 : State} {a0 a1 a2 a3} (h0 : Keeps s0 a0) :
    Keeps s0 (State.nodeBreach a0 a1 a2 a3) := by
  unfold State.nodeBreach
  repeat' first
    | with_reducible intro _ | with_reducible assumption | with_reducible apply State.raise_keeps
    | with_reducible exact OptP.of_none | with_reducible apply OptP.of_some
    | (extract_lets +onlyGivenNames x; first | (have hx : Keeps s0 x := ?_; clear_value x; rotate_left; subst x; rotate_right) | clear_value x | subst x)

end Sys2Proof.Machine
end

