-- ==== Sys2Proof/Laws/KeepsOfFabric.lean ====
section
/-! SUPPORT. What the operations of Fabric keep. -/

namespace Sys2Proof.Machine

theorem State.countOut_keeps {s0 : State} {a0 a1} (h0 : Keeps s0 a0) :
    Keeps s0 (State.countOut a0 a1) := by
  unfold State.countOut
  repeat' first
    | with_reducible intro _ | with_reducible assumption | with_reducible apply State.setCfgF_keeps
    | with_reducible exact OptP.of_none | with_reducible apply OptP.of_some

theorem State.setReqs_keeps {s0 : State} {a0 a1} (h0 : Keeps s0 a0) :
    Keeps s0 (State.setReqs a0 a1) := by
  unfold State.setReqs
  repeat' first
    | with_reducible intro _ | with_reducible assumption | with_reducible exact OptP.of_none
    | with_reducible apply OptP.of_some
    | (extract_lets +onlyGivenNames x; first | (have hx : Keeps s0 x := ?_; clear_value x; rotate_left; subst x; rotate_right) | clear_value x | subst x)
    | with_reducible apply Keeps.lit

theorem State.track_keeps {s0 : State} {a0 a1 a2 a3 a4} (h0 : Keeps s0 a0) :
    Keeps s0 (State.track a0 a1 a2 a3 a4) := by
  unfold State.track
  repeat' first
    | with_reducible intro _ | with_reducible assumption | with_reducible apply State.countOut_keeps
    | with_reducible apply State.sendFrame_keeps | with_reducible apply State.setReqs_keeps
    | with_reducible apply State.setTxSeq_keeps | with_reducible exact OptP.of_none | with_reducible apply OptP.of_some
    | (extract_lets +onlyGivenNames x; first | (have hx : Keeps s0 x := ?_; clear_value x; rotate_left; subst x; rotate_right) | clear_value x | subst x)

theorem State.issueTag_keeps {s0 : State} {a0 a1 a2 a3 a4 a5} (h0 : Keeps s0 a0) :
    Keeps s0 (State.issueTag a0 a1 a2 a3 a4 a5) := by
  unfold State.issueTag
  repeat' first
    | with_reducible intro _ | with_reducible assumption | with_reducible apply State.suspect_keeps
    | with_reducible apply State.track_keeps | with_reducible exact OptP.of_none | with_reducible apply OptP.of_some
    | (extract_lets +onlyGivenNames x; first | (have hx : Keeps s0 x := ?_; clear_value x; rotate_left; subst x; rotate_right) | clear_value x | subst x)
    | split

theorem State.invalLine_keeps {s0 : State} {a0 a1 a2 a3} (h0 : Keeps s0 a0) :
    Keeps s0 (State.invalLine a0 a1 a2 a3) := by
  unfold State.invalLine
  repeat' first
    | with_reducible intro _ | with_reducible assumption | with_reducible apply State.issueTag_keeps
    | with_reducible apply State.wrN_keeps | with_reducible exact OptP.of_none | with_reducible apply OptP.of_some
    | with_reducible apply Keeps.foldl | with_reducible apply Keeps.foldl1 | with_reducible apply Keeps.foldl2
    | (extract_lets +onlyGivenNames x; first | (have hx : Keeps s0 x := ?_; clear_value x; rotate_left; subst x; rotate_right) | clear_value x | subst x)
    | split | with_reducible apply Keeps.lit

theorem State.afterWrite_keeps {s0 : State} {a0 a1 a2 a3 a4 a5} (h0 : Keeps s0 a0) :
    Keeps s0 (State.afterWrite a0 a1 a2 a3 a4 a5) := by
  unfold State.afterWrite
  repeat' first
    | with_reducible intro _ | with_reducible assumption | with_reducible apply State.invalLine_keeps
    | with_reducible apply State.sendFrame_keeps | with_reducible exact OptP.of_none | with_reducible apply OptP.of_some
    | with_reducible apply Keeps.foldl | with_reducible apply Keeps.foldl1 | with_reducible apply Keeps.foldl2
    | (extract_lets +onlyGivenNames x; first | (have hx : Keeps s0 x := ?_; clear_value x; rotate_left; subst x; rotate_right) | clear_value x | subst x)
    | split | with_reducible apply Keeps.lit

theorem State.alarmed_keeps {s0 : State} {a0 a1} (h0 : Keeps s0 a0) :
    Keeps s0 (State.alarmed a0 a1) := by
  unfold State.alarmed
  repeat' first
    | with_reducible intro _ | with_reducible assumption | with_reducible apply State.raise_keeps
    | with_reducible apply State.setIrq_keeps | with_reducible exact OptP.of_none | with_reducible apply OptP.of_some
    | (extract_lets +onlyGivenNames x; first | (have hx : Keeps s0 x := ?_; clear_value x; rotate_left; subst x; rotate_right) | clear_value x | subst x)

theorem State.answerReq_keeps {s0 : State} {a0 a1} (h0 : Keeps s0 a0) :
    Keeps s0 (State.answerReq a0 a1) := by
  unfold State.answerReq
  repeat' first
    | with_reducible intro _ | with_reducible assumption | with_reducible apply State.countOut_keeps
    | with_reducible apply State.setCfgF_keeps | with_reducible apply State.setReqs_keeps
    | with_reducible exact OptP.of_none | with_reducible apply OptP.of_some
    | (extract_lets +onlyGivenNames x; first | (have hx : Keeps s0 x := ?_; clear_value x; rotate_left; subst x; rotate_right) | clear_value x | subst x)
    | split

theorem State.takeArrived_keeps {s0 : State} {a0 a1 a2} (h0 : Keeps s0 a0) :
    Keeps s0 (State.takeArrived a0 a1 a2) := by
  unfold State.takeArrived
  repeat' first
    | with_reducible intro _ | with_reducible assumption | with_reducible exact OptP.of_none
    | with_reducible apply OptP.of_some
    | (extract_lets +onlyGivenNames x; first | (have hx : Keeps s0 x := ?_; clear_value x; rotate_left; subst x; rotate_right) | clear_value x | subst x)
    | with_reducible apply Keeps.lit

theorem State.letIn_keeps {s0 : State} {a0 a1 a2 a3 a4 a5} (h0 : Keeps s0 a0) (h5 : (∀ v0, Keeps s0 v0 → OptP (fun x1 => Keeps s0 x1) (a5 v0))) :
    OptP (fun x0 => Keeps s0 x0) (State.letIn a0 a1 a2 a3 a4 a5) := by
  unfold State.letIn
  repeat' first
    | with_reducible intro _ | with_reducible assumption | with_reducible apply h5
    | with_reducible apply State.dropFrame_keeps | with_reducible apply State.isolationDrop_keeps
    | with_reducible apply State.takeArrived_keeps | with_reducible exact OptP.of_none | with_reducible apply OptP.of_some
    | (extract_lets +onlyGivenNames x; first | (have hx : Keeps s0 x := ?_; clear_value x; rotate_left; subst x; rotate_right) | (have hx : OptP (fun y => Keeps s0 y) x := ?_; clear_value x; rotate_left; subst x; rotate_right) | clear_value x | subst x)
    | split

theorem State.answer_keeps {s0 : State} {a0 a1 a2 a3 a4} (h0 : Keeps s0 a0) (h4 : (∀ v0, Keeps s0 v0 → (∀ v1, OptP (fun x2 => Keeps s0 x2) ((a4 v0) v1)))) :
    OptP (fun x0 => Keeps s0 x0) (State.answer a0 a1 a2 a3 a4) := by
  unfold State.answer
  repeat' first
    | with_reducible intro _ | with_reducible assumption | with_reducible apply h4
    | with_reducible apply State.answerReq_keeps | with_reducible apply State.letIn_keeps
    | with_reducible exact OptP.of_none | with_reducible apply OptP.of_some | split
    | with_reducible refine OptP.get ?_ (by assumption) | with_reducible exact OptP.get (by assumption) rfl

theorem State.countRetry_keeps {s0 : State} {a0 a1 a2} (h0 : Keeps s0 a0) :
    Keeps s0 (State.countRetry a0 a1 a2) := by
  unfold State.countRetry
  repeat' first
    | with_reducible intro _ | with_reducible assumption | with_reducible apply State.bumpCfg_keeps
    | with_reducible exact OptP.of_none | with_reducible apply OptP.of_some

theorem State.setFc_keeps {s0 : State} {a0 a1 a2} (h0 : Keeps s0 a0) :
    Keeps s0 (State.setFc a0 a1 a2) := by
  unfold State.setFc
  repeat' first
    | with_reducible intro _ | with_reducible assumption | with_reducible exact OptP.of_none
    | with_reducible apply OptP.of_some
    | (extract_lets +onlyGivenNames x; first | (have hx : Keeps s0 x := ?_; clear_value x; rotate_left; subst x; rotate_right) | clear_value x | subst x)
    | with_reducible apply Keeps.lit

theorem State.issueReq_keeps {s0 : State} {a0 a1 a2 a3 a4 a5 a6} (h0 : Keeps s0 a0) :
    OptP (fun x0 => Keeps s0 x0) (State.issueReq a0 a1 a2 a3 a4 a5 a6) := by
  unfold State.issueReq
  repeat' first
    | with_reducible intro _ | with_reducible assumption | with_reducible apply State.track_keeps
    | with_reducible exact OptP.of_none | with_reducible apply OptP.of_some | split

theorem State.landLoad_keeps {s0 : State} {a0 a1 a2 a3} (h0 : Keeps s0 a0) :
    Keeps s0 (State.landLoad a0 a1 a2 a3) := by
  unfold State.landLoad
  repeat' first
    | with_reducible intro _ | with_reducible assumption | with_reducible apply State.wrPay_keeps
    | with_reducible exact OptP.of_none | with_reducible apply OptP.of_some

theorem State.fcLoad_keeps {s0 : State} {a0 a1 a2 a3 a4 a5} (h0 : Keeps s0 a0) :
    OptP (fun x0 => Keeps s0 x0) (State.fcLoad a0 a1 a2 a3 a4 a5) := by
  unfold State.fcLoad
  repeat' first
    | with_reducible intro _ | with_reducible assumption | with_reducible apply State.issueReq_keeps
    | with_reducible apply State.issueTag_keeps | with_reducible apply State.landLoad_keeps
    | with_reducible apply State.setFc_keeps | with_reducible exact OptP.of_none | with_reducible apply OptP.of_some
    | (extract_lets +onlyGivenNames x; first | (have hx : Keeps s0 x := ?_; clear_value x; rotate_left; subst x; rotate_right) | (have hx : OptP (fun y => Keeps s0 y) x := ?_; clear_value x; rotate_left; subst x; rotate_right) | clear_value x | subst x)
    | split | with_reducible refine OptP.get ?_ (by assumption) | with_reducible exact OptP.get (by assumption) rfl

theorem State.homeGate_keeps {s0 : State} {a0 a1 a2 a3 a4} (h0 : Keeps s0 a0) (h4 : OptP (fun x0 => Keeps s0 x0) a4) :
    OptP (fun x0 => Keeps s0 x0) (State.homeGate a0 a1 a2 a3 a4) := by
  unfold State.homeGate
  repeat' first
    | with_reducible intro _ | with_reducible assumption | with_reducible apply State.requestWake_keeps
    | with_reducible exact OptP.of_none | with_reducible apply OptP.of_some
    | (extract_lets +onlyGivenNames x; first | (have hx : Keeps s0 x := ?_; clear_value x; rotate_left; subst x; rotate_right) | (have hx : OptP (fun y => Keeps s0 y) x := ?_; clear_value x; rotate_left; subst x; rotate_right) | clear_value x | subst x)
    | split | with_reducible refine OptP.get ?_ (by assumption) | with_reducible exact OptP.get (by assumption) rfl
    | with_reducible apply Keeps.lit

theorem State.homeGive_keeps {s0 : State} {a0 a1 a2 a3} (h0 : Keeps s0 a0) :
    Keeps s0 (State.homeGive a0 a1 a2 a3) := by
  unfold State.homeGive
  repeat' first
    | with_reducible intro _ | with_reducible assumption | with_reducible apply State.bumpCfg_keeps
    | with_reducible apply State.sendFrame_keeps | with_reducible apply State.wrN_keeps | with_reducible exact OptP.of_none
    | with_reducible apply OptP.of_some
    | (extract_lets +onlyGivenNames x; first | (have hx : Keeps s0 x := ?_; clear_value x; rotate_left; subst x; rotate_right) | clear_value x | subst x)
    | split

theorem State.setAtomic_keeps {s0 : State} {a0 a1 a2 a3} (h0 : Keeps s0 a0) :
    Keeps s0 (State.setAtomic a0 a1 a2 a3) := by
  unfold State.setAtomic
  repeat' first
    | with_reducible intro _ | with_reducible assumption | with_reducible exact OptP.of_none
    | with_reducible apply OptP.of_some
    | (extract_lets +onlyGivenNames x; first | (have hx : Keeps s0 x := ?_; clear_value x; rotate_left; subst x; rotate_right) | clear_value x | subst x)
    | with_reducible apply Keeps.lit

theorem State.homeModify_keeps {s0 : State} {a0 a1 a2 a3} (h0 : Keeps s0 a0) :
    Keeps s0 (State.homeModify a0 a1 a2 a3) := by
  unfold State.homeModify
  repeat' first
    | with_reducible intro _ | with_reducible assumption | with_reducible apply State.afterWrite_keeps
    | with_reducible apply State.ingress_keeps | with_reducible apply State.setAtomic_keeps
    | with_reducible apply State.setPoison_keeps | with_reducible apply State.wrN_keeps | with_reducible exact OptP.of_none
    | with_reducible apply OptP.of_some
    | (extract_lets +onlyGivenNames x; first | (have hx : Keeps s0 x := ?_; clear_value x; rotate_left; subst x; rotate_right) | clear_value x | subst x)
    | split

theorem State.notify_keeps {s0 : State} {a0 a1} (h0 : Keeps s0 a0) :
    Keeps s0 (State.notify a0 a1) := by
  unfold State.notify
  repeat' first
    | with_reducible intro _ | with_reducible assumption | with_reducible apply State.sendEvent_keeps
    | with_reducible exact OptP.of_none | with_reducible apply OptP.of_some
    | (extract_lets +onlyGivenNames x; first | (have hx : Keeps s0 x := ?_; clear_value x; rotate_left; subst x; rotate_right) | clear_value x | subst x)

theorem State.homeWrite_keeps {s0 : State} {a0 a1 a2 a3} (h0 : Keeps s0 a0) :
    Keeps s0 (State.homeWrite a0 a1 a2 a3) := by
  unfold State.homeWrite
  repeat' first
    | with_reducible intro _ | with_reducible assumption | with_reducible apply State.afterWrite_keeps
    | with_reducible apply State.ingress_keeps | with_reducible apply State.notify_keeps
    | with_reducible apply State.wrPay_keeps | with_reducible exact OptP.of_none | with_reducible apply OptP.of_some
    | (extract_lets +onlyGivenNames x; first | (have hx : Keeps s0 x := ?_; clear_value x; rotate_left; subst x; rotate_right) | clear_value x | subst x)

theorem State.pastTurn_keeps {s0 : State} {a0 a1 a2} (h0 : Keeps s0 a0) :
    Keeps s0 (State.pastTurn a0 a1 a2) := by
  unfold State.pastTurn
  repeat' first
    | with_reducible intro _ | with_reducible assumption | with_reducible apply State.setRxSeq_keeps
    | with_reducible exact OptP.of_none | with_reducible apply OptP.of_some
    | (extract_lets +onlyGivenNames x; first | (have hx : Keeps s0 x := ?_; clear_value x; rotate_left; subst x; rotate_right) | clear_value x | subst x)
    | split | with_reducible apply Keeps.lit

theorem State.sendResync_keeps {s0 : State} {a0 a1 a2} (h0 : Keeps s0 a0) :
    Keeps s0 (State.sendResync a0 a1 a2) := by
  unfold State.sendResync
  repeat' first
    | with_reducible intro _ | with_reducible assumption | with_reducible apply State.sendFrame_keeps
    | with_reducible exact OptP.of_none | with_reducible apply OptP.of_some
    | (extract_lets +onlyGivenNames x; first | (have hx : Keeps s0 x := ?_; clear_value x; rotate_left; subst x; rotate_right) | clear_value x | subst x)

theorem State.inTurn_keeps {s0 : State} {a0 a1 a2 a3 a4} (h0 : Keeps s0 a0) (h3 : (∀ v0, Keeps s0 v0 → OptP (fun x1 => Keeps s0 x1) (a3 v0))) (h4 : (∀ v0, Keeps s0 v0 → OptP (fun x1 => Keeps s0 x1) (a4 v0))) :
    OptP (fun x0 => Keeps s0 x0) (State.inTurn a0 a1 a2 a3 a4) := by
  unfold State.inTurn
  repeat' first
    | with_reducible intro _ | with_reducible assumption | with_reducible apply h3 | with_reducible apply h4
    | with_reducible apply State.bumpCfg_keeps | with_reducible apply State.pastTurn_keeps
    | with_reducible apply State.sendResync_keeps | with_reducible exact OptP.of_none | with_reducible apply OptP.of_some
    | with_reducible apply OptP.mapS | with_reducible apply OptP.map | with_reducible apply OptP.mapP | split

theorem State.invsDone_keeps {s0 : State} {a0} (h0 : Keeps s0 a0) :
    Keeps s0 (State.invsDone a0) := by
  unfold State.invsDone
  repeat' first
    | with_reducible intro _ | with_reducible assumption | with_reducible apply State.sendFrame_keeps
    | with_reducible apply State.wrN_keeps | with_reducible exact OptP.of_none | with_reducible apply OptP.of_some
    | with_reducible apply Keeps.foldl | with_reducible apply Keeps.foldl1 | with_reducible apply Keeps.foldl2
    | (extract_lets +onlyGivenNames x; first | (have hx : Keeps s0 x := ?_; clear_value x; rotate_left; subst x; rotate_right) | clear_value x | subst x)
    | split | with_reducible apply Keeps.lit

theorem State.moveReq_keeps {s0 : State} {a0 a1 a2} (h0 : Keeps s0 a0) :
    Keeps s0 (State.moveReq a0 a1 a2) := by
  unfold State.moveReq
  repeat' first
    | with_reducible intro _ | with_reducible assumption | with_reducible apply State.countRetry_keeps
    | with_reducible apply State.sendFrame_keeps | with_reducible apply State.setReqs_keeps
    | with_reducible apply State.setTxSeq_keeps | with_reducible exact OptP.of_none | with_reducible apply OptP.of_some
    | (extract_lets +onlyGivenNames x; first | (have hx : Keeps s0 x := ?_; clear_value x; rotate_left; subst x; rotate_right) | clear_value x | subst x)
    | split

theorem State.moveStream_keeps {s0 : State} {a0 a1 a2} (h0 : Keeps s0 a0) :
    Keeps s0 (State.moveStream a0 a1 a2) := by
  unfold State.moveStream
  repeat' first
    | with_reducible intro _ | with_reducible assumption | with_reducible apply State.moveReq_keeps
    | with_reducible apply State.suspect_keeps | with_reducible exact OptP.of_none | with_reducible apply OptP.of_some
    | with_reducible apply Keeps.foldl | with_reducible apply Keeps.foldl1 | with_reducible apply Keeps.foldl2
    | (extract_lets +onlyGivenNames x; first | (have hx : Keeps s0 x := ?_; clear_value x; rotate_left; subst x; rotate_right) | clear_value x | subst x)
    | split

theorem State.leavePort_keeps {s0 : State} {a0 a1} (h0 : Keeps s0 a0) :
    Keeps s0 (State.leavePort a0 a1) := by
  unfold State.leavePort
  repeat' first
    | with_reducible intro _ | with_reducible assumption | with_reducible apply State.moveStream_keeps
    | with_reducible exact OptP.of_none | with_reducible apply OptP.of_some | with_reducible apply Keeps.foldl
    | with_reducible apply Keeps.foldl1 | with_reducible apply Keeps.foldl2

theorem State.refusalEvent_keeps {s0 : State} {a0 a1 a2 a3} (h0 : Keeps s0 a0) :
    Keeps s0 (State.refusalEvent a0 a1 a2 a3) := by
  unfold State.refusalEvent
  repeat' first
    | with_reducible intro _ | with_reducible assumption | with_reducible apply State.raise_keeps
    | with_reducible exact OptP.of_none | with_reducible apply OptP.of_some
    | (extract_lets +onlyGivenNames x; first | (have hx : Keeps s0 x := ?_; clear_value x; rotate_left; subst x; rotate_right) | clear_value x | subst x)
    | split

theorem State.resendReq_keeps {s0 : State} {a0 a1} (h0 : Keeps s0 a0) :
    Keeps s0 (State.resendReq a0 a1) := by
  unfold State.resendReq
  repeat' first
    | with_reducible intro _ | with_reducible assumption | with_reducible apply State.countRetry_keeps
    | with_reducible apply State.sendFrame_keeps | with_reducible apply State.setReqs_keeps
    | with_reducible exact OptP.of_none | with_reducible apply OptP.of_some
    | (extract_lets +onlyGivenNames x; first | (have hx : Keeps s0 x := ?_; clear_value x; rotate_left; subst x; rotate_right) | clear_value x | subst x)
    | split

theorem State.resendStream_keeps {s0 : State} {a0 a1 a2} (h0 : Keeps s0 a0) :
    Keeps s0 (State.resendStream a0 a1 a2) := by
  unfold State.resendStream
  repeat' first
    | with_reducible intro _ | with_reducible assumption | with_reducible apply State.moveStream_keeps
    | with_reducible apply State.resendReq_keeps | with_reducible exact OptP.of_none | with_reducible apply OptP.of_some
    | with_reducible apply Keeps.foldl | with_reducible apply Keeps.foldl1 | with_reducible apply Keeps.foldl2
    | (extract_lets +onlyGivenNames x; first | (have hx : Keeps s0 x := ?_; clear_value x; rotate_left; subst x; rotate_right) | clear_value x | subst x)
    | split

theorem State.respond_keeps {s0 : State} {a0 a1 a2 a3 a4 a5 a6} (h0 : Keeps s0 a0) :
    Keeps s0 (State.respond a0 a1 a2 a3 a4 a5 a6) := by
  unfold State.respond
  repeat' first
    | with_reducible intro _ | with_reducible assumption | with_reducible apply State.sendFrame_keeps
    | with_reducible exact OptP.of_none | with_reducible apply OptP.of_some
    | (extract_lets +onlyGivenNames x; first | (have hx : Keeps s0 x := ?_; clear_value x; rotate_left; subst x; rotate_right) | clear_value x | subst x)

theorem State.resynced_keeps {s0 : State} {a0 a1 a2 a3} (h0 : Keeps s0 a0) :
    Keeps s0 (State.resynced a0 a1 a2 a3) := by
  unfold State.resynced
  repeat' first
    | with_reducible intro _ | with_reducible assumption | with_reducible apply State.resendStream_keeps
    | with_reducible apply State.setCfgF_keeps | with_reducible apply State.setReqs_keeps
    | with_reducible exact OptP.of_none | with_reducible apply OptP.of_some
    | (extract_lets +onlyGivenNames x; first | (have hx : Keeps s0 x := ?_; clear_value x; rotate_left; subst x; rotate_right) | clear_value x | subst x)
    | split

theorem State.takeDown_keeps {s0 : State} {a0 a1 a2} (h0 : Keeps s0 a0) :
    Keeps s0 (State.takeDown a0 a1 a2) := by
  unfold State.takeDown
  repeat' first
    | with_reducible intro _ | with_reducible assumption | with_reducible apply State.leavePort_keeps
    | with_reducible apply State.raise_keeps | with_reducible apply State.setLinkState_keeps
    | with_reducible exact OptP.of_none | with_reducible apply OptP.of_some
    | (extract_lets +onlyGivenNames x; first | (have hx : Keeps s0 x := ?_; clear_value x; rotate_left; subst x; rotate_right) | clear_value x | subst x)

theorem atomicDataIn_keeps {s0 : State} {a0 a1 a2} (h2 : Keeps s0 a2) :
    OptP (fun x0 => Keeps s0 x0) (atomicDataIn a0 a1 a2) := by
  unfold atomicDataIn
  repeat' first
    | with_reducible intro _ | with_reducible assumption | with_reducible apply State.answer_keeps
    | with_reducible apply State.fault_keeps | with_reducible apply State.wrPay_keeps | with_reducible exact OptP.of_none
    | with_reducible apply OptP.of_some | split | with_reducible refine OptP.get ?_ (by assumption)
    | with_reducible exact OptP.get (by assumption) rfl

theorem atomicAgain_keeps {s0 : State} {a0 a1 a2} (h2 : Keeps s0 a2) :
    OptP (fun x0 => Keeps s0 x0) (atomicAgain a0 a1 a2) := by
  unfold atomicAgain
  repeat' first
    | with_reducible intro _ | with_reducible assumption | with_reducible apply State.respond_keeps
    | with_reducible exact OptP.of_none | with_reducible apply OptP.of_some
    | (extract_lets +onlyGivenNames x; first | (have hx : Keeps s0 x := ?_; clear_value x; rotate_left; subst x; rotate_right) | (have hx : OptP (fun y => Keeps s0 y) x := ?_; clear_value x; rotate_left; subst x; rotate_right) | clear_value x | subst x)
    | split

theorem homeAtomic_keeps {s0 : State} {a0 a1 a2} (h2 : Keeps s0 a2) :
    OptP (fun x0 => Keeps s0 x0) (homeAtomic a0 a1 a2) := by
  unfold homeAtomic
  repeat' first
    | with_reducible intro _ | with_reducible assumption | with_reducible apply State.homeModify_keeps
    | with_reducible apply State.refusalEvent_keeps | with_reducible apply State.respond_keeps
    | with_reducible exact OptP.of_none | with_reducible apply OptP.of_some
    | (extract_lets +onlyGivenNames x; first | (have hx : Keeps s0 x := ?_; clear_value x; rotate_left; subst x; rotate_right) | (have hx : OptP (fun y => Keeps s0 y) x := ?_; clear_value x; rotate_left; subst x; rotate_right) | clear_value x | subst x)
    | split

theorem atomicIn_keeps {s0 : State} {a0 a1 a2} (h2 : Keeps s0 a2) :
    OptP (fun x0 => Keeps s0 x0) (atomicIn a0 a1 a2) := by
  unfold atomicIn
  repeat' first
    | with_reducible intro _ | with_reducible assumption | with_reducible apply State.homeGate_keeps
    | with_reducible apply State.inTurn_keeps | with_reducible apply State.letIn_keeps
    | with_reducible apply atomicAgain_keeps | with_reducible apply homeAtomic_keeps | with_reducible exact OptP.of_none
    | with_reducible apply OptP.of_some

theorem homeEvict_keeps {s0 : State} {a0 a1} (h1 : Keeps s0 a1) :
    Keeps s0 (homeEvict a0 a1) := by
  unfold homeEvict
  repeat' first
    | with_reducible intro _ | with_reducible assumption | with_reducible apply State.bumpCfg_keeps
    | with_reducible apply State.wrN_keeps | with_reducible exact OptP.of_none | with_reducible apply OptP.of_some
    | (extract_lets +onlyGivenNames x; first | (have hx : Keeps s0 x := ?_; clear_value x; rotate_left; subst x; rotate_right) | clear_value x | subst x)
    | split

theorem evictIn_keeps {s0 : State} {a0 a1 a2} (h2 : Keeps s0 a2) :
    OptP (fun x0 => Keeps s0 x0) (evictIn a0 a1 a2) := by
  unfold evictIn
  repeat' first
    | with_reducible intro _ | with_reducible assumption | with_reducible apply State.inTurn_keeps
    | with_reducible apply State.letIn_keeps | with_reducible apply homeEvict_keeps | with_reducible exact OptP.of_none
    | with_reducible apply OptP.of_some

theorem fillData_keeps {s0 : State} {a0 a1} (h1 : Keeps s0 a1) :
    Keeps s0 (fillData a0 a1) := by
  unfold fillData
  repeat' first
    | with_reducible intro _ | with_reducible assumption | with_reducible apply State.fault_keeps
    | with_reducible apply State.landLoad_keeps | with_reducible apply State.setFc_keeps
    | with_reducible exact OptP.of_none | with_reducible apply OptP.of_some | with_reducible apply Keeps.foldl
    | with_reducible apply Keeps.foldl1 | with_reducible apply Keeps.foldl2
    | (extract_lets +onlyGivenNames x; first | (have hx : Keeps s0 x := ?_; clear_value x; rotate_left; subst x; rotate_right) | clear_value x | subst x)
    | split | with_reducible apply Keeps.lit

theorem fillDataIn_keeps {s0 : State} {a0 a1 a2} (h2 : Keeps s0 a2) :
    OptP (fun x0 => Keeps s0 x0) (fillDataIn a0 a1 a2) := by
  unfold fillDataIn
  repeat' first
    | with_reducible intro _ | with_reducible assumption | with_reducible apply State.answer_keeps
    | with_reducible apply fillData_keeps | with_reducible exact OptP.of_none | with_reducible apply OptP.of_some
    | with_reducible apply OptP.getD | with_reducible apply OptP.mapS | with_reducible apply OptP.map
    | with_reducible apply OptP.mapP
    | (extract_lets +onlyGivenNames x; first | (have hx : Keeps s0 x := ?_; clear_value x; rotate_left; subst x; rotate_right) | (have hx : OptP (fun y => Keeps s0 y) x := ?_; clear_value x; rotate_left; subst x; rotate_right) | clear_value x | subst x)
    | split | with_reducible refine OptP.get ?_ (by assumption) | with_reducible exact OptP.get (by assumption) rfl

theorem homeFill_keeps {s0 : State} {a0 a1 a2 a3} (h3 : Keeps s0 a3) :
    OptP (fun x0 => Keeps s0 x0) (homeFill a0 a1 a2 a3) := by
  unfold homeFill
  repeat' first
    | with_reducible intro _ | with_reducible assumption | with_reducible apply State.homeGive_keeps
    | with_reducible apply State.refusalEvent_keeps | with_reducible apply State.respond_keeps
    | with_reducible exact OptP.of_none | with_reducible apply OptP.of_some | split

theorem fillIn_keeps {s0 : State} {a0 a1 a2} (h2 : Keeps s0 a2) :
    OptP (fun x0 => Keeps s0 x0) (fillIn a0 a1 a2) := by
  unfold fillIn
  repeat' first
    | with_reducible intro _ | with_reducible assumption | with_reducible apply State.homeGate_keeps
    | with_reducible apply State.inTurn_keeps | with_reducible apply State.letIn_keeps
    | with_reducible apply homeFill_keeps | with_reducible exact OptP.of_none | with_reducible apply OptP.of_some

theorem invalAckIn_keeps {s0 : State} {a0 a1 a2} (h2 : Keeps s0 a2) :
    OptP (fun x0 => Keeps s0 x0) (invalAckIn a0 a1 a2) := by
  unfold invalAckIn
  repeat' first
    | with_reducible intro _ | with_reducible assumption | with_reducible apply State.answer_keeps
    | with_reducible apply State.invsDone_keeps | with_reducible exact OptP.of_none | with_reducible apply OptP.of_some
    | (extract_lets +onlyGivenNames x; first | (have hx : Keeps s0 x := ?_; clear_value x; rotate_left; subst x; rotate_right) | (have hx : OptP (fun y => Keeps s0 y) x := ?_; clear_value x; rotate_left; subst x; rotate_right) | clear_value x | subst x)
    | split | with_reducible refine OptP.get ?_ (by assumption) | with_reducible exact OptP.get (by assumption) rfl
    | with_reducible apply Keeps.lit

theorem invalApply_keeps {s0 : State} {a0 a1 a2 a3} (h3 : Keeps s0 a3) :
    OptP (fun x0 => Keeps s0 x0) (invalApply a0 a1 a2 a3) := by
  unfold invalApply
  repeat' first
    | with_reducible intro _ | with_reducible assumption | with_reducible apply State.respond_keeps
    | with_reducible apply State.setFc_keeps | with_reducible exact OptP.of_none | with_reducible apply OptP.of_some
    | (extract_lets +onlyGivenNames x; first | (have hx : Keeps s0 x := ?_; clear_value x; rotate_left; subst x; rotate_right) | (have hx : OptP (fun y => Keeps s0 y) x := ?_; clear_value x; rotate_left; subst x; rotate_right) | clear_value x | subst x)
    | split

theorem invalIn_keeps {s0 : State} {a0 a1 a2} (h2 : Keeps s0 a2) :
    OptP (fun x0 => Keeps s0 x0) (invalIn a0 a1 a2) := by
  unfold invalIn
  repeat' first
    | with_reducible intro _ | with_reducible assumption | with_reducible apply State.inTurn_keeps
    | with_reducible apply State.letIn_keeps | with_reducible apply invalApply_keeps | with_reducible exact OptP.of_none
    | with_reducible apply OptP.of_some

theorem loadDataIn_keeps {s0 : State} {a0 a1 a2} (h2 : Keeps s0 a2) :
    OptP (fun x0 => Keeps s0 x0) (loadDataIn a0 a1 a2) := by
  unfold loadDataIn
  repeat' first
    | with_reducible intro _ | with_reducible assumption | with_reducible apply State.answer_keeps
    | with_reducible apply State.fault_keeps | with_reducible apply State.wrPay_keeps | with_reducible exact OptP.of_none
    | with_reducible apply OptP.of_some | split | with_reducible refine OptP.get ?_ (by assumption)
    | with_reducible exact OptP.get (by assumption) rfl

theorem homeLoad_keeps {s0 : State} {a0 a1 a2 a3} (h3 : Keeps s0 a3) :
    OptP (fun x0 => Keeps s0 x0) (homeLoad a0 a1 a2 a3) := by
  unfold homeLoad
  repeat' first
    | with_reducible intro _ | with_reducible assumption | with_reducible apply State.refusalEvent_keeps
    | with_reducible apply State.requestWake_keeps | with_reducible apply State.respond_keeps
    | with_reducible exact OptP.of_none | with_reducible apply OptP.of_some | split

theorem loadIn_keeps {s0 : State} {a0 a1 a2} (h2 : Keeps s0 a2) :
    OptP (fun x0 => Keeps s0 x0) (loadIn a0 a1 a2) := by
  unfold loadIn
  repeat' first
    | with_reducible intro _ | with_reducible assumption | with_reducible apply State.dropFrame_keeps
    | with_reducible apply State.homeGate_keeps | with_reducible apply State.inTurn_keeps
    | with_reducible apply State.letIn_keeps | with_reducible apply homeLoad_keeps | with_reducible exact OptP.of_none
    | with_reducible apply OptP.of_some | split | with_reducible refine OptP.get ?_ (by assumption)
    | with_reducible exact OptP.get (by assumption) rfl

theorem resyncIn_keeps {s0 : State} {a0 a1 a2} (h2 : Keeps s0 a2) :
    OptP (fun x0 => Keeps s0 x0) (resyncIn a0 a1 a2) := by
  unfold resyncIn
  repeat' first
    | with_reducible intro _ | with_reducible assumption | with_reducible apply State.letIn_keeps
    | with_reducible apply State.resynced_keeps | with_reducible exact OptP.of_none | with_reducible apply OptP.of_some

theorem storeAckIn_keeps {s0 : State} {a0 a1 a2} (h2 : Keeps s0 a2) :
    OptP (fun x0 => Keeps s0 x0) (storeAckIn a0 a1 a2) := by
  unfold storeAckIn
  repeat' first
    | with_reducible intro _ | with_reducible assumption | with_reducible apply State.answer_keeps
    | with_reducible apply State.fault_keeps | with_reducible exact OptP.of_none | with_reducible apply OptP.of_some
    | split | with_reducible refine OptP.get ?_ (by assumption) | with_reducible exact OptP.get (by assumption) rfl

theorem homeStore_keeps {s0 : State} {a0 a1 a2} (h2 : Keeps s0 a2) :
    OptP (fun x0 => Keeps s0 x0) (homeStore a0 a1 a2) := by
  unfold homeStore
  repeat' first
    | with_reducible intro _ | with_reducible assumption | with_reducible apply State.homeWrite_keeps
    | with_reducible apply State.refusalEvent_keeps | with_reducible apply State.respond_keeps
    | with_reducible exact OptP.of_none | with_reducible apply OptP.of_some | split

theorem storeAgain_keeps {s0 : State} {a0 a1 a2} (h2 : Keeps s0 a2) :
    OptP (fun x0 => Keeps s0 x0) (storeAgain a0 a1 a2) := by
  unfold storeAgain
  repeat' first
    | with_reducible intro _ | with_reducible assumption | with_reducible apply State.respond_keeps
    | with_reducible exact OptP.of_none | with_reducible apply OptP.of_some | split

theorem storeIn_keeps {s0 : State} {a0 a1 a2} (h2 : Keeps s0 a2) :
    OptP (fun x0 => Keeps s0 x0) (storeIn a0 a1 a2) := by
  unfold storeIn
  repeat' first
    | with_reducible intro _ | with_reducible assumption | with_reducible apply State.dropFrame_keeps
    | with_reducible apply State.homeGate_keeps | with_reducible apply State.inTurn_keeps
    | with_reducible apply State.letIn_keeps | with_reducible apply homeStore_keeps | with_reducible apply storeAgain_keeps
    | with_reducible exact OptP.of_none | with_reducible apply OptP.of_some | split
    | with_reducible refine OptP.get ?_ (by assumption) | with_reducible exact OptP.get (by assumption) rfl

theorem alarmIn_keeps {s0 : State} {a0 a1 a2} (h2 : Keeps s0 a2) :
    OptP (fun x0 => Keeps s0 x0) (alarmIn a0 a1 a2) := by
  unfold alarmIn
  repeat' first
    | with_reducible intro _ | with_reducible assumption | with_reducible apply State.alarmed_keeps
    | with_reducible apply State.letIn_keeps | with_reducible exact OptP.of_none | with_reducible apply OptP.of_some

theorem d2dFailure_keeps {s0 : State} {a0 a1 a2 a3 a4} (h4 : Keeps s0 a4) :
    OptP (fun x0 => Keeps s0 x0) (d2dFailure a0 a1 a2 a3 a4) := by
  unfold d2dFailure
  repeat' first
    | with_reducible intro _ | with_reducible assumption | with_reducible apply State.raise_keeps
    | with_reducible exact OptP.of_none | with_reducible apply OptP.of_some
    | (extract_lets +onlyGivenNames x; first | (have hx : Keeps s0 x := ?_; clear_value x; rotate_left; subst x; rotate_right) | (have hx : OptP (fun y => Keeps s0 y) x := ?_; clear_value x; rotate_left; subst x; rotate_right) | clear_value x | subst x)
    | split | with_reducible apply Keeps.lit

theorem execAlarm_keeps {s0 : State} {a0 a1 a2} (h2 : Keeps s0 a2) :
    OutK s0 (execAlarm a0 a1 a2) := by
  unfold execAlarm
  repeat' first
    | with_reducible intro _ | with_reducible assumption | with_reducible apply alarmIn_keeps
    | with_reducible apply attempt_keeps | with_reducible exact OptP.of_none | with_reducible apply OptP.of_some
    | with_reducible apply OutK.next

theorem unlessFrozen_keeps {s0 : State} {a0 a1 a2} (h1 : (∀ v0, Keeps s0 v0 → OptP (fun x1 => Keeps s0 x1) (a1 v0))) (h2 : Keeps s0 a2) :
    OptP (fun x0 => Keeps s0 x0) (unlessFrozen a0 a1 a2) := by
  unfold unlessFrozen
  repeat' first
    | with_reducible intro _ | with_reducible assumption | with_reducible apply h1 | with_reducible exact OptP.of_none
    | with_reducible apply OptP.of_some | split

theorem execAtomic_keeps {s0 : State} {a0 a1 a2} (h2 : Keeps s0 a2) :
    OutK s0 (execAtomic a0 a1 a2) := by
  unfold execAtomic
  repeat' first
    | with_reducible intro _ | with_reducible assumption | with_reducible apply atomicIn_keeps
    | with_reducible apply unlessFrozen_keeps | with_reducible apply attempt_keeps | with_reducible exact OptP.of_none
    | with_reducible apply OptP.of_some | with_reducible apply OutK.next

theorem execAtomicData_keeps {s0 : State} {a0 a1 a2} (h2 : Keeps s0 a2) :
    OutK s0 (execAtomicData a0 a1 a2) := by
  unfold execAtomicData
  repeat' first
    | with_reducible intro _ | with_reducible assumption | with_reducible apply atomicDataIn_keeps
    | with_reducible apply unlessFrozen_keeps | with_reducible apply attempt_keeps | with_reducible exact OptP.of_none
    | with_reducible apply OptP.of_some | with_reducible apply OutK.next

theorem execD2dLinkFailure_keeps {s0 : State} {a0 a1 a2 a3 a4} (h4 : Keeps s0 a4) :
    OutK s0 (execD2dLinkFailure a0 a1 a2 a3 a4) := by
  unfold execD2dLinkFailure
  repeat' first
    | with_reducible intro _ | with_reducible assumption | with_reducible apply d2dFailure_keeps
    | with_reducible apply attempt_keeps | with_reducible exact OptP.of_none | with_reducible apply OptP.of_some
    | with_reducible apply OutK.next

theorem execEvict_keeps {s0 : State} {a0 a1 a2} (h2 : Keeps s0 a2) :
    OutK s0 (execEvict a0 a1 a2) := by
  unfold execEvict
  repeat' first
    | with_reducible intro _ | with_reducible assumption | with_reducible apply evictIn_keeps
    | with_reducible apply unlessFrozen_keeps | with_reducible apply attempt_keeps | with_reducible exact OptP.of_none
    | with_reducible apply OptP.of_some | with_reducible apply OutK.next

theorem farCacheLoad_keeps {s0 : State} {a0 a1 a2 a3 a4 a5} (h5 : Keeps s0 a5) :
    OptP (fun x0 => Keeps s0 x0) (farCacheLoad a0 a1 a2 a3 a4 a5) := by
  unfold farCacheLoad
  repeat' first
    | with_reducible intro _ | with_reducible assumption | with_reducible apply State.accessError_keeps
    | with_reducible apply State.fault_keeps | with_reducible apply State.fcLoad_keeps
    | with_reducible apply State.holdStream_keeps | with_reducible apply State.issueReq_keeps
    | with_reducible apply State.requestWake_keeps | with_reducible apply State.suspect_keeps
    | with_reducible exact OptP.of_none | with_reducible apply OptP.of_some
    | (extract_lets +onlyGivenNames x; first | (have hx : Keeps s0 x := ?_; clear_value x; rotate_left; subst x; rotate_right) | (have hx : OptP (fun y => Keeps s0 y) x := ?_; clear_value x; rotate_left; subst x; rotate_right) | clear_value x | subst x)
    | split | with_reducible refine OptP.get ?_ (by assumption) | with_reducible exact OptP.get (by assumption) rfl

theorem execFarCacheLoad_keeps {s0 : State} {a0 a1 a2 a3 a4 a5} (h5 : Keeps s0 a5) :
    OutK s0 (execFarCacheLoad a0 a1 a2 a3 a4 a5) := by
  unfold execFarCacheLoad
  repeat' first
    | with_reducible intro _ | with_reducible assumption | with_reducible apply farCacheLoad_keeps
    | with_reducible apply attempt_keeps | with_reducible exact OptP.of_none | with_reducible apply OptP.of_some
    | with_reducible apply OutK.next

theorem execFill_keeps {s0 : State} {a0 a1 a2} (h2 : Keeps s0 a2) :
    OutK s0 (execFill a0 a1 a2) := by
  unfold execFill
  repeat' first
    | with_reducible intro _ | with_reducible assumption | with_reducible apply fillIn_keeps
    | with_reducible apply unlessFrozen_keeps | with_reducible apply attempt_keeps | with_reducible exact OptP.of_none
    | with_reducible apply OptP.of_some | with_reducible apply OutK.next

theorem execFillData_keeps {s0 : State} {a0 a1 a2} (h2 : Keeps s0 a2) :
    OutK s0 (execFillData a0 a1 a2) := by
  unfold execFillData
  repeat' first
    | with_reducible intro _ | with_reducible assumption | with_reducible apply fillDataIn_keeps
    | with_reducible apply unlessFrozen_keeps | with_reducible apply attempt_keeps | with_reducible exact OptP.of_none
    | with_reducible apply OptP.of_some | with_reducible apply OutK.next

theorem execInval_keeps {s0 : State} {a0 a1 a2} (h2 : Keeps s0 a2) :
    OutK s0 (execInval a0 a1 a2) := by
  unfold execInval
  repeat' first
    | with_reducible intro _ | with_reducible assumption | with_reducible apply invalIn_keeps
    | with_reducible apply unlessFrozen_keeps | with_reducible apply attempt_keeps | with_reducible exact OptP.of_none
    | with_reducible apply OptP.of_some | with_reducible apply OutK.next

theorem execInvalAck_keeps {s0 : State} {a0 a1 a2} (h2 : Keeps s0 a2) :
    OutK s0 (execInvalAck a0 a1 a2) := by
  unfold execInvalAck
  repeat' first
    | with_reducible intro _ | with_reducible assumption | with_reducible apply invalAckIn_keeps
    | with_reducible apply unlessFrozen_keeps | with_reducible apply attempt_keeps | with_reducible exact OptP.of_none
    | with_reducible apply OptP.of_some | with_reducible apply OutK.next

theorem laneFailure_keeps {s0 : State} {a0 a1 a2} (h2 : Keeps s0 a2) :
    OptP (fun x0 => Keeps s0 x0) (laneFailure a0 a1 a2) := by
  unfold laneFailure
  repeat' first
    | with_reducible intro _ | with_reducible assumption | with_reducible apply State.armSpare_keeps
    | with_reducible apply State.sendCtl_keeps | with_reducible apply State.takeDown_keeps
    | with_reducible exact OptP.of_none | with_reducible apply OptP.of_some
    | (extract_lets +onlyGivenNames x; first | (have hx : Keeps s0 x := ?_; clear_value x; rotate_left; subst x; rotate_right) | (have hx : OptP (fun y => Keeps s0 y) x := ?_; clear_value x; rotate_left; subst x; rotate_right) | clear_value x | subst x)
    | split | with_reducible apply Keeps.lit

theorem execLaneFailure_keeps {s0 : State} {a0 a1 a2} (h2 : Keeps s0 a2) :
    OutK s0 (execLaneFailure a0 a1 a2) := by
  unfold execLaneFailure
  repeat' first
    | with_reducible intro _ | with_reducible assumption | with_reducible apply laneFailure_keeps
    | with_reducible apply attempt_keeps | with_reducible exact OptP.of_none | with_reducible apply OptP.of_some
    | with_reducible apply OutK.next

theorem linkTrained_keeps {s0 : State} {a0 a1 a2} (h2 : Keeps s0 a2) :
    OptP (fun x0 => Keeps s0 x0) (linkTrained a0 a1 a2) := by
  unfold linkTrained
  repeat' first
    | with_reducible intro _ | with_reducible assumption | with_reducible apply State.setCfgF_keeps
    | with_reducible apply State.setLinkState_keeps | with_reducible apply State.setLnk_keeps
    | with_reducible apply State.takeDown_keeps | with_reducible exact OptP.of_none | with_reducible apply OptP.of_some
    | (extract_lets +onlyGivenNames x; first | (have hx : Keeps s0 x := ?_; clear_value x; rotate_left; subst x; rotate_right) | (have hx : OptP (fun y => Keeps s0 y) x := ?_; clear_value x; rotate_left; subst x; rotate_right) | clear_value x | subst x)
    | split | with_reducible apply Keeps.lit

theorem execLinkTrainingComplete_keeps {s0 : State} {a0 a1 a2} (h2 : Keeps s0 a2) :
    OutK s0 (execLinkTrainingComplete a0 a1 a2) := by
  unfold execLinkTrainingComplete
  repeat' first
    | with_reducible intro _ | with_reducible assumption | with_reducible apply linkTrained_keeps
    | with_reducible apply attempt_keeps | with_reducible exact OptP.of_none | with_reducible apply OptP.of_some
    | with_reducible apply OutK.next

theorem execLoad_keeps {s0 : State} {a0 a1 a2} (h2 : Keeps s0 a2) :
    OutK s0 (execLoad a0 a1 a2) := by
  unfold execLoad
  repeat' first
    | with_reducible intro _ | with_reducible assumption | with_reducible apply loadIn_keeps
    | with_reducible apply unlessFrozen_keeps | with_reducible apply attempt_keeps | with_reducible exact OptP.of_none
    | with_reducible apply OptP.of_some | with_reducible apply OutK.next

theorem execLoadData_keeps {s0 : State} {a0 a1 a2} (h2 : Keeps s0 a2) :
    OutK s0 (execLoadData a0 a1 a2) := by
  unfold execLoadData
  repeat' first
    | with_reducible intro _ | with_reducible assumption | with_reducible apply loadDataIn_keeps
    | with_reducible apply unlessFrozen_keeps | with_reducible apply attempt_keeps | with_reducible exact OptP.of_none
    | with_reducible apply OptP.of_some | with_reducible apply OutK.next

theorem portDown_keeps {s0 : State} {a0 a1} (h1 : Keeps s0 a1) :
    OptP (fun x0 => Keeps s0 x0) (portDown a0 a1) := by
  unfold portDown
  repeat' first
    | with_reducible intro _ | with_reducible assumption | with_reducible apply State.takeDown_keeps
    | with_reducible exact OptP.of_none | with_reducible apply OptP.of_some | split

theorem execPortDown_keeps {s0 : State} {a0 a1} (h1 : Keeps s0 a1) :
    OutK s0 (execPortDown a0 a1) := by
  unfold execPortDown
  repeat' first
    | with_reducible intro _ | with_reducible assumption | with_reducible apply portDown_keeps
    | with_reducible apply attempt_keeps | with_reducible exact OptP.of_none | with_reducible apply OptP.of_some
    | with_reducible apply OutK.next

theorem requestTimeout_keeps {s0 : State} {a0 a1 a2} (h2 : Keeps s0 a2) :
    OptP (fun x0 => Keeps s0 x0) (requestTimeout a0 a1 a2) := by
  unfold requestTimeout
  repeat' first
    | with_reducible intro _ | with_reducible assumption | with_reducible apply State.resendStream_keeps
    | with_reducible exact OptP.of_none | with_reducible apply OptP.of_some
    | (extract_lets +onlyGivenNames x; first | (have hx : Keeps s0 x := ?_; clear_value x; rotate_left; subst x; rotate_right) | (have hx : OptP (fun y => Keeps s0 y) x := ?_; clear_value x; rotate_left; subst x; rotate_right) | clear_value x | subst x)
    | split

theorem execRequestTimeout_keeps {s0 : State} {a0 a1 a2} (h2 : Keeps s0 a2) :
    OutK s0 (execRequestTimeout a0 a1 a2) := by
  unfold execRequestTimeout
  repeat' first
    | with_reducible intro _ | with_reducible assumption | with_reducible apply requestTimeout_keeps
    | with_reducible apply attempt_keeps | with_reducible exact OptP.of_none | with_reducible apply OptP.of_some
    | with_reducible apply OutK.next

theorem execResync_keeps {s0 : State} {a0 a1 a2} (h2 : Keeps s0 a2) :
    OutK s0 (execResync a0 a1 a2) := by
  unfold execResync
  repeat' first
    | with_reducible intro _ | with_reducible assumption | with_reducible apply resyncIn_keeps
    | with_reducible apply unlessFrozen_keeps | with_reducible apply attempt_keeps | with_reducible exact OptP.of_none
    | with_reducible apply OptP.of_some | with_reducible apply OutK.next

theorem execStore_keeps {s0 : State} {a0 a1 a2} (h2 : Keeps s0 a2) :
    OutK s0 (execStore a0 a1 a2) := by
  unfold execStore
  repeat' first
    | with_reducible intro _ | with_reducible assumption | with_reducible apply storeIn_keeps
    | with_reducible apply unlessFrozen_keeps | with_reducible apply attempt_keeps | with_reducible exact OptP.of_none
    | with_reducible apply OptP.of_some | with_reducible apply OutK.next

theorem execStoreAck_keeps {s0 : State} {a0 a1 a2} (h2 : Keeps s0 a2) :
    OutK s0 (execStoreAck a0 a1 a2) := by
  unfold execStoreAck
  repeat' first
    | with_reducible intro _ | with_reducible assumption | with_reducible apply storeAckIn_keeps
    | with_reducible apply unlessFrozen_keeps | with_reducible apply attempt_keeps | with_reducible exact OptP.of_none
    | with_reducible apply OptP.of_some | with_reducible apply OutK.next

end Sys2Proof.Machine
end

