-- ==== Sys2Proof/Laws/KeepsOfClosing.lean ====
section
/-! SUPPORT. What the operations of Closing keep. -/

namespace Sys2Proof.Machine

theorem State.bookClose_keeps {s0 : State} {a0 a1} (h0 : Keeps s0 a0) :
    Keeps s0 (State.bookClose a0 a1) := by
  unfold State.bookClose
  repeat' first
    | with_reducible intro _ | with_reducible assumption | with_reducible apply State.bumpGroup_keeps
    | with_reducible apply State.setPart_keeps | with_reducible exact OptP.of_none | with_reducible apply OptP.of_some
    | (extract_lets +onlyGivenNames x; first | (have hx : Keeps s0 x := ?_; clear_value x; rotate_left; subst x; rotate_right) | clear_value x | subst x)
    | split | with_reducible apply Keeps.lit

theorem State.ingressEntry_keeps {s0 : State} {a0 a1} (h0 : Keeps s0 a0) :
    Keeps s0 (State.ingressEntry a0 a1) := by
  unfold State.ingressEntry
  repeat' first
    | with_reducible intro _ | with_reducible assumption | with_reducible apply State.diverge_keeps
    | with_reducible apply State.journal_keeps | with_reducible exact OptP.of_none | with_reducible apply OptP.of_some
    | (extract_lets +onlyGivenNames x; first | (have hx : Keeps s0 x := ?_; clear_value x; rotate_left; subst x; rotate_right) | clear_value x | subst x)
    | split

theorem State.lateStart_keeps {s0 : State} {a0 a1} (h0 : Keeps s0 a0) :
    Keeps s0 (State.lateStart a0 a1) := by
  unfold State.lateStart
  repeat' first
    | with_reducible intro _ | with_reducible assumption | with_reducible apply State.notice_keeps
    | with_reducible apply State.sendFirst_keeps | with_reducible apply State.setPart_keeps
    | with_reducible exact OptP.of_none | with_reducible apply OptP.of_some | with_reducible apply OptP.getD
    | with_reducible apply Keeps.foldl | with_reducible apply Keeps.foldl1 | with_reducible apply Keeps.foldl2
    | (extract_lets +onlyGivenNames x; first | (have hx : Keeps s0 x := ?_; clear_value x; rotate_left; subst x; rotate_right) | clear_value x | subst x)
    | split

theorem State.proposeSleep_keeps {s0 : State} {a0 a1} (h0 : Keeps s0 a0) :
    Keeps s0 (State.proposeSleep a0 a1) := by
  unfold State.proposeSleep
  repeat' first
    | with_reducible intro _ | with_reducible assumption | with_reducible apply State.setPart_keeps
    | with_reducible exact OptP.of_none | with_reducible apply OptP.of_some
    | (extract_lets +onlyGivenNames x; first | (have hx : Keeps s0 x := ?_; clear_value x; rotate_left; subst x; rotate_right) | clear_value x | subst x)
    | split

theorem State.closeWindow_keeps {s0 : State} {a0 a1} (h0 : Keeps s0 a0) :
    Keeps s0 (State.closeWindow a0 a1) := by
  unfold State.closeWindow
  repeat' first
    | with_reducible intro _ | with_reducible assumption | with_reducible apply State.bookClose_keeps
    | with_reducible apply State.ingressEntry_keeps | with_reducible apply State.lateStart_keeps
    | with_reducible apply State.notice_keeps | with_reducible apply State.proposeSleep_keeps
    | with_reducible exact OptP.of_none | with_reducible apply OptP.of_some
    | (extract_lets +onlyGivenNames x; first | (have hx : Keeps s0 x := ?_; clear_value x; rotate_left; subst x; rotate_right) | clear_value x | subst x)
    | split

theorem State.equalShares_keeps {s0 : State} {a0} (h0 : Keeps s0 a0) :
    Keeps s0 (State.equalShares a0) := by
  unfold State.equalShares
  repeat' first
    | with_reducible intro _ | with_reducible assumption | with_reducible apply State.setPart_keeps
    | with_reducible exact OptP.of_none | with_reducible apply OptP.of_some | with_reducible apply Keeps.foldl
    | with_reducible apply Keeps.foldl1 | with_reducible apply Keeps.foldl2
    | (extract_lets +onlyGivenNames x; first | (have hx : Keeps s0 x := ?_; clear_value x; rotate_left; subst x; rotate_right) | clear_value x | subst x)

theorem State.holdExpires_keeps {s0 : State} {a0 a1 a2 a3} (h0 : Keeps s0 a0) :
    Keeps s0 (State.holdExpires a0 a1 a2 a3) := by
  unfold State.holdExpires
  repeat' first
    | with_reducible intro _ | with_reducible assumption | with_reducible apply State.equalShares_keeps
    | with_reducible apply State.notice_keeps | with_reducible apply State.resolveNorm_keeps
    | with_reducible apply State.setPart_keeps | with_reducible apply State.takeEvent_keeps
    | with_reducible exact OptP.of_none | with_reducible apply OptP.of_some
    | (extract_lets +onlyGivenNames x; first | (have hx : Keeps s0 x := ?_; clear_value x; rotate_left; subst x; rotate_right) | clear_value x | subst x)
    | split

theorem State.wakeDom_keeps {s0 : State} {a0 a1 a2} (h0 : Keeps s0 a0) :
    Keeps s0 (State.wakeDom a0 a1 a2) := by
  unfold State.wakeDom
  repeat' first
    | with_reducible intro _ | with_reducible assumption | with_reducible apply State.setDom_keeps
    | with_reducible exact OptP.of_none | with_reducible apply OptP.of_some
    | (extract_lets +onlyGivenNames x; first | (have hx : Keeps s0 x := ?_; clear_value x; rotate_left; subst x; rotate_right) | clear_value x | subst x)
    | split

theorem hangLimit_keeps {s0 : State} {a0 a1} (h1 : Keeps s0 a1) :
    OptP (fun x0 => Keeps s0 x0) (hangLimit a0 a1) := by
  unfold hangLimit
  repeat' first
    | with_reducible intro _ | with_reducible assumption | with_reducible apply State.hold_keeps
    | with_reducible exact OptP.of_none | with_reducible apply OptP.of_some | with_reducible apply OptP.getD
    | (extract_lets +onlyGivenNames x; first | (have hx : Keeps s0 x := ?_; clear_value x; rotate_left; subst x; rotate_right) | (have hx : OptP (fun y => Keeps s0 y) x := ?_; clear_value x; rotate_left; subst x; rotate_right) | clear_value x | subst x)
    | split

theorem execHangLimitExpiry_keeps {s0 : State} {a0 a1} (h1 : Keeps s0 a1) :
    OutK s0 (execHangLimitExpiry a0 a1) := by
  unfold execHangLimitExpiry
  repeat' first
    | with_reducible intro _ | with_reducible assumption | with_reducible apply hangLimit_keeps
    | with_reducible apply attempt_keeps | with_reducible exact OptP.of_none | with_reducible apply OptP.of_some
    | with_reducible apply OutK.next

theorem holdLimit_keeps {s0 : State} {a0 a1 a2} (h2 : Keeps s0 a2) :
    OptP (fun x0 => Keeps s0 x0) (holdLimit a0 a1 a2) := by
  unfold holdLimit
  repeat' first
    | with_reducible intro _ | with_reducible assumption | with_reducible apply State.holdExpires_keeps
    | with_reducible exact OptP.of_none | with_reducible apply OptP.of_some
    | (extract_lets +onlyGivenNames x; first | (have hx : Keeps s0 x := ?_; clear_value x; rotate_left; subst x; rotate_right) | (have hx : OptP (fun y => Keeps s0 y) x := ?_; clear_value x; rotate_left; subst x; rotate_right) | clear_value x | subst x)
    | split

theorem execHoldLimitExpiry_keeps {s0 : State} {a0 a1 a2} (h2 : Keeps s0 a2) :
    OutK s0 (execHoldLimitExpiry a0 a1 a2) := by
  unfold execHoldLimitExpiry
  repeat' first
    | with_reducible intro _ | with_reducible assumption | with_reducible apply holdLimit_keeps
    | with_reducible apply attempt_keeps | with_reducible exact OptP.of_none | with_reducible apply OptP.of_some
    | with_reducible apply OutK.next

theorem latchedWake_keeps {s0 : State} {a0 a1} (h1 : Keeps s0 a1) :
    OptP (fun x0 => Keeps s0 x0) (latchedWake a0 a1) := by
  unfold latchedWake
  repeat' first
    | with_reducible intro _ | with_reducible assumption | with_reducible apply State.setPart_keeps
    | with_reducible apply State.wakeDom_keeps | with_reducible exact OptP.of_none | with_reducible apply OptP.of_some
    | with_reducible apply Keeps.foldl | with_reducible apply Keeps.foldl1 | with_reducible apply Keeps.foldl2
    | (extract_lets +onlyGivenNames x; first | (have hx : Keeps s0 x := ?_; clear_value x; rotate_left; subst x; rotate_right) | (have hx : OptP (fun y => Keeps s0 y) x := ?_; clear_value x; rotate_left; subst x; rotate_right) | clear_value x | subst x)
    | split

theorem execLatchedWake_keeps {s0 : State} {a0 a1} (h1 : Keeps s0 a1) :
    OutK s0 (execLatchedWake a0 a1) := by
  unfold execLatchedWake
  repeat' first
    | with_reducible intro _ | with_reducible assumption | with_reducible apply latchedWake_keeps
    | with_reducible apply attempt_keeps | with_reducible exact OptP.of_none | with_reducible apply OptP.of_some
    | with_reducible apply OutK.next

theorem lateIn_keeps {s0 : State} {a0 a1 a2} (h2 : Keeps s0 a2) :
    OptP (fun x0 => Keeps s0 x0) (lateIn a0 a1 a2) := by
  unfold lateIn
  repeat' first
    | with_reducible intro _ | with_reducible assumption | with_reducible apply State.dropFrame_keeps
    | with_reducible apply State.letIn_keeps | with_reducible apply State.setPart_keeps | with_reducible exact OptP.of_none
    | with_reducible apply OptP.of_some
    | (extract_lets +onlyGivenNames x; first | (have hx : Keeps s0 x := ?_; clear_value x; rotate_left; subst x; rotate_right) | (have hx : OptP (fun y => Keeps s0 y) x := ?_; clear_value x; rotate_left; subst x; rotate_right) | clear_value x | subst x)
    | split | with_reducible refine OptP.get ?_ (by assumption) | with_reducible exact OptP.get (by assumption) rfl

theorem execLate_keeps {s0 : State} {a0 a1 a2} (h2 : Keeps s0 a2) :
    OutK s0 (execLate a0 a1 a2) := by
  unfold execLate
  repeat' first
    | with_reducible intro _ | with_reducible assumption | with_reducible apply lateIn_keeps
    | with_reducible apply attempt_keeps | with_reducible exact OptP.of_none | with_reducible apply OptP.of_some
    | with_reducible apply OutK.next

theorem meetingCountReached_keeps {s0 : State} {a0 a1} (h1 : Keeps s0 a1) :
    OptP (fun x0 => Keeps s0 x0) (meetingCountReached a0 a1) := by
  unfold meetingCountReached
  repeat' first
    | with_reducible intro _ | with_reducible assumption | with_reducible apply State.lateStart_keeps
    | with_reducible exact OptP.of_none | with_reducible apply OptP.of_some
    | (extract_lets +onlyGivenNames x; first | (have hx : Keeps s0 x := ?_; clear_value x; rotate_left; subst x; rotate_right) | (have hx : OptP (fun y => Keeps s0 y) x := ?_; clear_value x; rotate_left; subst x; rotate_right) | clear_value x | subst x)
    | split

theorem execMeetingCountReached_keeps {s0 : State} {a0 a1} (h1 : Keeps s0 a1) :
    OutK s0 (execMeetingCountReached a0 a1) := by
  unfold execMeetingCountReached
  repeat' first
    | with_reducible intro _ | with_reducible assumption | with_reducible apply meetingCountReached_keeps
    | with_reducible apply attempt_keeps | with_reducible exact OptP.of_none | with_reducible apply OptP.of_some
    | with_reducible apply OutK.next

theorem scheduledWake_keeps {s0 : State} {a0 a1} (h1 : Keeps s0 a1) :
    OptP (fun x0 => Keeps s0 x0) (scheduledWake a0 a1) := by
  unfold scheduledWake
  repeat' first
    | with_reducible intro _ | with_reducible assumption | with_reducible apply State.wakeDom_keeps
    | with_reducible exact OptP.of_none | with_reducible apply OptP.of_some | with_reducible apply Keeps.foldl
    | with_reducible apply Keeps.foldl1 | with_reducible apply Keeps.foldl2
    | (extract_lets +onlyGivenNames x; first | (have hx : Keeps s0 x := ?_; clear_value x; rotate_left; subst x; rotate_right) | (have hx : OptP (fun y => Keeps s0 y) x := ?_; clear_value x; rotate_left; subst x; rotate_right) | clear_value x | subst x)
    | split

theorem execScheduledWake_keeps {s0 : State} {a0 a1} (h1 : Keeps s0 a1) :
    OutK s0 (execScheduledWake a0 a1) := by
  unfold execScheduledWake
  repeat' first
    | with_reducible intro _ | with_reducible assumption | with_reducible apply scheduledWake_keeps
    | with_reducible apply attempt_keeps | with_reducible exact OptP.of_none | with_reducible apply OptP.of_some
    | with_reducible apply OutK.next

theorem sleepAnswer_keeps {s0 : State} {a0 a1 a2} (h2 : Keeps s0 a2) :
    OptP (fun x0 => Keeps s0 x0) (sleepAnswer a0 a1 a2) := by
  unfold sleepAnswer
  repeat' first
    | with_reducible intro _ | with_reducible assumption | with_reducible apply State.setPart_keeps
    | with_reducible exact OptP.of_none | with_reducible apply OptP.of_some
    | (extract_lets +onlyGivenNames x; first | (have hx : Keeps s0 x := ?_; clear_value x; rotate_left; subst x; rotate_right) | (have hx : OptP (fun y => Keeps s0 y) x := ?_; clear_value x; rotate_left; subst x; rotate_right) | clear_value x | subst x)
    | split

theorem execSleepAnswer_keeps {s0 : State} {a0 a1 a2} (h2 : Keeps s0 a2) :
    OutK s0 (execSleepAnswer a0 a1 a2) := by
  unfold execSleepAnswer
  repeat' first
    | with_reducible intro _ | with_reducible assumption | with_reducible apply sleepAnswer_keeps
    | with_reducible apply attempt_keeps | with_reducible exact OptP.of_none | with_reducible apply OptP.of_some
    | with_reducible apply OutK.next

theorem sleepDeadline_keeps {s0 : State} {a0 a1} (h1 : Keeps s0 a1) :
    OptP (fun x0 => Keeps s0 x0) (sleepDeadline a0 a1) := by
  unfold sleepDeadline
  repeat' first
    | with_reducible intro _ | with_reducible assumption | with_reducible apply State.setPart_keeps
    | with_reducible exact OptP.of_none | with_reducible apply OptP.of_some
    | (extract_lets +onlyGivenNames x; first | (have hx : Keeps s0 x := ?_; clear_value x; rotate_left; subst x; rotate_right) | (have hx : OptP (fun y => Keeps s0 y) x := ?_; clear_value x; rotate_left; subst x; rotate_right) | clear_value x | subst x)
    | split

theorem execSleepAnswerDeadline_keeps {s0 : State} {a0 a1} (h1 : Keeps s0 a1) :
    OutK s0 (execSleepAnswerDeadline a0 a1) := by
  unfold execSleepAnswerDeadline
  repeat' first
    | with_reducible intro _ | with_reducible assumption | with_reducible apply sleepDeadline_keeps
    | with_reducible apply attempt_keeps | with_reducible exact OptP.of_none | with_reducible apply OptP.of_some
    | with_reducible apply OutK.next

theorem sleepCommit_keeps {s0 : State} {a0 a1} (h1 : Keeps s0 a1) :
    OptP (fun x0 => Keeps s0 x0) (sleepCommit a0 a1) := by
  unfold sleepCommit
  repeat' first
    | with_reducible intro _ | with_reducible assumption | with_reducible apply State.setDom_keeps
    | with_reducible apply State.setPart_keeps | with_reducible exact OptP.of_none | with_reducible apply OptP.of_some
    | with_reducible apply Keeps.foldl | with_reducible apply Keeps.foldl1 | with_reducible apply Keeps.foldl2
    | (extract_lets +onlyGivenNames x; first | (have hx : Keeps s0 x := ?_; clear_value x; rotate_left; subst x; rotate_right) | (have hx : OptP (fun y => Keeps s0 y) x := ?_; clear_value x; rotate_left; subst x; rotate_right) | clear_value x | subst x)
    | split

theorem execSleepCommit_keeps {s0 : State} {a0 a1} (h1 : Keeps s0 a1) :
    OutK s0 (execSleepCommit a0 a1) := by
  unfold execSleepCommit
  repeat' first
    | with_reducible intro _ | with_reducible assumption | with_reducible apply sleepCommit_keeps
    | with_reducible apply attempt_keeps | with_reducible exact OptP.of_none | with_reducible apply OptP.of_some
    | with_reducible apply OutK.next

theorem execWakeRequest_keeps {s0 : State} {a0 a1} (h1 : Keeps s0 a1) :
    OutK s0 (execWakeRequest a0 a1) := by
  unfold execWakeRequest
  repeat' first
    | with_reducible intro _ | with_reducible assumption | with_reducible apply State.setPart_keeps
    | with_reducible exact OptP.of_none | with_reducible apply OptP.of_some | with_reducible apply OutK.next

theorem windowClose_keeps {s0 : State} {a0 a1} (h1 : Keeps s0 a1) :
    OptP (fun x0 => Keeps s0 x0) (windowClose a0 a1) := by
  unfold windowClose
  repeat' first
    | with_reducible intro _ | with_reducible assumption | with_reducible apply State.closeWindow_keeps
    | with_reducible exact OptP.of_none | with_reducible apply OptP.of_some | split

theorem execWindowClose_keeps {s0 : State} {a0 a1} (h1 : Keeps s0 a1) :
    OutK s0 (execWindowClose a0 a1) := by
  unfold execWindowClose
  repeat' first
    | with_reducible intro _ | with_reducible assumption | with_reducible apply windowClose_keeps
    | with_reducible apply attempt_keeps | with_reducible exact OptP.of_none | with_reducible apply OptP.of_some
    | with_reducible apply OutK.next

end Sys2Proof.Machine
end

