-- ==== Sys2Proof/Laws/KeepsOfPool.lean ====
section
/-! SUPPORT. What the operations of Pool keep. -/

namespace Sys2Proof.Machine

theorem State.linkChain_keeps {s0 : State} {a0 a1 a2 a3 a4} (h0 : Keeps s0 a0) :
    Keeps s0 (State.linkChain a0 a1 a2 a3 a4) := by
  unfold State.linkChain
  repeat' first
    | with_reducible intro _ | with_reducible assumption | with_reducible apply State.wrN_keeps
    | with_reducible exact OptP.of_none | with_reducible apply OptP.of_some | with_reducible apply OptP.getD
    | with_reducible apply OptP.mapS | with_reducible apply OptP.map | with_reducible apply OptP.mapP
    | with_reducible apply Keeps.foldl | with_reducible apply Keeps.foldl1 | with_reducible apply Keeps.foldl2
    | (extract_lets +onlyGivenNames x; first | (have hx : Keeps s0 x := ?_; clear_value x; rotate_left; subst x; rotate_right) | clear_value x | subst x)
    | split

theorem State.setFreeSpill_keeps {s0 : State} {a0 a1 a2 a3} (h0 : Keeps s0 a0) :
    Keeps s0 (State.setFreeSpill a0 a1 a2 a3) := by
  unfold State.setFreeSpill
  repeat' first
    | with_reducible intro _ | with_reducible assumption | with_reducible apply State.setCfgF_keeps
    | with_reducible exact OptP.of_none | with_reducible apply OptP.of_some

theorem State.setFreeWell_keeps {s0 : State} {a0 a1 a2 a3} (h0 : Keeps s0 a0) :
    Keeps s0 (State.setFreeWell a0 a1 a2 a3) := by
  unfold State.setFreeWell
  repeat' first
    | with_reducible intro _ | with_reducible assumption | with_reducible apply State.setCfgF_keeps
    | with_reducible exact OptP.of_none | with_reducible apply OptP.of_some

theorem State.setResOpen_keeps {s0 : State} {a0 a1 a2 a3} (h0 : Keeps s0 a0) :
    Keeps s0 (State.setResOpen a0 a1 a2 a3) := by
  unfold State.setResOpen
  repeat' first
    | with_reducible intro _ | with_reducible assumption | with_reducible apply State.setCfgF_keeps
    | with_reducible exact OptP.of_none | with_reducible apply OptP.of_some

theorem State.spillNotice_keeps {s0 : State} {a0 a1 a2 a3 a4} (h0 : Keeps s0 a0) :
    Keeps s0 (State.spillNotice a0 a1 a2 a3 a4) := by
  unfold State.spillNotice
  repeat' first
    | with_reducible intro _ | with_reducible assumption | with_reducible apply State.notice_keeps
    | with_reducible exact OptP.of_none | with_reducible apply OptP.of_some
    | (extract_lets +onlyGivenNames x; first | (have hx : Keeps s0 x := ?_; clear_value x; rotate_left; subst x; rotate_right) | clear_value x | subst x)
    | split | with_reducible apply Keeps.lit

theorem State.setNodeHead_keeps {s0 : State} {a0 a1 a2} (h0 : Keeps s0 a0) :
    Keeps s0 (State.setNodeHead a0 a1 a2) := by
  unfold State.setNodeHead
  repeat' first
    | with_reducible intro _ | with_reducible assumption | with_reducible exact OptP.of_none
    | with_reducible apply OptP.of_some
    | (extract_lets +onlyGivenNames x; first | (have hx : Keeps s0 x := ?_; clear_value x; rotate_left; subst x; rotate_right) | clear_value x | subst x)
    | with_reducible apply Keeps.lit

theorem State.setPops_keeps {s0 : State} {a0 a1 a2} (h0 : Keeps s0 a0) :
    Keeps s0 (State.setPops a0 a1 a2) := by
  unfold State.setPops
  repeat' first
    | with_reducible intro _ | with_reducible assumption | with_reducible exact OptP.of_none
    | with_reducible apply OptP.of_some
    | (extract_lets +onlyGivenNames x; first | (have hx : Keeps s0 x := ?_; clear_value x; rotate_left; subst x; rotate_right) | clear_value x | subst x)
    | with_reducible apply Keeps.lit

theorem State.setRels_keeps {s0 : State} {a0 a1 a2} (h0 : Keeps s0 a0) :
    Keeps s0 (State.setRels a0 a1 a2) := by
  unfold State.setRels
  repeat' first
    | with_reducible intro _ | with_reducible assumption | with_reducible exact OptP.of_none
    | with_reducible apply OptP.of_some
    | (extract_lets +onlyGivenNames x; first | (have hx : Keeps s0 x := ?_; clear_value x; rotate_left; subst x; rotate_right) | clear_value x | subst x)
    | with_reducible apply Keeps.lit

theorem State.popWell_keeps {s0 : State} {a0 a1 a2} (h0 : Keeps s0 a0) :
    OptP (fun x0 => Keeps s0 x0.2) (State.popWell a0 a1 a2) := by
  unfold State.popWell
  repeat' first
    | with_reducible intro _ | with_reducible assumption | with_reducible apply State.setNodeHead_keeps
    | with_reducible apply State.setPops_keeps | with_reducible apply State.setRels_keeps
    | with_reducible exact OptP.of_none | with_reducible apply OptP.of_some
    | (extract_lets +onlyGivenNames x; first | (have hx : Keeps s0 x := ?_; clear_value x; rotate_left; subst x; rotate_right) | (have hx : Keeps s0 x.2 := ?_; clear_value x; rotate_left; subst x; rotate_right) | clear_value x | subst x)
    | split

theorem State.popWells_keeps {s0 : State} {a0 a1 a2 a3 a4} (h3 : Keeps s0 a3) :
    OptP (fun x0 => Keeps s0 x0.2) (State.popWells a0 a1 a2 a3 a4) := by
  induction a2 generalizing a0 a1 a3 a4 with
  | zero =>
    rw [State.popWells]
    repeat' first
      | with_reducible intro _ | with_reducible assumption
      | with_reducible apply State.popWell_keeps | with_reducible exact OptP.of_none | with_reducible apply OptP.of_some
      | (extract_lets +onlyGivenNames x; first | (have hx : Keeps s0 x := ?_; clear_value x; rotate_left; subst x; rotate_right) | (have hx : Keeps s0 x.2 := ?_; clear_value x; rotate_left; subst x; rotate_right) | clear_value x | subst x)
      | split | with_reducible refine OptP.get2 ?_ (by assumption) | with_reducible refine OptP.get2' ?_ (by assumption)
  | succ n ih =>
    rw [State.popWells]
    repeat' first
      | with_reducible intro _ | with_reducible assumption | with_reducible apply ih
      | with_reducible apply State.popWell_keeps | with_reducible exact OptP.of_none | with_reducible apply OptP.of_some
      | (extract_lets +onlyGivenNames x; first | (have hx : Keeps s0 x := ?_; clear_value x; rotate_left; subst x; rotate_right) | (have hx : Keeps s0 x.2 := ?_; clear_value x; rotate_left; subst x; rotate_right) | clear_value x | subst x)
      | split | with_reducible refine OptP.get2 ?_ (by assumption) | with_reducible refine OptP.get2' ?_ (by assumption)

theorem State.ringFault_keeps {s0 : State} {a0 a1 a2 a3} (h0 : Keeps s0 a0) :
    Keeps s0 (State.ringFault a0 a1 a2 a3) := by
  unfold State.ringFault
  repeat' first
    | with_reducible intro _ | with_reducible assumption | with_reducible apply State.raise_keeps
    | with_reducible exact OptP.of_none | with_reducible apply OptP.of_some
    | (extract_lets +onlyGivenNames x; first | (have hx : Keeps s0 x := ?_; clear_value x; rotate_left; subst x; rotate_right) | clear_value x | subst x)
    | with_reducible apply Keeps.lit

theorem State.setSpillCache_keeps {s0 : State} {a0 a1 a2} (h0 : Keeps s0 a0) :
    Keeps s0 (State.setSpillCache a0 a1 a2) := by
  unfold State.setSpillCache
  repeat' first
    | with_reducible intro _ | with_reducible assumption | with_reducible exact OptP.of_none
    | with_reducible apply OptP.of_some
    | (extract_lets +onlyGivenNames x; first | (have hx : Keeps s0 x := ?_; clear_value x; rotate_left; subst x; rotate_right) | clear_value x | subst x)
    | with_reducible apply Keeps.lit

theorem State.refill_keeps {s0 : State} {a0 a1 a2} (h0 : Keeps s0 a0) :
    Keeps s0 (State.refill a0 a1 a2) := by
  unfold State.refill
  repeat' first
    | with_reducible intro _ | with_reducible assumption | with_reducible apply State.ringFault_keeps
    | with_reducible apply State.setCfgF_keeps | with_reducible apply State.setSpillCache_keeps
    | with_reducible exact OptP.of_none | with_reducible apply OptP.of_some
    | (extract_lets +onlyGivenNames x; first | (have hx : Keeps s0 x := ?_; clear_value x; rotate_left; subst x; rotate_right) | clear_value x | subst x)
    | split

theorem State.refillTo_keeps {s0 : State} {a0 a1 a2 a3 a4} (h4 : Keeps s0 a4) :
    Keeps s0 (State.refillTo a0 a1 a2 a3 a4) := by
  induction a3 generalizing a0 a1 a2 a4 with
  | zero =>
    rw [State.refillTo]
    repeat' first
      | with_reducible intro _ | with_reducible assumption
      | with_reducible apply State.refill_keeps | with_reducible exact OptP.of_none | with_reducible apply OptP.of_some
      | (extract_lets +onlyGivenNames x; first | (have hx : Keeps s0 x := ?_; clear_value x; rotate_left; subst x; rotate_right) | clear_value x | subst x)
      | split
  | succ n ih =>
    rw [State.refillTo]
    repeat' first
      | with_reducible intro _ | with_reducible assumption | with_reducible apply ih
      | with_reducible apply State.refill_keeps | with_reducible exact OptP.of_none | with_reducible apply OptP.of_some
      | (extract_lets +onlyGivenNames x; first | (have hx : Keeps s0 x := ?_; clear_value x; rotate_left; subst x; rotate_right) | clear_value x | subst x)
      | split

theorem State.takeCells_keeps {s0 : State} {a0 a1 a2 a3 a4} (h0 : Keeps s0 a0) :
    OptP (fun x0 => Keeps s0 x0.2) (State.takeCells a0 a1 a2 a3 a4) := by
  unfold State.takeCells
  repeat' first
    | with_reducible intro _ | with_reducible assumption | with_reducible apply State.popWells_keeps
    | with_reducible apply State.refillTo_keeps | with_reducible apply State.setSpillCache_keeps
    | with_reducible exact OptP.of_none | with_reducible apply OptP.of_some
    | (extract_lets +onlyGivenNames x; first | (have hx : Keeps s0 x := ?_; clear_value x; rotate_left; subst x; rotate_right) | (have hx : Keeps s0 x.2 := ?_; clear_value x; rotate_left; subst x; rotate_right) | clear_value x | subst x)
    | split | with_reducible refine OptP.get2 ?_ (by assumption) | with_reducible refine OptP.get2' ?_ (by assumption)

theorem State.allocAt_keeps {s0 : State} {a0 a1 a2 a3 a4} (h0 : Keeps s0 a0) :
    AllocK s0 (State.allocAt a0 a1 a2 a3 a4) := by
  unfold State.allocAt
  repeat' first
    | with_reducible intro _ | with_reducible assumption | with_reducible apply State.linkChain_keeps
    | with_reducible apply State.setCfgF_keeps | with_reducible apply State.setFreeSpill_keeps
    | with_reducible apply State.setFreeWell_keeps | with_reducible apply State.setResOpen_keeps
    | with_reducible apply State.spillNotice_keeps | with_reducible apply State.takeCells_keeps
    | with_reducible exact OptP.of_none | with_reducible apply OptP.of_some | with_reducible apply AllocK.head
    | with_reducible exact AllocK.wait | with_reducible exact AllocK.bad
    | (extract_lets +onlyGivenNames x; first | (have hx : Keeps s0 x := ?_; clear_value x; rotate_left; subst x; rotate_right) | (have hx : Keeps s0 x.2 := ?_; clear_value x; rotate_left; subst x; rotate_right) | clear_value x | subst x)
    | split | with_reducible refine OptP.get2 ?_ (by assumption) | with_reducible refine OptP.get2' ?_ (by assumption)

theorem State.pushSpill_keeps {s0 : State} {a0 a1 a2 a3} (h0 : Keeps s0 a0) :
    Keeps s0 (State.pushSpill a0 a1 a2 a3) := by
  unfold State.pushSpill
  repeat' first
    | with_reducible intro _ | with_reducible assumption | with_reducible apply State.setCfgF_keeps
    | with_reducible apply State.setFreeSpill_keeps | with_reducible apply State.setSpillCache_keeps
    | with_reducible apply State.wrN_keeps | with_reducible exact OptP.of_none | with_reducible apply OptP.of_some
    | with_reducible apply Keeps.foldl | with_reducible apply Keeps.foldl1 | with_reducible apply Keeps.foldl2
    | (extract_lets +onlyGivenNames x; first | (have hx : Keeps s0 x := ?_; clear_value x; rotate_left; subst x; rotate_right) | clear_value x | subst x)
    | split

theorem State.pushWell_keeps {s0 : State} {a0 a1 a2 a3} (h0 : Keeps s0 a0) :
    Keeps s0 (State.pushWell a0 a1 a2 a3) := by
  unfold State.pushWell
  repeat' first
    | with_reducible intro _ | with_reducible assumption | with_reducible apply State.setFreeWell_keeps
    | with_reducible apply State.setNodeHead_keeps | with_reducible apply State.setRels_keeps
    | with_reducible apply State.wr_keeps | with_reducible exact OptP.of_none | with_reducible apply OptP.of_some
    | (extract_lets +onlyGivenNames x; first | (have hx : Keeps s0 x := ?_; clear_value x; rotate_left; subst x; rotate_right) | clear_value x | subst x)
    | split

theorem State.freeCell_keeps {s0 : State} {a0 a1 a2 a3 a4 a5} (h0 : Keeps s0 a0) :
    Keeps s0 (State.freeCell a0 a1 a2 a3 a4 a5) := by
  unfold State.freeCell
  repeat' first
    | with_reducible intro _ | with_reducible assumption | with_reducible apply State.pushSpill_keeps
    | with_reducible apply State.pushWell_keeps | with_reducible apply State.setCfgF_keeps
    | with_reducible apply State.setResOpen_keeps | with_reducible apply State.wrN_keeps
    | with_reducible exact OptP.of_none | with_reducible apply OptP.of_some
    | (extract_lets +onlyGivenNames x; first | (have hx : Keeps s0 x := ?_; clear_value x; rotate_left; subst x; rotate_right) | clear_value x | subst x)
    | split

theorem State.freeCells_keeps {s0 : State} {a0 a1} (h0 : Keeps s0 a0) :
    Keeps s0 (State.freeCells a0 a1) := by
  unfold State.freeCells
  repeat' first
    | with_reducible intro _ | with_reducible assumption | with_reducible apply State.freeCell_keeps
    | with_reducible exact OptP.of_none | with_reducible apply OptP.of_some | with_reducible apply Keeps.foldl
    | with_reducible apply Keeps.foldl1 | with_reducible apply Keeps.foldl2 | split

theorem State.quarantine_keeps {s0 : State} {a0 a1 a2 a3 a4} (h0 : Keeps s0 a0) :
    Keeps s0 (State.quarantine a0 a1 a2 a3 a4) := by
  unfold State.quarantine
  repeat' first
    | with_reducible intro _ | with_reducible assumption | with_reducible apply State.bumpCfg_keeps
    | with_reducible apply State.freeCells_keeps | with_reducible exact OptP.of_none | with_reducible apply OptP.of_some
    | (extract_lets +onlyGivenNames x; first | (have hx : Keeps s0 x := ?_; clear_value x; rotate_left; subst x; rotate_right) | clear_value x | subst x)
    | split

theorem State.release_keeps {s0 : State} {a0 a1 a2 a3} (h0 : Keeps s0 a0) :
    ReleaseK s0 (State.release a0 a1 a2 a3) := by
  unfold State.release
  repeat' first
    | with_reducible intro _ | with_reducible assumption | with_reducible apply State.freeCells_keeps
    | with_reducible apply State.quarantine_keeps | with_reducible exact OptP.of_none | with_reducible apply OptP.of_some
    | with_reducible apply ReleaseK.done | with_reducible apply ReleaseK.bad | split

theorem State.setWaiters_keeps {s0 : State} {a0 a1 a2 a3} (h0 : Keeps s0 a0) :
    Keeps s0 (State.setWaiters a0 a1 a2 a3) := by
  unfold State.setWaiters
  repeat' first
    | with_reducible intro _ | with_reducible assumption | with_reducible apply State.setCfgF_keeps
    | with_reducible exact OptP.of_none | with_reducible apply OptP.of_some
    | (extract_lets +onlyGivenNames x; first | (have hx : Keeps s0 x := ?_; clear_value x; rotate_left; subst x; rotate_right) | clear_value x | subst x)
    | with_reducible apply Keeps.lit

theorem State.queueReq_keeps {s0 : State} {a0 a1 a2} (h0 : Keeps s0 a0) :
    OptP (fun x0 => Keeps s0 x0) (State.queueReq a0 a1 a2) := by
  unfold State.queueReq
  repeat' first
    | with_reducible intro _ | with_reducible assumption | with_reducible apply State.bumpCfg_keeps
    | with_reducible apply State.setWaiters_keeps | with_reducible exact OptP.of_none | with_reducible apply OptP.of_some
    | (extract_lets +onlyGivenNames x; first | (have hx : Keeps s0 x := ?_; clear_value x; rotate_left; subst x; rotate_right) | (have hx : OptP (fun y => Keeps s0 y) x := ?_; clear_value x; rotate_left; subst x; rotate_right) | clear_value x | subst x)
    | split

theorem State.formatRegion_keeps {s0 : State} {a0 a1 a2} (h0 : Keeps s0 a0) :
    Keeps s0 (State.formatRegion a0 a1 a2) := by
  unfold State.formatRegion
  repeat' first
    | with_reducible intro _ | with_reducible assumption | with_reducible apply State.setCfgF_keeps
    | with_reducible apply State.setCfgW_keeps | with_reducible apply State.setFreeSpill_keeps
    | with_reducible apply State.setFreeWell_keeps | with_reducible apply State.setNodeHead_keeps
    | with_reducible apply State.setPops_keeps | with_reducible apply State.setRels_keeps
    | with_reducible apply State.setResOpen_keeps | with_reducible apply State.setSpillCache_keeps
    | with_reducible apply State.setWaiters_keeps | with_reducible apply State.wr_keeps
    | with_reducible apply State.wrN_keeps | with_reducible exact OptP.of_none | with_reducible apply OptP.of_some
    | with_reducible apply Keeps.foldl | with_reducible apply Keeps.foldl1 | with_reducible apply Keeps.foldl2
    | (extract_lets +onlyGivenNames x; first | (have hx : Keeps s0 x := ?_; clear_value x; rotate_left; subst x; rotate_right) | clear_value x | subst x)
    | split | with_reducible apply Keeps.litAll | with_reducible exact id | exact Nat.le_refl _
    | exact Nat.le_add_right _ _ | exact tblWf_filter (by assumption) _ | exact List.Pairwise.filter _ (by assumption)
    | rfl

theorem State.poolFault_keeps {s0 : State} {a0 a1 a2 a3} (h0 : Keeps s0 a0) :
    Keeps s0 (State.poolFault a0 a1 a2 a3) := by
  unfold State.poolFault
  repeat' first
    | with_reducible intro _ | with_reducible assumption | with_reducible apply State.raise_keeps
    | with_reducible apply State.recordFault_keeps | with_reducible apply State.setStream_keeps
    | with_reducible exact OptP.of_none | with_reducible apply OptP.of_some
    | (extract_lets +onlyGivenNames x; first | (have hx : Keeps s0 x := ?_; clear_value x; rotate_left; subst x; rotate_right) | clear_value x | subst x)
    | split

theorem poolAllocate_keeps {s0 : State} {a0 a1 a2 a3 a4} (h4 : Keeps s0 a4) :
    OptP (fun x0 => Keeps s0 x0) (poolAllocate a0 a1 a2 a3 a4) := by
  unfold poolAllocate
  repeat' first
    | with_reducible intro _ | with_reducible assumption | with_reducible apply State.allocAt_keeps
    | with_reducible apply State.poolFault_keeps | with_reducible apply State.queueReq_keeps
    | with_reducible exact OptP.of_none | with_reducible apply OptP.of_some | with_reducible apply AllocK.head
    | with_reducible exact AllocK.wait | with_reducible exact AllocK.bad
    | (extract_lets +onlyGivenNames x; first | (have hx : Keeps s0 x := ?_; clear_value x; rotate_left; subst x; rotate_right) | (have hx : OptP (fun y => Keeps s0 y) x := ?_; clear_value x; rotate_left; subst x; rotate_right) | clear_value x | subst x)
    | split | with_reducible refine OptP.get ?_ (by assumption) | with_reducible exact OptP.get (by assumption) rfl
    | with_reducible refine AllocK.get ?_ (by assumption) | with_reducible apply Keeps.lit

theorem execPoolAllocate_keeps {s0 : State} {a0 a1 a2 a3 a4} (h4 : Keeps s0 a4) :
    OutK s0 (execPoolAllocate a0 a1 a2 a3 a4) := by
  unfold execPoolAllocate
  repeat' first
    | with_reducible intro _ | with_reducible assumption | with_reducible apply poolAllocate_keeps
    | with_reducible apply attempt_keeps | with_reducible exact OptP.of_none | with_reducible apply OptP.of_some
    | with_reducible apply OutK.next

theorem poolRelease_keeps {s0 : State} {a0 a1 a2 a3} (h3 : Keeps s0 a3) :
    OptP (fun x0 => Keeps s0 x0) (poolRelease a0 a1 a2 a3) := by
  unfold poolRelease
  repeat' first
    | with_reducible intro _ | with_reducible assumption | with_reducible apply State.poolFault_keeps
    | with_reducible apply State.release_keeps | with_reducible exact OptP.of_none | with_reducible apply OptP.of_some
    | with_reducible apply ReleaseK.done | with_reducible apply ReleaseK.bad
    | (extract_lets +onlyGivenNames x; first | (have hx : Keeps s0 x := ?_; clear_value x; rotate_left; subst x; rotate_right) | (have hx : OptP (fun y => Keeps s0 y) x := ?_; clear_value x; rotate_left; subst x; rotate_right) | clear_value x | subst x)
    | split | with_reducible refine ReleaseK.get ?_ (by assumption)
    | with_reducible refine ReleaseK.getBad ?_ (by assumption)

theorem execPoolRelease_keeps {s0 : State} {a0 a1 a2 a3} (h3 : Keeps s0 a3) :
    OutK s0 (execPoolRelease a0 a1 a2 a3) := by
  unfold execPoolRelease
  repeat' first
    | with_reducible intro _ | with_reducible assumption | with_reducible apply poolRelease_keeps
    | with_reducible apply attempt_keeps | with_reducible exact OptP.of_none | with_reducible apply OptP.of_some
    | with_reducible apply OutK.next

theorem execSpillCacheRefill_keeps {s0 : State} {a0 a1 a2} (h2 : Keeps s0 a2) :
    OutK s0 (execSpillCacheRefill a0 a1 a2) := by
  unfold execSpillCacheRefill
  repeat' first
    | with_reducible intro _ | with_reducible assumption | with_reducible apply State.refill_keeps
    | with_reducible apply attempt_keeps | with_reducible exact OptP.of_none | with_reducible apply OptP.of_some
    | with_reducible apply OutK.next
    | (extract_lets +onlyGivenNames x; first | (have hx : Keeps s0 x := ?_; clear_value x; rotate_left; subst x; rotate_right) | clear_value x | subst x)
    | split

end Sys2Proof.Machine
end

