-- ==== Sys2Proof/Laws/KeepsOfRouting.lean ====
section
/-! SUPPORT. What the operations of Routing keep. -/

namespace Sys2Proof.Machine

theorem State.segCounts_keeps {s0 : State} {a0 a1 a2 a3 a4 a5 a6} (h0 : Keeps s0 a0) :
    Keeps s0 (State.segCounts a0 a1 a2 a3 a4 a5 a6) := by
  unfold State.segCounts
  repeat' first
    | with_reducible intro _ | with_reducible assumption | with_reducible apply State.bumpGroup_keeps
    | with_reducible apply State.wr_keeps | with_reducible exact OptP.of_none | with_reducible apply OptP.of_some
    | (extract_lets +onlyGivenNames x; first | (have hx : Keeps s0 x := ?_; clear_value x; rotate_left; subst x; rotate_right) | clear_value x | subst x)
    | split

theorem State.setSegState_keeps {s0 : State} {a0 a1 a2} (h0 : Keeps s0 a0) :
    Keeps s0 (State.setSegState a0 a1 a2) := by
  unfold State.setSegState
  repeat' first
    | with_reducible intro _ | with_reducible assumption | with_reducible apply State.wrN_keeps
    | with_reducible exact OptP.of_none | with_reducible apply OptP.of_some

theorem State.assign_keeps {s0 : State} {a0 a1 a2 a3 a4 a5} (h0 : Keeps s0 a0) :
    Keeps s0 (State.assign a0 a1 a2 a3 a4 a5).1 := by
  unfold State.assign
  repeat' first
    | with_reducible intro _ | with_reducible assumption | with_reducible apply State.drawBytes_keeps
    | with_reducible apply State.segCounts_keeps | with_reducible apply State.setSegState_keeps
    | with_reducible apply State.wrN_keeps | with_reducible exact OptP.of_none | with_reducible apply OptP.of_some
    | with_reducible apply Keeps.foldl | with_reducible apply Keeps.foldl1 | with_reducible apply Keeps.foldl2
    | (extract_lets +onlyGivenNames x; first | (have hx : Keeps s0 x := ?_; clear_value x; rotate_left; subst x; rotate_right) | (have hx : Keeps s0 x.1 := ?_; clear_value x; rotate_left; subst x; rotate_right) | (have hx : Keeps s0 x.2 := ?_; clear_value x; rotate_left; subst x; rotate_right) | clear_value x | subst x)
    | with_reducible apply Keeps.lit

end Sys2Proof.Machine
end

