-- ==== Sys2Proof/Laws/KeepsOfExchange.lean ====
section
/-! SUPPORT. What the operations of Exchange keep. -/

namespace Sys2Proof.Machine

theorem State.accept_keeps {s0 : State} {a0 a1 a2 a3 a4} (h0 : Keeps s0 a0) :
    Keeps s0 (State.accept a0 a1 a2 a3 a4) := by
  unfold State.accept
  repeat' first
    | with_reducible intro _ | with_reducible assumption | with_reducible apply State.bumpCtr_keeps
    | with_reducible apply State.setStream_keeps | with_reducible apply State.traceIssue_keeps
    | with_reducible exact OptP.of_none | with_reducible apply OptP.of_some
    | (extract_lets +onlyGivenNames x; first | (have hx : Keeps s0 x := ?_; clear_value x; rotate_left; subst x; rotate_right) | clear_value x | subst x)
    | with_reducible apply Keeps.lit

theorem fillChain_keeps {s0 : State} {a0 a1 a2 a3 a4 a5} (h1 : Keeps s0 a1) :
    Keeps s0 (fillChain a0 a1 a2 a3 a4 a5) := by
  induction a0 generalizing a1 a2 a3 a4 a5 with
  | zero =>
    rw [fillChain]
    repeat' first
      | with_reducible intro _ | with_reducible assumption
      | with_reducible apply State.wrPay_keeps | with_reducible exact OptP.of_none | with_reducible apply OptP.of_some
      | (extract_lets +onlyGivenNames x; first | (have hx : Keeps s0 x := ?_; clear_value x; rotate_left; subst x; rotate_right) | clear_value x | subst x)
      | split
  | succ n ih =>
    rw [fillChain]
    repeat' first
      | with_reducible intro _ | with_reducible assumption | with_reducible apply ih
      | with_reducible apply State.wrPay_keeps | with_reducible exact OptP.of_none | with_reducible apply OptP.of_some
      | (extract_lets +onlyGivenNames x; first | (have hx : Keeps s0 x := ?_; clear_value x; rotate_left; subst x; rotate_right) | clear_value x | subst x)
      | split

theorem State.dropXop_keeps {s0 : State} {a0 a1} (h0 : Keeps s0 a0) :
    Keeps s0 (State.dropXop a0 a1) := by
  unfold State.dropXop
  repeat' first
    | with_reducible intro _ | with_reducible assumption | with_reducible exact OptP.of_none
    | with_reducible apply OptP.of_some
    | (extract_lets +onlyGivenNames x; first | (have hx : Keeps s0 x := ?_; clear_value x; rotate_left; subst x; rotate_right) | clear_value x | subst x)
    | with_reducible apply Keeps.lit

theorem State.setXop_keeps {s0 : State} {a0 a1} (h0 : Keeps s0 a0) :
    Keeps s0 (State.setXop a0 a1) := by
  unfold State.setXop
  repeat' first
    | with_reducible intro _ | with_reducible assumption | with_reducible exact OptP.of_none
    | with_reducible apply OptP.of_some
    | (extract_lets +onlyGivenNames x; first | (have hx : Keeps s0 x := ?_; clear_value x; rotate_left; subst x; rotate_right) | clear_value x | subst x)
    | split | with_reducible apply Keeps.lit

theorem State.xFail_keeps {s0 : State} {a0 a1 a2 a3} (h0 : Keeps s0 a0) :
    Keeps s0 (State.xFail a0 a1 a2 a3) := by
  unfold State.xFail
  repeat' first
    | with_reducible intro _ | with_reducible assumption | with_reducible apply State.dropXop_keeps
    | with_reducible apply State.raise_keeps | with_reducible apply State.recordFault_keeps
    | with_reducible apply State.setStream_keeps | with_reducible apply State.setXop_keeps
    | with_reducible exact OptP.of_none | with_reducible apply OptP.of_some
    | (extract_lets +onlyGivenNames x; first | (have hx : Keeps s0 x := ?_; clear_value x; rotate_left; subst x; rotate_right) | clear_value x | subst x)
    | split

theorem releaseSeg_keeps {s0 : State} {a0 a1 a2} (h2 : Keeps s0 a2) :
    ExP (fun x0 => Keeps s0 x0.2.2) (fun x0 => Keeps s0 x0) (releaseSeg a0 a1 a2) := by
  induction a1 generalizing a0 a2 with
  | nil =>
    rw [releaseSeg]
    repeat' first
      | with_reducible intro _ | with_reducible assumption
      | with_reducible apply State.release_keeps | with_reducible exact OptP.of_none | with_reducible apply OptP.of_some
      | with_reducible apply ExP.ok | with_reducible apply ExP.error | with_reducible exact trivial
      | with_reducible apply ReleaseK.done | with_reducible apply ReleaseK.bad
      | (extract_lets +onlyGivenNames x; first | (have hx : Keeps s0 x := ?_; clear_value x; rotate_left; subst x; rotate_right) | (have hx : Keeps s0 x.2 := ?_; clear_value x; rotate_left; subst x; rotate_right) | clear_value x | subst x)
      | split | with_reducible refine ReleaseK.get ?_ (by assumption)
      | with_reducible refine ReleaseK.getBad ?_ (by assumption)
  | cons y l ih =>
    rw [releaseSeg]
    repeat' first
      | with_reducible intro _ | with_reducible assumption | with_reducible apply ih
      | with_reducible apply State.release_keeps | with_reducible exact OptP.of_none | with_reducible apply OptP.of_some
      | with_reducible apply ExP.ok | with_reducible apply ExP.error | with_reducible exact trivial
      | with_reducible apply ReleaseK.done | with_reducible apply ReleaseK.bad
      | (extract_lets +onlyGivenNames x; first | (have hx : Keeps s0 x := ?_; clear_value x; rotate_left; subst x; rotate_right) | (have hx : Keeps s0 x.2 := ?_; clear_value x; rotate_left; subst x; rotate_right) | clear_value x | subst x)
      | split | with_reducible refine ReleaseK.get ?_ (by assumption)
      | with_reducible refine ReleaseK.getBad ?_ (by assumption)

theorem State.closeSeg_keeps {s0 : State} {a0 a1} (h0 : Keeps s0 a0) :
    Keeps s0 (State.closeSeg a0 a1) := by
  unfold State.closeSeg
  repeat' first
    | with_reducible intro _ | with_reducible assumption | with_reducible apply State.dropXop_keeps
    | with_reducible apply State.sendSigs_keeps | with_reducible apply State.setSegState_keeps
    | with_reducible apply State.xFail_keeps | with_reducible apply releaseSeg_keeps | with_reducible exact OptP.of_none
    | with_reducible apply OptP.of_some | with_reducible apply ExP.ok | with_reducible apply ExP.error
    | with_reducible exact trivial
    | (extract_lets +onlyGivenNames x; first | (have hx : Keeps s0 x := ?_; clear_value x; rotate_left; subst x; rotate_right) | (have hx : Keeps s0 x.2 := ?_; clear_value x; rotate_left; subst x; rotate_right) | clear_value x | subst x)
    | split | with_reducible refine ExP.getOk3 ?_ (by assumption) | with_reducible refine ExP.getErr3 ?_ (by assumption)
    | with_reducible apply Keeps.lit

theorem State.closeCheck_keeps {s0 : State} {a0 a1} (h0 : Keeps s0 a0) :
    Keeps s0 (State.closeCheck a0 a1) := by
  unfold State.closeCheck
  repeat' first
    | with_reducible intro _ | with_reducible assumption | with_reducible apply State.closeSeg_keeps
    | with_reducible exact OptP.of_none | with_reducible apply OptP.of_some | split

theorem State.xEnd_keeps {s0 : State} {a0 a1 a2 a3} (h0 : Keeps s0 a0) :
    Keeps s0 (State.xEnd a0 a1 a2 a3) := by
  unfold State.xEnd
  repeat' first
    | with_reducible intro _ | with_reducible assumption | with_reducible apply State.closeCheck_keeps
    | with_reducible apply State.xFail_keeps | with_reducible exact OptP.of_none | with_reducible apply OptP.of_some

theorem State.xAnswer_keeps {s0 : State} {a0 a1 a2 a3} (h0 : Keeps s0 a0) :
    Keeps s0 (State.xAnswer a0 a1 a2 a3) := by
  unfold State.xAnswer
  repeat' first
    | with_reducible intro _ | with_reducible assumption | with_reducible apply State.emit_keeps
    | with_reducible apply State.msgPort_keeps | with_reducible exact OptP.of_none | with_reducible apply OptP.of_some
    | (extract_lets +onlyGivenNames x; first | (have hx : Keeps s0 x := ?_; clear_value x; rotate_left; subst x; rotate_right) | (have hx : Keeps s0 x.2 := ?_; clear_value x; rotate_left; subst x; rotate_right) | clear_value x | subst x)

theorem State.xAck_keeps {s0 : State} {a0 a1 a2 a3} (h0 : Keeps s0 a0) :
    Keeps s0 (State.xAck a0 a1 a2 a3) := by
  unfold State.xAck
  repeat' first
    | with_reducible intro _ | with_reducible assumption | with_reducible apply State.ingress_keeps
    | with_reducible apply State.xAnswer_keeps | with_reducible exact OptP.of_none | with_reducible apply OptP.of_some
    | (extract_lets +onlyGivenNames x; first | (have hx : Keeps s0 x := ?_; clear_value x; rotate_left; subst x; rotate_right) | clear_value x | subst x)
    | split

theorem State.landCount_keeps {s0 : State} {a0 a1 a2 a3} (h0 : Keeps s0 a0) :
    Keeps s0 (State.landCount a0 a1 a2 a3) := by
  unfold State.landCount
  repeat' first
    | with_reducible intro _ | with_reducible assumption | with_reducible apply State.wrN_keeps
    | with_reducible apply State.xAck_keeps | with_reducible apply State.xEnd_keeps | with_reducible exact OptP.of_none
    | with_reducible apply OptP.of_some | with_reducible apply Keeps.foldl | with_reducible apply Keeps.foldl1
    | with_reducible apply Keeps.foldl2
    | (extract_lets +onlyGivenNames x; first | (have hx : Keeps s0 x := ?_; clear_value x; rotate_left; subst x; rotate_right) | clear_value x | subst x)
    | split

theorem State.landWait_keeps {s0 : State} {a0 a1 a2 a3 a4 a5 a6 a7} (h0 : Keeps s0 a0) :
    OptP (fun x0 => Keeps s0 x0) (State.landWait a0 a1 a2 a3 a4 a5 a6 a7) := by
  unfold State.landWait
  repeat' first
    | with_reducible intro _ | with_reducible assumption | with_reducible apply State.queueReq_keeps
    | with_reducible apply State.setXop_keeps | with_reducible exact OptP.of_none | with_reducible apply OptP.of_some
    | (extract_lets +onlyGivenNames x; first | (have hx : Keeps s0 x := ?_; clear_value x; rotate_left; subst x; rotate_right) | (have hx : OptP (fun y => Keeps s0 y) x := ?_; clear_value x; rotate_left; subst x; rotate_right) | clear_value x | subst x)
    | with_reducible apply Keeps.lit

theorem State.landed_keeps {s0 : State} {a0 a1 a2 a3 a4 a5} (h0 : Keeps s0 a0) :
    Keeps s0 (State.landed a0 a1 a2 a3 a4 a5) := by
  unfold State.landed
  repeat' first
    | with_reducible intro _ | with_reducible assumption | with_reducible apply State.wrN_keeps
    | with_reducible apply State.xAck_keeps | with_reducible apply fillChain_keeps | with_reducible exact OptP.of_none
    | with_reducible apply OptP.of_some
    | (extract_lets +onlyGivenNames x; first | (have hx : Keeps s0 x := ?_; clear_value x; rotate_left; subst x; rotate_right) | clear_value x | subst x)
    | with_reducible apply Keeps.lit

theorem State.landRow_keeps {s0 : State} {a0 a1 a2 a3} (h0 : Keeps s0 a0) :
    OptP (fun x0 => Keeps s0 x0) (State.landRow a0 a1 a2 a3) := by
  have e : ∀ o c i, OptP (fun x0 => Keeps s0 x0) (some (a0.xEnd o c i)) := fun _ _ _ => OptP.of_some (State.xEnd_keeps h0)
  have w : ∀ o k m i own md, OptP (fun x0 => Keeps s0 x0) (a0.landWait a1 o k m i own md) := fun _ _ _ _ _ _ => State.landWait_keeps h0
  unfold State.landRow
  extract_lets +onlyGivenNames -lift g p sl q
  clear_value g p sl q
  generalize a1.areaOf _ _ = z
  cases z with
  | none => exact e _ _ _
  | some k =>
    refine ite_keeps (e _ _ _) ?_
    refine ite_keeps (e _ _ _) ?_
    extract_lets +onlyGivenNames -lift mark
    clear_value mark
    refine ite_keeps (e _ _ _) ?_
    extract_lets +onlyGivenNames -lift i own
    clear_value i own
    generalize a0.homeDie _ _ _ = z
    cases z with
    | none => exact e _ _ _
    | some md => 
      extract_lets +onlyGivenNames -lift o'
      clear_value o'
      have ha : AllocK s0 (a0.allocAt p md own a3.payload.length) := State.allocAt_keeps h0
      refine (?_ : OptP (fun x0 => Keeps s0 x0) (match a0.allocAt p md own a3.payload.length with
        | .bad c iso => some (a0.xEnd a1 c iso)
        | .head a s => some ((s.setXop o').landed o' k a2 a3 a)
        | .wait => a0.landWait a1 o' a2 a3 i own md))
      revert ha
      generalize a0.allocAt _ _ _ _ = z
      intro ha
      cases z with
      | bad c iso => exact e _ _ _
      | head a t => exact OptP.of_some (State.landed_keeps (State.setXop_keeps (ha.get rfl)))
      | wait => exact w _ _ _ _ _ _

theorem State.xDone_keeps {s0 : State} {a0 a1} (h0 : Keeps s0 a0) :
    Keeps s0 (State.xDone a0 a1) := by
  unfold State.xDone
  repeat' first
    | with_reducible intro _ | with_reducible assumption | with_reducible apply State.closeCheck_keeps
    | with_reducible apply State.dropXop_keeps | with_reducible apply State.sendSigs_keeps
    | with_reducible exact OptP.of_none | with_reducible apply OptP.of_some

theorem State.retCheck_keeps {s0 : State} {a0 a1} (h0 : Keeps s0 a0) :
    Keeps s0 (State.retCheck a0 a1) := by
  unfold State.retCheck
  repeat' first
    | with_reducible intro _ | with_reducible assumption | with_reducible apply State.wr_keeps
    | with_reducible apply State.wrN_keeps | with_reducible apply State.xDone_keeps | with_reducible exact OptP.of_none
    | with_reducible apply OptP.of_some | with_reducible apply OptP.getD | with_reducible apply Keeps.foldl
    | with_reducible apply Keeps.foldl1 | with_reducible apply Keeps.foldl2
    | (extract_lets +onlyGivenNames x; first | (have hx : Keeps s0 x := ?_; clear_value x; rotate_left; subst x; rotate_right) | clear_value x | subst x)
    | split

theorem State.xAccess_keeps {s0 : State} {a0 a1 a2 a3} (h0 : Keeps s0 a0) :
    Keeps s0 (State.xAccess a0 a1 a2 a3) := by
  unfold State.xAccess
  repeat' first
    | with_reducible intro _ | with_reducible assumption | with_reducible apply State.accessError_keeps
    | with_reducible apply State.xFail_keeps | with_reducible exact OptP.of_none | with_reducible apply OptP.of_some

theorem State.xEndAccess_keeps {s0 : State} {a0 a1 a2 a3} (h0 : Keeps s0 a0) :
    Keeps s0 (State.xEndAccess a0 a1 a2 a3) := by
  unfold State.xEndAccess
  repeat' first
    | with_reducible intro _ | with_reducible assumption | with_reducible apply State.closeCheck_keeps
    | with_reducible apply State.xAccess_keeps | with_reducible exact OptP.of_none | with_reducible apply OptP.of_some

theorem State.placeReturn_keeps {s0 : State} {a0 a1 a2 a3} (h0 : Keeps s0 a0) :
    Keeps s0 (State.placeReturn a0 a1 a2 a3) := by
  unfold State.placeReturn
  repeat' first
    | with_reducible intro _ | with_reducible assumption | with_reducible apply State.retCheck_keeps
    | with_reducible apply State.setXop_keeps | with_reducible apply State.wrPay_keeps
    | with_reducible apply State.xAck_keeps | with_reducible apply State.xEnd_keeps
    | with_reducible apply State.xEndAccess_keeps | with_reducible exact OptP.of_none | with_reducible apply OptP.of_some
    | with_reducible apply OptP.getD
    | (extract_lets +onlyGivenNames x; first | (have hx : Keeps s0 x := ?_; clear_value x; rotate_left; subst x; rotate_right) | clear_value x | subst x)
    | split

theorem State.sendCheck_keeps {s0 : State} {a0 a1} (h0 : Keeps s0 a0) :
    Keeps s0 (State.sendCheck a0 a1) := by
  unfold State.sendCheck
  repeat' first
    | with_reducible intro _ | with_reducible assumption | with_reducible apply State.xDone_keeps
    | with_reducible exact OptP.of_none | with_reducible apply OptP.of_some | split

theorem State.trySend_keeps {s0 : State} {a0 a1 a2} (h0 : Keeps s0 a0) :
    SendingK s0 (State.trySend a0 a1 a2) := by
  unfold State.trySend
  repeat' first
    | with_reducible intro _ | with_reducible assumption | with_reducible apply State.countTx_keeps
    | with_reducible apply State.emit_keeps | with_reducible apply State.msgPort_keeps
    | with_reducible apply State.requestWake_keeps | with_reducible apply State.suspect_keeps
    | with_reducible apply State.traceMsg_keeps | with_reducible exact OptP.of_none | with_reducible apply OptP.of_some
    | with_reducible apply SendingK.sent | with_reducible apply SendingK.wait | with_reducible exact SendingK.bad
    | (extract_lets +onlyGivenNames x; first | (have hx : Keeps s0 x := ?_; clear_value x; rotate_left; subst x; rotate_right) | (have hx : Keeps s0 x.2 := ?_; clear_value x; rotate_left; subst x; rotate_right) | clear_value x | subst x)
    | split | with_reducible refine pair2 ?_ (by assumption)

theorem pumpList_keeps {s0 : State} {a0 a1 a2 a3} (h3 : Keeps s0 a3) :
    Keeps s0 (pumpList a0 a1 a2 a3) := by
  induction a1 generalizing a0 a2 a3 with
  | nil =>
    rw [pumpList]
    repeat' first
      | with_reducible intro _ | with_reducible assumption
      | with_reducible apply State.setXop_keeps | with_reducible apply State.trySend_keeps
      | with_reducible apply State.xEnd_keeps | with_reducible apply State.xEndAccess_keeps
      | with_reducible exact OptP.of_none | with_reducible apply OptP.of_some | with_reducible apply SendingK.sent
      | with_reducible apply SendingK.wait | with_reducible exact SendingK.bad
      | (extract_lets +onlyGivenNames x; first | (have hx : Keeps s0 x := ?_; clear_value x; rotate_left; subst x; rotate_right) | clear_value x | subst x)
      | split | with_reducible refine SendingK.get ?_ (by assumption)
      | with_reducible refine SendingK.getWait ?_ (by assumption)
  | cons y l ih =>
    rw [pumpList]
    repeat' first
      | with_reducible intro _ | with_reducible assumption | with_reducible apply ih
      | with_reducible apply State.setXop_keeps | with_reducible apply State.trySend_keeps
      | with_reducible apply State.xEnd_keeps | with_reducible apply State.xEndAccess_keeps
      | with_reducible exact OptP.of_none | with_reducible apply OptP.of_some | with_reducible apply SendingK.sent
      | with_reducible apply SendingK.wait | with_reducible exact SendingK.bad
      | (extract_lets +onlyGivenNames x; first | (have hx : Keeps s0 x := ?_; clear_value x; rotate_left; subst x; rotate_right) | clear_value x | subst x)
      | split | with_reducible refine SendingK.get ?_ (by assumption)
      | with_reducible refine SendingK.getWait ?_ (by assumption)

theorem State.pump_keeps {s0 : State} {a0 a1} (h0 : Keeps s0 a0) :
    Keeps s0 (State.pump a0 a1) := by
  unfold State.pump
  repeat' first
    | with_reducible intro _ | with_reducible assumption | with_reducible apply State.sendCheck_keeps
    | with_reducible apply pumpList_keeps | with_reducible exact OptP.of_none | with_reducible apply OptP.of_some | split

theorem State.pumpDie_keeps {s0 : State} {a0 a1} (h0 : Keeps s0 a0) :
    Keeps s0 (State.pumpDie a0 a1) := by
  unfold State.pumpDie
  repeat' first
    | with_reducible intro _ | with_reducible assumption | with_reducible apply State.pump_keeps
    | with_reducible exact OptP.of_none | with_reducible apply OptP.of_some | with_reducible apply Keeps.foldl
    | with_reducible apply Keeps.foldl1 | with_reducible apply Keeps.foldl2

theorem State.xTake_keeps {s0 : State} {a0 a1 a2 a3} (h0 : Keeps s0 a0) :
    OptP (fun x0 => Keeps s0 x0) (State.xTake a0 a1 a2 a3) := by
  unfold State.xTake
  repeat' first
    | with_reducible intro _ | with_reducible assumption | with_reducible apply State.landCount_keeps
    | with_reducible apply State.landRow_keeps | with_reducible apply State.placeReturn_keeps
    | with_reducible exact OptP.of_none | with_reducible apply OptP.of_some | with_reducible apply OptP.bindS
    | with_reducible apply OptP.bind
    | (extract_lets +onlyGivenNames x; first | (have hx : Keeps s0 x := ?_; clear_value x; rotate_left; subst x; rotate_right) | (have hx : OptP (fun y => Keeps s0 y) x := ?_; clear_value x; rotate_left; subst x; rotate_right) | clear_value x | subst x)
    | split | with_reducible refine OptP.get ?_ (by assumption) | with_reducible exact OptP.get (by assumption) rfl
    | with_reducible apply Keeps.lit

theorem State.replayBuf_keeps {s0 : State} {a0 a1} (h0 : Keeps s0 a0) :
    Keeps s0 (State.replayBuf a0 a1) := by
  unfold State.replayBuf
  repeat' first
    | with_reducible intro _ | with_reducible assumption | with_reducible apply State.xTake_keeps
    | with_reducible exact OptP.of_none | with_reducible apply OptP.of_some | with_reducible apply OptP.getD
    | with_reducible apply Keeps.foldl | with_reducible apply Keeps.foldl1 | with_reducible apply Keeps.foldl2
    | (extract_lets +onlyGivenNames x; first | (have hx : Keeps s0 x := ?_; clear_value x; rotate_left; subst x; rotate_right) | (have hx : OptP (fun y => Keeps s0 y) x := ?_; clear_value x; rotate_left; subst x; rotate_right) | clear_value x | subst x)
    | with_reducible apply Keeps.lit

theorem State.stashOperand_keeps {s0 : State} {a0 a1 a2 a3 a4 a5 a6 a7} (h0 : Keeps s0 a0) :
    ExP (fun _ => True) (fun x0 => Keeps s0 x0) (State.stashOperand a0 a1 a2 a3 a4 a5 a6 a7) := by
  unfold State.stashOperand
  repeat' first
    | with_reducible intro _ | with_reducible assumption | with_reducible apply State.setDescWord_keeps
    | with_reducible apply State.wrN_keeps | with_reducible exact OptP.of_none | with_reducible apply OptP.of_some
    | with_reducible apply ExP.ok | with_reducible apply ExP.error | with_reducible exact trivial
    | (extract_lets +onlyGivenNames x; first | (have hx : Keeps s0 x := ?_; clear_value x; rotate_left; subst x; rotate_right) | clear_value x | subst x)
    | split

theorem stashOperands_keeps {s0 : State} {a0 a1 a2 a3 a4 a5 a6 a7} (h7 : Keeps s0 a7) :
    ExP (fun x0 => Keeps s0 x0.2) (fun x0 => Keeps s0 x0) (stashOperands a0 a1 a2 a3 a4 a5 a6 a7) := by
  induction a6 generalizing a0 a1 a2 a3 a4 a5 a7 with
  | nil =>
    rw [stashOperands]
    repeat' first
      | with_reducible intro _ | with_reducible assumption
      | with_reducible apply State.stashOperand_keeps | with_reducible exact OptP.of_none
      | with_reducible apply OptP.of_some | with_reducible apply ExP.ok | with_reducible apply ExP.error
      | with_reducible exact trivial
      | (extract_lets +onlyGivenNames x; first | (have hx : Keeps s0 x := ?_; clear_value x; rotate_left; subst x; rotate_right) | (have hx : Keeps s0 x.2 := ?_; clear_value x; rotate_left; subst x; rotate_right) | clear_value x | subst x)
      | split | with_reducible refine ExP.getOk ?_ (by assumption)
  | cons y l ih =>
    rw [stashOperands]
    repeat' first
      | with_reducible intro _ | with_reducible assumption | with_reducible apply ih
      | with_reducible apply State.stashOperand_keeps | with_reducible exact OptP.of_none
      | with_reducible apply OptP.of_some | with_reducible apply ExP.ok | with_reducible apply ExP.error
      | with_reducible exact trivial
      | (extract_lets +onlyGivenNames x; first | (have hx : Keeps s0 x := ?_; clear_value x; rotate_left; subst x; rotate_right) | (have hx : Keeps s0 x.2 := ?_; clear_value x; rotate_left; subst x; rotate_right) | clear_value x | subst x)
      | split | with_reducible refine ExP.getOk ?_ (by assumption)

theorem State.stashUpdate_keeps {s0 : State} {a0 a1 a2 a3} (h0 : Keeps s0 a0) :
    ExP (fun x0 => Keeps s0 x0.2) (fun x0 => Keeps s0 x0) (State.stashUpdate a0 a1 a2 a3) := by
  unfold State.stashUpdate
  repeat' first
    | with_reducible intro _ | with_reducible assumption | with_reducible apply State.wrN_keeps
    | with_reducible apply stashOperands_keeps | with_reducible exact OptP.of_none | with_reducible apply OptP.of_some
    | with_reducible apply ExP.ok | with_reducible apply ExP.error | with_reducible exact trivial
    | with_reducible apply Keeps.foldl | with_reducible apply Keeps.foldl1 | with_reducible apply Keeps.foldl2
    | (extract_lets +onlyGivenNames x; first | (have hx : Keeps s0 x := ?_; clear_value x; rotate_left; subst x; rotate_right) | (have hx : Keeps s0 x.2 := ?_; clear_value x; rotate_left; subst x; rotate_right) | clear_value x | subst x)
    | split | with_reducible refine ExP.getOk2 ?_ (by assumption) | with_reducible refine ExP.getErr2 ?_ (by assumption)

theorem State.visit_keeps {s0 : State} {a0 a1 a2 a3 a4} (h0 : Keeps s0 a0) :
    Keeps s0 (State.visit a0 a1 a2 a3 a4) := by
  unfold State.visit
  repeat' first
    | with_reducible intro _ | with_reducible assumption | with_reducible apply State.wrN_keeps
    | with_reducible exact OptP.of_none | with_reducible apply OptP.of_some
    | (extract_lets +onlyGivenNames x; first | (have hx : Keeps s0 x := ?_; clear_value x; rotate_left; subst x; rotate_right) | clear_value x | subst x)
    | split

theorem State.waitLanded_keeps {s0 : State} {a0 a1 a2} (h0 : Keeps s0 a0) :
    Keeps s0 (State.waitLanded a0 a1 a2) := by
  unfold State.waitLanded
  repeat' first
    | with_reducible intro _ | with_reducible assumption | with_reducible apply State.landed_keeps
    | with_reducible exact OptP.of_none | with_reducible apply OptP.of_some
    | (extract_lets +onlyGivenNames x; first | (have hx : Keeps s0 x := ?_; clear_value x; rotate_left; subst x; rotate_right) | clear_value x | subst x)
    | split | with_reducible apply Keeps.lit

theorem State.writeRowMap_keeps {s0 : State} {a0 a1 a2 a3} (h0 : Keeps s0 a0) :
    Keeps s0 (State.writeRowMap a0 a1 a2 a3) := by
  unfold State.writeRowMap
  repeat' first
    | with_reducible intro _ | with_reducible assumption | with_reducible apply State.wr_keeps
    | with_reducible apply State.wrN_keeps | with_reducible exact OptP.of_none | with_reducible apply OptP.of_some
    | with_reducible apply Keeps.foldl | with_reducible apply Keeps.foldl1 | with_reducible apply Keeps.foldl2
    | (extract_lets +onlyGivenNames x; first | (have hx : Keeps s0 x := ?_; clear_value x; rotate_left; subst x; rotate_right) | clear_value x | subst x)
    | split

theorem State.xeStart_keeps {s0 : State} {a0 a1 a2 a3 a4 a5 a6} (h0 : Keeps s0 a0) :
    Keeps s0 (State.xeStart a0 a1 a2 a3 a4 a5 a6) := by
  unfold State.xeStart
  repeat' first
    | with_reducible intro _ | with_reducible assumption | with_reducible apply State.accept_keeps
    | with_reducible apply State.assign_keeps | with_reducible apply State.closeCheck_keeps
    | with_reducible apply State.pump_keeps | with_reducible apply State.replayBuf_keeps
    | with_reducible apply State.retCheck_keeps | with_reducible apply State.setSegState_keeps
    | with_reducible apply State.wrN_keeps | with_reducible exact OptP.of_none | with_reducible apply OptP.of_some
    | with_reducible apply Keeps.foldl | with_reducible apply Keeps.foldl1 | with_reducible apply Keeps.foldl2
    | (extract_lets +onlyGivenNames x; first | (have hx : Keeps s0 x := ?_; clear_value x; rotate_left; subst x; rotate_right) | (have hx : Keeps s0 x.1 := ?_; clear_value x; rotate_left; subst x; rotate_right) | clear_value x | subst x)
    | split | with_reducible refine pair1 ?_ (by assumption) | with_reducible apply Keeps.lit

theorem landComplete_keeps {s0 : State} {a0 a1 a2} (h2 : Keeps s0 a2) :
    OptP (fun x0 => Keeps s0 x0) (landComplete a0 a1 a2) := by
  unfold landComplete
  repeat' first
    | with_reducible intro _ | with_reducible assumption | with_reducible apply State.setXop_keeps
    | with_reducible apply State.stashUpdate_keeps | with_reducible apply State.visit_keeps
    | with_reducible apply State.wrN_keeps | with_reducible apply State.writeRowMap_keeps
    | with_reducible apply State.xDone_keeps | with_reducible apply State.xEnd_keeps | with_reducible exact OptP.of_none
    | with_reducible apply OptP.of_some | with_reducible apply ExP.ok | with_reducible apply ExP.error
    | with_reducible exact trivial
    | (extract_lets +onlyGivenNames x; first | (have hx : Keeps s0 x := ?_; clear_value x; rotate_left; subst x; rotate_right) | (have hx : Keeps s0 x.2 := ?_; clear_value x; rotate_left; subst x; rotate_right) | (have hx : OptP (fun y => Keeps s0 y) x := ?_; clear_value x; rotate_left; subst x; rotate_right) | clear_value x | subst x)
    | split | with_reducible refine ExP.getOk2 ?_ (by assumption) | with_reducible refine ExP.getErr2 ?_ (by assumption)

theorem execLandingComplete_keeps {s0 : State} {a0 a1 a2} (h2 : Keeps s0 a2) :
    OutK s0 (execLandingComplete a0 a1 a2) := by
  unfold execLandingComplete
  repeat' first
    | with_reducible intro _ | with_reducible assumption | with_reducible apply landComplete_keeps
    | with_reducible apply attempt_keeps | with_reducible exact OptP.of_none | with_reducible apply OptP.of_some
    | with_reducible apply OutK.next

theorem runXe_keeps {s0 : State} {a0 a1 a2 a3 a4 a5} (h3 : Keeps s0 a3) :
    RanK s0 (runXe a0 a1 a2 a3 a4 a5) := by
  unfold runXe
  repeat' first
    | with_reducible intro _ | with_reducible assumption | with_reducible apply State.xeStart_keeps
    | with_reducible exact OptP.of_none | with_reducible apply OptP.of_some | with_reducible apply RanK.done
    | with_reducible exact RanK.fault | with_reducible exact RanK.bad | with_reducible exact RanK.asleep
    | with_reducible exact RanK.full
    | (extract_lets +onlyGivenNames x; first | (have hx : Keeps s0 x := ?_; clear_value x; rotate_left; subst x; rotate_right) | clear_value x | subst x)
    | split

theorem execXe_keeps {s0 : State} {a0 a1 a2 a3 a4} (h4 : Keeps s0 a4) :
    OptP (fun x0 => Keeps s0 x0) (execXe a0 a1 a2 a3 a4) := by
  unfold execXe
  repeat' first
    | with_reducible intro _ | with_reducible assumption | with_reducible apply issue_keeps
    | with_reducible apply runXe_keeps | with_reducible exact OptP.of_none | with_reducible apply OptP.of_some
    | with_reducible apply RanK.done | with_reducible exact RanK.fault | with_reducible exact RanK.bad
    | with_reducible exact RanK.asleep | with_reducible exact RanK.full

theorem execXclose_keeps {s0 : State} {a0 a1} (h1 : Keeps s0 a1) :
    OutK s0 (execXclose a0 a1) := by
  unfold execXclose
  repeat' first
    | with_reducible intro _ | with_reducible assumption | with_reducible apply execXe_keeps
    | with_reducible apply attempt_keeps | with_reducible exact OptP.of_none | with_reducible apply OptP.of_some
    | with_reducible apply OutK.next

theorem xAnswerArrive_keeps {s0 : State} {a0 a1 a2 a3 a4} (h4 : Keeps s0 a4) :
    OptP (fun x0 => Keeps s0 x0) (xAnswerArrive a0 a1 a2 a3 a4) := by
  unfold xAnswerArrive
  repeat' first
    | with_reducible intro _ | with_reducible assumption | with_reducible apply State.dropXop_keeps
    | with_reducible apply State.heard_keeps | with_reducible apply State.pumpDie_keeps
    | with_reducible apply State.sendCheck_keeps | with_reducible apply State.setXop_keeps
    | with_reducible apply State.traceMsg_keeps | with_reducible apply State.xEnd_keeps | with_reducible exact OptP.of_none
    | with_reducible apply OptP.of_some
    | (extract_lets +onlyGivenNames x; first | (have hx : Keeps s0 x := ?_; clear_value x; rotate_left; subst x; rotate_right) | (have hx : OptP (fun y => Keeps s0 y) x := ?_; clear_value x; rotate_left; subst x; rotate_right) | clear_value x | subst x)
    | split

theorem execXmsgAck_keeps {s0 : State} {a0 a1 a2 a3} (h3 : Keeps s0 a3) :
    OutK s0 (execXmsgAck a0 a1 a2 a3) := by
  unfold execXmsgAck
  repeat' first
    | with_reducible intro _ | with_reducible assumption | with_reducible apply xAnswerArrive_keeps
    | with_reducible apply attempt_keeps | with_reducible exact OptP.of_none | with_reducible apply OptP.of_some
    | with_reducible apply OutK.next

theorem xArrive_keeps {s0 : State} {a0 a1 a2 a3 a4} (h4 : Keeps s0 a4) :
    OptP (fun x0 => Keeps s0 x0) (xArrive a0 a1 a2 a3 a4) := by
  unfold xArrive
  repeat' first
    | with_reducible intro _ | with_reducible assumption | with_reducible apply State.countRx_keeps
    | with_reducible apply State.isolationDrop_keeps | with_reducible apply State.nodeBreach_keeps
    | with_reducible apply State.raise_keeps | with_reducible apply State.traceMsg_keeps
    | with_reducible apply State.xAnswer_keeps | with_reducible apply State.xTake_keeps | with_reducible exact OptP.of_none
    | with_reducible apply OptP.of_some
    | (extract_lets +onlyGivenNames x; first | (have hx : Keeps s0 x := ?_; clear_value x; rotate_left; subst x; rotate_right) | (have hx : OptP (fun y => Keeps s0 y) x := ?_; clear_value x; rotate_left; subst x; rotate_right) | clear_value x | subst x)
    | split | with_reducible refine OptP.get ?_ (by assumption) | with_reducible exact OptP.get (by assumption) rfl

theorem execXmsgCount_keeps {s0 : State} {a0 a1 a2 a3} (h3 : Keeps s0 a3) :
    OutK s0 (execXmsgCount a0 a1 a2 a3) := by
  unfold execXmsgCount
  repeat' first
    | with_reducible intro _ | with_reducible assumption | with_reducible apply xArrive_keeps
    | with_reducible apply attempt_keeps | with_reducible exact OptP.of_none | with_reducible apply OptP.of_some
    | with_reducible apply OutK.next

theorem execXmsgNack_keeps {s0 : State} {a0 a1 a2 a3} (h3 : Keeps s0 a3) :
    OutK s0 (execXmsgNack a0 a1 a2 a3) := by
  unfold execXmsgNack
  repeat' first
    | with_reducible intro _ | with_reducible assumption | with_reducible apply xAnswerArrive_keeps
    | with_reducible apply attempt_keeps | with_reducible exact OptP.of_none | with_reducible apply OptP.of_some
    | with_reducible apply OutK.next

theorem execXmsgReject_keeps {s0 : State} {a0 a1 a2 a3} (h3 : Keeps s0 a3) :
    OutK s0 (execXmsgReject a0 a1 a2 a3) := by
  unfold execXmsgReject
  repeat' first
    | with_reducible intro _ | with_reducible assumption | with_reducible apply xAnswerArrive_keeps
    | with_reducible apply attempt_keeps | with_reducible exact OptP.of_none | with_reducible apply OptP.of_some
    | with_reducible apply OutK.next

theorem execXmsgReturn_keeps {s0 : State} {a0 a1 a2 a3} (h3 : Keeps s0 a3) :
    OutK s0 (execXmsgReturn a0 a1 a2 a3) := by
  unfold execXmsgReturn
  repeat' first
    | with_reducible intro _ | with_reducible assumption | with_reducible apply xArrive_keeps
    | with_reducible apply attempt_keeps | with_reducible exact OptP.of_none | with_reducible apply OptP.of_some
    | with_reducible apply OutK.next

theorem execXmsgRow_keeps {s0 : State} {a0 a1 a2 a3} (h3 : Keeps s0 a3) :
    OutK s0 (execXmsgRow a0 a1 a2 a3) := by
  unfold execXmsgRow
  repeat' first
    | with_reducible intro _ | with_reducible assumption | with_reducible apply xArrive_keeps
    | with_reducible apply attempt_keeps | with_reducible exact OptP.of_none | with_reducible apply OptP.of_some
    | with_reducible apply OutK.next

theorem execXrecvLanding_keeps {s0 : State} {a0 a1} (h1 : Keeps s0 a1) :
    OutK s0 (execXrecvLanding a0 a1) := by
  unfold execXrecvLanding
  repeat' first
    | with_reducible intro _ | with_reducible assumption | with_reducible apply execXe_keeps
    | with_reducible apply attempt_keeps | with_reducible exact OptP.of_none | with_reducible apply OptP.of_some
    | with_reducible apply OutK.next

theorem execXrecvReturn_keeps {s0 : State} {a0 a1} (h1 : Keeps s0 a1) :
    OutK s0 (execXrecvReturn a0 a1) := by
  unfold execXrecvReturn
  repeat' first
    | with_reducible intro _ | with_reducible assumption | with_reducible apply execXe_keeps
    | with_reducible apply attempt_keeps | with_reducible exact OptP.of_none | with_reducible apply OptP.of_some
    | with_reducible apply OutK.next

theorem execXreturn_keeps {s0 : State} {a0 a1} (h1 : Keeps s0 a1) :
    OutK s0 (execXreturn a0 a1) := by
  unfold execXreturn
  repeat' first
    | with_reducible intro _ | with_reducible assumption | with_reducible apply execXe_keeps
    | with_reducible apply attempt_keeps | with_reducible exact OptP.of_none | with_reducible apply OptP.of_some
    | with_reducible apply OutK.next

theorem execXsendBackward_keeps {s0 : State} {a0 a1} (h1 : Keeps s0 a1) :
    OutK s0 (execXsendBackward a0 a1) := by
  unfold execXsendBackward
  repeat' first
    | with_reducible intro _ | with_reducible assumption | with_reducible apply execXe_keeps
    | with_reducible apply attempt_keeps | with_reducible exact OptP.of_none | with_reducible apply OptP.of_some
    | with_reducible apply OutK.next

theorem execXsendForward_keeps {s0 : State} {a0 a1 a2} (h2 : Keeps s0 a2) :
    OutK s0 (execXsendForward a0 a1 a2) := by
  unfold execXsendForward
  repeat' first
    | with_reducible intro _ | with_reducible assumption | with_reducible apply execXe_keeps
    | with_reducible apply attempt_keeps | with_reducible exact OptP.of_none | with_reducible apply OptP.of_some
    | with_reducible apply OutK.next

end Sys2Proof.Machine
end

