-- ==== Sys2Proof/Laws/KeepsOfCollective.lean ====
section
/-! SUPPORT. What the operations of Collective keep. -/

namespace Sys2Proof.Machine

theorem State.setCop_keeps {s0 : State} {a0 a1} (h0 : Keeps s0 a0) :
    Keeps s0 (State.setCop a0 a1) := by
  unfold State.setCop
  repeat' first
    | with_reducible intro _ | with_reducible assumption | with_reducible exact OptP.of_none
    | with_reducible apply OptP.of_some
    | (extract_lets +onlyGivenNames x; first | (have hx : Keeps s0 x := ?_; clear_value x; rotate_left; subst x; rotate_right) | clear_value x | subst x)
    | split | with_reducible apply Keeps.lit

theorem State.cFail_keeps {s0 : State} {a0 a1 a2} (h0 : Keeps s0 a0) :
    Keeps s0 (State.cFail a0 a1 a2) := by
  unfold State.cFail
  repeat' first
    | with_reducible intro _ | with_reducible assumption | with_reducible apply State.raise_keeps
    | with_reducible apply State.recordFault_keeps | with_reducible apply State.setCop_keeps
    | with_reducible apply State.setStream_keeps | with_reducible exact OptP.of_none | with_reducible apply OptP.of_some
    | (extract_lets +onlyGivenNames x; first | (have hx : Keeps s0 x := ?_; clear_value x; rotate_left; subst x; rotate_right) | clear_value x | subst x)

theorem State.cAccess_keeps {s0 : State} {a0 a1 a2 a3} (h0 : Keeps s0 a0) :
    Keeps s0 (State.cAccess a0 a1 a2 a3) := by
  unfold State.cAccess
  repeat' first
    | with_reducible intro _ | with_reducible assumption | with_reducible apply State.accessError_keeps
    | with_reducible apply State.cFail_keeps | with_reducible exact OptP.of_none | with_reducible apply OptP.of_some

theorem State.cSend_keeps {s0 : State} {a0 a1 a2 a3} (h0 : Keeps s0 a0) :
    Keeps s0 (State.cSend a0 a1 a2 a3) := by
  unfold State.cSend
  repeat' first
    | with_reducible intro _ | with_reducible assumption | with_reducible apply State.countTx_keeps
    | with_reducible apply State.emit_keeps | with_reducible apply State.msgPort_keeps
    | with_reducible apply State.traceMsg_keeps | with_reducible exact OptP.of_none | with_reducible apply OptP.of_some
    | (extract_lets +onlyGivenNames x; first | (have hx : Keeps s0 x := ?_; clear_value x; rotate_left; subst x; rotate_right) | (have hx : Keeps s0 x.2 := ?_; clear_value x; rotate_left; subst x; rotate_right) | clear_value x | subst x)
    | split | with_reducible refine pair2 ?_ (by assumption)

theorem State.cAnswer_keeps {s0 : State} {a0 a1 a2 a3 a4} (h0 : Keeps s0 a0) :
    Keeps s0 (State.cAnswer a0 a1 a2 a3 a4) := by
  unfold State.cAnswer
  repeat' first
    | with_reducible intro _ | with_reducible assumption | with_reducible apply State.cSend_keeps
    | with_reducible exact OptP.of_none | with_reducible apply OptP.of_some

theorem State.cAck_keeps {s0 : State} {a0 a1 a2} (h0 : Keeps s0 a0) :
    Keeps s0 (State.cAck a0 a1 a2) := by
  induction a2 generalizing a0 a1 with
  | nil =>
    rw [State.cAck]
    repeat' first
      | with_reducible intro _ | with_reducible assumption
      | with_reducible apply State.cAnswer_keeps | with_reducible apply State.cFail_keeps
      | with_reducible apply State.ingress_keeps | with_reducible apply State.release_keeps
      | with_reducible exact OptP.of_none | with_reducible apply OptP.of_some | with_reducible apply ReleaseK.done
      | with_reducible apply ReleaseK.bad
      | (extract_lets +onlyGivenNames x; first | (have hx : Keeps s0 x := ?_; clear_value x; rotate_left; subst x; rotate_right) | (have hx : ∀ s, Keeps s0 s → Keeps s0 (x s) := ?_; clear_value x; rotate_left; subst x; (try dsimp -zeta only); rotate_right) | (have hx : ∀ s k, Keeps s0 s → Keeps s0 (x s k) := ?_; clear_value x; rotate_left; subst x; (try dsimp -zeta only); rotate_right) | (have hx : ∀ s k l, Keeps s0 s → Keeps s0 (x s k l) := ?_; clear_value x; rotate_left; subst x; (try dsimp -zeta only); rotate_right) | (have hx : ∀ k, Keeps s0 (x k) := ?_; clear_value x; rotate_left; subst x; (try dsimp -zeta only); rotate_right) | (have hx : ∀ k l, Keeps s0 (x k l) := ?_; clear_value x; rotate_left; subst x; (try dsimp -zeta only); rotate_right) | clear_value x | subst x)
      | split | with_reducible refine ReleaseK.get ?_ (by assumption)
      | with_reducible refine ReleaseK.getBad ?_ (by assumption) | with_reducible apply_assumption
  | cons y l ih =>
    rw [State.cAck]
    repeat' first
      | with_reducible intro _ | with_reducible assumption | with_reducible apply ih
      | with_reducible apply State.cAnswer_keeps | with_reducible apply State.cFail_keeps
      | with_reducible apply State.ingress_keeps | with_reducible apply State.release_keeps
      | with_reducible exact OptP.of_none | with_reducible apply OptP.of_some | with_reducible apply ReleaseK.done
      | with_reducible apply ReleaseK.bad
      | (extract_lets +onlyGivenNames x; first | (have hx : Keeps s0 x := ?_; clear_value x; rotate_left; subst x; rotate_right) | (have hx : ∀ s, Keeps s0 s → Keeps s0 (x s) := ?_; clear_value x; rotate_left; subst x; (try dsimp -zeta only); rotate_right) | (have hx : ∀ s k, Keeps s0 s → Keeps s0 (x s k) := ?_; clear_value x; rotate_left; subst x; (try dsimp -zeta only); rotate_right) | (have hx : ∀ s k l, Keeps s0 s → Keeps s0 (x s k l) := ?_; clear_value x; rotate_left; subst x; (try dsimp -zeta only); rotate_right) | (have hx : ∀ k, Keeps s0 (x k) := ?_; clear_value x; rotate_left; subst x; (try dsimp -zeta only); rotate_right) | (have hx : ∀ k l, Keeps s0 (x k l) := ?_; clear_value x; rotate_left; subst x; (try dsimp -zeta only); rotate_right) | clear_value x | subst x)
      | split | with_reducible refine ReleaseK.get ?_ (by assumption)
      | with_reducible refine ReleaseK.getBad ?_ (by assumption) | with_reducible apply_assumption

theorem State.wrRuns_keeps {s0 : State} {a0 a1 a2 a3 a4} (h0 : Keeps s0 a0) :
    Keeps s0 (State.wrRuns a0 a1 a2 a3 a4) := by
  induction a1 generalizing a0 a2 a3 a4 with
  | nil =>
    rw [State.wrRuns]
    repeat' first
      | with_reducible intro _ | with_reducible assumption
      | with_reducible apply State.wrPay_keeps | with_reducible exact OptP.of_none | with_reducible apply OptP.of_some
      | (extract_lets +onlyGivenNames x; first | (have hx : Keeps s0 x := ?_; clear_value x; rotate_left; subst x; rotate_right) | clear_value x | subst x)
      | split
  | cons y l ih =>
    rw [State.wrRuns]
    repeat' first
      | with_reducible intro _ | with_reducible assumption | with_reducible apply ih
      | with_reducible apply State.wrPay_keeps | with_reducible exact OptP.of_none | with_reducible apply OptP.of_some
      | (extract_lets +onlyGivenNames x; first | (have hx : Keeps s0 x := ?_; clear_value x; rotate_left; subst x; rotate_right) | clear_value x | subst x)
      | split

theorem State.cWrite_keeps {s0 : State} {a0 a1 a2 a3 a4 a5 a6} (h0 : Keeps s0 a0) :
    ExP (fun _ => True) (fun x0 => Keeps s0 x0.1) (State.cWrite a0 a1 a2 a3 a4 a5 a6) := by
  unfold State.cWrite
  repeat' first
    | with_reducible intro _ | with_reducible assumption | with_reducible apply State.wrRuns_keeps
    | with_reducible exact OptP.of_none | with_reducible apply OptP.of_some | with_reducible apply ExP.ok
    | with_reducible apply ExP.error | with_reducible exact trivial
    | (extract_lets +onlyGivenNames x; first | (have hx : Keeps s0 x := ?_; clear_value x; rotate_left; subst x; rotate_right) | (have hx : Keeps s0 x.1 := ?_; clear_value x; rotate_left; subst x; rotate_right) | clear_value x | subst x)
    | split

theorem State.cRoot_keeps {s0 : State} {a0 a1 a2 a3 a4} (h0 : Keeps s0 a0) :
    Keeps s0 (State.cRoot a0 a1 a2 a3 a4) := by
  unfold State.cRoot
  repeat' first
    | with_reducible intro _ | with_reducible assumption | with_reducible apply State.cAccess_keeps
    | with_reducible apply State.cAck_keeps | with_reducible apply State.cWrite_keeps
    | with_reducible apply State.setCop_keeps | with_reducible exact OptP.of_none | with_reducible apply OptP.of_some
    | with_reducible apply OptP.getD | with_reducible apply ExP.ok | with_reducible apply ExP.error
    | with_reducible exact trivial
    | (extract_lets +onlyGivenNames x; first | (have hx : Keeps s0 x := ?_; clear_value x; rotate_left; subst x; rotate_right) | (have hx : Keeps s0 x.1 := ?_; clear_value x; rotate_left; subst x; rotate_right) | clear_value x | subst x)
    | split | with_reducible refine ExP.getOk' ?_ (by assumption)

theorem State.cAdvance_keeps {s0 : State} {a0 a1 a2 a3 a4} (h0 : Keeps s0 a0) :
    Keeps s0 (State.cAdvance a0 a1 a2 a3 a4) := by
  unfold State.cAdvance
  repeat' first
    | with_reducible intro _ | with_reducible assumption | with_reducible apply State.cAck_keeps
    | with_reducible apply State.cRoot_keeps | with_reducible apply State.setCop_keeps | with_reducible exact OptP.of_none
    | with_reducible apply OptP.of_some
    | (extract_lets +onlyGivenNames x; first | (have hx : Keeps s0 x := ?_; clear_value x; rotate_left; subst x; rotate_right) | clear_value x | subst x)
    | split

theorem State.compare_keeps {s0 : State} {a0 a1 a2 a3} (h0 : Keeps s0 a0) :
    Keeps s0 (State.compare a0 a1 a2 a3) := by
  unfold State.compare
  repeat' first
    | with_reducible intro _ | with_reducible assumption | with_reducible apply State.journalProof_keeps
    | with_reducible apply State.notice_keeps | with_reducible apply State.setPart_keeps
    | with_reducible exact OptP.of_none | with_reducible apply OptP.of_some
    | (extract_lets +onlyGivenNames x; first | (have hx : Keeps s0 x := ?_; clear_value x; rotate_left; subst x; rotate_right) | clear_value x | subst x)
    | split | with_reducible apply Keeps.lit

theorem State.dropCop_keeps {s0 : State} {a0 a1} (h0 : Keeps s0 a0) :
    Keeps s0 (State.dropCop a0 a1) := by
  unfold State.dropCop
  repeat' first
    | with_reducible intro _ | with_reducible assumption | with_reducible exact OptP.of_none
    | with_reducible apply OptP.of_some
    | (extract_lets +onlyGivenNames x; first | (have hx : Keeps s0 x := ?_; clear_value x; rotate_left; subst x; rotate_right) | clear_value x | subst x)
    | with_reducible apply Keeps.lit

theorem State.cCheck_keeps {s0 : State} {a0 a1} (h0 : Keeps s0 a0) :
    Keeps s0 (State.cCheck a0 a1) := by
  unfold State.cCheck
  repeat' first
    | with_reducible intro _ | with_reducible assumption | with_reducible apply State.compare_keeps
    | with_reducible apply State.dropCop_keeps | with_reducible apply State.sendSigs_keeps
    | with_reducible exact OptP.of_none | with_reducible apply OptP.of_some
    | (extract_lets +onlyGivenNames x; first | (have hx : Keeps s0 x := ?_; clear_value x; rotate_left; subst x; rotate_right) | clear_value x | subst x)
    | split

theorem State.cFree_keeps {s0 : State} {a0 a1} (h0 : Keeps s0 a0) :
    Keeps s0 (State.cFree a0 a1) := by
  unfold State.cFree
  repeat' first
    | with_reducible intro _ | with_reducible assumption | with_reducible apply State.cAck_keeps
    | with_reducible apply State.setCop_keeps | with_reducible exact OptP.of_none | with_reducible apply OptP.of_some
    | (extract_lets +onlyGivenNames x; first | (have hx : Keeps s0 x := ?_; clear_value x; rotate_left; subst x; rotate_right) | clear_value x | subst x)
    | split

theorem State.cTry_keeps {s0 : State} {a0 a1 a2 a3 a4} (h0 : Keeps s0 a0) :
    CSendingK s0 (State.cTry a0 a1 a2 a3 a4) := by
  unfold State.cTry
  repeat' first
    | with_reducible intro _ | with_reducible assumption | with_reducible apply State.bumpCfg_keeps
    | with_reducible apply State.cSend_keeps | with_reducible apply State.suspect_keeps | with_reducible exact OptP.of_none
    | with_reducible apply OptP.of_some | with_reducible apply CSendingK.sent | with_reducible apply CSendingK.wait
    | with_reducible exact CSendingK.bad
    | (extract_lets +onlyGivenNames x; first | (have hx : Keeps s0 x := ?_; clear_value x; rotate_left; subst x; rotate_right) | clear_value x | subst x)
    | split

theorem cPumpAgain_keeps {s0 : State} {a0 a1 a2 a3} (h3 : Keeps s0 a3) :
    Keeps s0 (cPumpAgain a0 a1 a2 a3) := by
  induction a1 generalizing a0 a2 a3 with
  | nil =>
    rw [cPumpAgain]
    repeat' first
      | with_reducible intro _ | with_reducible assumption
      | with_reducible apply State.cFail_keeps | with_reducible apply State.cTry_keeps
      | with_reducible apply State.setCop_keeps | with_reducible exact OptP.of_none | with_reducible apply OptP.of_some
      | with_reducible apply CSendingK.sent | with_reducible apply CSendingK.wait | with_reducible exact CSendingK.bad
      | (extract_lets +onlyGivenNames x; first | (have hx : Keeps s0 x := ?_; clear_value x; rotate_left; subst x; rotate_right) | clear_value x | subst x)
      | split | with_reducible refine CSendingK.get ?_ (by assumption)
      | with_reducible refine CSendingK.getWait ?_ (by assumption)
  | cons y l ih =>
    rw [cPumpAgain]
    repeat' first
      | with_reducible intro _ | with_reducible assumption | with_reducible apply ih
      | with_reducible apply State.cFail_keeps | with_reducible apply State.cTry_keeps
      | with_reducible apply State.setCop_keeps | with_reducible exact OptP.of_none | with_reducible apply OptP.of_some
      | with_reducible apply CSendingK.sent | with_reducible apply CSendingK.wait | with_reducible exact CSendingK.bad
      | (extract_lets +onlyGivenNames x; first | (have hx : Keeps s0 x := ?_; clear_value x; rotate_left; subst x; rotate_right) | clear_value x | subst x)
      | split | with_reducible refine CSendingK.get ?_ (by assumption)
      | with_reducible refine CSendingK.getWait ?_ (by assumption)

theorem cPumpList_keeps {s0 : State} {a0 a1 a2 a3 a4 a5} (h5 : Keeps s0 a5) :
    Keeps s0 (cPumpList a0 a1 a2 a3 a4 a5) := by
  induction a2 generalizing a0 a1 a3 a4 a5 with
  | nil =>
    rw [cPumpList]
    repeat' first
      | with_reducible intro _ | with_reducible assumption
      | with_reducible apply State.cFail_keeps | with_reducible apply State.cTry_keeps
      | with_reducible apply State.setCop_keeps | with_reducible exact OptP.of_none | with_reducible apply OptP.of_some
      | with_reducible apply CSendingK.sent | with_reducible apply CSendingK.wait | with_reducible exact CSendingK.bad
      | (extract_lets +onlyGivenNames x; first | (have hx : Keeps s0 x := ?_; clear_value x; rotate_left; subst x; rotate_right) | (have hx : ∀ s, Keeps s0 s → Keeps s0 (x s) := ?_; clear_value x; rotate_left; subst x; (try dsimp -zeta only); rotate_right) | (have hx : ∀ s k, Keeps s0 s → Keeps s0 (x s k) := ?_; clear_value x; rotate_left; subst x; (try dsimp -zeta only); rotate_right) | (have hx : ∀ s k l, Keeps s0 s → Keeps s0 (x s k l) := ?_; clear_value x; rotate_left; subst x; (try dsimp -zeta only); rotate_right) | (have hx : ∀ k, Keeps s0 (x k) := ?_; clear_value x; rotate_left; subst x; (try dsimp -zeta only); rotate_right) | (have hx : ∀ k l, Keeps s0 (x k l) := ?_; clear_value x; rotate_left; subst x; (try dsimp -zeta only); rotate_right) | clear_value x | subst x)
      | split | with_reducible refine CSendingK.get ?_ (by assumption)
      | with_reducible refine CSendingK.getWait ?_ (by assumption) | with_reducible apply_assumption
  | cons y l ih =>
    rw [cPumpList]
    repeat' first
      | with_reducible intro _ | with_reducible assumption | with_reducible apply ih
      | with_reducible apply State.cFail_keeps | with_reducible apply State.cTry_keeps
      | with_reducible apply State.setCop_keeps | with_reducible exact OptP.of_none | with_reducible apply OptP.of_some
      | with_reducible apply CSendingK.sent | with_reducible apply CSendingK.wait | with_reducible exact CSendingK.bad
      | (extract_lets +onlyGivenNames x; first | (have hx : Keeps s0 x := ?_; clear_value x; rotate_left; subst x; rotate_right) | (have hx : ∀ s, Keeps s0 s → Keeps s0 (x s) := ?_; clear_value x; rotate_left; subst x; (try dsimp -zeta only); rotate_right) | (have hx : ∀ s k, Keeps s0 s → Keeps s0 (x s k) := ?_; clear_value x; rotate_left; subst x; (try dsimp -zeta only); rotate_right) | (have hx : ∀ s k l, Keeps s0 s → Keeps s0 (x s k l) := ?_; clear_value x; rotate_left; subst x; (try dsimp -zeta only); rotate_right) | (have hx : ∀ k, Keeps s0 (x k) := ?_; clear_value x; rotate_left; subst x; (try dsimp -zeta only); rotate_right) | (have hx : ∀ k l, Keeps s0 (x k l) := ?_; clear_value x; rotate_left; subst x; (try dsimp -zeta only); rotate_right) | clear_value x | subst x)
      | split | with_reducible refine CSendingK.get ?_ (by assumption)
      | with_reducible refine CSendingK.getWait ?_ (by assumption) | with_reducible apply_assumption

theorem State.cPump_keeps {s0 : State} {a0 a1} (h0 : Keeps s0 a0) :
    Keeps s0 (State.cPump a0 a1) := by
  unfold State.cPump
  repeat' first
    | with_reducible intro _ | with_reducible assumption | with_reducible apply State.cCheck_keeps
    | with_reducible apply State.cFree_keeps | with_reducible apply cPumpAgain_keeps | with_reducible apply cPumpList_keeps
    | with_reducible exact OptP.of_none | with_reducible apply OptP.of_some
    | (extract_lets +onlyGivenNames x; first | (have hx : Keeps s0 x := ?_; clear_value x; rotate_left; subst x; rotate_right) | clear_value x | subst x)
    | split

theorem State.cLanded_keeps {s0 : State} {a0 a1 a2 a3 a4 a5} (h0 : Keeps s0 a0) :
    Keeps s0 (State.cLanded a0 a1 a2 a3 a4 a5) := by
  unfold State.cLanded
  repeat' first
    | with_reducible intro _ | with_reducible assumption | with_reducible apply State.bumpCfg_keeps
    | with_reducible apply State.cAccess_keeps | with_reducible apply State.cAdvance_keeps
    | with_reducible apply State.cFail_keeps | with_reducible apply State.cPump_keeps
    | with_reducible apply State.cWrite_keeps | with_reducible apply State.setCop_keeps
    | with_reducible apply fillChain_keeps | with_reducible exact OptP.of_none | with_reducible apply OptP.of_some
    | with_reducible apply ExP.ok | with_reducible apply ExP.error | with_reducible exact trivial
    | (extract_lets +onlyGivenNames x; first | (have hx : Keeps s0 x := ?_; clear_value x; rotate_left; subst x; rotate_right) | (have hx : Keeps s0 x.1 := ?_; clear_value x; rotate_left; subst x; rotate_right) | clear_value x | subst x)
    | split | with_reducible refine ExP.getOk' ?_ (by assumption)

theorem State.cLandAlloc_keeps {s0 : State} {a0 a1 a2 a3 a4 a5 a6 a7} (h0 : Keeps s0 a0) :
    OptP (fun x0 => Keeps s0 x0) (State.cLandAlloc a0 a1 a2 a3 a4 a5 a6 a7) := by
  unfold State.cLandAlloc
  repeat' first
    | with_reducible intro _ | with_reducible assumption | with_reducible apply State.allocAt_keeps
    | with_reducible apply State.cFail_keeps | with_reducible apply State.cLanded_keeps
    | with_reducible apply State.queueReq_keeps | with_reducible apply State.setCop_keeps
    | with_reducible exact OptP.of_none | with_reducible apply OptP.of_some | with_reducible apply AllocK.head
    | with_reducible exact AllocK.wait | with_reducible exact AllocK.bad
    | (extract_lets +onlyGivenNames x; first | (have hx : Keeps s0 x := ?_; clear_value x; rotate_left; subst x; rotate_right) | (have hx : OptP (fun y => Keeps s0 y) x := ?_; clear_value x; rotate_left; subst x; rotate_right) | clear_value x | subst x)
    | split | with_reducible refine OptP.get ?_ (by assumption) | with_reducible exact OptP.get (by assumption) rfl
    | with_reducible refine AllocK.get ?_ (by assumption) | with_reducible apply Keeps.lit

theorem State.cPumpAll_keeps {s0 : State} {a0 a1} (h0 : Keeps s0 a0) :
    Keeps s0 (State.cPumpAll a0 a1) := by
  unfold State.cPumpAll
  repeat' first
    | with_reducible intro _ | with_reducible assumption | with_reducible apply State.cPump_keeps
    | with_reducible exact OptP.of_none | with_reducible apply OptP.of_some | with_reducible apply Keeps.foldl
    | with_reducible apply Keeps.foldl1 | with_reducible apply Keeps.foldl2

theorem State.cTake_keeps {s0 : State} {a0 a1 a2 a3} (h0 : Keeps s0 a0) :
    OptP (fun x0 => Keeps s0 x0) (State.cTake a0 a1 a2 a3) := by
  unfold State.cTake
  repeat' first
    | with_reducible intro _ | with_reducible assumption | with_reducible apply State.cAnswer_keeps
    | with_reducible apply State.cFail_keeps | with_reducible apply State.cLandAlloc_keeps
    | with_reducible apply State.cLanded_keeps | with_reducible apply State.setCop_keeps
    | with_reducible exact OptP.of_none | with_reducible apply OptP.of_some
    | (extract_lets +onlyGivenNames x; first | (have hx : Keeps s0 x := ?_; clear_value x; rotate_left; subst x; rotate_right) | (have hx : OptP (fun y => Keeps s0 y) x := ?_; clear_value x; rotate_left; subst x; rotate_right) | clear_value x | subst x)
    | split | with_reducible refine OptP.get ?_ (by assumption) | with_reducible exact OptP.get (by assumption) rfl

theorem State.cReplay_keeps {s0 : State} {a0 a1 a2 a3} (h0 : Keeps s0 a0) :
    Keeps s0 (State.cReplay a0 a1 a2 a3) := by
  unfold State.cReplay
  repeat' first
    | with_reducible intro _ | with_reducible assumption | with_reducible apply State.cTake_keeps
    | with_reducible exact OptP.of_none | with_reducible apply OptP.of_some | with_reducible apply OptP.getD
    | with_reducible apply Keeps.foldl | with_reducible apply Keeps.foldl1 | with_reducible apply Keeps.foldl2
    | (extract_lets +onlyGivenNames x; first | (have hx : Keeps s0 x := ?_; clear_value x; rotate_left; subst x; rotate_right) | (have hx : OptP (fun y => Keeps s0 y) x := ?_; clear_value x; rotate_left; subst x; rotate_right) | clear_value x | subst x)
    | split | with_reducible refine OptP.get ?_ (by assumption) | with_reducible exact OptP.get (by assumption) rfl
    | with_reducible apply Keeps.lit

theorem State.cWaitLanded_keeps {s0 : State} {a0 a1 a2} (h0 : Keeps s0 a0) :
    Keeps s0 (State.cWaitLanded a0 a1 a2) := by
  unfold State.cWaitLanded
  repeat' first
    | with_reducible intro _ | with_reducible assumption | with_reducible apply State.cLanded_keeps
    | with_reducible exact OptP.of_none | with_reducible apply OptP.of_some
    | (extract_lets +onlyGivenNames x; first | (have hx : Keeps s0 x := ?_; clear_value x; rotate_left; subst x; rotate_right) | clear_value x | subst x)
    | split | with_reducible apply Keeps.lit

theorem State.ceAccept_keeps {s0 : State} {a0 a1 a2 a3} (h0 : Keeps s0 a0) :
    Keeps s0 (State.ceAccept a0 a1 a2 a3) := by
  unfold State.ceAccept
  repeat' first
    | with_reducible intro _ | with_reducible assumption | with_reducible apply State.bumpCtr_keeps
    | with_reducible apply State.setStream_keeps | with_reducible apply State.traceIssue_keeps
    | with_reducible exact OptP.of_none | with_reducible apply OptP.of_some | with_reducible apply OptP.getD
    | with_reducible apply OptP.mapS | with_reducible apply OptP.map | with_reducible apply OptP.mapP
    | (extract_lets +onlyGivenNames x; first | (have hx : Keeps s0 x := ?_; clear_value x; rotate_left; subst x; rotate_right) | clear_value x | subst x)
    | split | with_reducible apply Keeps.lit

theorem cOwnWrites_keeps {s0 : State} {a0 a1 a2 a3} (h3 : Keeps s0 a3) :
    Keeps s0 (cOwnWrites a0 a1 a2 a3) := by
  induction a2 generalizing a0 a1 a3 with
  | nil =>
    rw [cOwnWrites]
    repeat' first
      | with_reducible intro _ | with_reducible assumption
      | with_reducible apply State.cAccess_keeps | with_reducible apply State.cWrite_keeps
      | with_reducible apply State.setCop_keeps | with_reducible exact OptP.of_none | with_reducible apply OptP.of_some
      | with_reducible apply OptP.getD | with_reducible apply ExP.ok | with_reducible apply ExP.error
      | with_reducible exact trivial
      | (extract_lets +onlyGivenNames x; first | (have hx : Keeps s0 x := ?_; clear_value x; rotate_left; subst x; rotate_right) | (have hx : Keeps s0 x.1 := ?_; clear_value x; rotate_left; subst x; rotate_right) | clear_value x | subst x)
      | split | with_reducible refine ExP.getOk' ?_ (by assumption)
  | cons y l ih =>
    rw [cOwnWrites]
    repeat' first
      | with_reducible intro _ | with_reducible assumption | with_reducible apply ih
      | with_reducible apply State.cAccess_keeps | with_reducible apply State.cWrite_keeps
      | with_reducible apply State.setCop_keeps | with_reducible exact OptP.of_none | with_reducible apply OptP.of_some
      | with_reducible apply OptP.getD | with_reducible apply ExP.ok | with_reducible apply ExP.error
      | with_reducible exact trivial
      | (extract_lets +onlyGivenNames x; first | (have hx : Keeps s0 x := ?_; clear_value x; rotate_left; subst x; rotate_right) | (have hx : Keeps s0 x.1 := ?_; clear_value x; rotate_left; subst x; rotate_right) | clear_value x | subst x)
      | split | with_reducible refine ExP.getOk' ?_ (by assumption)

theorem State.ceStart_keeps {s0 : State} {a0 a1 a2} (h0 : Keeps s0 a0) :
    Keeps s0 (State.ceStart a0 a1 a2) := by
  unfold State.ceStart
  repeat' first
    | with_reducible intro _ | with_reducible assumption | with_reducible apply State.cAdvance_keeps
    | with_reducible apply State.cPump_keeps | with_reducible apply State.cReplay_keeps
    | with_reducible apply State.setCfgF_keeps | with_reducible apply State.setCop_keeps
    | with_reducible apply cOwnWrites_keeps | with_reducible exact OptP.of_none | with_reducible apply OptP.of_some
    | with_reducible apply Keeps.foldl | with_reducible apply Keeps.foldl1 | with_reducible apply Keeps.foldl2
    | (extract_lets +onlyGivenNames x; first | (have hx : Keeps s0 x := ?_; clear_value x; rotate_left; subst x; rotate_right) | clear_value x | subst x)
    | split

theorem cAnswerArrive_keeps {s0 : State} {a0 a1 a2 a3} (h3 : Keeps s0 a3) :
    OptP (fun x0 => Keeps s0 x0) (cAnswerArrive a0 a1 a2 a3) := by
  unfold cAnswerArrive
  repeat' first
    | with_reducible intro _ | with_reducible assumption | with_reducible apply State.bumpCfg_keeps
    | with_reducible apply State.cAck_keeps | with_reducible apply State.cAnswer_keeps
    | with_reducible apply State.cFail_keeps | with_reducible apply State.cPumpAll_keeps
    | with_reducible apply State.heard_keeps | with_reducible apply State.release_keeps
    | with_reducible apply State.setCop_keeps | with_reducible apply State.traceMsg_keeps
    | with_reducible exact OptP.of_none | with_reducible apply OptP.of_some | with_reducible apply ReleaseK.done
    | with_reducible apply ReleaseK.bad | with_reducible apply Keeps.foldl | with_reducible apply Keeps.foldl1
    | with_reducible apply Keeps.foldl2
    | (extract_lets +onlyGivenNames x; first | (have hx : Keeps s0 x := ?_; clear_value x; rotate_left; subst x; rotate_right) | (have hx : OptP (fun y => Keeps s0 y) x := ?_; clear_value x; rotate_left; subst x; rotate_right) | clear_value x | subst x)
    | split | with_reducible refine ReleaseK.get ?_ (by assumption)
    | with_reducible refine ReleaseK.getBad ?_ (by assumption)

theorem cArrive_keeps {s0 : State} {a0 a1 a2 a3} (h3 : Keeps s0 a3) :
    OptP (fun x0 => Keeps s0 x0) (cArrive a0 a1 a2 a3) := by
  unfold cArrive
  repeat' first
    | with_reducible intro _ | with_reducible assumption | with_reducible apply State.cAnswer_keeps
    | with_reducible apply State.cTake_keeps | with_reducible apply State.countRx_keeps
    | with_reducible apply State.isolationDrop_keeps | with_reducible apply State.nodeBreach_keeps
    | with_reducible apply State.raise_keeps | with_reducible apply State.traceMsg_keeps
    | with_reducible exact OptP.of_none | with_reducible apply OptP.of_some
    | (extract_lets +onlyGivenNames x; first | (have hx : Keeps s0 x := ?_; clear_value x; rotate_left; subst x; rotate_right) | (have hx : OptP (fun y => Keeps s0 y) x := ?_; clear_value x; rotate_left; subst x; rotate_right) | clear_value x | subst x)
    | split | with_reducible refine OptP.get ?_ (by assumption) | with_reducible exact OptP.get (by assumption) rfl
    | with_reducible apply Keeps.lit

theorem ceBegin_keeps {s0 : State} {a0 a1} (h1 : Keeps s0 a1) :
    OptP (fun x0 => Keeps s0 x0) (ceBegin a0 a1) := by
  unfold ceBegin
  repeat' first
    | with_reducible intro _ | with_reducible assumption | with_reducible apply State.cAccess_keeps
    | with_reducible apply State.cFail_keeps | with_reducible apply State.ceStart_keeps
    | with_reducible apply State.requestWake_keeps | with_reducible exact OptP.of_none | with_reducible apply OptP.of_some
    | (extract_lets +onlyGivenNames x; first | (have hx : Keeps s0 x := ?_; clear_value x; rotate_left; subst x; rotate_right) | (have hx : OptP (fun y => Keeps s0 y) x := ?_; clear_value x; rotate_left; subst x; rotate_right) | clear_value x | subst x)
    | split

theorem runCe_keeps {s0 : State} {a0 a1 a2 a3} (h1 : Keeps s0 a1) :
    RanK s0 (runCe a0 a1 a2 a3) := by
  unfold runCe
  repeat' first
    | with_reducible intro _ | with_reducible assumption | with_reducible apply State.ceAccept_keeps
    | with_reducible exact OptP.of_none | with_reducible apply OptP.of_some | with_reducible apply RanK.done
    | with_reducible exact RanK.fault | with_reducible exact RanK.bad | with_reducible exact RanK.asleep
    | with_reducible exact RanK.full | split

theorem execCe_keeps {s0 : State} {a0 a1 a2} (h2 : Keeps s0 a2) :
    OptP (fun x0 => Keeps s0 x0) (execCe a0 a1 a2) := by
  unfold execCe
  repeat' first
    | with_reducible intro _ | with_reducible assumption | with_reducible apply issue_keeps
    | with_reducible apply runCe_keeps | with_reducible exact OptP.of_none | with_reducible apply OptP.of_some
    | with_reducible apply RanK.done | with_reducible exact RanK.fault | with_reducible exact RanK.bad
    | with_reducible exact RanK.asleep | with_reducible exact RanK.full

theorem execCallred_keeps {s0 : State} {a0 a1} (h1 : Keeps s0 a1) :
    OutK s0 (execCallred a0 a1) := by
  unfold execCallred
  repeat' first
    | with_reducible intro _ | with_reducible assumption | with_reducible apply execCe_keeps
    | with_reducible apply attempt_keeps | with_reducible exact OptP.of_none | with_reducible apply OptP.of_some
    | with_reducible apply OutK.next

theorem execCbcast_keeps {s0 : State} {a0 a1} (h1 : Keeps s0 a1) :
    OutK s0 (execCbcast a0 a1) := by
  unfold execCbcast
  repeat' first
    | with_reducible intro _ | with_reducible assumption | with_reducible apply execCe_keeps
    | with_reducible apply attempt_keeps | with_reducible exact OptP.of_none | with_reducible apply OptP.of_some
    | with_reducible apply OutK.next

theorem execCdigest_keeps {s0 : State} {a0 a1} (h1 : Keeps s0 a1) :
    OutK s0 (execCdigest a0 a1) := by
  unfold execCdigest
  repeat' first
    | with_reducible intro _ | with_reducible assumption | with_reducible apply execCe_keeps
    | with_reducible apply attempt_keeps | with_reducible exact OptP.of_none | with_reducible apply OptP.of_some
    | with_reducible apply OutK.next

theorem execCeOperationBegin_keeps {s0 : State} {a0 a1} (h1 : Keeps s0 a1) :
    OutK s0 (execCeOperationBegin a0 a1) := by
  unfold execCeOperationBegin
  repeat' first
    | with_reducible intro _ | with_reducible assumption | with_reducible apply ceBegin_keeps
    | with_reducible apply attempt_keeps | with_reducible exact OptP.of_none | with_reducible apply OptP.of_some
    | with_reducible apply OutK.next

theorem execCgather_keeps {s0 : State} {a0 a1} (h1 : Keeps s0 a1) :
    OutK s0 (execCgather a0 a1) := by
  unfold execCgather
  repeat' first
    | with_reducible intro _ | with_reducible assumption | with_reducible apply execCe_keeps
    | with_reducible apply attempt_keeps | with_reducible exact OptP.of_none | with_reducible apply OptP.of_some
    | with_reducible apply OutK.next

theorem execCmsgAbsent_keeps {s0 : State} {a0 a1 a2} (h2 : Keeps s0 a2) :
    OutK s0 (execCmsgAbsent a0 a1 a2) := by
  unfold execCmsgAbsent
  repeat' first
    | with_reducible intro _ | with_reducible assumption | with_reducible apply cArrive_keeps
    | with_reducible apply attempt_keeps | with_reducible exact OptP.of_none | with_reducible apply OptP.of_some
    | with_reducible apply OutK.next

theorem execCmsgAck_keeps {s0 : State} {a0 a1 a2} (h2 : Keeps s0 a2) :
    OutK s0 (execCmsgAck a0 a1 a2) := by
  unfold execCmsgAck
  repeat' first
    | with_reducible intro _ | with_reducible assumption | with_reducible apply cAnswerArrive_keeps
    | with_reducible apply attempt_keeps | with_reducible exact OptP.of_none | with_reducible apply OptP.of_some
    | with_reducible apply OutK.next

theorem execCmsgData_keeps {s0 : State} {a0 a1 a2} (h2 : Keeps s0 a2) :
    OutK s0 (execCmsgData a0 a1 a2) := by
  unfold execCmsgData
  repeat' first
    | with_reducible intro _ | with_reducible assumption | with_reducible apply cArrive_keeps
    | with_reducible apply attempt_keeps | with_reducible exact OptP.of_none | with_reducible apply OptP.of_some
    | with_reducible apply OutK.next

theorem execCmsgNack_keeps {s0 : State} {a0 a1 a2} (h2 : Keeps s0 a2) :
    OutK s0 (execCmsgNack a0 a1 a2) := by
  unfold execCmsgNack
  repeat' first
    | with_reducible intro _ | with_reducible assumption | with_reducible apply cAnswerArrive_keeps
    | with_reducible apply attempt_keeps | with_reducible exact OptP.of_none | with_reducible apply OptP.of_some
    | with_reducible apply OutK.next

theorem execCmsgNode_keeps {s0 : State} {a0 a1 a2} (h2 : Keeps s0 a2) :
    OutK s0 (execCmsgNode a0 a1 a2) := by
  unfold execCmsgNode
  repeat' first
    | with_reducible intro _ | with_reducible assumption | with_reducible apply cArrive_keeps
    | with_reducible apply attempt_keeps | with_reducible exact OptP.of_none | with_reducible apply OptP.of_some
    | with_reducible apply OutK.next

theorem execCmsgReject_keeps {s0 : State} {a0 a1 a2} (h2 : Keeps s0 a2) :
    OutK s0 (execCmsgReject a0 a1 a2) := by
  unfold execCmsgReject
  repeat' first
    | with_reducible intro _ | with_reducible assumption | with_reducible apply cAnswerArrive_keeps
    | with_reducible apply attempt_keeps | with_reducible exact OptP.of_none | with_reducible apply OptP.of_some
    | with_reducible apply OutK.next

theorem execCmsgRelay_keeps {s0 : State} {a0 a1 a2} (h2 : Keeps s0 a2) :
    OutK s0 (execCmsgRelay a0 a1 a2) := by
  unfold execCmsgRelay
  repeat' first
    | with_reducible intro _ | with_reducible assumption | with_reducible apply cArrive_keeps
    | with_reducible apply attempt_keeps | with_reducible exact OptP.of_none | with_reducible apply OptP.of_some
    | with_reducible apply OutK.next

theorem execCredscat_keeps {s0 : State} {a0 a1} (h1 : Keeps s0 a1) :
    OutK s0 (execCredscat a0 a1) := by
  unfold execCredscat
  repeat' first
    | with_reducible intro _ | with_reducible assumption | with_reducible apply execCe_keeps
    | with_reducible apply attempt_keeps | with_reducible exact OptP.of_none | with_reducible apply OptP.of_some
    | with_reducible apply OutK.next

theorem grantWaiters_keeps {s0 : State} {a0 a1 a2 a3} (h3 : Keeps s0 a3) :
    Keeps s0 (grantWaiters a0 a1 a2 a3) := by
  induction a2 generalizing a0 a1 a3 with
  | zero =>
    rw [grantWaiters]
    repeat' first
      | with_reducible intro _ | with_reducible assumption
      | with_reducible apply State.allocAt_keeps | with_reducible apply State.cWaitLanded_keeps
      | with_reducible apply State.poolFault_keeps | with_reducible apply State.setWaiters_keeps
      | with_reducible apply State.waitLanded_keeps | with_reducible exact OptP.of_none | with_reducible apply OptP.of_some
      | with_reducible apply AllocK.head | with_reducible exact AllocK.wait | with_reducible exact AllocK.bad
      | (extract_lets +onlyGivenNames x; first | (have hx : Keeps s0 x := ?_; clear_value x; rotate_left; subst x; rotate_right) | clear_value x | subst x)
      | split | with_reducible refine AllocK.get ?_ (by assumption) | with_reducible apply Keeps.lit
  | succ n ih =>
    rw [grantWaiters]
    repeat' first
      | with_reducible intro _ | with_reducible assumption | with_reducible apply ih
      | with_reducible apply State.allocAt_keeps | with_reducible apply State.cWaitLanded_keeps
      | with_reducible apply State.poolFault_keeps | with_reducible apply State.setWaiters_keeps
      | with_reducible apply State.waitLanded_keeps | with_reducible exact OptP.of_none | with_reducible apply OptP.of_some
      | with_reducible apply AllocK.head | with_reducible exact AllocK.wait | with_reducible exact AllocK.bad
      | (extract_lets +onlyGivenNames x; first | (have hx : Keeps s0 x := ?_; clear_value x; rotate_left; subst x; rotate_right) | clear_value x | subst x)
      | split | with_reducible refine AllocK.get ?_ (by assumption) | with_reducible apply Keeps.lit

theorem execPoolWaiterGrant_keeps {s0 : State} {a0 a1 a2} (h2 : Keeps s0 a2) :
    OutK s0 (execPoolWaiterGrant a0 a1 a2) := by
  unfold execPoolWaiterGrant
  repeat' first
    | with_reducible intro _ | with_reducible assumption | with_reducible apply grantWaiters_keeps
    | with_reducible apply attempt_keeps | with_reducible exact OptP.of_none | with_reducible apply OptP.of_some
    | with_reducible apply OutK.next | split

theorem suspectResend_keeps {s0 : State} {a0 a1} (h1 : Keeps s0 a1) :
    OptP (fun x0 => Keeps s0 x0) (suspectResend a0 a1) := by
  unfold suspectResend
  repeat' first
    | with_reducible intro _ | with_reducible assumption | with_reducible apply State.cPumpAll_keeps
    | with_reducible apply State.moveReq_keeps | with_reducible apply State.pumpDie_keeps
    | with_reducible apply State.resendReq_keeps | with_reducible apply State.setCfgF_keeps
    | with_reducible exact OptP.of_none | with_reducible apply OptP.of_some | with_reducible apply Keeps.foldl
    | with_reducible apply Keeps.foldl1 | with_reducible apply Keeps.foldl2
    | (extract_lets +onlyGivenNames x; first | (have hx : Keeps s0 x := ?_; clear_value x; rotate_left; subst x; rotate_right) | (have hx : OptP (fun y => Keeps s0 y) x := ?_; clear_value x; rotate_left; subst x; rotate_right) | clear_value x | subst x)
    | split

theorem execSuspectResend_keeps {s0 : State} {a0 a1} (h1 : Keeps s0 a1) :
    OutK s0 (execSuspectResend a0 a1) := by
  unfold execSuspectResend
  repeat' first
    | with_reducible intro _ | with_reducible assumption | with_reducible apply suspectResend_keeps
    | with_reducible apply attempt_keeps | with_reducible exact OptP.of_none | with_reducible apply OptP.of_some
    | with_reducible apply OutK.next

end Sys2Proof.Machine
end

