-- ==== Sys2Proof/Laws/KeepsOfControl.lean ====
section
/-! SUPPORT. What the operations of Control keep. -/

namespace Sys2Proof.Machine

theorem control_keeps {s0 : State} {a0 a1 a2 a3 a4} (h4 : Keeps s0 a4) :
    OptP (fun x0 => Keeps s0 x0) (control a0 a1 a2 a3 a4) := by
  unfold control
  repeat' first
    | with_reducible intro _ | with_reducible assumption | with_reducible apply finishNow_keeps
    | with_reducible apply issue_keeps | with_reducible exact OptP.of_none | with_reducible apply OptP.of_some
    | with_reducible apply RanK.done | with_reducible exact RanK.fault | with_reducible exact RanK.bad
    | with_reducible exact RanK.asleep | with_reducible exact RanK.full

theorem execAddx_keeps {s0 : State} {a0 a1} (h1 : Keeps s0 a1) :
    OutK s0 (execAddx a0 a1) := by
  unfold execAddx
  repeat' first
    | with_reducible intro _ | with_reducible assumption | with_reducible apply control_keeps
    | with_reducible apply attempt_keeps | with_reducible exact OptP.of_none | with_reducible apply OptP.of_some
    | with_reducible apply OutK.next

theorem execBrx_keeps {s0 : State} {a0 a1} (h1 : Keeps s0 a1) :
    OutK s0 (execBrx a0 a1) := by
  unfold execBrx
  repeat' first
    | with_reducible intro _ | with_reducible assumption | with_reducible apply control_keeps
    | with_reducible apply attempt_keeps | with_reducible exact OptP.of_none | with_reducible apply OptP.of_some
    | with_reducible apply OutK.next | split | with_reducible refine OptP.get ?_ (by assumption)
    | with_reducible exact OptP.get (by assumption) rfl

theorem execDlive_keeps {s0 : State} {a0 a1} (h1 : Keeps s0 a1) :
    OutK s0 (execDlive a0 a1) := by
  unfold execDlive
  repeat' first
    | with_reducible intro _ | with_reducible assumption | with_reducible apply State.setDescWord_keeps
    | with_reducible apply finishNow_keeps | with_reducible apply issue_keeps | with_reducible apply attempt_keeps
    | with_reducible exact OptP.of_none | with_reducible apply OptP.of_some | with_reducible apply OutK.next
    | with_reducible apply RanK.done | with_reducible exact RanK.fault | with_reducible exact RanK.bad
    | with_reducible exact RanK.asleep | with_reducible exact RanK.full
    | (extract_lets +onlyGivenNames x; first | (have hx : Keeps s0 x := ?_; clear_value x; rotate_left; subst x; rotate_right) | (have hx : OptP (fun y => Keeps s0 y) x := ?_; clear_value x; rotate_left; subst x; rotate_right) | clear_value x | subst x)
    | split | with_reducible refine OptP.get ?_ (by assumption) | with_reducible exact OptP.get (by assumption) rfl

theorem execDset_keeps {s0 : State} {a0 a1} (h1 : Keeps s0 a1) :
    OutK s0 (execDset a0 a1) := by
  unfold execDset
  repeat' first
    | with_reducible intro _ | with_reducible assumption | with_reducible apply State.setDescWord_keeps
    | with_reducible apply finishNow_keeps | with_reducible apply issue_keeps | with_reducible apply attempt_keeps
    | with_reducible exact OptP.of_none | with_reducible apply OptP.of_some | with_reducible apply OutK.next
    | with_reducible apply RanK.done | with_reducible exact RanK.fault | with_reducible exact RanK.bad
    | with_reducible exact RanK.asleep | with_reducible exact RanK.full
    | (extract_lets +onlyGivenNames x; first | (have hx : Keeps s0 x := ?_; clear_value x; rotate_left; subst x; rotate_right) | (have hx : OptP (fun y => Keeps s0 y) x := ?_; clear_value x; rotate_left; subst x; rotate_right) | clear_value x | subst x)
    | split | with_reducible refine OptP.get ?_ (by assumption) | with_reducible exact OptP.get (by assumption) rfl

theorem execFetchahead_keeps {s0 : State} {a0 a1} (h1 : Keeps s0 a1) :
    OutK s0 (execFetchahead a0 a1) := by
  unfold execFetchahead
  repeat' first
    | with_reducible intro _ | with_reducible assumption | with_reducible apply State.bumpCtr_keeps
    | with_reducible apply State.setStream_keeps | with_reducible apply State.traceIssue_keeps
    | with_reducible apply issue_keeps | with_reducible apply attempt_keeps | with_reducible exact OptP.of_none
    | with_reducible apply OptP.of_some | with_reducible apply OutK.next | with_reducible apply RanK.done
    | with_reducible exact RanK.fault | with_reducible exact RanK.bad | with_reducible exact RanK.asleep
    | with_reducible exact RanK.full
    | (extract_lets +onlyGivenNames x; first | (have hx : Keeps s0 x := ?_; clear_value x; rotate_left; subst x; rotate_right) | (have hx : OptP (fun y => Keeps s0 y) x := ?_; clear_value x; rotate_left; subst x; rotate_right) | clear_value x | subst x)

theorem execGcWaitSatisfied_keeps {s0 : State} {a0 a1} (h1 : Keeps s0 a1) :
    OutK s0 (execGcWaitSatisfied a0 a1) := by
  unfold execGcWaitSatisfied
  repeat' first
    | with_reducible intro _ | with_reducible assumption | with_reducible apply control_keeps
    | with_reducible apply attempt_keeps | with_reducible exact OptP.of_none | with_reducible apply OptP.of_some
    | with_reducible apply OutK.next
    | (extract_lets +onlyGivenNames x; first | (have hx : Keeps s0 x := ?_; clear_value x; rotate_left; subst x; rotate_right) | (have hx : OptP (fun y => Keeps s0 y) x := ?_; clear_value x; rotate_left; subst x; rotate_right) | clear_value x | subst x)
    | split | with_reducible refine OptP.get ?_ (by assumption) | with_reducible exact OptP.get (by assumption) rfl

theorem execHalt_keeps {s0 : State} {a0 a1} (h1 : Keeps s0 a1) :
    OutK s0 (execHalt a0 a1) := by
  unfold execHalt
  repeat' first
    | with_reducible intro _ | with_reducible assumption | with_reducible apply control_keeps
    | with_reducible apply attempt_keeps | with_reducible exact OptP.of_none | with_reducible apply OptP.of_some
    | with_reducible apply OutK.next
    | (extract_lets +onlyGivenNames x; first | (have hx : Keeps s0 x := ?_; clear_value x; rotate_left; subst x; rotate_right) | (have hx : OptP (fun y => Keeps s0 y) x := ?_; clear_value x; rotate_left; subst x; rotate_right) | clear_value x | subst x)

theorem execJump_keeps {s0 : State} {a0 a1} (h1 : Keeps s0 a1) :
    OutK s0 (execJump a0 a1) := by
  unfold execJump
  repeat' first
    | with_reducible intro _ | with_reducible assumption | with_reducible apply control_keeps
    | with_reducible apply attempt_keeps | with_reducible exact OptP.of_none | with_reducible apply OptP.of_some
    | with_reducible apply OutK.next | split | with_reducible refine OptP.get ?_ (by assumption)
    | with_reducible exact OptP.get (by assumption) rfl

theorem execLock_keeps {s0 : State} {a0 a1} (h1 : Keeps s0 a1) :
    OutK s0 (execLock a0 a1) := by
  unfold execLock
  repeat' first
    | with_reducible intro _ | with_reducible assumption | with_reducible apply control_keeps
    | with_reducible apply attempt_keeps | with_reducible exact OptP.of_none | with_reducible apply OptP.of_some
    | with_reducible apply OutK.next
    | (extract_lets +onlyGivenNames x; first | (have hx : Keeps s0 x := ?_; clear_value x; rotate_left; subst x; rotate_right) | (have hx : OptP (fun y => Keeps s0 y) x := ?_; clear_value x; rotate_left; subst x; rotate_right) | clear_value x | subst x)
    | split | with_reducible refine OptP.get ?_ (by assumption) | with_reducible exact OptP.get (by assumption) rfl

theorem execLoop_keeps {s0 : State} {a0 a1} (h1 : Keeps s0 a1) :
    OutK s0 (execLoop a0 a1) := by
  unfold execLoop
  repeat' first
    | with_reducible intro _ | with_reducible assumption | with_reducible apply control_keeps
    | with_reducible apply attempt_keeps | with_reducible exact OptP.of_none | with_reducible apply OptP.of_some
    | with_reducible apply OutK.next
    | (extract_lets +onlyGivenNames x; first | (have hx : Keeps s0 x := ?_; clear_value x; rotate_left; subst x; rotate_right) | (have hx : OptP (fun y => Keeps s0 y) x := ?_; clear_value x; rotate_left; subst x; rotate_right) | clear_value x | subst x)
    | split | with_reducible refine OptP.get ?_ (by assumption) | with_reducible exact OptP.get (by assumption) rfl

theorem execNop_keeps {s0 : State} {a0 a1} (h1 : Keeps s0 a1) :
    OutK s0 (execNop a0 a1) := by
  unfold execNop
  repeat' first
    | with_reducible intro _ | with_reducible assumption | with_reducible apply control_keeps
    | with_reducible apply attempt_keeps | with_reducible exact OptP.of_none | with_reducible apply OptP.of_some
    | with_reducible apply OutK.next

theorem execSetx_keeps {s0 : State} {a0 a1} (h1 : Keeps s0 a1) :
    OutK s0 (execSetx a0 a1) := by
  unfold execSetx
  repeat' first
    | with_reducible intro _ | with_reducible assumption | with_reducible apply control_keeps
    | with_reducible apply attempt_keeps | with_reducible exact OptP.of_none | with_reducible apply OptP.of_some
    | with_reducible apply OutK.next

theorem execSignal_keeps {s0 : State} {a0 a1} (h1 : Keeps s0 a1) :
    OutK s0 (execSignal a0 a1) := by
  unfold execSignal
  repeat' first
    | with_reducible intro _ | with_reducible assumption | with_reducible apply control_keeps
    | with_reducible apply attempt_keeps | with_reducible exact OptP.of_none | with_reducible apply OptP.of_some
    | with_reducible apply OutK.next

theorem execTwait_keeps {s0 : State} {a0 a1} (h1 : Keeps s0 a1) :
    OutK s0 (execTwait a0 a1) := by
  unfold execTwait
  repeat' first
    | with_reducible intro _ | with_reducible assumption | with_reducible apply control_keeps
    | with_reducible apply attempt_keeps | with_reducible exact OptP.of_none | with_reducible apply OptP.of_some
    | with_reducible apply OutK.next

theorem waitGcIssue_keeps {s0 : State} {a0 a1} (h1 : Keeps s0 a1) :
    OptP (fun x0 => Keeps s0 x0) (waitGcIssue a0 a1) := by
  unfold waitGcIssue
  repeat' first
    | with_reducible intro _ | with_reducible assumption | with_reducible apply State.setStream_keeps
    | with_reducible apply control_keeps | with_reducible exact OptP.of_none | with_reducible apply OptP.of_some
    | (extract_lets +onlyGivenNames x; first | (have hx : Keeps s0 x := ?_; clear_value x; rotate_left; subst x; rotate_right) | (have hx : OptP (fun y => Keeps s0 y) x := ?_; clear_value x; rotate_left; subst x; rotate_right) | clear_value x | subst x)
    | split | with_reducible refine OptP.get ?_ (by assumption) | with_reducible exact OptP.get (by assumption) rfl

theorem execWaitgc_keeps {s0 : State} {a0 a1} (h1 : Keeps s0 a1) :
    OutK s0 (execWaitgc a0 a1) := by
  unfold execWaitgc
  repeat' first
    | with_reducible intro _ | with_reducible assumption | with_reducible apply waitGcIssue_keeps
    | with_reducible apply attempt_keeps | with_reducible exact OptP.of_none | with_reducible apply OptP.of_some
    | with_reducible apply OutK.next

theorem execWend_keeps {s0 : State} {a0 a1} (h1 : Keeps s0 a1) :
    OutK s0 (execWend a0 a1) := by
  unfold execWend
  repeat' first
    | with_reducible intro _ | with_reducible assumption | with_reducible apply control_keeps
    | with_reducible apply attempt_keeps | with_reducible exact OptP.of_none | with_reducible apply OptP.of_some
    | with_reducible apply OutK.next
    | (extract_lets +onlyGivenNames x; first | (have hx : Keeps s0 x := ?_; clear_value x; rotate_left; subst x; rotate_right) | (have hx : OptP (fun y => Keeps s0 y) x := ?_; clear_value x; rotate_left; subst x; rotate_right) | clear_value x | subst x)
    | split | with_reducible refine OptP.get ?_ (by assumption) | with_reducible exact OptP.get (by assumption) rfl

end Sys2Proof.Machine
end

