-- ==== Sys2Proof/Laws/KeepsOfTally.lean ====
section
/-! SUPPORT. What the operations of Tally keep. -/

namespace Sys2Proof.Machine

theorem State.traceFetch_keeps {s0 : State} {a0 a1 a2 a3 a4} (h0 : Keeps s0 a0) :
    Keeps s0 (State.traceFetch a0 a1 a2 a3 a4) := by
  unfold State.traceFetch
  repeat' first
    | with_reducible intro _ | with_reducible assumption | with_reducible apply State.trace_keeps
    | with_reducible exact OptP.of_none | with_reducible apply OptP.of_some
    | (extract_lets +onlyGivenNames x; first | (have hx : Keeps s0 x := ?_; clear_value x; rotate_left; subst x; rotate_right) | clear_value x | subst x)
    | split

theorem State.aheadLine_keeps {s0 : State} {a0 a1 a2 a3} (h0 : Keeps s0 a0) :
    Keeps s0 (State.aheadLine a0 a1 a2 a3) := by
  unfold State.aheadLine
  repeat' first
    | with_reducible intro _ | with_reducible assumption | with_reducible apply State.notice_keeps
    | with_reducible apply State.setIline_keeps | with_reducible apply State.traceFetch_keeps
    | with_reducible exact OptP.of_none | with_reducible apply OptP.of_some | with_reducible apply OptP.getD
    | (extract_lets +onlyGivenNames x; first | (have hx : Keeps s0 x := ?_; clear_value x; rotate_left; subst x; rotate_right) | clear_value x | subst x)
    | split | with_reducible apply Keeps.lit

theorem State.applyEvent_keeps {s0 : State} {a0 a1} (h0 : Keeps s0 a0) :
    Keeps s0 (State.applyEvent a0 a1) := by
  unfold State.applyEvent
  repeat' first
    | with_reducible intro _ | with_reducible assumption | with_reducible apply State.raise_keeps
    | with_reducible apply State.setTally_keeps | with_reducible apply State.trace_keeps
    | with_reducible exact OptP.of_none | with_reducible apply OptP.of_some
    | (extract_lets +onlyGivenNames x; first | (have hx : Keeps s0 x := ?_; clear_value x; rotate_left; subst x; rotate_right) | clear_value x | subst x)
    | split

theorem State.bankTake_keeps {s0 : State} {a0 a1} (h0 : Keeps s0 a0) :
    OptP (fun x0 => Keeps s0 x0) (State.bankTake a0 a1) := by
  unfold State.bankTake
  repeat' first
    | with_reducible intro _ | with_reducible assumption | with_reducible apply State.applyEvent_keeps
    | with_reducible apply State.setBank_keeps | with_reducible exact OptP.of_none | with_reducible apply OptP.of_some
    | (extract_lets +onlyGivenNames x; first | (have hx : Keeps s0 x := ?_; clear_value x; rotate_left; subst x; rotate_right) | (have hx : OptP (fun y => Keeps s0 y) x := ?_; clear_value x; rotate_left; subst x; rotate_right) | clear_value x | subst x)
    | split

theorem State.eventLost_keeps {s0 : State} {a0 a1} (h0 : Keeps s0 a0) :
    Keeps s0 (State.eventLost a0 a1) := by
  unfold State.eventLost
  repeat' first
    | with_reducible intro _ | with_reducible assumption | with_reducible apply State.raise_keeps
    | with_reducible exact OptP.of_none | with_reducible apply OptP.of_some
    | (extract_lets +onlyGivenNames x; first | (have hx : Keeps s0 x := ?_; clear_value x; rotate_left; subst x; rotate_right) | clear_value x | subst x)

theorem aheadFill_keeps {s0 : State} {a0 a1} (h1 : Keeps s0 a1) :
    OptP (fun x0 => Keeps s0 x0) (aheadFill a0 a1) := by
  unfold aheadFill
  repeat' first
    | with_reducible intro _ | with_reducible assumption | with_reducible apply State.aheadLine_keeps
    | with_reducible apply State.sendSigs_keeps | with_reducible apply State.setStream_keeps
    | with_reducible exact OptP.of_none | with_reducible apply OptP.of_some
    | (extract_lets +onlyGivenNames x; first | (have hx : Keeps s0 x := ?_; clear_value x; rotate_left; subst x; rotate_right) | (have hx : OptP (fun y => Keeps s0 y) x := ?_; clear_value x; rotate_left; subst x; rotate_right) | clear_value x | subst x)
    | split

theorem demandFill_keeps {s0 : State} {a0 a1} (h1 : Keeps s0 a1) :
    OptP (fun x0 => Keeps s0 x0) (demandFill a0 a1) := by
  unfold demandFill
  repeat' first
    | with_reducible intro _ | with_reducible assumption | with_reducible apply State.fault_keeps
    | with_reducible apply State.holdStream_keeps | with_reducible apply State.requestWake_keeps
    | with_reducible apply State.setIline_keeps | with_reducible apply State.setStream_keeps
    | with_reducible apply State.traceFetch_keeps | with_reducible exact OptP.of_none | with_reducible apply OptP.of_some
    | (extract_lets +onlyGivenNames x; first | (have hx : Keeps s0 x := ?_; clear_value x; rotate_left; subst x; rotate_right) | (have hx : OptP (fun y => Keeps s0 y) x := ?_; clear_value x; rotate_left; subst x; rotate_right) | clear_value x | subst x)
    | split

theorem eventArrive_keeps {s0 : State} {a0 a1} (h1 : Keeps s0 a1) :
    OptP (fun x0 => Keeps s0 x0) (eventArrive a0 a1) := by
  unfold eventArrive
  repeat' first
    | with_reducible intro _ | with_reducible assumption | with_reducible apply State.bankTake_keeps
    | with_reducible apply State.eventLost_keeps | with_reducible apply State.requestWake_keeps
    | with_reducible apply State.sleepTouch_keeps | with_reducible exact OptP.of_none | with_reducible apply OptP.of_some
    | (extract_lets +onlyGivenNames x; first | (have hx : Keeps s0 x := ?_; clear_value x; rotate_left; subst x; rotate_right) | (have hx : OptP (fun y => Keeps s0 y) x := ?_; clear_value x; rotate_left; subst x; rotate_right) | clear_value x | subst x)
    | split | with_reducible refine OptP.get ?_ (by assumption) | with_reducible exact OptP.get (by assumption) rfl
    | with_reducible apply Keeps.lit

theorem execCountEventArrive_keeps {s0 : State} {a0 a1} (h1 : Keeps s0 a1) :
    OutK s0 (execCountEventArrive a0 a1) := by
  unfold execCountEventArrive
  repeat' first
    | with_reducible intro _ | with_reducible assumption | with_reducible apply eventArrive_keeps
    | with_reducible apply attempt_keeps | with_reducible exact OptP.of_none | with_reducible apply OptP.of_some
    | with_reducible apply OutK.next

theorem execDemandFillComplete_keeps {s0 : State} {a0 a1} (h1 : Keeps s0 a1) :
    OutK s0 (execDemandFillComplete a0 a1) := by
  unfold execDemandFillComplete
  repeat' first
    | with_reducible intro _ | with_reducible assumption | with_reducible apply demandFill_keeps
    | with_reducible apply attempt_keeps | with_reducible exact OptP.of_none | with_reducible apply OptP.of_some
    | with_reducible apply OutK.next

theorem execFetchaheadFillComplete_keeps {s0 : State} {a0 a1} (h1 : Keeps s0 a1) :
    OutK s0 (execFetchaheadFillComplete a0 a1) := by
  unfold execFetchaheadFillComplete
  repeat' first
    | with_reducible intro _ | with_reducible assumption | with_reducible apply aheadFill_keeps
    | with_reducible apply attempt_keeps | with_reducible exact OptP.of_none | with_reducible apply OptP.of_some
    | with_reducible apply OutK.next

theorem specFetch_keeps {s0 : State} {a0 a1 a2} (h2 : Keeps s0 a2) :
    OptP (fun x0 => Keeps s0 x0) (specFetch a0 a1 a2) := by
  unfold specFetch
  repeat' first
    | with_reducible intro _ | with_reducible assumption | with_reducible apply State.setIline_keeps
    | with_reducible apply State.traceFetch_keeps | with_reducible exact OptP.of_none | with_reducible apply OptP.of_some
    | (extract_lets +onlyGivenNames x; first | (have hx : Keeps s0 x := ?_; clear_value x; rotate_left; subst x; rotate_right) | (have hx : OptP (fun y => Keeps s0 y) x := ?_; clear_value x; rotate_left; subst x; rotate_right) | clear_value x | subst x)
    | split | with_reducible apply Keeps.lit

theorem execSpeculativeFetch_keeps {s0 : State} {a0 a1 a2} (h2 : Keeps s0 a2) :
    OutK s0 (execSpeculativeFetch a0 a1 a2) := by
  unfold execSpeculativeFetch
  repeat' first
    | with_reducible intro _ | with_reducible assumption | with_reducible apply specFetch_keeps
    | with_reducible apply attempt_keeps | with_reducible exact OptP.of_none | with_reducible apply OptP.of_some
    | with_reducible apply OutK.next

theorem fifoApply_keeps {s0 : State} {a0 a1} (h1 : Keeps s0 a1) :
    OptP (fun x0 => Keeps s0 x0) (fifoApply a0 a1) := by
  unfold fifoApply
  repeat' first
    | with_reducible intro _ | with_reducible assumption | with_reducible apply State.applyEvent_keeps
    | with_reducible apply State.setBank_keeps | with_reducible exact OptP.of_none | with_reducible apply OptP.of_some
    | with_reducible apply Keeps.foldl | with_reducible apply Keeps.foldl1 | with_reducible apply Keeps.foldl2
    | (extract_lets +onlyGivenNames x; first | (have hx : Keeps s0 x := ?_; clear_value x; rotate_left; subst x; rotate_right) | (have hx : OptP (fun y => Keeps s0 y) x := ?_; clear_value x; rotate_left; subst x; rotate_right) | clear_value x | subst x)
    | split

theorem execTallyFifoApply_keeps {s0 : State} {a0 a1} (h1 : Keeps s0 a1) :
    OutK s0 (execTallyFifoApply a0 a1) := by
  unfold execTallyFifoApply
  repeat' first
    | with_reducible intro _ | with_reducible assumption | with_reducible apply fifoApply_keeps
    | with_reducible apply attempt_keeps | with_reducible exact OptP.of_none | with_reducible apply OptP.of_some
    | with_reducible apply OutK.next

end Sys2Proof.Machine
end

