-- ==== Sys2Proof/Laws/KeepsOfViews.lean ====
section
/-! SUPPORT. What the operations of Views keep. -/

namespace Sys2Proof.Machine

theorem State.writeTally_keeps {s0 : State} {a0 a1 a2 a3} (h0 : Keeps s0 a0) :
    Keeps s0 (State.writeTally a0 a1 a2 a3) := by
  unfold State.writeTally
  repeat' first
    | with_reducible intro _ | with_reducible assumption | with_reducible apply State.setTally_keeps
    | with_reducible exact OptP.of_none | with_reducible apply OptP.of_some

theorem State.cfgWrite_keeps {s0 : State} {a0 a1 a2} (h0 : Keeps s0 a0) :
    Keeps s0 (State.cfgWrite a0 a1 a2) := by
  unfold State.cfgWrite
  repeat' first
    | with_reducible intro _ | with_reducible assumption | with_reducible apply State.setCfgW_keeps
    | with_reducible apply State.writeTally_keeps | with_reducible exact OptP.of_none | with_reducible apply OptP.of_some
    | (extract_lets +onlyGivenNames x; first | (have hx : Keeps s0 x := ?_; clear_value x; rotate_left; subst x; rotate_right) | clear_value x | subst x)
    | split

theorem State.irqTake_keeps {s0 : State} {a0 a1} (h0 : Keeps s0 a0) :
    Keeps s0 (State.irqTake a0 a1) := by
  unfold State.irqTake
  repeat' first
    | with_reducible intro _ | with_reducible assumption | with_reducible apply State.setMbxF_keeps
    | with_reducible exact OptP.of_none | with_reducible apply OptP.of_some
    | (extract_lets +onlyGivenNames x; first | (have hx : Keeps s0 x := ?_; clear_value x; rotate_left; subst x; rotate_right) | clear_value x | subst x)
    | split | with_reducible apply Keeps.lit

end Sys2Proof.Machine
end

