-- ==== Sys2Proof/Laws/KeepsOfMailbox.lean ====
section
/-! SUPPORT. What the operations of Mailbox keep. -/

namespace Sys2Proof.Machine

theorem State.hostAccess_keeps {s0 : State} {a0 a1} (h0 : Keeps s0 a0) :
    Keeps s0 (State.hostAccess a0 a1) := by
  unfold State.hostAccess
  repeat' first
    | with_reducible intro _ | with_reducible assumption | with_reducible apply State.emit_keeps
    | with_reducible apply State.raise_keeps | with_reducible apply State.requestWake_keeps
    | with_reducible apply State.wr_keeps | with_reducible exact OptP.of_none | with_reducible apply OptP.of_some
    | (extract_lets +onlyGivenNames x; first | (have hx : Keeps s0 x := ?_; clear_value x; rotate_left; subst x; rotate_right) | clear_value x | subst x)
    | split | with_reducible apply Keeps.lit

theorem State.hostTrains_keeps {s0 : State} {a0 a1} (h0 : Keeps s0 a0) :
    Keeps s0 (State.hostTrains a0 a1) := by
  unfold State.hostTrains
  repeat' first
    | with_reducible intro _ | with_reducible assumption | with_reducible exact OptP.of_none
    | with_reducible apply OptP.of_some
    | (extract_lets +onlyGivenNames x; first | (have hx : Keeps s0 x := ?_; clear_value x; rotate_left; subst x; rotate_right) | clear_value x | subst x)
    | split | with_reducible apply Keeps.lit

theorem State.mbxPlain_keeps {s0 : State} {a0 a1 a2 a3} (h0 : Keeps s0 a0) :
    Keeps s0 (State.mbxPlain a0 a1 a2 a3) := by
  unfold State.mbxPlain
  repeat' first
    | with_reducible intro _ | with_reducible assumption | with_reducible apply State.setMbxF_keeps
    | with_reducible apply State.setMbxW_keeps | with_reducible exact OptP.of_none | with_reducible apply OptP.of_some
    | (extract_lets +onlyGivenNames x; first | (have hx : Keeps s0 x := ?_; clear_value x; rotate_left; subst x; rotate_right) | clear_value x | subst x)
    | split

theorem State.ringErr_keeps {s0 : State} {a0 a1 a2 a3 a4} (h0 : Keeps s0 a0) :
    Keeps s0 (State.ringErr a0 a1 a2 a3 a4) := by
  unfold State.ringErr
  repeat' first
    | with_reducible intro _ | with_reducible assumption | with_reducible apply State.notice_keeps
    | with_reducible apply State.setMbxF_keeps | with_reducible exact OptP.of_none | with_reducible apply OptP.of_some
    | (extract_lets +onlyGivenNames x; first | (have hx : Keeps s0 x := ?_; clear_value x; rotate_left; subst x; rotate_right) | clear_value x | subst x)
    | split

theorem State.takeHead_keeps {s0 : State} {a0 a1 a2} (h0 : Keeps s0 a0) :
    Keeps s0 (State.takeHead a0 a1 a2) := by
  unfold State.takeHead
  repeat' first
    | with_reducible intro _ | with_reducible assumption | with_reducible apply State.setMbxF_keeps
    | with_reducible exact OptP.of_none | with_reducible apply OptP.of_some
    | (extract_lets +onlyGivenNames x; first | (have hx : Keeps s0 x := ?_; clear_value x; rotate_left; subst x; rotate_right) | clear_value x | subst x)
    | with_reducible apply Keeps.lit

theorem State.serveUnknown_keeps {s0 : State} {a0} (h0 : Keeps s0 a0) :
    Keeps s0 (State.serveUnknown a0) := by
  unfold State.serveUnknown
  repeat' first
    | with_reducible intro _ | with_reducible assumption | with_reducible apply State.final_keeps
    | with_reducible apply State.takeHead_keeps | with_reducible exact OptP.of_none | with_reducible apply OptP.of_some
    | (extract_lets +onlyGivenNames x; first | (have hx : Keeps s0 x := ?_; clear_value x; rotate_left; subst x; rotate_right) | clear_value x | subst x)
    | split

theorem State.ringCmd_keeps {s0 : State} {a0 a1 a2 a3} (h0 : Keeps s0 a0) :
    Keeps s0 (State.ringCmd a0 a1 a2 a3) := by
  unfold State.ringCmd
  repeat' first
    | with_reducible intro _ | with_reducible assumption | with_reducible apply State.ringErr_keeps
    | with_reducible apply State.serveUnknown_keeps | with_reducible apply State.setMbxF_keeps
    | with_reducible exact OptP.of_none | with_reducible apply OptP.of_some
    | (extract_lets +onlyGivenNames x; first | (have hx : Keeps s0 x := ?_; clear_value x; rotate_left; subst x; rotate_right) | clear_value x | subst x)
    | split | with_reducible apply Keeps.lit

theorem State.ringRsp_keeps {s0 : State} {a0 a1 a2 a3} (h0 : Keeps s0 a0) :
    Keeps s0 (State.ringRsp a0 a1 a2 a3) := by
  unfold State.ringRsp
  repeat' first
    | with_reducible intro _ | with_reducible assumption | with_reducible apply State.ringErr_keeps
    | with_reducible apply State.serveUnknown_keeps | with_reducible apply State.setMbxF_keeps
    | with_reducible exact OptP.of_none | with_reducible apply OptP.of_some
    | (extract_lets +onlyGivenNames x; first | (have hx : Keeps s0 x := ?_; clear_value x; rotate_left; subst x; rotate_right) | clear_value x | subst x)
    | split

theorem State.mbxWrite_keeps {s0 : State} {a0 a1 a2 a3} (h0 : Keeps s0 a0) :
    Keeps s0 (State.mbxWrite a0 a1 a2 a3) := by
  unfold State.mbxWrite
  repeat' first
    | with_reducible intro _ | with_reducible assumption | with_reducible apply State.mbxPlain_keeps
    | with_reducible apply State.ringCmd_keeps | with_reducible apply State.ringRsp_keeps
    | with_reducible exact OptP.of_none | with_reducible apply OptP.of_some
    | (extract_lets +onlyGivenNames x; first | (have hx : Keeps s0 x := ?_; clear_value x; rotate_left; subst x; rotate_right) | clear_value x | subst x)
    | split

theorem State.pendBell_keeps {s0 : State} {a0 a1 a2 a3} (h0 : Keeps s0 a0) :
    Keeps s0 (State.pendBell a0 a1 a2 a3) := by
  unfold State.pendBell
  repeat' first
    | with_reducible intro _ | with_reducible assumption | with_reducible apply State.setMbxF_keeps
    | with_reducible apply State.setMbxW_keeps | with_reducible apply State.setPart_keeps
    | with_reducible exact OptP.of_none | with_reducible apply OptP.of_some
    | (extract_lets +onlyGivenNames x; first | (have hx : Keeps s0 x := ?_; clear_value x; rotate_left; subst x; rotate_right) | clear_value x | subst x)
    | split

theorem bar2Access_keeps {s0 : State} {a0 a1 a2 a3 a4} (h4 : Keeps s0 a4) :
    OptP (fun x0 => Keeps s0 x0) (bar2Access a0 a1 a2 a3 a4) := by
  unfold bar2Access
  repeat' first
    | with_reducible intro _ | with_reducible assumption | with_reducible apply State.hostAccess_keeps
    | with_reducible exact OptP.of_none | with_reducible apply OptP.of_some | split

theorem cmdProdWrite_keeps {s0 : State} {a0 a1 a2 a3} (h3 : Keeps s0 a3) :
    OptP (fun x0 => Keeps s0 x0) (cmdProdWrite a0 a1 a2 a3) := by
  unfold cmdProdWrite
  repeat' first
    | with_reducible intro _ | with_reducible assumption | with_reducible apply State.ringCmd_keeps
    | with_reducible exact OptP.of_none | with_reducible apply OptP.of_some | split

theorem doorbellWrite_keeps {s0 : State} {a0 a1 a2 a3} (h3 : Keeps s0 a3) :
    OptP (fun x0 => Keeps s0 x0) (doorbellWrite a0 a1 a2 a3) := by
  unfold doorbellWrite
  repeat' first
    | with_reducible intro _ | with_reducible assumption | with_reducible apply State.pendBell_keeps
    | with_reducible exact OptP.of_none | with_reducible apply OptP.of_some | split

theorem execBar2Access_keeps {s0 : State} {a0 a1 a2 a3 a4} (h4 : Keeps s0 a4) :
    OutK s0 (execBar2Access a0 a1 a2 a3 a4) := by
  unfold execBar2Access
  repeat' first
    | with_reducible intro _ | with_reducible assumption | with_reducible apply bar2Access_keeps
    | with_reducible apply attempt_keeps | with_reducible exact OptP.of_none | with_reducible apply OptP.of_some
    | with_reducible apply OutK.next

theorem execCmdProdWrite_keeps {s0 : State} {a0 a1 a2 a3} (h3 : Keeps s0 a3) :
    OutK s0 (execCmdProdWrite a0 a1 a2 a3) := by
  unfold execCmdProdWrite
  repeat' first
    | with_reducible intro _ | with_reducible assumption | with_reducible apply cmdProdWrite_keeps
    | with_reducible apply attempt_keeps | with_reducible exact OptP.of_none | with_reducible apply OptP.of_some
    | with_reducible apply OutK.next

theorem execDoorbellWrite_keeps {s0 : State} {a0 a1 a2 a3} (h3 : Keeps s0 a3) :
    OutK s0 (execDoorbellWrite a0 a1 a2 a3) := by
  unfold execDoorbellWrite
  repeat' first
    | with_reducible intro _ | with_reducible assumption | with_reducible apply doorbellWrite_keeps
    | with_reducible apply attempt_keeps | with_reducible exact OptP.of_none | with_reducible apply OptP.of_some
    | with_reducible apply OutK.next

theorem heldDone_keeps {s0 : State} {a0 a1} (h1 : Keeps s0 a1) :
    OptP (fun x0 => Keeps s0 x0) (heldDone a0 a1) := by
  unfold heldDone
  repeat' first
    | with_reducible intro _ | with_reducible assumption | with_reducible apply State.bankTake_keeps
    | with_reducible apply State.eventLost_keeps | with_reducible apply State.hostAccess_keeps
    | with_reducible exact OptP.of_none | with_reducible apply OptP.of_some
    | (extract_lets +onlyGivenNames x; first | (have hx : Keeps s0 x := ?_; clear_value x; rotate_left; subst x; rotate_right) | (have hx : OptP (fun y => Keeps s0 y) x := ?_; clear_value x; rotate_left; subst x; rotate_right) | clear_value x | subst x)
    | split | with_reducible refine OptP.get ?_ (by assumption) | with_reducible exact OptP.get (by assumption) rfl
    | with_reducible apply Keeps.lit

theorem execHeldAccessComplete_keeps {s0 : State} {a0 a1} (h1 : Keeps s0 a1) :
    OutK s0 (execHeldAccessComplete a0 a1) := by
  unfold execHeldAccessComplete
  repeat' first
    | with_reducible intro _ | with_reducible assumption | with_reducible apply heldDone_keeps
    | with_reducible apply attempt_keeps | with_reducible exact OptP.of_none | with_reducible apply OptP.of_some
    | with_reducible apply OutK.next

theorem jnlReadWrite_keeps {s0 : State} {a0 a1 a2} (h2 : Keeps s0 a2) :
    OptP (fun x0 => Keeps s0 x0) (jnlReadWrite a0 a1 a2) := by
  unfold jnlReadWrite
  repeat' first
    | with_reducible intro _ | with_reducible assumption | with_reducible apply State.setMbxF_keeps
    | with_reducible apply State.setMbxW_keeps | with_reducible exact OptP.of_none | with_reducible apply OptP.of_some
    | split

theorem execJnlReadWrite_keeps {s0 : State} {a0 a1 a2} (h2 : Keeps s0 a2) :
    OutK s0 (execJnlReadWrite a0 a1 a2) := by
  unfold execJnlReadWrite
  repeat' first
    | with_reducible intro _ | with_reducible assumption | with_reducible apply jnlReadWrite_keeps
    | with_reducible apply attempt_keeps | with_reducible exact OptP.of_none | with_reducible apply OptP.of_some
    | with_reducible apply OutK.next

theorem mbxIrqTake_keeps {s0 : State} {a0 a1} (h1 : Keeps s0 a1) :
    OptP (fun x0 => Keeps s0 x0) (mbxIrqTake a0 a1) := by
  unfold mbxIrqTake
  repeat' first
    | with_reducible intro _ | with_reducible assumption | with_reducible apply State.emit_keeps
    | with_reducible apply State.irqTake_keeps | with_reducible exact OptP.of_none | with_reducible apply OptP.of_some
    | split

theorem execMbxIrqTake_keeps {s0 : State} {a0 a1} (h1 : Keeps s0 a1) :
    OutK s0 (execMbxIrqTake a0 a1) := by
  unfold execMbxIrqTake
  repeat' first
    | with_reducible intro _ | with_reducible assumption | with_reducible apply mbxIrqTake_keeps
    | with_reducible apply attempt_keeps | with_reducible exact OptP.of_none | with_reducible apply OptP.of_some
    | with_reducible apply OutK.next

theorem perstAssert_keeps {s0 : State} {a0 a1} (h1 : Keeps s0 a1) :
    OptP (fun x0 => Keeps s0 x0) (perstAssert a0 a1) := by
  unfold perstAssert
  repeat' first
    | with_reducible intro _ | with_reducible assumption | with_reducible exact OptP.of_none
    | with_reducible apply OptP.of_some
    | (extract_lets +onlyGivenNames x; first | (have hx : Keeps s0 x := ?_; clear_value x; rotate_left; subst x; rotate_right) | (have hx : OptP (fun y => Keeps s0 y) x := ?_; clear_value x; rotate_left; subst x; rotate_right) | clear_value x | subst x)
    | split | with_reducible apply Keeps.lit

theorem execPerstAssert_keeps {s0 : State} {a0 a1} (h1 : Keeps s0 a1) :
    OutK s0 (execPerstAssert a0 a1) := by
  unfold execPerstAssert
  repeat' first
    | with_reducible intro _ | with_reducible assumption | with_reducible apply perstAssert_keeps
    | with_reducible apply attempt_keeps | with_reducible exact OptP.of_none | with_reducible apply OptP.of_some
    | with_reducible apply OutK.next

theorem perstDeassert_keeps {s0 : State} {a0 a1} (h1 : Keeps s0 a1) :
    OptP (fun x0 => Keeps s0 x0) (perstDeassert a0 a1) := by
  unfold perstDeassert
  repeat' first
    | with_reducible intro _ | with_reducible assumption | with_reducible apply State.hostTrains_keeps
    | with_reducible exact OptP.of_none | with_reducible apply OptP.of_some
    | (extract_lets +onlyGivenNames x; first | (have hx : Keeps s0 x := ?_; clear_value x; rotate_left; subst x; rotate_right) | (have hx : OptP (fun y => Keeps s0 y) x := ?_; clear_value x; rotate_left; subst x; rotate_right) | clear_value x | subst x)
    | split | with_reducible apply Keeps.lit

theorem execPerstDeassert_keeps {s0 : State} {a0 a1} (h1 : Keeps s0 a1) :
    OutK s0 (execPerstDeassert a0 a1) := by
  unfold execPerstDeassert
  repeat' first
    | with_reducible intro _ | with_reducible assumption | with_reducible apply perstDeassert_keeps
    | with_reducible apply attempt_keeps | with_reducible exact OptP.of_none | with_reducible apply OptP.of_some
    | with_reducible apply OutK.next

theorem portTake_keeps {s0 : State} {a0 a1 a2} (h2 : Keeps s0 a2) :
    OptP (fun x0 => Keeps s0 x0) (portTake a0 a1 a2) := by
  unfold portTake
  repeat' first
    | with_reducible intro _ | with_reducible assumption | with_reducible apply State.setIrq_keeps
    | with_reducible exact OptP.of_none | with_reducible apply OptP.of_some | with_reducible apply Keeps.foldl
    | with_reducible apply Keeps.foldl1 | with_reducible apply Keeps.foldl2
    | (extract_lets +onlyGivenNames x; first | (have hx : Keeps s0 x := ?_; clear_value x; rotate_left; subst x; rotate_right) | (have hx : OptP (fun y => Keeps s0 y) x := ?_; clear_value x; rotate_left; subst x; rotate_right) | clear_value x | subst x)
    | split | with_reducible apply Keeps.lit

theorem execPortTake_keeps {s0 : State} {a0 a1 a2} (h2 : Keeps s0 a2) :
    OutK s0 (execPortTake a0 a1 a2) := by
  unfold execPortTake
  repeat' first
    | with_reducible intro _ | with_reducible assumption | with_reducible apply portTake_keeps
    | with_reducible apply attempt_keeps | with_reducible exact OptP.of_none | with_reducible apply OptP.of_some
    | with_reducible apply OutK.next

theorem registerWrite_keeps {s0 : State} {a0 a1 a2} (h2 : Keeps s0 a2) :
    OptP (fun x0 => Keeps s0 x0) (registerWrite a0 a1 a2) := by
  unfold registerWrite
  repeat' first
    | with_reducible intro _ | with_reducible assumption | with_reducible apply State.cfgWrite_keeps
    | with_reducible apply State.mbxPlain_keeps | with_reducible apply State.setMbxF_keeps
    | with_reducible exact OptP.of_none | with_reducible apply OptP.of_some | split

theorem execRegisterWrite_keeps {s0 : State} {a0 a1 a2} (h2 : Keeps s0 a2) :
    OutK s0 (execRegisterWrite a0 a1 a2) := by
  unfold execRegisterWrite
  repeat' first
    | with_reducible intro _ | with_reducible assumption | with_reducible apply registerWrite_keeps
    | with_reducible apply attempt_keeps | with_reducible exact OptP.of_none | with_reducible apply OptP.of_some
    | with_reducible apply OutK.next

theorem rspConsWrite_keeps {s0 : State} {a0 a1 a2 a3} (h3 : Keeps s0 a3) :
    OptP (fun x0 => Keeps s0 x0) (rspConsWrite a0 a1 a2 a3) := by
  unfold rspConsWrite
  repeat' first
    | with_reducible intro _ | with_reducible assumption | with_reducible apply State.ringRsp_keeps
    | with_reducible exact OptP.of_none | with_reducible apply OptP.of_some | split

theorem execRspConsWrite_keeps {s0 : State} {a0 a1 a2 a3} (h3 : Keeps s0 a3) :
    OutK s0 (execRspConsWrite a0 a1 a2 a3) := by
  unfold execRspConsWrite
  repeat' first
    | with_reducible intro _ | with_reducible assumption | with_reducible apply rspConsWrite_keeps
    | with_reducible apply attempt_keeps | with_reducible exact OptP.of_none | with_reducible apply OptP.of_some
    | with_reducible apply OutK.next

end Sys2Proof.Machine
end

