-- ==== Sys2Proof/Laws/KeepsOfPower.lean ====
section
/-! SUPPORT. What the operations of Power keep. -/

namespace Sys2Proof.Machine

theorem State.bookSlot_keeps {s0 : State} {a0 a1 a2 a3 a4 a5} (h0 : Keeps s0 a0) :
    Keeps s0 (State.bookSlot a0 a1 a2 a3 a4 a5) := by
  unfold State.bookSlot
  repeat' first
    | with_reducible intro _ | with_reducible assumption | with_reducible apply State.setCfgF_keeps
    | with_reducible apply State.setCfgW_keeps | with_reducible apply State.setPart_keeps
    | with_reducible exact OptP.of_none | with_reducible apply OptP.of_some | with_reducible apply Keeps.foldl
    | with_reducible apply Keeps.foldl1 | with_reducible apply Keeps.foldl2
    | (extract_lets +onlyGivenNames x; first | (have hx : Keeps s0 x := ?_; clear_value x; rotate_left; subst x; rotate_right) | clear_value x | subst x)
    | with_reducible apply Keeps.lit

theorem State.noteSlow_keeps {s0 : State} {a0 a1} (h0 : Keeps s0 a0) :
    Keeps s0 (State.noteSlow a0 a1) := by
  unfold State.noteSlow
  repeat' first
    | with_reducible intro _ | with_reducible assumption | with_reducible apply State.setPart_keeps
    | with_reducible exact OptP.of_none | with_reducible apply OptP.of_some | with_reducible apply Keeps.foldl
    | with_reducible apply Keeps.foldl1 | with_reducible apply Keeps.foldl2
    | (extract_lets +onlyGivenNames x; first | (have hx : Keeps s0 x := ?_; clear_value x; rotate_left; subst x; rotate_right) | clear_value x | subst x)
    | split

theorem State.setAlert_keeps {s0 : State} {a0} (h0 : Keeps s0 a0) :
    Keeps s0 (State.setAlert a0) := by
  unfold State.setAlert
  repeat' first
    | with_reducible intro _ | with_reducible assumption | with_reducible apply State.setCfgF_keeps
    | with_reducible exact OptP.of_none | with_reducible apply OptP.of_some

theorem State.clampUnit_keeps {s0 : State} {a0 a1} (h0 : Keeps s0 a0) :
    Keeps s0 (State.clampUnit a0 a1) := by
  unfold State.clampUnit
  repeat' first
    | with_reducible intro _ | with_reducible assumption | with_reducible apply State.bumpCfg_keeps
    | with_reducible apply State.noteSlow_keeps | with_reducible apply State.raise_keeps
    | with_reducible apply State.setAlert_keeps | with_reducible apply State.setCfgF_keeps
    | with_reducible exact OptP.of_none | with_reducible apply OptP.of_some
    | (extract_lets +onlyGivenNames x; first | (have hx : Keeps s0 x := ?_; clear_value x; rotate_left; subst x; rotate_right) | clear_value x | subst x)
    | with_reducible apply Keeps.lit

theorem State.clearMem_keeps {s0 : State} {a0 a1 a2} (h0 : Keeps s0 a0) :
    Keeps s0 (State.clearMem a0 a1 a2) := by
  unfold State.clearMem
  repeat' first
    | with_reducible intro _ | with_reducible assumption | with_reducible exact OptP.of_none
    | with_reducible apply OptP.of_some | with_reducible apply Keeps.litAll | with_reducible exact id | exact Nat.le_refl _
    | exact Nat.le_add_right _ _ | exact tblWf_filter (by assumption) _ | exact List.Pairwise.filter _ (by assumption)
    | rfl

theorem State.linkOff_keeps {s0 : State} {a0 a1} (h0 : Keeps s0 a0) :
    Keeps s0 (State.linkOff a0 a1) := by
  unfold State.linkOff
  repeat' first
    | with_reducible intro _ | with_reducible assumption | with_reducible apply State.setLinkState_keeps
    | with_reducible exact OptP.of_none | with_reducible apply OptP.of_some | split

theorem State.cutOff_keeps {s0 : State} {a0 a1} (h0 : Keeps s0 a0) :
    Keeps s0 (State.cutOff a0 a1) := by
  unfold State.cutOff
  repeat' first
    | with_reducible intro _ | with_reducible assumption | with_reducible apply State.linkOff_keeps
    | with_reducible apply State.setDom_keeps | with_reducible exact OptP.of_none | with_reducible apply OptP.of_some

theorem State.disable_keeps {s0 : State} {a0 a1 a2} (h0 : Keeps s0 a0) :
    Keeps s0 (State.disable a0 a1 a2) := by
  unfold State.disable
  repeat' first
    | with_reducible intro _ | with_reducible assumption | with_reducible apply State.linkOff_keeps
    | with_reducible apply State.setCfgF_keeps | with_reducible apply State.setDom_keeps
    | with_reducible exact OptP.of_none | with_reducible apply OptP.of_some
    | (extract_lets +onlyGivenNames x; first | (have hx : Keeps s0 x := ?_; clear_value x; rotate_left; subst x; rotate_right) | clear_value x | subst x)
    | split

theorem State.enable_keeps {s0 : State} {a0 a1} (h0 : Keeps s0 a0) :
    Keeps s0 (State.enable a0 a1) := by
  unfold State.enable
  repeat' first
    | with_reducible intro _ | with_reducible assumption | with_reducible apply State.setDom_keeps
    | with_reducible exact OptP.of_none | with_reducible apply OptP.of_some
    | (extract_lets +onlyGivenNames x; first | (have hx : Keeps s0 x := ?_; clear_value x; rotate_left; subst x; rotate_right) | clear_value x | subst x)
    | split

theorem State.endPackageSleep_keeps {s0 : State} {a0} (h0 : Keeps s0 a0) :
    Keeps s0 (State.endPackageSleep a0) := by
  unfold State.endPackageSleep
  repeat' first
    | with_reducible intro _ | with_reducible assumption | with_reducible apply State.enable_keeps
    | with_reducible exact OptP.of_none | with_reducible apply OptP.of_some | with_reducible apply Keeps.foldl
    | with_reducible apply Keeps.foldl1 | with_reducible apply Keeps.foldl2
    | (extract_lets +onlyGivenNames x; first | (have hx : Keeps s0 x := ?_; clear_value x; rotate_left; subst x; rotate_right) | clear_value x | subst x)
    | split | with_reducible apply Keeps.lit

theorem State.freeUnit_keeps {s0 : State} {a0 a1} (h0 : Keeps s0 a0) :
    Keeps s0 (State.freeUnit a0 a1) := by
  unfold State.freeUnit
  repeat' first
    | with_reducible intro _ | with_reducible assumption | with_reducible apply State.setAlert_keeps
    | with_reducible apply State.setCfgF_keeps | with_reducible exact OptP.of_none | with_reducible apply OptP.of_some
    | (extract_lets +onlyGivenNames x; first | (have hx : Keeps s0 x := ?_; clear_value x; rotate_left; subst x; rotate_right) | clear_value x | subst x)
    | with_reducible apply Keeps.lit

theorem State.initCore_keeps {s0 : State} {a0 a1} (h0 : Keeps s0 a0) :
    Keeps s0 (State.initCore a0 a1) := by
  unfold State.initCore
  repeat' first
    | with_reducible intro _ | with_reducible assumption | with_reducible apply State.clearMem_keeps
    | with_reducible exact OptP.of_none | with_reducible apply OptP.of_some
    | (extract_lets +onlyGivenNames x; first | (have hx : Keeps s0 x := ?_; clear_value x; rotate_left; subst x; rotate_right) | clear_value x | subst x)
    | with_reducible apply Keeps.litAll | with_reducible exact id | exact Nat.le_refl _ | exact Nat.le_add_right _ _
    | exact tblWf_filter (by assumption) _ | exact List.Pairwise.filter _ (by assumption) | rfl

theorem State.initDie_keeps {s0 : State} {a0 a1} (h0 : Keeps s0 a0) :
    Keeps s0 (State.initDie a0 a1) := by
  unfold State.initDie
  repeat' first
    | with_reducible intro _ | with_reducible assumption | with_reducible exact OptP.of_none
    | with_reducible apply OptP.of_some
    | (extract_lets +onlyGivenNames x; first | (have hx : Keeps s0 x := ?_; clear_value x; rotate_left; subst x; rotate_right) | clear_value x | subst x)
    | with_reducible apply Keeps.lit

theorem State.initDomain_keeps {s0 : State} {a0 a1} (h0 : Keeps s0 a0) :
    Keeps s0 (State.initDomain a0 a1) := by
  unfold State.initDomain
  repeat' first
    | with_reducible intro _ | with_reducible assumption | with_reducible apply State.clearMem_keeps
    | with_reducible apply State.initCore_keeps | with_reducible apply State.initDie_keeps
    | with_reducible apply State.setCfgF_keeps | with_reducible apply State.startPort_keeps
    | with_reducible exact OptP.of_none | with_reducible apply OptP.of_some
    | (extract_lets +onlyGivenNames x; first | (have hx : Keeps s0 x := ?_; clear_value x; rotate_left; subst x; rotate_right) | clear_value x | subst x)
    | split

theorem State.limitCurrent_keeps {s0 : State} {a0 a1} (h0 : Keeps s0 a0) :
    Keeps s0 (State.limitCurrent a0 a1) := by
  unfold State.limitCurrent
  repeat' first
    | with_reducible intro _ | with_reducible assumption | with_reducible apply State.bumpCfg_keeps
    | with_reducible apply State.noteSlow_keeps | with_reducible apply State.raise_keeps
    | with_reducible apply State.setAlert_keeps | with_reducible apply State.setCfgF_keeps
    | with_reducible exact OptP.of_none | with_reducible apply OptP.of_some
    | (extract_lets +onlyGivenNames x; first | (have hx : Keeps s0 x := ?_; clear_value x; rotate_left; subst x; rotate_right) | clear_value x | subst x)

theorem State.noteHot_keeps {s0 : State} {a0} (h0 : Keeps s0 a0) :
    Keeps s0 (State.noteHot a0) := by
  unfold State.noteHot
  repeat' first
    | with_reducible intro _ | with_reducible assumption | with_reducible apply State.setCfgF_keeps
    | with_reducible exact OptP.of_none | with_reducible apply OptP.of_some
    | (extract_lets +onlyGivenNames x; first | (have hx : Keeps s0 x := ?_; clear_value x; rotate_left; subst x; rotate_right) | clear_value x | subst x)

theorem State.notePeak_keeps {s0 : State} {a0 a1 a2} (h0 : Keeps s0 a0) :
    Keeps s0 (State.notePeak a0 a1 a2) := by
  unfold State.notePeak
  repeat' first
    | with_reducible intro _ | with_reducible assumption | with_reducible exact OptP.of_none
    | with_reducible apply OptP.of_some
    | (extract_lets +onlyGivenNames x; first | (have hx : Keeps s0 x := ?_; clear_value x; rotate_left; subst x; rotate_right) | clear_value x | subst x)
    | with_reducible apply Keeps.lit

theorem State.overcurrent_keeps {s0 : State} {a0 a1 a2 a3} (h0 : Keeps s0 a0) :
    Keeps s0 (State.overcurrent a0 a1 a2 a3) := by
  unfold State.overcurrent
  repeat' first
    | with_reducible intro _ | with_reducible assumption | with_reducible apply State.bumpCfg_keeps
    | with_reducible apply State.cutOff_keeps | with_reducible apply State.hold_keeps
    | with_reducible apply State.takeEvent_keeps | with_reducible exact OptP.of_none | with_reducible apply OptP.of_some
    | with_reducible apply Keeps.foldl | with_reducible apply Keeps.foldl1 | with_reducible apply Keeps.foldl2
    | (extract_lets +onlyGivenNames x; first | (have hx : Keeps s0 x := ?_; clear_value x; rotate_left; subst x; rotate_right) | clear_value x | subst x)
    | split

theorem State.setRung_keeps {s0 : State} {a0 a1} (h0 : Keeps s0 a0) :
    Keeps s0 (State.setRung a0 a1) := by
  unfold State.setRung
  repeat' first
    | with_reducible intro _ | with_reducible assumption | with_reducible apply State.setCfgF_keeps
    | with_reducible exact OptP.of_none | with_reducible apply OptP.of_some
    | (extract_lets +onlyGivenNames x; first | (have hx : Keeps s0 x := ?_; clear_value x; rotate_left; subst x; rotate_right) | clear_value x | subst x)
    | with_reducible apply Keeps.lit

theorem State.rungUp_keeps {s0 : State} {a0 a1} (h0 : Keeps s0 a0) :
    Keeps s0 (State.rungUp a0 a1) := by
  unfold State.rungUp
  repeat' first
    | with_reducible intro _ | with_reducible assumption | with_reducible apply State.bumpCfg_keeps
    | with_reducible apply State.noteSlow_keeps | with_reducible apply State.raise_keeps
    | with_reducible apply State.setAlert_keeps | with_reducible apply State.setRung_keeps
    | with_reducible exact OptP.of_none | with_reducible apply OptP.of_some
    | (extract_lets +onlyGivenNames x; first | (have hx : Keeps s0 x := ?_; clear_value x; rotate_left; subst x; rotate_right) | clear_value x | subst x)

theorem State.sensed_keeps {s0 : State} {a0 a1 a2 a3} (h0 : Keeps s0 a0) :
    Keeps s0 (State.sensed a0 a1 a2 a3) := by
  unfold State.sensed
  repeat' first
    | with_reducible intro _ | with_reducible assumption | with_reducible apply State.noteHot_keeps
    | with_reducible apply State.notePeak_keeps | with_reducible exact OptP.of_none | with_reducible apply OptP.of_some
    | (extract_lets +onlyGivenNames x; first | (have hx : Keeps s0 x := ?_; clear_value x; rotate_left; subst x; rotate_right) | clear_value x | subst x)
    | split | with_reducible apply Keeps.lit

theorem State.settleDom_keeps {s0 : State} {a0 a1} (h0 : Keeps s0 a0) :
    Keeps s0 (State.settleDom a0 a1) := by
  unfold State.settleDom
  repeat' first
    | with_reducible intro _ | with_reducible assumption | with_reducible apply State.enable_keeps
    | with_reducible apply State.initDomain_keeps | with_reducible apply State.setCfgF_keeps
    | with_reducible apply State.setDom_keeps | with_reducible exact OptP.of_none | with_reducible apply OptP.of_some
    | (extract_lets +onlyGivenNames x; first | (have hx : Keeps s0 x := ?_; clear_value x; rotate_left; subst x; rotate_right) | clear_value x | subst x)
    | split

theorem State.sleepPackage_keeps {s0 : State} {a0} (h0 : Keeps s0 a0) :
    Keeps s0 (State.sleepPackage a0) := by
  unfold State.sleepPackage
  repeat' first
    | with_reducible intro _ | with_reducible assumption | with_reducible apply State.disable_keeps
    | with_reducible exact OptP.of_none | with_reducible apply OptP.of_some | with_reducible apply Keeps.foldl
    | with_reducible apply Keeps.foldl1 | with_reducible apply Keeps.foldl2
    | (extract_lets +onlyGivenNames x; first | (have hx : Keeps s0 x := ?_; clear_value x; rotate_left; subst x; rotate_right) | clear_value x | subst x)
    | split | with_reducible apply Keeps.lit

theorem State.takeFifoPeak_keeps {s0 : State} {a0} (h0 : Keeps s0 a0) :
    Keeps s0 (State.takeFifoPeak a0) := by
  unfold State.takeFifoPeak
  repeat' first
    | with_reducible intro _ | with_reducible assumption | with_reducible apply State.setCfgF_keeps
    | with_reducible exact OptP.of_none | with_reducible apply OptP.of_some

theorem State.takePeakW_keeps {s0 : State} {a0} (h0 : Keeps s0 a0) :
    Keeps s0 (State.takePeakW a0) := by
  unfold State.takePeakW
  repeat' first
    | with_reducible intro _ | with_reducible assumption | with_reducible apply State.setCfgF_keeps
    | with_reducible exact OptP.of_none | with_reducible apply OptP.of_some

theorem State.trip_keeps {s0 : State} {a0 a1} (h0 : Keeps s0 a0) :
    Keeps s0 (State.trip a0 a1) := by
  unfold State.trip
  repeat' first
    | with_reducible intro _ | with_reducible assumption | with_reducible apply State.cutOff_keeps
    | with_reducible apply State.endCmds_keeps | with_reducible apply State.setCfgF_keeps
    | with_reducible apply State.takeEvent_keeps | with_reducible exact OptP.of_none | with_reducible apply OptP.of_some
    | with_reducible apply Keeps.foldl | with_reducible apply Keeps.foldl1 | with_reducible apply Keeps.foldl2
    | (extract_lets +onlyGivenNames x; first | (have hx : Keeps s0 x := ?_; clear_value x; rotate_left; subst x; rotate_right) | clear_value x | subst x)
    | with_reducible apply Keeps.lit

theorem avgLimit_keeps {s0 : State} {a0 a1} (h1 : Keeps s0 a1) :
    OptP (fun x0 => Keeps s0 x0) (avgLimit a0 a1) := by
  unfold avgLimit
  repeat' first
    | with_reducible intro _ | with_reducible assumption | with_reducible apply State.rungUp_keeps
    | with_reducible exact OptP.of_none | with_reducible apply OptP.of_some
    | (extract_lets +onlyGivenNames x; first | (have hx : Keeps s0 x := ?_; clear_value x; rotate_left; subst x; rotate_right) | (have hx : OptP (fun y => Keeps s0 y) x := ?_; clear_value x; rotate_left; subst x; rotate_right) | clear_value x | subst x)
    | split

theorem avgRelease_keeps {s0 : State} {a0 a1} (h1 : Keeps s0 a1) :
    OptP (fun x0 => Keeps s0 x0) (avgRelease a0 a1) := by
  unfold avgRelease
  repeat' first
    | with_reducible intro _ | with_reducible assumption | with_reducible apply State.setAlert_keeps
    | with_reducible apply State.setRung_keeps | with_reducible exact OptP.of_none | with_reducible apply OptP.of_some
    | (extract_lets +onlyGivenNames x; first | (have hx : Keeps s0 x := ?_; clear_value x; rotate_left; subst x; rotate_right) | (have hx : OptP (fun y => Keeps s0 y) x := ?_; clear_value x; rotate_left; subst x; rotate_right) | clear_value x | subst x)
    | split

theorem currentLimit_keeps {s0 : State} {a0 a1} (h1 : Keeps s0 a1) :
    OptP (fun x0 => Keeps s0 x0) (currentLimit a0 a1) := by
  unfold currentLimit
  repeat' first
    | with_reducible intro _ | with_reducible assumption | with_reducible apply State.limitCurrent_keeps
    | with_reducible exact OptP.of_none | with_reducible apply OptP.of_some | split

theorem currentRelease_keeps {s0 : State} {a0} (h0 : Keeps s0 a0) :
    OptP (fun x0 => Keeps s0 x0) (currentRelease a0) := by
  unfold currentRelease
  repeat' first
    | with_reducible intro _ | with_reducible assumption | with_reducible apply State.setAlert_keeps
    | with_reducible apply State.setCfgF_keeps | with_reducible exact OptP.of_none | with_reducible apply OptP.of_some
    | split

theorem domainDone_keeps {s0 : State} {a0 a1} (h1 : Keeps s0 a1) :
    OptP (fun x0 => Keeps s0 x0) (domainDone a0 a1) := by
  unfold domainDone
  repeat' first
    | with_reducible intro _ | with_reducible assumption | with_reducible apply State.settleDom_keeps
    | with_reducible exact OptP.of_none | with_reducible apply OptP.of_some | split

theorem energySlot_keeps {s0 : State} {a0 a1 a2 a3 a4 a5} (h5 : Keeps s0 a5) :
    OptP (fun x0 => Keeps s0 x0) (energySlot a0 a1 a2 a3 a4 a5) := by
  unfold energySlot
  repeat' first
    | with_reducible intro _ | with_reducible assumption | with_reducible apply State.bookSlot_keeps
    | with_reducible exact OptP.of_none | with_reducible apply OptP.of_some | split

theorem execAvgLimit_keeps {s0 : State} {a0 a1} (h1 : Keeps s0 a1) :
    OutK s0 (execAvgLimit a0 a1) := by
  unfold execAvgLimit
  repeat' first
    | with_reducible intro _ | with_reducible assumption | with_reducible apply avgLimit_keeps
    | with_reducible apply attempt_keeps | with_reducible exact OptP.of_none | with_reducible apply OptP.of_some
    | with_reducible apply OutK.next

theorem execAvgLimitRelease_keeps {s0 : State} {a0 a1} (h1 : Keeps s0 a1) :
    OutK s0 (execAvgLimitRelease a0 a1) := by
  unfold execAvgLimitRelease
  repeat' first
    | with_reducible intro _ | with_reducible assumption | with_reducible apply avgRelease_keeps
    | with_reducible apply attempt_keeps | with_reducible exact OptP.of_none | with_reducible apply OptP.of_some
    | with_reducible apply OutK.next

theorem execCurrentLimit_keeps {s0 : State} {a0 a1} (h1 : Keeps s0 a1) :
    OutK s0 (execCurrentLimit a0 a1) := by
  unfold execCurrentLimit
  repeat' first
    | with_reducible intro _ | with_reducible assumption | with_reducible apply currentLimit_keeps
    | with_reducible apply attempt_keeps | with_reducible exact OptP.of_none | with_reducible apply OptP.of_some
    | with_reducible apply OutK.next

theorem execCurrentLimitRelease_keeps {s0 : State} {a0} (h0 : Keeps s0 a0) :
    OutK s0 (execCurrentLimitRelease a0) := by
  unfold execCurrentLimitRelease
  repeat' first
    | with_reducible intro _ | with_reducible assumption | with_reducible apply currentRelease_keeps
    | with_reducible apply attempt_keeps | with_reducible exact OptP.of_none | with_reducible apply OptP.of_some
    | with_reducible apply OutK.next

theorem execDomainTransitionDone_keeps {s0 : State} {a0 a1} (h1 : Keeps s0 a1) :
    OutK s0 (execDomainTransitionDone a0 a1) := by
  unfold execDomainTransitionDone
  repeat' first
    | with_reducible intro _ | with_reducible assumption | with_reducible apply domainDone_keeps
    | with_reducible apply attempt_keeps | with_reducible exact OptP.of_none | with_reducible apply OptP.of_some
    | with_reducible apply OutK.next

theorem execEnergySlotMeasured_keeps {s0 : State} {a0 a1 a2 a3 a4 a5} (h5 : Keeps s0 a5) :
    OutK s0 (execEnergySlotMeasured a0 a1 a2 a3 a4 a5) := by
  unfold execEnergySlotMeasured
  repeat' first
    | with_reducible intro _ | with_reducible assumption | with_reducible apply energySlot_keeps
    | with_reducible apply attempt_keeps | with_reducible exact OptP.of_none | with_reducible apply OptP.of_some
    | with_reducible apply OutK.next

theorem execFifoPeakTake_keeps {s0 : State} {a0} (h0 : Keeps s0 a0) :
    OutK s0 (execFifoPeakTake a0) := by
  unfold execFifoPeakTake
  repeat' first
    | with_reducible intro _ | with_reducible assumption | with_reducible apply State.emit_keeps
    | with_reducible apply State.takeFifoPeak_keeps | with_reducible exact OptP.of_none | with_reducible apply OptP.of_some
    | with_reducible apply OutK.next

theorem packageSleep_keeps {s0 : State} {a0} (h0 : Keeps s0 a0) :
    OptP (fun x0 => Keeps s0 x0) (packageSleep a0) := by
  unfold packageSleep
  repeat' first
    | with_reducible intro _ | with_reducible assumption | with_reducible apply State.sleepPackage_keeps
    | with_reducible exact OptP.of_none | with_reducible apply OptP.of_some | split

theorem execPackageSleep_keeps {s0 : State} {a0} (h0 : Keeps s0 a0) :
    OutK s0 (execPackageSleep a0) := by
  unfold execPackageSleep
  repeat' first
    | with_reducible intro _ | with_reducible assumption | with_reducible apply packageSleep_keeps
    | with_reducible apply attempt_keeps | with_reducible exact OptP.of_none | with_reducible apply OptP.of_some
    | with_reducible apply OutK.next

theorem execPeakWTake_keeps {s0 : State} {a0} (h0 : Keeps s0 a0) :
    OutK s0 (execPeakWTake a0) := by
  unfold execPeakWTake
  repeat' first
    | with_reducible intro _ | with_reducible assumption | with_reducible apply State.emit_keeps
    | with_reducible apply State.takePeakW_keeps | with_reducible exact OptP.of_none | with_reducible apply OptP.of_some
    | with_reducible apply OutK.next

theorem regOvercurrent_keeps {s0 : State} {a0 a1 a2} (h2 : Keeps s0 a2) :
    OptP (fun x0 => Keeps s0 x0) (regOvercurrent a0 a1 a2) := by
  unfold regOvercurrent
  repeat' first
    | with_reducible intro _ | with_reducible assumption | with_reducible apply State.overcurrent_keeps
    | with_reducible exact OptP.of_none | with_reducible apply OptP.of_some | split

theorem execRegOvercurrent_keeps {s0 : State} {a0 a1 a2} (h2 : Keeps s0 a2) :
    OutK s0 (execRegOvercurrent a0 a1 a2) := by
  unfold execRegOvercurrent
  repeat' first
    | with_reducible intro _ | with_reducible assumption | with_reducible apply regOvercurrent_keeps
    | with_reducible apply attempt_keeps | with_reducible exact OptP.of_none | with_reducible apply OptP.of_some
    | with_reducible apply OutK.next

theorem sensorSample_keeps {s0 : State} {a0 a1 a2 a3} (h3 : Keeps s0 a3) :
    OptP (fun x0 => Keeps s0 x0) (sensorSample a0 a1 a2 a3) := by
  unfold sensorSample
  repeat' first
    | with_reducible intro _ | with_reducible assumption | with_reducible apply State.sensed_keeps
    | with_reducible exact OptP.of_none | with_reducible apply OptP.of_some | split

theorem execSensorSample_keeps {s0 : State} {a0 a1 a2 a3} (h3 : Keeps s0 a3) :
    OutK s0 (execSensorSample a0 a1 a2 a3) := by
  unfold execSensorSample
  repeat' first
    | with_reducible intro _ | with_reducible assumption | with_reducible apply sensorSample_keeps
    | with_reducible apply attempt_keeps | with_reducible exact OptP.of_none | with_reducible apply OptP.of_some
    | with_reducible apply OutK.next

theorem thermalClamp_keeps {s0 : State} {a0 a1} (h1 : Keeps s0 a1) :
    OptP (fun x0 => Keeps s0 x0) (thermalClamp a0 a1) := by
  unfold thermalClamp
  repeat' first
    | with_reducible intro _ | with_reducible assumption | with_reducible apply State.clampUnit_keeps
    | with_reducible exact OptP.of_none | with_reducible apply OptP.of_some | split

theorem execThermalClamp_keeps {s0 : State} {a0 a1} (h1 : Keeps s0 a1) :
    OutK s0 (execThermalClamp a0 a1) := by
  unfold execThermalClamp
  repeat' first
    | with_reducible intro _ | with_reducible assumption | with_reducible apply thermalClamp_keeps
    | with_reducible apply attempt_keeps | with_reducible exact OptP.of_none | with_reducible apply OptP.of_some
    | with_reducible apply OutK.next

theorem thermalRelease_keeps {s0 : State} {a0 a1} (h1 : Keeps s0 a1) :
    OptP (fun x0 => Keeps s0 x0) (thermalRelease a0 a1) := by
  unfold thermalRelease
  repeat' first
    | with_reducible intro _ | with_reducible assumption | with_reducible apply State.freeUnit_keeps
    | with_reducible exact OptP.of_none | with_reducible apply OptP.of_some | split

theorem execThermalClampRelease_keeps {s0 : State} {a0 a1} (h1 : Keeps s0 a1) :
    OutK s0 (execThermalClampRelease a0 a1) := by
  unfold execThermalClampRelease
  repeat' first
    | with_reducible intro _ | with_reducible assumption | with_reducible apply thermalRelease_keeps
    | with_reducible apply attempt_keeps | with_reducible exact OptP.of_none | with_reducible apply OptP.of_some
    | with_reducible apply OutK.next

theorem thermalTrip_keeps {s0 : State} {a0 a1} (h1 : Keeps s0 a1) :
    OptP (fun x0 => Keeps s0 x0) (thermalTrip a0 a1) := by
  unfold thermalTrip
  repeat' first
    | with_reducible intro _ | with_reducible assumption | with_reducible apply State.trip_keeps
    | with_reducible exact OptP.of_none | with_reducible apply OptP.of_some | split

theorem execThermalTrip_keeps {s0 : State} {a0 a1} (h1 : Keeps s0 a1) :
    OutK s0 (execThermalTrip a0 a1) := by
  unfold execThermalTrip
  repeat' first
    | with_reducible intro _ | with_reducible assumption | with_reducible apply thermalTrip_keeps
    | with_reducible apply attempt_keeps | with_reducible exact OptP.of_none | with_reducible apply OptP.of_some
    | with_reducible apply OutK.next

end Sys2Proof.Machine
end

