-- ==== Sys2Proof/Laws/KeepsOfLysby.lean ====
section
/-! SUPPORT. What the operations of Lysby keep. -/

namespace Sys2Proof.Machine

theorem Ans.check_keeps {s0 : State} {a0 a1} (h1 : AnsK s0 a1) :
    AnsK s0 (Ans.check a0 a1) := by
  unfold Ans.check
  repeat' first
    | with_reducible intro _ | with_reducible assumption | with_reducible exact OptP.of_none
    | with_reducible apply OptP.of_some | with_reducible apply AnsK.failed | with_reducible apply AnsK.ok
    | with_reducible apply AnsK.pend | with_reducible exact AnsK.rights | with_reducible exact AnsK.refused
    | with_reducible exact AnsK.busy | with_reducible exact AnsK.bad | split
    | with_reducible refine AnsK.getFailed ?_ (by assumption) | with_reducible refine AnsK.getOk ?_ (by assumption)
    | with_reducible refine AnsK.getPend ?_ (by assumption)

theorem State.allIn_keeps {s0 : State} {a0 a1 a2} (h0 : Keeps s0 a0) (h2 : AnsK s0 a2) :
    AnsK s0 (State.allIn a0 a1 a2) := by
  unfold State.allIn
  repeat' first
    | with_reducible intro _ | with_reducible assumption | with_reducible exact OptP.of_none
    | with_reducible apply OptP.of_some | with_reducible apply AnsK.failed | with_reducible apply AnsK.ok
    | with_reducible apply AnsK.pend | with_reducible exact AnsK.rights | with_reducible exact AnsK.refused
    | with_reducible exact AnsK.busy | with_reducible exact AnsK.bad | split
    | with_reducible refine AnsK.getFailed ?_ (by assumption) | with_reducible refine AnsK.getOk ?_ (by assumption)
    | with_reducible refine AnsK.getPend ?_ (by assumption)

theorem State.noteCmd_keeps {s0 : State} {a0 a1 a2 a3 a4 a5} (h0 : Keeps s0 a0) :
    Keeps s0 (State.noteCmd a0 a1 a2 a3 a4 a5) := by
  unfold State.noteCmd
  repeat' first
    | with_reducible intro _ | with_reducible assumption | with_reducible apply State.journalCommand_keeps
    | with_reducible apply State.latch_keeps | with_reducible exact OptP.of_none | with_reducible apply OptP.of_some
    | split

theorem State.pend_keeps {s0 : State} {a0 a1 a2 a3 a4 a5 a6} (h0 : Keeps s0 a0) :
    Keeps s0 (State.pend a0 a1 a2 a3 a4 a5 a6) := by
  unfold State.pend
  repeat' first
    | with_reducible intro _ | with_reducible assumption | with_reducible apply State.putResponse_keeps
    | with_reducible exact OptP.of_none | with_reducible apply OptP.of_some
    | (extract_lets +onlyGivenNames x; first | (have hx : Keeps s0 x := ?_; clear_value x; rotate_left; subst x; rotate_right) | clear_value x | subst x)
    | with_reducible apply Keeps.lit

theorem State.answerCmd_keeps {s0 : State} {a0 a1 a2 a3 a4 a5} (h0 : Keeps s0 a0) (h5 : AnsK s0 a5) :
    Keeps s0 (State.answerCmd a0 a1 a2 a3 a4 a5) := by
  unfold State.answerCmd
  repeat' first
    | with_reducible intro _ | with_reducible assumption | with_reducible apply State.final_keeps
    | with_reducible apply State.noteCmd_keeps | with_reducible apply State.pend_keeps
    | with_reducible apply State.putResponse_keeps | with_reducible exact OptP.of_none | with_reducible apply OptP.of_some
    | with_reducible apply AnsK.failed | with_reducible apply AnsK.ok | with_reducible apply AnsK.pend
    | with_reducible exact AnsK.rights | with_reducible exact AnsK.refused | with_reducible exact AnsK.busy
    | with_reducible exact AnsK.bad
    | (extract_lets +onlyGivenNames x; first | (have hx : Keeps s0 x := ?_; clear_value x; rotate_left; subst x; rotate_right) | (have hx : AnsK s0 x := ?_; clear_value x; rotate_left; subst x; rotate_right) | (have hx : ∀ s, Keeps s0 s → Keeps s0 (x s) := ?_; clear_value x; rotate_left; subst x; (try dsimp -zeta only); rotate_right) | (have hx : ∀ s k, Keeps s0 s → Keeps s0 (x s k) := ?_; clear_value x; rotate_left; subst x; (try dsimp -zeta only); rotate_right) | (have hx : ∀ s k l, Keeps s0 s → Keeps s0 (x s k l) := ?_; clear_value x; rotate_left; subst x; (try dsimp -zeta only); rotate_right) | (have hx : ∀ k, Keeps s0 (x k) := ?_; clear_value x; rotate_left; subst x; (try dsimp -zeta only); rotate_right) | (have hx : ∀ k l, Keeps s0 (x k l) := ?_; clear_value x; rotate_left; subst x; (try dsimp -zeta only); rotate_right) | clear_value x | subst x)
    | split | with_reducible refine AnsK.getFailed ?_ (by assumption) | with_reducible refine AnsK.getOk ?_ (by assumption)
    | with_reducible refine AnsK.getPend ?_ (by assumption) | with_reducible apply_assumption

theorem State.inDev_keeps {s0 : State} {a0 a1 a2} (h0 : Keeps s0 a0) (h2 : AnsK s0 a2) :
    AnsK s0 (State.inDev a0 a1 a2) := by
  unfold State.inDev
  repeat' first
    | with_reducible intro _ | with_reducible assumption | with_reducible exact OptP.of_none
    | with_reducible apply OptP.of_some | with_reducible apply AnsK.failed | with_reducible apply AnsK.ok
    | with_reducible apply AnsK.pend | with_reducible exact AnsK.rights | with_reducible exact AnsK.refused
    | with_reducible exact AnsK.busy | with_reducible exact AnsK.bad | split
    | with_reducible refine AnsK.getFailed ?_ (by assumption) | with_reducible refine AnsK.getOk ?_ (by assumption)
    | with_reducible refine AnsK.getPend ?_ (by assumption)

theorem State.notReplay_keeps {s0 : State} {a0 a1 a2} (h0 : Keeps s0 a0) (h2 : AnsK s0 a2) :
    AnsK s0 (State.notReplay a0 a1 a2) := by
  unfold State.notReplay
  repeat' first
    | with_reducible intro _ | with_reducible assumption | with_reducible exact OptP.of_none
    | with_reducible apply OptP.of_some | with_reducible apply AnsK.failed | with_reducible apply AnsK.ok
    | with_reducible apply AnsK.pend | with_reducible exact AnsK.rights | with_reducible exact AnsK.refused
    | with_reducible exact AnsK.busy | with_reducible exact AnsK.bad | split
    | with_reducible refine AnsK.getFailed ?_ (by assumption) | with_reducible refine AnsK.getOk ?_ (by assumption)
    | with_reducible refine AnsK.getPend ?_ (by assumption)

theorem State.partIn_keeps {s0 : State} {a0 a1 a2 a3} (h0 : Keeps s0 a0) (h3 : AnsK s0 a3) :
    AnsK s0 (State.partIn a0 a1 a2 a3) := by
  unfold State.partIn
  repeat' first
    | with_reducible intro _ | with_reducible assumption | with_reducible exact OptP.of_none
    | with_reducible apply OptP.of_some | with_reducible apply AnsK.failed | with_reducible apply AnsK.ok
    | with_reducible apply AnsK.pend | with_reducible exact AnsK.rights | with_reducible exact AnsK.refused
    | with_reducible exact AnsK.busy | with_reducible exact AnsK.bad | split
    | with_reducible refine AnsK.getFailed ?_ (by assumption) | with_reducible refine AnsK.getOk ?_ (by assumption)
    | with_reducible refine AnsK.getPend ?_ (by assumption)

theorem State.wakeFor_keeps {s0 : State} {a0 a1 a2} (h0 : Keeps s0 a0) :
    Keeps s0 (State.wakeFor a0 a1 a2) := by
  unfold State.wakeFor
  repeat' first
    | with_reducible intro _ | with_reducible assumption | with_reducible apply State.endPackageSleep_keeps
    | with_reducible exact OptP.of_none | with_reducible apply OptP.of_some | split

theorem State.worked_keeps {s0 : State} {a0 a1} (h0 : Keeps s0 a0) :
    Keeps s0 (State.worked a0 a1) := by
  unfold State.worked
  repeat' first
    | with_reducible intro _ | with_reducible assumption | with_reducible exact OptP.of_none
    | with_reducible apply OptP.of_some
    | (extract_lets +onlyGivenNames x; first | (have hx : Keeps s0 x := ?_; clear_value x; rotate_left; subst x; rotate_right) | clear_value x | subst x)
    | split | with_reducible apply Keeps.lit

theorem State.runCmd_keeps {s0 : State} {a0 a1 a2 a3 a4 a5} (h0 : Keeps s0 a0) (h5 : (∀ v0, Keeps s0 v0 → (∀ v1, AnsK s0 ((a5 v0) v1)))) :
    Keeps s0 (State.runCmd a0 a1 a2 a3 a4 a5) := by
  unfold State.runCmd
  repeat' first
    | with_reducible intro _ | with_reducible assumption | with_reducible apply h5
    | with_reducible apply State.answerCmd_keeps | with_reducible apply State.wakeFor_keeps
    | with_reducible apply State.worked_keeps | with_reducible exact OptP.of_none | with_reducible apply OptP.of_some
    | with_reducible apply AnsK.failed | with_reducible apply AnsK.ok | with_reducible apply AnsK.pend
    | with_reducible exact AnsK.rights | with_reducible exact AnsK.refused | with_reducible exact AnsK.busy
    | with_reducible exact AnsK.bad
    | (extract_lets +onlyGivenNames x; first | (have hx : Keeps s0 x := ?_; clear_value x; rotate_left; subst x; rotate_right) | (have hx : AnsK s0 x := ?_; clear_value x; rotate_left; subst x; rotate_right) | clear_value x | subst x)
    | split | with_reducible refine AnsK.getFailed ?_ (by assumption) | with_reducible refine AnsK.getOk ?_ (by assumption)
    | with_reducible refine AnsK.getPend ?_ (by assumption)

theorem State.unlessBusy_keeps {s0 : State} {a0 a1 a2 a3} (h0 : Keeps s0 a0) (h3 : AnsK s0 a3) :
    AnsK s0 (State.unlessBusy a0 a1 a2 a3) := by
  unfold State.unlessBusy
  repeat' first
    | with_reducible intro _ | with_reducible assumption | with_reducible exact OptP.of_none
    | with_reducible apply OptP.of_some | with_reducible apply AnsK.failed | with_reducible apply AnsK.ok
    | with_reducible apply AnsK.pend | with_reducible exact AnsK.rights | with_reducible exact AnsK.refused
    | with_reducible exact AnsK.busy | with_reducible exact AnsK.bad | split
    | with_reducible refine AnsK.getFailed ?_ (by assumption) | with_reducible refine AnsK.getOk ?_ (by assumption)
    | with_reducible refine AnsK.getPend ?_ (by assumption)

theorem lysby_keeps {s0 : State} {a0 a1 a2 a3 a4} (h3 : (∀ v0, Keeps s0 v0 → (∀ v1, AnsK s0 ((a3 v0) v1)))) (h4 : Keeps s0 a4) :
    OptP (fun x0 => Keeps s0 x0) (lysby a0 a1 a2 a3 a4) := by
  unfold lysby
  repeat' first
    | with_reducible intro _ | with_reducible assumption | with_reducible apply h3
    | with_reducible apply State.runCmd_keeps | with_reducible apply State.takeHead_keeps
    | with_reducible exact OptP.of_none | with_reducible apply OptP.of_some | with_reducible apply AnsK.failed
    | with_reducible apply AnsK.ok | with_reducible apply AnsK.pend | with_reducible exact AnsK.rights
    | with_reducible exact AnsK.refused | with_reducible exact AnsK.busy | with_reducible exact AnsK.bad
    | (extract_lets +onlyGivenNames x; first | (have hx : Keeps s0 x := ?_; clear_value x; rotate_left; subst x; rotate_right) | (have hx : OptP (fun y => Keeps s0 y) x := ?_; clear_value x; rotate_left; subst x; rotate_right) | (have hx : AnsK s0 x := ?_; clear_value x; rotate_left; subst x; rotate_right) | clear_value x | subst x)
    | split | with_reducible refine AnsK.getFailed ?_ (by assumption) | with_reducible refine AnsK.getOk ?_ (by assumption)
    | with_reducible refine AnsK.getPend ?_ (by assumption)

end Sys2Proof.Machine
end

