-- ==== Sys2Proof/Laws/KeepsOfCut.lean ====
section
/-! SUPPORT. What the operations of Cut keep. -/

namespace Sys2Proof.Machine

theorem State.askHalt_keeps {s0 : State} {a0 a1} (h0 : Keeps s0 a0) :
    Keeps s0 (State.askHalt a0 a1) := by
  unfold State.askHalt
  repeat' first
    | with_reducible intro _ | with_reducible assumption | with_reducible apply State.setStream_keeps
    | with_reducible exact OptP.of_none | with_reducible apply OptP.of_some | with_reducible apply Keeps.foldl
    | with_reducible apply Keeps.foldl1 | with_reducible apply Keeps.foldl2
    | (extract_lets +onlyGivenNames x; first | (have hx : Keeps s0 x := ?_; clear_value x; rotate_left; subst x; rotate_right) | clear_value x | subst x)
    | split

theorem State.cancelStops_keeps {s0 : State} {a0 a1} (h0 : Keeps s0 a0) :
    Keeps s0 (State.cancelStops a0 a1) := by
  unfold State.cancelStops
  repeat' first
    | with_reducible intro _ | with_reducible assumption | with_reducible apply State.finish_keeps
    | with_reducible apply State.setPart_keeps | with_reducible exact OptP.of_none | with_reducible apply OptP.of_some
    | with_reducible apply Keeps.foldl | with_reducible apply Keeps.foldl1 | with_reducible apply Keeps.foldl2
    | (extract_lets +onlyGivenNames x; first | (have hx : Keeps s0 x := ?_; clear_value x; rotate_left; subst x; rotate_right) | clear_value x | subst x)

theorem State.captureFrame_keeps {s0 : State} {a0 a1 a2} (h0 : Keeps s0 a0) :
    Keeps s0 (State.captureFrame a0 a1 a2) := by
  unfold State.captureFrame
  repeat' first
    | with_reducible intro _ | with_reducible assumption | with_reducible apply State.bumpCfg_keeps
    | with_reducible apply State.setCfgW_keeps | with_reducible apply State.takeArrived_keeps
    | with_reducible exact OptP.of_none | with_reducible apply OptP.of_some | with_reducible apply Keeps.foldl
    | with_reducible apply Keeps.foldl1 | with_reducible apply Keeps.foldl2
    | (extract_lets +onlyGivenNames x; first | (have hx : Keeps s0 x := ?_; clear_value x; rotate_left; subst x; rotate_right) | clear_value x | subst x)
    | split | with_reducible apply Keeps.lit

theorem State.clearCaptures_keeps {s0 : State} {a0} (h0 : Keeps s0 a0) :
    Keeps s0 (State.clearCaptures a0) := by
  unfold State.clearCaptures
  repeat' first
    | with_reducible intro _ | with_reducible assumption | with_reducible apply State.setCfgW_keeps
    | with_reducible exact OptP.of_none | with_reducible apply OptP.of_some | with_reducible apply Keeps.foldl
    | with_reducible apply Keeps.foldl1 | with_reducible apply Keeps.foldl2

theorem State.deferStreams_keeps {s0 : State} {a0 a1 a2} (h0 : Keeps s0 a0) :
    Keeps s0 (State.deferStreams a0 a1 a2) := by
  unfold State.deferStreams
  repeat' first
    | with_reducible intro _ | with_reducible assumption | with_reducible apply State.setStream_keeps
    | with_reducible exact OptP.of_none | with_reducible apply OptP.of_some | with_reducible apply Keeps.foldl
    | with_reducible apply Keeps.foldl1 | with_reducible apply Keeps.foldl2
    | (extract_lets +onlyGivenNames x; first | (have hx : Keeps s0 x := ?_; clear_value x; rotate_left; subst x; rotate_right) | clear_value x | subst x)
    | split

theorem State.takeWindow_keeps {s0 : State} {a0 a1} (h0 : Keeps s0 a0) :
    Keeps s0 (State.takeWindow a0 a1) := by
  unfold State.takeWindow
  repeat' first
    | with_reducible intro _ | with_reducible assumption | with_reducible apply State.openWindow_keeps
    | with_reducible apply launchCount_keeps | with_reducible exact OptP.of_none | with_reducible apply OptP.of_some
    | with_reducible apply OptP.getD
    | (extract_lets +onlyGivenNames x; first | (have hx : Keeps s0 x := ?_; clear_value x; rotate_left; subst x; rotate_right) | (have hx : OptP (fun y => Keeps s0 y) x := ?_; clear_value x; rotate_left; subst x; rotate_right) | clear_value x | subst x)
    | split | with_reducible refine OptP.get ?_ (by assumption) | with_reducible exact OptP.get (by assumption) rfl

theorem State.cutPart_keeps {s0 : State} {a0 a1 a2} (h0 : Keeps s0 a0) :
    Keeps s0 (State.cutPart a0 a1 a2) := by
  unfold State.cutPart
  repeat' first
    | with_reducible intro _ | with_reducible assumption | with_reducible apply State.deferStreams_keeps
    | with_reducible apply State.endStops_keeps | with_reducible apply State.notice_keeps
    | with_reducible apply State.setPart_keeps | with_reducible apply State.takeWindow_keeps
    | with_reducible exact OptP.of_none | with_reducible apply OptP.of_some
    | (extract_lets +onlyGivenNames x; first | (have hx : Keeps s0 x := ?_; clear_value x; rotate_left; subst x; rotate_right) | clear_value x | subst x)
    | split

theorem State.noteDefer_keeps {s0 : State} {a0 a1 a2 a3} (h0 : Keeps s0 a0) :
    Keeps s0 (State.noteDefer a0 a1 a2 a3) := by
  unfold State.noteDefer
  repeat' first
    | with_reducible intro _ | with_reducible assumption | with_reducible apply State.setCfgW_keeps
    | with_reducible exact OptP.of_none | with_reducible apply OptP.of_some
    | (extract_lets +onlyGivenNames x; first | (have hx : Keeps s0 x := ?_; clear_value x; rotate_left; subst x; rotate_right) | clear_value x | subst x)
    | split

theorem State.haltStream_keeps {s0 : State} {a0 a1 a2 a3} (h0 : Keeps s0 a0) :
    Keeps s0 (State.haltStream a0 a1 a2 a3) := by
  unfold State.haltStream
  repeat' first
    | with_reducible intro _ | with_reducible assumption | with_reducible apply State.noteDefer_keeps
    | with_reducible apply State.setStream_keeps | with_reducible exact OptP.of_none | with_reducible apply OptP.of_some
    | (extract_lets +onlyGivenNames x; first | (have hx : Keeps s0 x := ?_; clear_value x; rotate_left; subst x; rotate_right) | clear_value x | subst x)
    | split

theorem State.runHalted_keeps {s0 : State} {a0 a1} (h0 : Keeps s0 a0) :
    Keeps s0 (State.runHalted a0 a1) := by
  unfold State.runHalted
  repeat' first
    | with_reducible intro _ | with_reducible assumption | with_reducible apply State.setStream_keeps
    | with_reducible exact OptP.of_none | with_reducible apply OptP.of_some | with_reducible apply Keeps.foldl
    | with_reducible apply Keeps.foldl1 | with_reducible apply Keeps.foldl2
    | (extract_lets +onlyGivenNames x; first | (have hx : Keeps s0 x := ?_; clear_value x; rotate_left; subst x; rotate_right) | clear_value x | subst x)
    | split

theorem State.setStop_keeps {s0 : State} {a0 a1 a2} (h0 : Keeps s0 a0) :
    Keeps s0 (State.setStop a0 a1 a2) := by
  unfold State.setStop
  repeat' first
    | with_reducible intro _ | with_reducible assumption | with_reducible apply State.clearCaptures_keeps
    | with_reducible apply State.endStops_keeps | with_reducible apply State.setPart_keeps
    | with_reducible exact OptP.of_none | with_reducible apply OptP.of_some | with_reducible apply Keeps.foldl
    | with_reducible apply Keeps.foldl1 | with_reducible apply Keeps.foldl2
    | (extract_lets +onlyGivenNames x; first | (have hx : Keeps s0 x := ?_; clear_value x; rotate_left; subst x; rotate_right) | clear_value x | subst x)

theorem State.stopLegal_keeps {s0 : State} {a0 a1 a2} (h0 : Keeps s0 a0) (h2 : AnsK s0 a2) :
    AnsK s0 (State.stopLegal a0 a1 a2) := by
  unfold State.stopLegal
  repeat' first
    | with_reducible intro _ | with_reducible assumption | with_reducible apply State.inDev_keeps
    | with_reducible apply State.partIn_keeps | with_reducible exact OptP.of_none | with_reducible apply OptP.of_some
    | with_reducible apply AnsK.failed | with_reducible apply AnsK.ok | with_reducible apply AnsK.pend
    | with_reducible exact AnsK.rights | with_reducible exact AnsK.refused | with_reducible exact AnsK.busy
    | with_reducible exact AnsK.bad | split | with_reducible refine AnsK.getFailed ?_ (by assumption)
    | with_reducible refine AnsK.getOk ?_ (by assumption) | with_reducible refine AnsK.getPend ?_ (by assumption)

theorem applyFrame_keeps {s0 : State} {a0 a1 a2} (h2 : Keeps s0 a2) :
    OptP (fun x0 => Keeps s0 x0) (applyFrame a0 a1 a2) := by
  unfold applyFrame
  repeat' first
    | with_reducible intro _ | with_reducible assumption | with_reducible apply atomicDataIn_keeps
    | with_reducible apply atomicIn_keeps | with_reducible apply evictIn_keeps | with_reducible apply fillDataIn_keeps
    | with_reducible apply fillIn_keeps | with_reducible apply invalAckIn_keeps | with_reducible apply invalIn_keeps
    | with_reducible apply loadDataIn_keeps | with_reducible apply loadIn_keeps | with_reducible apply resyncIn_keeps
    | with_reducible apply storeAckIn_keeps | with_reducible apply storeIn_keeps | with_reducible exact OptP.of_none
    | with_reducible apply OptP.of_some | split | with_reducible refine OptP.get ?_ (by assumption)
    | with_reducible exact OptP.get (by assumption) rfl

theorem State.thaw_keeps {s0 : State} {a0 a1} (h0 : Keeps s0 a0) :
    Keeps s0 (State.thaw a0 a1) := by
  unfold State.thaw
  repeat' first
    | with_reducible intro _ | with_reducible assumption | with_reducible apply State.finish_keeps
    | with_reducible apply State.setPart_keeps | with_reducible apply applyFrame_keeps | with_reducible exact OptP.of_none
    | with_reducible apply OptP.of_some | with_reducible apply OptP.getD | with_reducible apply Keeps.foldl
    | with_reducible apply Keeps.foldl1 | with_reducible apply Keeps.foldl2
    | (extract_lets +onlyGivenNames x; first | (have hx : Keeps s0 x := ?_; clear_value x; rotate_left; subst x; rotate_right) | (have hx : OptP (fun y => Keeps s0 y) x := ?_; clear_value x; rotate_left; subst x; rotate_right) | clear_value x | subst x)
    | split | with_reducible refine OptP.get ?_ (by assumption) | with_reducible exact OptP.get (by assumption) rfl
    | with_reducible apply Keeps.lit

theorem cancelBody_keeps {s0 : State} {a0 a1} (h0 : Keeps s0 a0) :
    AnsK s0 (cancelBody a0 a1) := by
  unfold cancelBody
  repeat' first
    | with_reducible intro _ | with_reducible assumption | with_reducible apply State.cancelStops_keeps
    | with_reducible exact OptP.of_none | with_reducible apply OptP.of_some | with_reducible apply AnsK.failed
    | with_reducible apply AnsK.ok | with_reducible apply AnsK.pend | with_reducible exact AnsK.rights
    | with_reducible exact AnsK.refused | with_reducible exact AnsK.busy | with_reducible exact AnsK.bad | split

theorem completeHalt_keeps {s0 : State} {a0 a1} (h1 : Keeps s0 a1) :
    OptP (fun x0 => Keeps s0 x0) (completeHalt a0 a1) := by
  unfold completeHalt
  repeat' first
    | with_reducible intro _ | with_reducible assumption | with_reducible apply State.finish_keeps
    | with_reducible exact OptP.of_none | with_reducible apply OptP.of_some
    | (extract_lets +onlyGivenNames x; first | (have hx : Keeps s0 x := ?_; clear_value x; rotate_left; subst x; rotate_right) | (have hx : OptP (fun y => Keeps s0 y) x := ?_; clear_value x; rotate_left; subst x; rotate_right) | clear_value x | subst x)
    | split

theorem cutResume_keeps {s0 : State} {a0 a1} (h1 : Keeps s0 a1) :
    OptP (fun x0 => Keeps s0 x0) (cutResume a0 a1) := by
  unfold cutResume
  repeat' first
    | with_reducible intro _ | with_reducible assumption | with_reducible apply State.thaw_keeps
    | with_reducible exact OptP.of_none | with_reducible apply OptP.of_some
    | (extract_lets +onlyGivenNames x; first | (have hx : Keeps s0 x := ?_; clear_value x; rotate_left; subst x; rotate_right) | (have hx : OptP (fun y => Keeps s0 y) x := ?_; clear_value x; rotate_left; subst x; rotate_right) | clear_value x | subst x)
    | split

theorem cut__keeps {s0 : State} {a0 a1} (h1 : Keeps s0 a1) :
    OptP (fun x0 => Keeps s0 x0) (cut_ a0 a1) := by
  unfold cut_
  repeat' first
    | with_reducible intro _ | with_reducible assumption | with_reducible apply State.cutPart_keeps
    | with_reducible exact OptP.of_none | with_reducible apply OptP.of_some
    | (extract_lets +onlyGivenNames x; first | (have hx : Keeps s0 x := ?_; clear_value x; rotate_left; subst x; rotate_right) | (have hx : OptP (fun y => Keeps s0 y) x := ?_; clear_value x; rotate_left; subst x; rotate_right) | clear_value x | subst x)
    | split

theorem haltBody_keeps {s0 : State} {a0 a1} (h0 : Keeps s0 a0) :
    AnsK s0 (haltBody a0 a1) := by
  unfold haltBody
  repeat' first
    | with_reducible intro _ | with_reducible assumption | with_reducible apply Ans.check_keeps
    | with_reducible apply State.askHalt_keeps | with_reducible apply State.partIn_keeps
    | with_reducible apply State.unlessBusy_keeps | with_reducible exact OptP.of_none | with_reducible apply OptP.of_some
    | with_reducible apply AnsK.failed | with_reducible apply AnsK.ok | with_reducible apply AnsK.pend
    | with_reducible exact AnsK.rights | with_reducible exact AnsK.refused | with_reducible exact AnsK.busy
    | with_reducible exact AnsK.bad
    | (extract_lets +onlyGivenNames x; first | (have hx : Keeps s0 x := ?_; clear_value x; rotate_left; subst x; rotate_right) | (have hx : AnsK s0 x := ?_; clear_value x; rotate_left; subst x; rotate_right) | clear_value x | subst x)

theorem debugHalt_keeps {s0 : State} {a0 a1 a2} (h2 : Keeps s0 a2) :
    OptP (fun x0 => Keeps s0 x0) (debugHalt a0 a1 a2) := by
  unfold debugHalt
  repeat' first
    | with_reducible intro _ | with_reducible assumption | with_reducible apply haltBody_keeps
    | with_reducible apply lysby_keeps | with_reducible exact OptP.of_none | with_reducible apply OptP.of_some
    | with_reducible apply AnsK.failed | with_reducible apply AnsK.ok | with_reducible apply AnsK.pend
    | with_reducible exact AnsK.rights | with_reducible exact AnsK.refused | with_reducible exact AnsK.busy
    | with_reducible exact AnsK.bad

theorem runBody_keeps {s0 : State} {a0 a1} (h0 : Keeps s0 a0) :
    AnsK s0 (runBody a0 a1) := by
  unfold runBody
  repeat' first
    | with_reducible intro _ | with_reducible assumption | with_reducible apply Ans.check_keeps
    | with_reducible apply State.partIn_keeps | with_reducible apply State.runHalted_keeps
    | with_reducible apply State.unlessBusy_keeps | with_reducible exact OptP.of_none | with_reducible apply OptP.of_some
    | with_reducible apply AnsK.failed | with_reducible apply AnsK.ok | with_reducible apply AnsK.pend
    | with_reducible exact AnsK.rights | with_reducible exact AnsK.refused | with_reducible exact AnsK.busy
    | with_reducible exact AnsK.bad
    | (extract_lets +onlyGivenNames x; first | (have hx : Keeps s0 x := ?_; clear_value x; rotate_left; subst x; rotate_right) | (have hx : AnsK s0 x := ?_; clear_value x; rotate_left; subst x; rotate_right) | clear_value x | subst x)
    | split | with_reducible refine AnsK.getFailed ?_ (by assumption) | with_reducible refine AnsK.getOk ?_ (by assumption)
    | with_reducible refine AnsK.getPend ?_ (by assumption)

theorem debugRun_keeps {s0 : State} {a0 a1 a2} (h2 : Keeps s0 a2) :
    OptP (fun x0 => Keeps s0 x0) (debugRun a0 a1 a2) := by
  unfold debugRun
  repeat' first
    | with_reducible intro _ | with_reducible assumption | with_reducible apply lysby_keeps
    | with_reducible apply runBody_keeps | with_reducible exact OptP.of_none | with_reducible apply OptP.of_some
    | with_reducible apply AnsK.failed | with_reducible apply AnsK.ok | with_reducible apply AnsK.pend
    | with_reducible exact AnsK.rights | with_reducible exact AnsK.refused | with_reducible exact AnsK.busy
    | with_reducible exact AnsK.bad

theorem engineHalt_keeps {s0 : State} {a0 a1} (h1 : Keeps s0 a1) :
    OptP (fun x0 => Keeps s0 x0) (engineHalt a0 a1) := by
  unfold engineHalt
  repeat' first
    | with_reducible intro _ | with_reducible assumption | with_reducible apply State.haltStream_keeps
    | with_reducible exact OptP.of_none | with_reducible apply OptP.of_some | split

theorem execCut_keeps {s0 : State} {a0 a1} (h1 : Keeps s0 a1) :
    OutK s0 (execCut a0 a1) := by
  unfold execCut
  repeat' first
    | with_reducible intro _ | with_reducible assumption | with_reducible apply cut__keeps
    | with_reducible apply attempt_keeps | with_reducible exact OptP.of_none | with_reducible apply OptP.of_some
    | with_reducible apply OutK.next

theorem execCutResume_keeps {s0 : State} {a0 a1} (h1 : Keeps s0 a1) :
    OutK s0 (execCutResume a0 a1) := by
  unfold execCutResume
  repeat' first
    | with_reducible intro _ | with_reducible assumption | with_reducible apply cutResume_keeps
    | with_reducible apply attempt_keeps | with_reducible exact OptP.of_none | with_reducible apply OptP.of_some
    | with_reducible apply OutK.next

theorem execDebugHalt_keeps {s0 : State} {a0 a1 a2} (h2 : Keeps s0 a2) :
    OutK s0 (execDebugHalt a0 a1 a2) := by
  unfold execDebugHalt
  repeat' first
    | with_reducible intro _ | with_reducible assumption | with_reducible apply debugHalt_keeps
    | with_reducible apply attempt_keeps | with_reducible exact OptP.of_none | with_reducible apply OptP.of_some
    | with_reducible apply OutK.next

theorem execDebugRun_keeps {s0 : State} {a0 a1 a2} (h2 : Keeps s0 a2) :
    OutK s0 (execDebugRun a0 a1 a2) := by
  unfold execDebugRun
  repeat' first
    | with_reducible intro _ | with_reducible assumption | with_reducible apply debugRun_keeps
    | with_reducible apply attempt_keeps | with_reducible exact OptP.of_none | with_reducible apply OptP.of_some
    | with_reducible apply OutK.next

theorem execEngineHalt_keeps {s0 : State} {a0 a1} (h1 : Keeps s0 a1) :
    OutK s0 (execEngineHalt a0 a1) := by
  unfold execEngineHalt
  repeat' first
    | with_reducible intro _ | with_reducible assumption | with_reducible apply engineHalt_keeps
    | with_reducible apply attempt_keeps | with_reducible exact OptP.of_none | with_reducible apply OptP.of_some
    | with_reducible apply OutK.next

theorem frameCapture_keeps {s0 : State} {a0 a1 a2} (h2 : Keeps s0 a2) :
    OptP (fun x0 => Keeps s0 x0) (frameCapture a0 a1 a2) := by
  unfold frameCapture
  repeat' first
    | with_reducible intro _ | with_reducible assumption | with_reducible apply State.captureFrame_keeps
    | with_reducible exact OptP.of_none | with_reducible apply OptP.of_some | split

theorem execFrameCapture_keeps {s0 : State} {a0 a1 a2} (h2 : Keeps s0 a2) :
    OutK s0 (execFrameCapture a0 a1 a2) := by
  unfold execFrameCapture
  repeat' first
    | with_reducible intro _ | with_reducible assumption | with_reducible apply frameCapture_keeps
    | with_reducible apply attempt_keeps | with_reducible exact OptP.of_none | with_reducible apply OptP.of_some
    | with_reducible apply OutK.next

theorem stopAtBody_keeps {s0 : State} {a0 a1} (h0 : Keeps s0 a0) :
    AnsK s0 (stopAtBody a0 a1) := by
  unfold stopAtBody
  repeat' first
    | with_reducible intro _ | with_reducible assumption | with_reducible apply Ans.check_keeps
    | with_reducible apply State.setStop_keeps | with_reducible apply State.stopLegal_keeps
    | with_reducible exact OptP.of_none | with_reducible apply OptP.of_some | with_reducible apply AnsK.failed
    | with_reducible apply AnsK.ok | with_reducible apply AnsK.pend | with_reducible exact AnsK.rights
    | with_reducible exact AnsK.refused | with_reducible exact AnsK.busy | with_reducible exact AnsK.bad

theorem stopAt_keeps {s0 : State} {a0 a1 a2} (h2 : Keeps s0 a2) :
    OptP (fun x0 => Keeps s0 x0) (stopAt a0 a1 a2) := by
  unfold stopAt
  repeat' first
    | with_reducible intro _ | with_reducible assumption | with_reducible apply lysby_keeps
    | with_reducible apply stopAtBody_keeps | with_reducible exact OptP.of_none | with_reducible apply OptP.of_some
    | with_reducible apply AnsK.failed | with_reducible apply AnsK.ok | with_reducible apply AnsK.pend
    | with_reducible exact AnsK.rights | with_reducible exact AnsK.refused | with_reducible exact AnsK.busy
    | with_reducible exact AnsK.bad

theorem execStopAt_keeps {s0 : State} {a0 a1 a2} (h2 : Keeps s0 a2) :
    OutK s0 (execStopAt a0 a1 a2) := by
  unfold execStopAt
  repeat' first
    | with_reducible intro _ | with_reducible assumption | with_reducible apply stopAt_keeps
    | with_reducible apply attempt_keeps | with_reducible exact OptP.of_none | with_reducible apply OptP.of_some
    | with_reducible apply OutK.next

theorem stopCancel_keeps {s0 : State} {a0 a1 a2} (h2 : Keeps s0 a2) :
    OptP (fun x0 => Keeps s0 x0) (stopCancel a0 a1 a2) := by
  unfold stopCancel
  repeat' first
    | with_reducible intro _ | with_reducible assumption | with_reducible apply cancelBody_keeps
    | with_reducible apply lysby_keeps | with_reducible exact OptP.of_none | with_reducible apply OptP.of_some
    | with_reducible apply AnsK.failed | with_reducible apply AnsK.ok | with_reducible apply AnsK.pend
    | with_reducible exact AnsK.rights | with_reducible exact AnsK.refused | with_reducible exact AnsK.busy
    | with_reducible exact AnsK.bad

theorem execStopCancel_keeps {s0 : State} {a0 a1 a2} (h2 : Keeps s0 a2) :
    OutK s0 (execStopCancel a0 a1 a2) := by
  unfold execStopCancel
  repeat' first
    | with_reducible intro _ | with_reducible assumption | with_reducible apply stopCancel_keeps
    | with_reducible apply attempt_keeps | with_reducible exact OptP.of_none | with_reducible apply OptP.of_some
    | with_reducible apply OutK.next

end Sys2Proof.Machine
end

