-- ==== Sys2Proof/Laws/KeepsOfTeardown.lean ====
section
/-! SUPPORT. What the operations of Teardown keep. -/

namespace Sys2Proof.Machine

theorem State.tearContexts_keeps {s0 : State} {a0 a1} (h0 : Keeps s0 a0) :
    Keeps s0 (State.tearContexts a0 a1) := by
  unfold State.tearContexts
  repeat' first
    | with_reducible intro _ | with_reducible assumption | with_reducible apply State.setCfgF_keeps
    | with_reducible exact OptP.of_none | with_reducible apply OptP.of_some | with_reducible apply Keeps.foldl
    | with_reducible apply Keeps.foldl1 | with_reducible apply Keeps.foldl2

theorem State.tearReq_keeps {s0 : State} {a0 a1} (h0 : Keeps s0 a0) :
    Keeps s0 (State.tearReq a0 a1) := by
  unfold State.tearReq
  repeat' first
    | with_reducible intro _ | with_reducible assumption | with_reducible apply State.fault_keeps
    | with_reducible apply State.setFc_keeps | with_reducible exact OptP.of_none | with_reducible apply OptP.of_some
    | with_reducible apply Keeps.foldl | with_reducible apply Keeps.foldl1 | with_reducible apply Keeps.foldl2
    | (extract_lets +onlyGivenNames x; first | (have hx : Keeps s0 x := ?_; clear_value x; rotate_left; subst x; rotate_right) | clear_value x | subst x)
    | split | with_reducible apply Keeps.lit

theorem State.tearRequests_keeps {s0 : State} {a0 a1} (h0 : Keeps s0 a0) :
    Keeps s0 (State.tearRequests a0 a1).1 := by
  unfold State.tearRequests
  repeat' first
    | with_reducible intro _ | with_reducible assumption | with_reducible apply State.cFail_keeps
    | with_reducible apply State.setCfgF_keeps | with_reducible apply State.setReqs_keeps
    | with_reducible apply State.tearReq_keeps | with_reducible apply State.xEnd_keeps | with_reducible exact OptP.of_none
    | with_reducible apply OptP.of_some | with_reducible apply Keeps.foldl | with_reducible apply Keeps.foldl1
    | with_reducible apply Keeps.foldl2
    | (extract_lets +onlyGivenNames x; first | (have hx : Keeps s0 x := ?_; clear_value x; rotate_left; subst x; rotate_right) | (have hx : Keeps s0 x.1 := ?_; clear_value x; rotate_left; subst x; rotate_right) | clear_value x | subst x)
    | split

theorem State.endPartCmds_keeps {s0 : State} {a0 a1 a2 a3} (h0 : Keeps s0 a0) :
    Keeps s0 (State.endPartCmds a0 a1 a2 a3) := by
  unfold State.endPartCmds
  repeat' first
    | with_reducible intro _ | with_reducible assumption | with_reducible apply State.endCmds_keeps
    | with_reducible exact OptP.of_none | with_reducible apply OptP.of_some

theorem State.sendTeardown_keeps {s0 : State} {a0 a1} (h0 : Keeps s0 a0) :
    Keeps s0 (State.sendTeardown a0 a1) := by
  unfold State.sendTeardown
  repeat' first
    | with_reducible intro _ | with_reducible assumption | with_reducible apply State.sendFrame_keeps
    | with_reducible exact OptP.of_none | with_reducible apply OptP.of_some | with_reducible apply Keeps.foldl
    | with_reducible apply Keeps.foldl1 | with_reducible apply Keeps.foldl2
    | (extract_lets +onlyGivenNames x; first | (have hx : Keeps s0 x := ?_; clear_value x; rotate_left; subst x; rotate_right) | clear_value x | subst x)

theorem State.tearDown_keeps {s0 : State} {a0 a1} (h0 : Keeps s0 a0) :
    Keeps s0 (State.tearDown a0 a1).1 := by
  unfold State.tearDown
  repeat' first
    | with_reducible intro _ | with_reducible assumption | with_reducible apply State.endStops_keeps
    | with_reducible apply State.finish_keeps | with_reducible apply State.hold_keeps
    | with_reducible apply State.sendTeardown_keeps | with_reducible apply State.setPart_keeps
    | with_reducible apply State.takeEvent_keeps | with_reducible apply State.tearContexts_keeps
    | with_reducible apply State.tearRequests_keeps | with_reducible exact OptP.of_none | with_reducible apply OptP.of_some
    | with_reducible apply Keeps.foldl | with_reducible apply Keeps.foldl1 | with_reducible apply Keeps.foldl2
    | (extract_lets +onlyGivenNames x; first | (have hx : Keeps s0 x := ?_; clear_value x; rotate_left; subst x; rotate_right) | (have hx : Keeps s0 x.1 := ?_; clear_value x; rotate_left; subst x; rotate_right) | clear_value x | subst x)
    | split | with_reducible refine pair1 ?_ (by assumption)

theorem teardownIn_keeps {s0 : State} {a0 a1 a2} (h2 : Keeps s0 a2) :
    OptP (fun x0 => Keeps s0 x0) (teardownIn a0 a1 a2) := by
  unfold teardownIn
  repeat' first
    | with_reducible intro _ | with_reducible assumption | with_reducible apply State.dropFrame_keeps
    | with_reducible apply State.letIn_keeps | with_reducible apply State.tearDown_keeps
    | with_reducible exact OptP.of_none | with_reducible apply OptP.of_some
    | (extract_lets +onlyGivenNames x; first | (have hx : Keeps s0 x := ?_; clear_value x; rotate_left; subst x; rotate_right) | (have hx : Keeps s0 x.1 := ?_; clear_value x; rotate_left; subst x; rotate_right) | (have hx : OptP (fun y => Keeps s0 y) x := ?_; clear_value x; rotate_left; subst x; rotate_right) | clear_value x | subst x)
    | split | with_reducible refine OptP.get ?_ (by assumption) | with_reducible exact OptP.get (by assumption) rfl
    | with_reducible refine pair1 ?_ (by assumption)

theorem execTeardown_keeps {s0 : State} {a0 a1 a2} (h2 : Keeps s0 a2) :
    OutK s0 (execTeardown a0 a1 a2) := by
  unfold execTeardown
  repeat' first
    | with_reducible intro _ | with_reducible assumption | with_reducible apply teardownIn_keeps
    | with_reducible apply attempt_keeps | with_reducible exact OptP.of_none | with_reducible apply OptP.of_some
    | with_reducible apply OutK.next

end Sys2Proof.Machine
end

