-- ==== Sys2Proof/Laws/KeepsOfJobEnd.lean ====
section
/-! SUPPORT. What the operations of JobEnd keep. -/

namespace Sys2Proof.Machine

theorem State.clearBells_keeps {s0 : State} {a0 a1} (h0 : Keeps s0 a0) :
    Keeps s0 (State.clearBells a0 a1) := by
  unfold State.clearBells
  repeat' first
    | with_reducible intro _ | with_reducible assumption | with_reducible apply State.setMbxF_keeps
    | with_reducible exact OptP.of_none | with_reducible apply OptP.of_some

theorem State.clearEngines_keeps {s0 : State} {a0 a1} (h0 : Keeps s0 a0) :
    Keeps s0 (State.clearEngines a0 a1) := by
  unfold State.clearEngines
  repeat' first
    | with_reducible intro _ | with_reducible assumption | with_reducible exact OptP.of_none
    | with_reducible apply OptP.of_some
    | (extract_lets +onlyGivenNames x; first | (have hx : Keeps s0 x := ?_; clear_value x; rotate_left; subst x; rotate_right) | clear_value x | subst x)
    | split | with_reducible apply Keeps.lit

theorem State.clearLedger_keeps {s0 : State} {a0 a1} (h0 : Keeps s0 a0) :
    Keeps s0 (State.clearLedger a0 a1) := by
  unfold State.clearLedger
  repeat' first
    | with_reducible intro _ | with_reducible assumption | with_reducible exact OptP.of_none
    | with_reducible apply OptP.of_some
    | (extract_lets +onlyGivenNames x; first | (have hx : Keeps s0 x := ?_; clear_value x; rotate_left; subst x; rotate_right) | clear_value x | subst x)
    | with_reducible apply Keeps.lit

theorem State.closeJournal_keeps {s0 : State} {a0 a1} (h0 : Keeps s0 a0) :
    Keeps s0 (State.closeJournal a0 a1) := by
  unfold State.closeJournal
  repeat' first
    | with_reducible intro _ | with_reducible assumption | with_reducible apply State.setMbxF_keeps
    | with_reducible exact OptP.of_none | with_reducible apply OptP.of_some

theorem State.disableAll_keeps {s0 : State} {a0 a1} (h0 : Keeps s0 a0) :
    Keeps s0 (State.disableAll a0 a1) := by
  unfold State.disableAll
  repeat' first
    | with_reducible intro _ | with_reducible assumption | with_reducible apply State.disable_keeps
    | with_reducible exact OptP.of_none | with_reducible apply OptP.of_some | with_reducible apply Keeps.foldl
    | with_reducible apply Keeps.foldl1 | with_reducible apply Keeps.foldl2

theorem State.setGrafts_keeps {s0 : State} {a0 a1} (h0 : Keeps s0 a0) :
    Keeps s0 (State.setGrafts a0 a1) := by
  unfold State.setGrafts
  repeat' first
    | with_reducible intro _ | with_reducible assumption | with_reducible exact OptP.of_none
    | with_reducible apply OptP.of_some
    | (extract_lets +onlyGivenNames x; first | (have hx : Keeps s0 x := ?_; clear_value x; rotate_left; subst x; rotate_right) | clear_value x | subst x)
    | with_reducible apply Keeps.lit

theorem State.dropGraft_keeps {s0 : State} {a0 a1} (h0 : Keeps s0 a0) :
    Keeps s0 (State.dropGraft a0 a1) := by
  unfold State.dropGraft
  repeat' first
    | with_reducible intro _ | with_reducible assumption | with_reducible apply State.disableAll_keeps
    | with_reducible apply State.setGrafts_keeps | with_reducible exact OptP.of_none | with_reducible apply OptP.of_some
    | split

theorem State.dropJob_keeps {s0 : State} {a0 a1} (h0 : Keeps s0 a0) :
    Keeps s0 (State.dropJob a0 a1) := by
  unfold State.dropJob
  repeat' first
    | with_reducible intro _ | with_reducible assumption | with_reducible apply State.clearBells_keeps
    | with_reducible apply State.clearEngines_keeps | with_reducible apply State.clearLedger_keeps
    | with_reducible apply State.closeJournal_keeps | with_reducible apply State.formatRegion_keeps
    | with_reducible apply State.setPart_keeps | with_reducible apply State.tearContexts_keeps
    | with_reducible apply State.tearRequests_keeps | with_reducible exact OptP.of_none | with_reducible apply OptP.of_some
    | with_reducible apply Keeps.foldl | with_reducible apply Keeps.foldl1 | with_reducible apply Keeps.foldl2
    | (extract_lets +onlyGivenNames x; first | (have hx : Keeps s0 x := ?_; clear_value x; rotate_left; subst x; rotate_right) | (have hx : Keeps s0 x.1 := ?_; clear_value x; rotate_left; subst x; rotate_right) | clear_value x | subst x)

theorem State.dropOrphans_keeps {s0 : State} {a0} (h0 : Keeps s0 a0) :
    Keeps s0 (State.dropOrphans a0) := by
  unfold State.dropOrphans
  repeat' first
    | with_reducible intro _ | with_reducible assumption | with_reducible apply State.dropGraft_keeps
    | with_reducible apply State.setGrafts_keeps | with_reducible exact OptP.of_none | with_reducible apply OptP.of_some
    | with_reducible apply Keeps.foldl | with_reducible apply Keeps.foldl1 | with_reducible apply Keeps.foldl2
    | (extract_lets +onlyGivenNames x; first | (have hx : Keeps s0 x := ?_; clear_value x; rotate_left; subst x; rotate_right) | clear_value x | subst x)
    | split

theorem State.settleAll_keeps {s0 : State} {a0 a1} (h0 : Keeps s0 a0) :
    Keeps s0 (State.settleAll a0 a1) := by
  unfold State.settleAll
  repeat' first
    | with_reducible intro _ | with_reducible assumption | with_reducible apply State.settleDom_keeps
    | with_reducible exact OptP.of_none | with_reducible apply OptP.of_some | with_reducible apply Keeps.foldl
    | with_reducible apply Keeps.foldl1 | with_reducible apply Keeps.foldl2

end Sys2Proof.Machine
end

