-- ==== Sys2Proof/Laws/KeepsOfMemService.lean ====
section
/-! SUPPORT. What the operations of MemService keep. -/

namespace Sys2Proof.Machine

theorem State.enterBand_keeps {s0 : State} {a0 a1 a2} (h0 : Keeps s0 a0) :
    Keeps s0 (State.enterBand a0 a1 a2) := by
  unfold State.enterBand
  repeat' first
    | with_reducible intro _ | with_reducible assumption | with_reducible apply State.setCfgF_keeps
    | with_reducible apply State.setPart_keeps | with_reducible exact OptP.of_none | with_reducible apply OptP.of_some
    | with_reducible apply Keeps.foldl | with_reducible apply Keeps.foldl1 | with_reducible apply Keeps.foldl2
    | (extract_lets +onlyGivenNames x; first | (have hx : Keeps s0 x := ?_; clear_value x; rotate_left; subst x; rotate_right) | clear_value x | subst x)
    | split | with_reducible apply Keeps.lit

theorem State.hbmCorrected_keeps {s0 : State} {a0 a1 a2 a3 a4} (h0 : Keeps s0 a0) :
    Keeps s0 (State.hbmCorrected a0 a1 a2 a3 a4) := by
  unfold State.hbmCorrected
  repeat' first
    | with_reducible intro _ | with_reducible assumption | with_reducible apply State.raise_keeps
    | with_reducible exact OptP.of_none | with_reducible apply OptP.of_some
    | (extract_lets +onlyGivenNames x; first | (have hx : Keeps s0 x := ?_; clear_value x; rotate_left; subst x; rotate_right) | clear_value x | subst x)
    | split | with_reducible apply Keeps.lit

theorem State.hbmPeriod_keeps {s0 : State} {a0 a1} (h0 : Keeps s0 a0) :
    Keeps s0 (State.hbmPeriod a0 a1) := by
  unfold State.hbmPeriod
  repeat' first
    | with_reducible intro _ | with_reducible assumption | with_reducible exact OptP.of_none
    | with_reducible apply OptP.of_some
    | (extract_lets +onlyGivenNames x; first | (have hx : Keeps s0 x := ?_; clear_value x; rotate_left; subst x; rotate_right) | clear_value x | subst x)
    | with_reducible apply Keeps.lit

theorem State.hbmSwept_keeps {s0 : State} {a0 a1 a2} (h0 : Keeps s0 a0) :
    Keeps s0 (State.hbmSwept a0 a1 a2) := by
  unfold State.hbmSwept
  repeat' first
    | with_reducible intro _ | with_reducible assumption | with_reducible apply State.hbmCorrected_keeps
    | with_reducible apply State.hbmPeriod_keeps | with_reducible exact OptP.of_none | with_reducible apply OptP.of_some
    | with_reducible apply Keeps.foldl | with_reducible apply Keeps.foldl1 | with_reducible apply Keeps.foldl2
    | (extract_lets +onlyGivenNames x; first | (have hx : Keeps s0 x := ?_; clear_value x; rotate_left; subst x; rotate_right) | clear_value x | subst x)
    | split | with_reducible apply Keeps.lit

theorem State.poisonRow_keeps {s0 : State} {a0 a1 a2 a3 a4 a5} (h0 : Keeps s0 a0) :
    Keeps s0 (State.poisonRow a0 a1 a2 a3 a4 a5) := by
  unfold State.poisonRow
  repeat' first
    | with_reducible intro _ | with_reducible assumption | with_reducible apply State.raise_keeps
    | with_reducible apply State.setPoison_keeps | with_reducible exact OptP.of_none | with_reducible apply OptP.of_some
    | with_reducible apply Keeps.foldl | with_reducible apply Keeps.foldl1 | with_reducible apply Keeps.foldl2
    | (extract_lets +onlyGivenNames x; first | (have hx : Keeps s0 x := ?_; clear_value x; rotate_left; subst x; rotate_right) | clear_value x | subst x)

theorem State.retireStack_keeps {s0 : State} {a0 a1 a2 a3 a4} (h0 : Keeps s0 a0) :
    Keeps s0 (State.retireStack a0 a1 a2 a3 a4) := by
  unfold State.retireStack
  repeat' first
    | with_reducible intro _ | with_reducible assumption | with_reducible apply State.logRepair_keeps
    | with_reducible apply State.raise_keeps | with_reducible apply State.setCfgF_keeps
    | with_reducible apply State.setPart_keeps | with_reducible exact OptP.of_none | with_reducible apply OptP.of_some
    | with_reducible apply Keeps.foldl | with_reducible apply Keeps.foldl1 | with_reducible apply Keeps.foldl2
    | (extract_lets +onlyGivenNames x; first | (have hx : Keeps s0 x := ?_; clear_value x; rotate_left; subst x; rotate_right) | clear_value x | subst x)
    | split

theorem State.setTgen_keeps {s0 : State} {a0 a1 a2 a3} (h0 : Keeps s0 a0) :
    Keeps s0 (State.setTgen a0 a1 a2 a3) := by
  unfold State.setTgen
  repeat' first
    | with_reducible intro _ | with_reducible assumption | with_reducible exact OptP.of_none
    | with_reducible apply OptP.of_some
    | (extract_lets +onlyGivenNames x; first | (have hx : Keeps s0 x := ?_; clear_value x; rotate_left; subst x; rotate_right) | clear_value x | subst x)
    | with_reducible apply Keeps.lit

theorem State.startTgen_keeps {s0 : State} {a0 a1 a2} (h0 : Keeps s0 a0) :
    Keeps s0 (State.startTgen a0 a1 a2) := by
  unfold State.startTgen
  repeat' first
    | with_reducible intro _ | with_reducible assumption | with_reducible apply State.setCfgF_keeps
    | with_reducible apply State.setCfgW_keeps | with_reducible apply State.setTgen_keeps
    | with_reducible exact OptP.of_none | with_reducible apply OptP.of_some
    | (extract_lets +onlyGivenNames x; first | (have hx : Keeps s0 x := ?_; clear_value x; rotate_left; subst x; rotate_right) | clear_value x | subst x)
    | split

theorem State.sramCorrected_keeps {s0 : State} {a0 a1 a2 a3} (h0 : Keeps s0 a0) :
    Keeps s0 (State.sramCorrected a0 a1 a2 a3) := by
  unfold State.sramCorrected
  repeat' first
    | with_reducible intro _ | with_reducible assumption | with_reducible apply State.raise_keeps
    | with_reducible exact OptP.of_none | with_reducible apply OptP.of_some
    | (extract_lets +onlyGivenNames x; first | (have hx : Keeps s0 x := ?_; clear_value x; rotate_left; subst x; rotate_right) | clear_value x | subst x)
    | split | with_reducible apply Keeps.lit

theorem State.sramSwept_keeps {s0 : State} {a0 a1 a2} (h0 : Keeps s0 a0) :
    Keeps s0 (State.sramSwept a0 a1 a2) := by
  unfold State.sramSwept
  repeat' first
    | with_reducible intro _ | with_reducible assumption | with_reducible apply State.sramCorrected_keeps
    | with_reducible exact OptP.of_none | with_reducible apply OptP.of_some | with_reducible apply Keeps.foldl
    | with_reducible apply Keeps.foldl1 | with_reducible apply Keeps.foldl2
    | (extract_lets +onlyGivenNames x; first | (have hx : Keeps s0 x := ?_; clear_value x; rotate_left; subst x; rotate_right) | clear_value x | subst x)
    | split | with_reducible apply Keeps.lit

theorem State.tgenRead_keeps {s0 : State} {a0 a1 a2 a3 a4 a5 a6} (h0 : Keeps s0 a0) :
    Keeps s0 (State.tgenRead a0 a1 a2 a3 a4 a5 a6).1 := by
  unfold State.tgenRead
  repeat' first
    | with_reducible intro _ | with_reducible assumption | with_reducible exact OptP.of_none
    | with_reducible apply OptP.of_some
    | (extract_lets +onlyGivenNames x; first | (have hx : Keeps s0 x := ?_; clear_value x; rotate_left; subst x; rotate_right) | (have hx : Keeps s0 x.1 := ?_; clear_value x; rotate_left; subst x; rotate_right) | clear_value x | subst x)
    | split | with_reducible apply Keeps.litAll | with_reducible exact id | exact Nat.le_refl _
    | exact Nat.le_add_right _ _ | exact tblWf_filter (by assumption) _ | exact List.Pairwise.filter _ (by assumption)
    | rfl

theorem State.tgenWrite_keeps {s0 : State} {a0 a1 a2 a3 a4 a5} (h0 : Keeps s0 a0) :
    Keeps s0 (State.tgenWrite a0 a1 a2 a3 a4 a5) := by
  unfold State.tgenWrite
  repeat' first
    | with_reducible intro _ | with_reducible assumption | with_reducible apply State.setPoison_keeps
    | with_reducible apply State.setTgen_keeps | with_reducible apply State.wr_keeps | with_reducible exact OptP.of_none
    | with_reducible apply OptP.of_some | with_reducible apply Keeps.foldl | with_reducible apply Keeps.foldl1
    | with_reducible apply Keeps.foldl2
    | (extract_lets +onlyGivenNames x; first | (have hx : Keeps s0 x := ?_; clear_value x; rotate_left; subst x; rotate_right) | clear_value x | subst x)
    | split

theorem State.tgenAccess_keeps {s0 : State} {a0 a1 a2 a3 a4 a5 a6} (h5 : Keeps s0 a5.1) :
    Keeps s0 (State.tgenAccess a0 a1 a2 a3 a4 a5 a6).1 := by
  unfold State.tgenAccess
  repeat' first
    | with_reducible intro _ | with_reducible assumption | with_reducible apply State.tgenRead_keeps
    | with_reducible apply State.tgenWrite_keeps | with_reducible exact OptP.of_none | with_reducible apply OptP.of_some
    | (extract_lets +onlyGivenNames x; first | (have hx : Keeps s0 x := ?_; clear_value x; rotate_left; subst x; rotate_right) | (have hx : Keeps s0 x.1 := ?_; clear_value x; rotate_left; subst x; rotate_right) | clear_value x | subst x)
    | split | with_reducible refine pair1 ?_ (by assumption)

theorem State.tgenRan_keeps {s0 : State} {a0 a1 a2 a3} (h0 : Keeps s0 a0) :
    Keeps s0 (State.tgenRan a0 a1 a2 a3).1 := by
  unfold State.tgenRan
  repeat' first
    | with_reducible intro _ | with_reducible assumption | with_reducible apply State.tgenAccess_keeps
    | with_reducible exact OptP.of_none | with_reducible apply OptP.of_some | with_reducible apply Keeps.foldl
    | with_reducible apply Keeps.foldl1 | with_reducible apply Keeps.foldl2
    | (extract_lets +onlyGivenNames x; first | (have hx : Keeps s0 x := ?_; clear_value x; rotate_left; subst x; rotate_right) | (have hx : Keeps s0 x.1 := ?_; clear_value x; rotate_left; subst x; rotate_right) | clear_value x | subst x)

theorem State.tgenResult_keeps {s0 : State} {a0 a1 a2 a3} (h0 : Keeps s0 a0) :
    Keeps s0 (State.tgenResult a0 a1 a2 a3) := by
  unfold State.tgenResult
  repeat' first
    | with_reducible intro _ | with_reducible assumption | with_reducible apply State.setCfgF_keeps
    | with_reducible apply State.setCfgW_keeps | with_reducible apply State.setTgen_keeps
    | with_reducible exact OptP.of_none | with_reducible apply OptP.of_some
    | (extract_lets +onlyGivenNames x; first | (have hx : Keeps s0 x := ?_; clear_value x; rotate_left; subst x; rotate_right) | clear_value x | subst x)
    | split

theorem bandChange_keeps {s0 : State} {a0 a1} (h1 : Keeps s0 a1) :
    OptP (fun x0 => Keeps s0 x0) (bandChange a0 a1) := by
  unfold bandChange
  repeat' first
    | with_reducible intro _ | with_reducible assumption | with_reducible apply State.enterBand_keeps
    | with_reducible exact OptP.of_none | with_reducible apply OptP.of_some | split

theorem execBandChange_keeps {s0 : State} {a0 a1} (h1 : Keeps s0 a1) :
    OutK s0 (execBandChange a0 a1) := by
  unfold execBandChange
  repeat' first
    | with_reducible intro _ | with_reducible assumption | with_reducible apply bandChange_keeps
    | with_reducible apply attempt_keeps | with_reducible exact OptP.of_none | with_reducible apply OptP.of_some
    | with_reducible apply OutK.next

theorem hbmScrub_keeps {s0 : State} {a0 a1 a2} (h2 : Keeps s0 a2) :
    OptP (fun x0 => Keeps s0 x0) (hbmScrub a0 a1 a2) := by
  unfold hbmScrub
  repeat' first
    | with_reducible intro _ | with_reducible assumption | with_reducible apply State.hbmSwept_keeps
    | with_reducible exact OptP.of_none | with_reducible apply OptP.of_some | split

theorem execHbmScrub_keeps {s0 : State} {a0 a1 a2} (h2 : Keeps s0 a2) :
    OutK s0 (execHbmScrub a0 a1 a2) := by
  unfold execHbmScrub
  repeat' first
    | with_reducible intro _ | with_reducible assumption | with_reducible apply hbmScrub_keeps
    | with_reducible apply attempt_keeps | with_reducible exact OptP.of_none | with_reducible apply OptP.of_some
    | with_reducible apply OutK.next

theorem hbmTempSample_keeps {s0 : State} {a0 a1 a2} (h2 : Keeps s0 a2) :
    OptP (fun x0 => Keeps s0 x0) (hbmTempSample a0 a1 a2) := by
  unfold hbmTempSample
  repeat' first
    | with_reducible intro _ | with_reducible assumption | with_reducible apply State.setCfgF_keeps
    | with_reducible exact OptP.of_none | with_reducible apply OptP.of_some
    | (extract_lets +onlyGivenNames x; first | (have hx : Keeps s0 x := ?_; clear_value x; rotate_left; subst x; rotate_right) | (have hx : OptP (fun y => Keeps s0 y) x := ?_; clear_value x; rotate_left; subst x; rotate_right) | clear_value x | subst x)
    | split | with_reducible apply Keeps.lit

theorem execHbmTempSample_keeps {s0 : State} {a0 a1 a2} (h2 : Keeps s0 a2) :
    OutK s0 (execHbmTempSample a0 a1 a2) := by
  unfold execHbmTempSample
  repeat' first
    | with_reducible intro _ | with_reducible assumption | with_reducible apply hbmTempSample_keeps
    | with_reducible apply attempt_keeps | with_reducible exact OptP.of_none | with_reducible apply OptP.of_some
    | with_reducible apply OutK.next

theorem rowRemap_keeps {s0 : State} {a0 a1 a2 a3 a4 a5} (h5 : Keeps s0 a5) :
    OptP (fun x0 => Keeps s0 x0) (rowRemap a0 a1 a2 a3 a4 a5) := by
  unfold rowRemap
  repeat' first
    | with_reducible intro _ | with_reducible assumption | with_reducible apply State.poisonRow_keeps
    | with_reducible apply State.repairRow_keeps | with_reducible exact OptP.of_none | with_reducible apply OptP.of_some
    | split

theorem execRowRemap_keeps {s0 : State} {a0 a1 a2 a3 a4 a5} (h5 : Keeps s0 a5) :
    OutK s0 (execRowRemap a0 a1 a2 a3 a4 a5) := by
  unfold execRowRemap
  repeat' first
    | with_reducible intro _ | with_reducible assumption | with_reducible apply rowRemap_keeps
    | with_reducible apply attempt_keeps | with_reducible exact OptP.of_none | with_reducible apply OptP.of_some
    | with_reducible apply OutK.next

theorem sramScrub_keeps {s0 : State} {a0 a1 a2} (h2 : Keeps s0 a2) :
    OptP (fun x0 => Keeps s0 x0) (sramScrub a0 a1 a2) := by
  unfold sramScrub
  repeat' first
    | with_reducible intro _ | with_reducible assumption | with_reducible apply State.sramSwept_keeps
    | with_reducible exact OptP.of_none | with_reducible apply OptP.of_some | split

theorem execSramScrub_keeps {s0 : State} {a0 a1 a2} (h2 : Keeps s0 a2) :
    OutK s0 (execSramScrub a0 a1 a2) := by
  unfold execSramScrub
  repeat' first
    | with_reducible intro _ | with_reducible assumption | with_reducible apply sramScrub_keeps
    | with_reducible apply attempt_keeps | with_reducible exact OptP.of_none | with_reducible apply OptP.of_some
    | with_reducible apply OutK.next

theorem stackRetirement_keeps {s0 : State} {a0 a1 a2 a3 a4} (h4 : Keeps s0 a4) :
    OptP (fun x0 => Keeps s0 x0) (stackRetirement a0 a1 a2 a3 a4) := by
  unfold stackRetirement
  repeat' first
    | with_reducible intro _ | with_reducible assumption | with_reducible apply State.retireStack_keeps
    | with_reducible exact OptP.of_none | with_reducible apply OptP.of_some | split

theorem execStackRetirement_keeps {s0 : State} {a0 a1 a2 a3 a4} (h4 : Keeps s0 a4) :
    OutK s0 (execStackRetirement a0 a1 a2 a3 a4) := by
  unfold execStackRetirement
  repeat' first
    | with_reducible intro _ | with_reducible assumption | with_reducible apply stackRetirement_keeps
    | with_reducible apply attempt_keeps | with_reducible exact OptP.of_none | with_reducible apply OptP.of_some
    | with_reducible apply OutK.next

theorem tgenRunEnd_keeps {s0 : State} {a0 a1 a2 a3} (h3 : Keeps s0 a3) :
    OptP (fun x0 => Keeps s0 x0) (tgenRunEnd a0 a1 a2 a3) := by
  unfold tgenRunEnd
  repeat' first
    | with_reducible intro _ | with_reducible assumption | with_reducible apply State.tgenRan_keeps
    | with_reducible apply State.tgenResult_keeps | with_reducible exact OptP.of_none | with_reducible apply OptP.of_some
    | (extract_lets +onlyGivenNames x; first | (have hx : Keeps s0 x := ?_; clear_value x; rotate_left; subst x; rotate_right) | (have hx : Keeps s0 x.1 := ?_; clear_value x; rotate_left; subst x; rotate_right) | (have hx : OptP (fun y => Keeps s0 y) x := ?_; clear_value x; rotate_left; subst x; rotate_right) | clear_value x | subst x)
    | split | with_reducible refine pair1 ?_ (by assumption)

theorem execTgenRunEnd_keeps {s0 : State} {a0 a1 a2 a3} (h3 : Keeps s0 a3) :
    OutK s0 (execTgenRunEnd a0 a1 a2 a3) := by
  unfold execTgenRunEnd
  repeat' first
    | with_reducible intro _ | with_reducible assumption | with_reducible apply tgenRunEnd_keeps
    | with_reducible apply attempt_keeps | with_reducible exact OptP.of_none | with_reducible apply OptP.of_some
    | with_reducible apply OutK.next

theorem tgenStart_keeps {s0 : State} {a0 a1 a2} (h2 : Keeps s0 a2) :
    OptP (fun x0 => Keeps s0 x0) (tgenStart a0 a1 a2) := by
  unfold tgenStart
  repeat' first
    | with_reducible intro _ | with_reducible assumption | with_reducible apply State.startTgen_keeps
    | with_reducible exact OptP.of_none | with_reducible apply OptP.of_some | split

theorem execTgenStart_keeps {s0 : State} {a0 a1 a2} (h2 : Keeps s0 a2) :
    OutK s0 (execTgenStart a0 a1 a2) := by
  unfold execTgenStart
  repeat' first
    | with_reducible intro _ | with_reducible assumption | with_reducible apply tgenStart_keeps
    | with_reducible apply attempt_keeps | with_reducible exact OptP.of_none | with_reducible apply OptP.of_some
    | with_reducible apply OutK.next

theorem tgenStop_keeps {s0 : State} {a0 a1 a2} (h2 : Keeps s0 a2) :
    OptP (fun x0 => Keeps s0 x0) (tgenStop a0 a1 a2) := by
  unfold tgenStop
  repeat' first
    | with_reducible intro _ | with_reducible assumption | with_reducible apply State.setTgen_keeps
    | with_reducible exact OptP.of_none | with_reducible apply OptP.of_some
    | (extract_lets +onlyGivenNames x; first | (have hx : Keeps s0 x := ?_; clear_value x; rotate_left; subst x; rotate_right) | (have hx : OptP (fun y => Keeps s0 y) x := ?_; clear_value x; rotate_left; subst x; rotate_right) | clear_value x | subst x)
    | split

theorem execTgenStop_keeps {s0 : State} {a0 a1 a2} (h2 : Keeps s0 a2) :
    OutK s0 (execTgenStop a0 a1 a2) := by
  unfold execTgenStop
  repeat' first
    | with_reducible intro _ | with_reducible assumption | with_reducible apply tgenStop_keeps
    | with_reducible apply attempt_keeps | with_reducible exact OptP.of_none | with_reducible apply OptP.of_some
    | with_reducible apply OutK.next

end Sys2Proof.Machine
end

