-- ==== Sys2Proof/Laws/KeepsOfDevice.lean ====
section
/-! SUPPORT. What the operations of Device keep. -/

namespace Sys2Proof.Machine

theorem State.failDie_keeps {s0 : State} {a0 a1} (h0 : Keeps s0 a0) :
    Keeps s0 (State.failDie a0 a1) := by
  unfold State.failDie
  repeat' first
    | with_reducible intro _ | with_reducible assumption | with_reducible apply State.cutOff_keeps
    | with_reducible apply State.raise_keeps | with_reducible exact OptP.of_none | with_reducible apply OptP.of_some
    | with_reducible apply Keeps.foldl | with_reducible apply Keeps.foldl1 | with_reducible apply Keeps.foldl2
    | (extract_lets +onlyGivenNames x; first | (have hx : Keeps s0 x := ?_; clear_value x; rotate_left; subst x; rotate_right) | clear_value x | subst x)
    | with_reducible apply Keeps.lit

theorem State.setCap_keeps {s0 : State} {a0 a1} (h0 : Keeps s0 a0) :
    Keeps s0 (State.setCap a0 a1) := by
  unfold State.setCap
  repeat' first
    | with_reducible intro _ | with_reducible assumption | with_reducible apply State.setCfgF_keeps
    | with_reducible apply State.setPart_keeps | with_reducible exact OptP.of_none | with_reducible apply OptP.of_some
    | with_reducible apply Keeps.foldl | with_reducible apply Keeps.foldl1 | with_reducible apply Keeps.foldl2
    | (extract_lets +onlyGivenNames x; first | (have hx : Keeps s0 x := ?_; clear_value x; rotate_left; subst x; rotate_right) | clear_value x | subst x)
    | with_reducible apply Keeps.lit

theorem State.startReset_keeps {s0 : State} {a0} (h0 : Keeps s0 a0) :
    Keeps s0 (State.startReset a0) := by
  unfold State.startReset
  repeat' first
    | with_reducible intro _ | with_reducible assumption | with_reducible apply State.disableAll_keeps
    | with_reducible apply State.dropJob_keeps | with_reducible apply State.endCmds_keeps
    | with_reducible apply State.setGrafts_keeps | with_reducible apply State.tearDown_keeps
    | with_reducible exact OptP.of_none | with_reducible apply OptP.of_some | with_reducible apply Keeps.foldl
    | with_reducible apply Keeps.foldl1 | with_reducible apply Keeps.foldl2
    | (extract_lets +onlyGivenNames x; first | (have hx : Keeps s0 x := ?_; clear_value x; rotate_left; subst x; rotate_right) | (have hx : Keeps s0 x.1 := ?_; clear_value x; rotate_left; subst x; rotate_right) | clear_value x | subst x)

theorem capBody_keeps {s0 : State} {a0 a1} (h0 : Keeps s0 a0) :
    AnsK s0 (capBody a0 a1) := by
  unfold capBody
  repeat' first
    | with_reducible intro _ | with_reducible assumption | with_reducible apply Ans.check_keeps
    | with_reducible apply State.inDev_keeps | with_reducible apply State.setCap_keeps
    | with_reducible apply State.unlessBusy_keeps | with_reducible exact OptP.of_none | with_reducible apply OptP.of_some
    | with_reducible apply AnsK.failed | with_reducible apply AnsK.ok | with_reducible apply AnsK.pend
    | with_reducible exact AnsK.rights | with_reducible exact AnsK.refused | with_reducible exact AnsK.busy
    | with_reducible exact AnsK.bad
    | (extract_lets +onlyGivenNames x; first | (have hx : Keeps s0 x := ?_; clear_value x; rotate_left; subst x; rotate_right) | (have hx : AnsK s0 x := ?_; clear_value x; rotate_left; subst x; rotate_right) | clear_value x | subst x)

theorem commitBody_keeps {s0 : State} {a0 a1} (h0 : Keeps s0 a0) :
    AnsK s0 (commitBody a0 a1) := by
  unfold commitBody
  repeat' first
    | with_reducible intro _ | with_reducible assumption | with_reducible apply Ans.check_keeps
    | with_reducible apply State.inDev_keeps | with_reducible apply State.unlessBusy_keeps
    | with_reducible exact OptP.of_none | with_reducible apply OptP.of_some | with_reducible apply AnsK.failed
    | with_reducible apply AnsK.ok | with_reducible apply AnsK.pend | with_reducible exact AnsK.rights
    | with_reducible exact AnsK.refused | with_reducible exact AnsK.busy | with_reducible exact AnsK.bad
    | (extract_lets +onlyGivenNames x; first | (have hx : Keeps s0 x := ?_; clear_value x; rotate_left; subst x; rotate_right) | (have hx : AnsK s0 x := ?_; clear_value x; rotate_left; subst x; rotate_right) | clear_value x | subst x)
    | with_reducible apply Keeps.lit

theorem completeReset_keeps {s0 : State} {a0 a1} (h1 : Keeps s0 a1) :
    OptP (fun x0 => Keeps s0 x0) (completeReset a0 a1) := by
  unfold completeReset
  repeat' first
    | with_reducible intro _ | with_reducible assumption | with_reducible apply State.finish_keeps
    | with_reducible apply State.setCfgF_keeps | with_reducible apply State.settleAll_keeps
    | with_reducible exact OptP.of_none | with_reducible apply OptP.of_some
    | (extract_lets +onlyGivenNames x; first | (have hx : Keeps s0 x := ?_; clear_value x; rotate_left; subst x; rotate_right) | (have hx : OptP (fun y => Keeps s0 y) x := ?_; clear_value x; rotate_left; subst x; rotate_right) | clear_value x | subst x)
    | with_reducible apply Keeps.lit

theorem completeStart_keeps {s0 : State} {a0 a1 a2} (h2 : Keeps s0 a2) :
    OptP (fun x0 => Keeps s0 x0) (completeStart a0 a1 a2) := by
  unfold completeStart
  repeat' first
    | with_reducible intro _ | with_reducible assumption | with_reducible apply State.enable_keeps
    | with_reducible apply State.failDie_keeps | with_reducible apply State.finish_keeps
    | with_reducible apply State.retireStack_keeps | with_reducible apply State.settleAll_keeps
    | with_reducible exact OptP.of_none | with_reducible apply OptP.of_some | with_reducible apply Keeps.foldl
    | with_reducible apply Keeps.foldl1 | with_reducible apply Keeps.foldl2
    | (extract_lets +onlyGivenNames x; first | (have hx : Keeps s0 x := ?_; clear_value x; rotate_left; subst x; rotate_right) | (have hx : OptP (fun y => Keeps s0 y) x := ?_; clear_value x; rotate_left; subst x; rotate_right) | clear_value x | subst x)
    | split | with_reducible apply Keeps.lit

theorem completeStop_keeps {s0 : State} {a0 a1} (h1 : Keeps s0 a1) :
    OptP (fun x0 => Keeps s0 x0) (completeStop a0 a1) := by
  unfold completeStop
  repeat' first
    | with_reducible intro _ | with_reducible assumption | with_reducible apply State.finish_keeps
    | with_reducible apply State.settleAll_keeps | with_reducible exact OptP.of_none | with_reducible apply OptP.of_some
    | (extract_lets +onlyGivenNames x; first | (have hx : Keeps s0 x := ?_; clear_value x; rotate_left; subst x; rotate_right) | (have hx : OptP (fun y => Keeps s0 y) x := ?_; clear_value x; rotate_left; subst x; rotate_right) | clear_value x | subst x)
    | with_reducible apply Keeps.lit

theorem deviceIdentity_keeps {s0 : State} {a0 a1 a2} (h2 : Keeps s0 a2) :
    OptP (fun x0 => Keeps s0 x0) (deviceIdentity a0 a1 a2) := by
  unfold deviceIdentity
  repeat' first
    | with_reducible intro _ | with_reducible assumption | with_reducible apply lysby_keeps
    | with_reducible exact OptP.of_none | with_reducible apply OptP.of_some | with_reducible apply AnsK.failed
    | with_reducible apply AnsK.ok | with_reducible apply AnsK.pend | with_reducible exact AnsK.rights
    | with_reducible exact AnsK.refused | with_reducible exact AnsK.busy | with_reducible exact AnsK.bad

theorem measureBody_keeps {s0 : State} {a0 a1} (h0 : Keeps s0 a0) :
    AnsK s0 (measureBody a0 a1) := by
  unfold measureBody
  repeat' first
    | with_reducible intro _ | with_reducible assumption | with_reducible apply Ans.check_keeps
    | with_reducible exact OptP.of_none | with_reducible apply OptP.of_some | with_reducible apply AnsK.failed
    | with_reducible apply AnsK.ok | with_reducible apply AnsK.pend | with_reducible exact AnsK.rights
    | with_reducible exact AnsK.refused | with_reducible exact AnsK.busy | with_reducible exact AnsK.bad

theorem deviceMeasure_keeps {s0 : State} {a0 a1 a2} (h2 : Keeps s0 a2) :
    OptP (fun x0 => Keeps s0 x0) (deviceMeasure a0 a1 a2) := by
  unfold deviceMeasure
  repeat' first
    | with_reducible intro _ | with_reducible assumption | with_reducible apply lysby_keeps
    | with_reducible apply measureBody_keeps | with_reducible exact OptP.of_none | with_reducible apply OptP.of_some
    | with_reducible apply AnsK.failed | with_reducible apply AnsK.ok | with_reducible apply AnsK.pend
    | with_reducible exact AnsK.rights | with_reducible exact AnsK.refused | with_reducible exact AnsK.busy
    | with_reducible exact AnsK.bad

theorem resetBody_keeps {s0 : State} {a0 a1} (h0 : Keeps s0 a0) :
    AnsK s0 (resetBody a0 a1) := by
  unfold resetBody
  repeat' first
    | with_reducible intro _ | with_reducible assumption | with_reducible apply State.startReset_keeps
    | with_reducible exact OptP.of_none | with_reducible apply OptP.of_some | with_reducible apply AnsK.failed
    | with_reducible apply AnsK.ok | with_reducible apply AnsK.pend | with_reducible exact AnsK.rights
    | with_reducible exact AnsK.refused | with_reducible exact AnsK.busy | with_reducible exact AnsK.bad | split

theorem deviceReset_keeps {s0 : State} {a0 a1 a2} (h2 : Keeps s0 a2) :
    OptP (fun x0 => Keeps s0 x0) (deviceReset a0 a1 a2) := by
  unfold deviceReset
  repeat' first
    | with_reducible intro _ | with_reducible assumption | with_reducible apply lysby_keeps
    | with_reducible apply resetBody_keeps | with_reducible exact OptP.of_none | with_reducible apply OptP.of_some
    | with_reducible apply AnsK.failed | with_reducible apply AnsK.ok | with_reducible apply AnsK.pend
    | with_reducible exact AnsK.rights | with_reducible exact AnsK.refused | with_reducible exact AnsK.busy
    | with_reducible exact AnsK.bad

theorem startBody_keeps {s0 : State} {a0 a1} (h0 : Keeps s0 a0) :
    AnsK s0 (startBody a0 a1) := by
  unfold startBody
  repeat' first
    | with_reducible intro _ | with_reducible assumption | with_reducible apply State.applyPlate_keeps
    | with_reducible apply State.enable_keeps | with_reducible apply State.inDev_keeps
    | with_reducible apply State.unlessBusy_keeps | with_reducible exact OptP.of_none | with_reducible apply OptP.of_some
    | with_reducible apply AnsK.failed | with_reducible apply AnsK.ok | with_reducible apply AnsK.pend
    | with_reducible exact AnsK.rights | with_reducible exact AnsK.refused | with_reducible exact AnsK.busy
    | with_reducible exact AnsK.bad | with_reducible apply Keeps.foldl | with_reducible apply Keeps.foldl1
    | with_reducible apply Keeps.foldl2
    | (extract_lets +onlyGivenNames x; first | (have hx : Keeps s0 x := ?_; clear_value x; rotate_left; subst x; rotate_right) | (have hx : AnsK s0 x := ?_; clear_value x; rotate_left; subst x; rotate_right) | clear_value x | subst x)
    | split | with_reducible refine AnsK.getFailed ?_ (by assumption) | with_reducible refine AnsK.getOk ?_ (by assumption)
    | with_reducible refine AnsK.getPend ?_ (by assumption)

theorem deviceStart_keeps {s0 : State} {a0 a1 a2} (h2 : Keeps s0 a2) :
    OptP (fun x0 => Keeps s0 x0) (deviceStart a0 a1 a2) := by
  unfold deviceStart
  repeat' first
    | with_reducible intro _ | with_reducible assumption | with_reducible apply lysby_keeps
    | with_reducible apply startBody_keeps | with_reducible exact OptP.of_none | with_reducible apply OptP.of_some
    | with_reducible apply AnsK.failed | with_reducible apply AnsK.ok | with_reducible apply AnsK.pend
    | with_reducible exact AnsK.rights | with_reducible exact AnsK.refused | with_reducible exact AnsK.busy
    | with_reducible exact AnsK.bad

theorem deviceStatus_keeps {s0 : State} {a0 a1 a2} (h2 : Keeps s0 a2) :
    OptP (fun x0 => Keeps s0 x0) (deviceStatus a0 a1 a2) := by
  unfold deviceStatus
  repeat' first
    | with_reducible intro _ | with_reducible assumption | with_reducible apply lysby_keeps
    | with_reducible exact OptP.of_none | with_reducible apply OptP.of_some | with_reducible apply AnsK.failed
    | with_reducible apply AnsK.ok | with_reducible apply AnsK.pend | with_reducible exact AnsK.rights
    | with_reducible exact AnsK.refused | with_reducible exact AnsK.busy | with_reducible exact AnsK.bad

theorem stopBody_keeps {s0 : State} {a0 a1} (h0 : Keeps s0 a0) :
    AnsK s0 (stopBody a0 a1) := by
  unfold stopBody
  repeat' first
    | with_reducible intro _ | with_reducible assumption | with_reducible apply State.allIn_keeps
    | with_reducible apply State.disableAll_keeps | with_reducible apply State.inDev_keeps
    | with_reducible apply State.unlessBusy_keeps | with_reducible exact OptP.of_none | with_reducible apply OptP.of_some
    | with_reducible apply AnsK.failed | with_reducible apply AnsK.ok | with_reducible apply AnsK.pend
    | with_reducible exact AnsK.rights | with_reducible exact AnsK.refused | with_reducible exact AnsK.busy
    | with_reducible exact AnsK.bad

theorem deviceStop_keeps {s0 : State} {a0 a1 a2} (h2 : Keeps s0 a2) :
    OptP (fun x0 => Keeps s0 x0) (deviceStop a0 a1 a2) := by
  unfold deviceStop
  repeat' first
    | with_reducible intro _ | with_reducible assumption | with_reducible apply lysby_keeps
    | with_reducible apply stopBody_keeps | with_reducible exact OptP.of_none | with_reducible apply OptP.of_some
    | with_reducible apply AnsK.failed | with_reducible apply AnsK.ok | with_reducible apply AnsK.pend
    | with_reducible exact AnsK.rights | with_reducible exact AnsK.refused | with_reducible exact AnsK.busy
    | with_reducible exact AnsK.bad

theorem execDeviceIdentity_keeps {s0 : State} {a0 a1 a2} (h2 : Keeps s0 a2) :
    OutK s0 (execDeviceIdentity a0 a1 a2) := by
  unfold execDeviceIdentity
  repeat' first
    | with_reducible intro _ | with_reducible assumption | with_reducible apply deviceIdentity_keeps
    | with_reducible apply attempt_keeps | with_reducible exact OptP.of_none | with_reducible apply OptP.of_some
    | with_reducible apply OutK.next

theorem execDeviceMeasure_keeps {s0 : State} {a0 a1 a2} (h2 : Keeps s0 a2) :
    OutK s0 (execDeviceMeasure a0 a1 a2) := by
  unfold execDeviceMeasure
  repeat' first
    | with_reducible intro _ | with_reducible assumption | with_reducible apply deviceMeasure_keeps
    | with_reducible apply attempt_keeps | with_reducible exact OptP.of_none | with_reducible apply OptP.of_some
    | with_reducible apply OutK.next

theorem execDeviceReset_keeps {s0 : State} {a0 a1 a2} (h2 : Keeps s0 a2) :
    OutK s0 (execDeviceReset a0 a1 a2) := by
  unfold execDeviceReset
  repeat' first
    | with_reducible intro _ | with_reducible assumption | with_reducible apply deviceReset_keeps
    | with_reducible apply attempt_keeps | with_reducible exact OptP.of_none | with_reducible apply OptP.of_some
    | with_reducible apply OutK.next

theorem execDeviceStart_keeps {s0 : State} {a0 a1 a2} (h2 : Keeps s0 a2) :
    OutK s0 (execDeviceStart a0 a1 a2) := by
  unfold execDeviceStart
  repeat' first
    | with_reducible intro _ | with_reducible assumption | with_reducible apply deviceStart_keeps
    | with_reducible apply attempt_keeps | with_reducible exact OptP.of_none | with_reducible apply OptP.of_some
    | with_reducible apply OutK.next

theorem execDeviceStatus_keeps {s0 : State} {a0 a1 a2} (h2 : Keeps s0 a2) :
    OutK s0 (execDeviceStatus a0 a1 a2) := by
  unfold execDeviceStatus
  repeat' first
    | with_reducible intro _ | with_reducible assumption | with_reducible apply deviceStatus_keeps
    | with_reducible apply attempt_keeps | with_reducible exact OptP.of_none | with_reducible apply OptP.of_some
    | with_reducible apply OutK.next

theorem execDeviceStop_keeps {s0 : State} {a0 a1 a2} (h2 : Keeps s0 a2) :
    OutK s0 (execDeviceStop a0 a1 a2) := by
  unfold execDeviceStop
  repeat' first
    | with_reducible intro _ | with_reducible assumption | with_reducible apply deviceStop_keeps
    | with_reducible apply attempt_keeps | with_reducible exact OptP.of_none | with_reducible apply OptP.of_some
    | with_reducible apply OutK.next

theorem firmwareCommit_keeps {s0 : State} {a0 a1 a2} (h2 : Keeps s0 a2) :
    OptP (fun x0 => Keeps s0 x0) (firmwareCommit a0 a1 a2) := by
  unfold firmwareCommit
  repeat' first
    | with_reducible intro _ | with_reducible assumption | with_reducible apply commitBody_keeps
    | with_reducible apply lysby_keeps | with_reducible exact OptP.of_none | with_reducible apply OptP.of_some
    | with_reducible apply AnsK.failed | with_reducible apply AnsK.ok | with_reducible apply AnsK.pend
    | with_reducible exact AnsK.rights | with_reducible exact AnsK.refused | with_reducible exact AnsK.busy
    | with_reducible exact AnsK.bad

theorem execFirmwareCommit_keeps {s0 : State} {a0 a1 a2} (h2 : Keeps s0 a2) :
    OutK s0 (execFirmwareCommit a0 a1 a2) := by
  unfold execFirmwareCommit
  repeat' first
    | with_reducible intro _ | with_reducible assumption | with_reducible apply firmwareCommit_keeps
    | with_reducible apply attempt_keeps | with_reducible exact OptP.of_none | with_reducible apply OptP.of_some
    | with_reducible apply OutK.next

theorem powerCap_keeps {s0 : State} {a0 a1 a2} (h2 : Keeps s0 a2) :
    OptP (fun x0 => Keeps s0 x0) (powerCap a0 a1 a2) := by
  unfold powerCap
  repeat' first
    | with_reducible intro _ | with_reducible assumption | with_reducible apply capBody_keeps
    | with_reducible apply lysby_keeps | with_reducible exact OptP.of_none | with_reducible apply OptP.of_some
    | with_reducible apply AnsK.failed | with_reducible apply AnsK.ok | with_reducible apply AnsK.pend
    | with_reducible exact AnsK.rights | with_reducible exact AnsK.refused | with_reducible exact AnsK.busy
    | with_reducible exact AnsK.bad

theorem execPowerCap_keeps {s0 : State} {a0 a1 a2} (h2 : Keeps s0 a2) :
    OutK s0 (execPowerCap a0 a1 a2) := by
  unfold execPowerCap
  repeat' first
    | with_reducible intro _ | with_reducible assumption | with_reducible apply powerCap_keeps
    | with_reducible apply attempt_keeps | with_reducible exact OptP.of_none | with_reducible apply OptP.of_some
    | with_reducible apply OutK.next

end Sys2Proof.Machine
end

