-- ==== Sys2Proof/Laws/KeepsOfGraft.lean ====
section
/-! SUPPORT. What the operations of Graft keep. -/

namespace Sys2Proof.Machine

theorem State.enableSpare_keeps {s0 : State} {a0 a1} (h0 : Keeps s0 a0) :
    Keeps s0 (State.enableSpare a0 a1) := by
  unfold State.enableSpare
  repeat' first
    | with_reducible intro _ | with_reducible assumption | with_reducible apply State.enable_keeps
    | with_reducible exact OptP.of_none | with_reducible apply OptP.of_some | with_reducible apply Keeps.foldl
    | with_reducible apply Keeps.foldl1 | with_reducible apply Keeps.foldl2

theorem State.failSpare_keeps {s0 : State} {a0 a1} (h0 : Keeps s0 a0) :
    Keeps s0 (State.failSpare a0 a1) := by
  unfold State.failSpare
  repeat' first
    | with_reducible intro _ | with_reducible assumption | with_reducible apply State.disableAll_keeps
    | with_reducible exact OptP.of_none | with_reducible apply OptP.of_some
    | (extract_lets +onlyGivenNames x; first | (have hx : Keeps s0 x := ?_; clear_value x; rotate_left; subst x; rotate_right) | clear_value x | subst x)
    | with_reducible apply Keeps.lit

theorem State.freshLines_keeps {s0 : State} {a0 a1} (h0 : Keeps s0 a0) :
    Keeps s0 (State.freshLines a0 a1) := by
  unfold State.freshLines
  repeat' first
    | with_reducible intro _ | with_reducible assumption | with_reducible exact OptP.of_none
    | with_reducible apply OptP.of_some
    | (extract_lets +onlyGivenNames x; first | (have hx : Keeps s0 x := ?_; clear_value x; rotate_left; subst x; rotate_right) | clear_value x | subst x)
    | with_reducible apply Keeps.lit

theorem State.putGraft_keeps {s0 : State} {a0 a1} (h0 : Keeps s0 a0) :
    Keeps s0 (State.putGraft a0 a1) := by
  unfold State.putGraft
  repeat' first
    | with_reducible intro _ | with_reducible assumption | with_reducible apply State.setGrafts_keeps
    | with_reducible exact OptP.of_none | with_reducible apply OptP.of_some | split

theorem State.startGraft_keeps {s0 : State} {a0 a1 a2 a3} (h0 : Keeps s0 a0) :
    Keeps s0 (State.startGraft a0 a1 a2 a3) := by
  unfold State.startGraft
  repeat' first
    | with_reducible intro _ | with_reducible assumption | with_reducible apply State.enableSpare_keeps
    | with_reducible apply State.setGrafts_keeps | with_reducible exact OptP.of_none | with_reducible apply OptP.of_some

theorem State.switchMap_keeps {s0 : State} {a0 a1 a2} (h0 : Keeps s0 a0) :
    Keeps s0 (State.switchMap a0 a1 a2) := by
  unfold State.switchMap
  repeat' first
    | with_reducible intro _ | with_reducible assumption | with_reducible apply State.finish_keeps
    | with_reducible apply State.freshLines_keeps | with_reducible apply State.logRepair_keeps
    | with_reducible apply State.putGraft_keeps | with_reducible apply State.raise_keeps
    | with_reducible exact OptP.of_none | with_reducible apply OptP.of_some | with_reducible apply Keeps.foldl
    | with_reducible apply Keeps.foldl1 | with_reducible apply Keeps.foldl2
    | (extract_lets +onlyGivenNames x; first | (have hx : Keeps s0 x := ?_; clear_value x; rotate_left; subst x; rotate_right) | clear_value x | subst x)
    | with_reducible apply Keeps.lit

theorem abortBody_keeps {s0 : State} {a0 a1} (h0 : Keeps s0 a0) :
    AnsK s0 (abortBody a0 a1) := by
  unfold abortBody
  repeat' first
    | with_reducible intro _ | with_reducible assumption | with_reducible apply State.dropGraft_keeps
    | with_reducible apply State.notReplay_keeps | with_reducible exact OptP.of_none | with_reducible apply OptP.of_some
    | with_reducible apply AnsK.failed | with_reducible apply AnsK.ok | with_reducible apply AnsK.pend
    | with_reducible exact AnsK.rights | with_reducible exact AnsK.refused | with_reducible exact AnsK.busy
    | with_reducible exact AnsK.bad
    | (extract_lets +onlyGivenNames x; first | (have hx : Keeps s0 x := ?_; clear_value x; rotate_left; subst x; rotate_right) | (have hx : AnsK s0 x := ?_; clear_value x; rotate_left; subst x; rotate_right) | clear_value x | subst x)
    | split | with_reducible refine AnsK.getFailed ?_ (by assumption) | with_reducible refine AnsK.getOk ?_ (by assumption)
    | with_reducible refine AnsK.getPend ?_ (by assumption)

theorem completeCommit_keeps {s0 : State} {a0 a1 a2} (h2 : Keeps s0 a2) :
    OptP (fun x0 => Keeps s0 x0) (completeCommit a0 a1 a2) := by
  unfold completeCommit
  repeat' first
    | with_reducible intro _ | with_reducible assumption | with_reducible apply State.dropGraft_keeps
    | with_reducible apply State.failSpare_keeps | with_reducible apply State.finish_keeps
    | with_reducible apply State.setGrafts_keeps | with_reducible exact OptP.of_none | with_reducible apply OptP.of_some
    | split

theorem completePrepare_keeps {s0 : State} {a0 a1 a2} (h2 : Keeps s0 a2) :
    OptP (fun x0 => Keeps s0 x0) (completePrepare a0 a1 a2) := by
  unfold completePrepare
  repeat' first
    | with_reducible intro _ | with_reducible assumption | with_reducible apply State.dropGraft_keeps
    | with_reducible apply State.enableSpare_keeps | with_reducible apply State.failSpare_keeps
    | with_reducible apply State.finish_keeps | with_reducible apply State.putGraft_keeps
    | with_reducible apply State.setGrafts_keeps | with_reducible exact OptP.of_none | with_reducible apply OptP.of_some
    | (extract_lets +onlyGivenNames x; first | (have hx : Keeps s0 x := ?_; clear_value x; rotate_left; subst x; rotate_right) | (have hx : OptP (fun y => Keeps s0 y) x := ?_; clear_value x; rotate_left; subst x; rotate_right) | clear_value x | subst x)
    | split

theorem graftAbort_keeps {s0 : State} {a0 a1 a2} (h2 : Keeps s0 a2) :
    OptP (fun x0 => Keeps s0 x0) (graftAbort a0 a1 a2) := by
  unfold graftAbort
  repeat' first
    | with_reducible intro _ | with_reducible assumption | with_reducible apply abortBody_keeps
    | with_reducible apply lysby_keeps | with_reducible exact OptP.of_none | with_reducible apply OptP.of_some
    | with_reducible apply AnsK.failed | with_reducible apply AnsK.ok | with_reducible apply AnsK.pend
    | with_reducible exact AnsK.rights | with_reducible exact AnsK.refused | with_reducible exact AnsK.busy
    | with_reducible exact AnsK.bad

theorem execGraftAbort_keeps {s0 : State} {a0 a1 a2} (h2 : Keeps s0 a2) :
    OutK s0 (execGraftAbort a0 a1 a2) := by
  unfold execGraftAbort
  repeat' first
    | with_reducible intro _ | with_reducible assumption | with_reducible apply graftAbort_keeps
    | with_reducible apply attempt_keeps | with_reducible exact OptP.of_none | with_reducible apply OptP.of_some
    | with_reducible apply OutK.next

theorem graftCommitBody_keeps {s0 : State} {a0 a1} (h0 : Keeps s0 a0) :
    AnsK s0 (graftCommitBody a0 a1) := by
  unfold graftCommitBody
  repeat' first
    | with_reducible intro _ | with_reducible assumption | with_reducible apply Ans.check_keeps
    | with_reducible apply State.notReplay_keeps | with_reducible apply State.putGraft_keeps
    | with_reducible exact OptP.of_none | with_reducible apply OptP.of_some | with_reducible apply AnsK.failed
    | with_reducible apply AnsK.ok | with_reducible apply AnsK.pend | with_reducible exact AnsK.rights
    | with_reducible exact AnsK.refused | with_reducible exact AnsK.busy | with_reducible exact AnsK.bad
    | (extract_lets +onlyGivenNames x; first | (have hx : Keeps s0 x := ?_; clear_value x; rotate_left; subst x; rotate_right) | (have hx : AnsK s0 x := ?_; clear_value x; rotate_left; subst x; rotate_right) | clear_value x | subst x)
    | split | with_reducible refine AnsK.getFailed ?_ (by assumption) | with_reducible refine AnsK.getOk ?_ (by assumption)
    | with_reducible refine AnsK.getPend ?_ (by assumption)

theorem graftCommit_keeps {s0 : State} {a0 a1 a2} (h2 : Keeps s0 a2) :
    OptP (fun x0 => Keeps s0 x0) (graftCommit a0 a1 a2) := by
  unfold graftCommit
  repeat' first
    | with_reducible intro _ | with_reducible assumption | with_reducible apply graftCommitBody_keeps
    | with_reducible apply lysby_keeps | with_reducible exact OptP.of_none | with_reducible apply OptP.of_some
    | with_reducible apply AnsK.failed | with_reducible apply AnsK.ok | with_reducible apply AnsK.pend
    | with_reducible exact AnsK.rights | with_reducible exact AnsK.refused | with_reducible exact AnsK.busy
    | with_reducible exact AnsK.bad

theorem execGraftCommit_keeps {s0 : State} {a0 a1 a2} (h2 : Keeps s0 a2) :
    OutK s0 (execGraftCommit a0 a1 a2) := by
  unfold execGraftCommit
  repeat' first
    | with_reducible intro _ | with_reducible assumption | with_reducible apply graftCommit_keeps
    | with_reducible apply attempt_keeps | with_reducible exact OptP.of_none | with_reducible apply OptP.of_some
    | with_reducible apply OutK.next

theorem graftFinalCopy_keeps {s0 : State} {a0 a1} (h1 : Keeps s0 a1) :
    OptP (fun x0 => Keeps s0 x0) (graftFinalCopy a0 a1) := by
  unfold graftFinalCopy
  repeat' first
    | with_reducible intro _ | with_reducible assumption | with_reducible apply State.putGraft_keeps
    | with_reducible exact OptP.of_none | with_reducible apply OptP.of_some | split

theorem execGraftFinalCopy_keeps {s0 : State} {a0 a1} (h1 : Keeps s0 a1) :
    OutK s0 (execGraftFinalCopy a0 a1) := by
  unfold execGraftFinalCopy
  repeat' first
    | with_reducible intro _ | with_reducible assumption | with_reducible apply graftFinalCopy_keeps
    | with_reducible apply attempt_keeps | with_reducible exact OptP.of_none | with_reducible apply OptP.of_some
    | with_reducible apply OutK.next

theorem graftForwardEnd_keeps {s0 : State} {a0 a1} (h1 : Keeps s0 a1) :
    OptP (fun x0 => Keeps s0 x0) (graftForwardEnd a0 a1) := by
  unfold graftForwardEnd
  repeat' first
    | with_reducible intro _ | with_reducible assumption | with_reducible apply State.disableAll_keeps
    | with_reducible apply State.setGrafts_keeps | with_reducible exact OptP.of_none | with_reducible apply OptP.of_some
    | split

theorem execGraftForwardEnd_keeps {s0 : State} {a0 a1} (h1 : Keeps s0 a1) :
    OutK s0 (execGraftForwardEnd a0 a1) := by
  unfold execGraftForwardEnd
  repeat' first
    | with_reducible intro _ | with_reducible assumption | with_reducible apply graftForwardEnd_keeps
    | with_reducible apply attempt_keeps | with_reducible exact OptP.of_none | with_reducible apply OptP.of_some
    | with_reducible apply OutK.next

theorem graftMapSwitch_keeps {s0 : State} {a0 a1} (h1 : Keeps s0 a1) :
    OptP (fun x0 => Keeps s0 x0) (graftMapSwitch a0 a1) := by
  unfold graftMapSwitch
  repeat' first
    | with_reducible intro _ | with_reducible assumption | with_reducible apply State.switchMap_keeps
    | with_reducible exact OptP.of_none | with_reducible apply OptP.of_some
    | (extract_lets +onlyGivenNames x; first | (have hx : Keeps s0 x := ?_; clear_value x; rotate_left; subst x; rotate_right) | (have hx : OptP (fun y => Keeps s0 y) x := ?_; clear_value x; rotate_left; subst x; rotate_right) | clear_value x | subst x)
    | split

theorem execGraftMapSwitch_keeps {s0 : State} {a0 a1} (h1 : Keeps s0 a1) :
    OutK s0 (execGraftMapSwitch a0 a1) := by
  unfold execGraftMapSwitch
  repeat' first
    | with_reducible intro _ | with_reducible assumption | with_reducible apply graftMapSwitch_keeps
    | with_reducible apply attempt_keeps | with_reducible exact OptP.of_none | with_reducible apply OptP.of_some
    | with_reducible apply OutK.next

theorem prepareBody_keeps {s0 : State} {a0 a1} (h0 : Keeps s0 a0) :
    AnsK s0 (prepareBody a0 a1) := by
  unfold prepareBody
  repeat' first
    | with_reducible intro _ | with_reducible assumption | with_reducible apply Ans.check_keeps
    | with_reducible apply State.notReplay_keeps | with_reducible apply State.partIn_keeps
    | with_reducible apply State.startGraft_keeps | with_reducible exact OptP.of_none | with_reducible apply OptP.of_some
    | with_reducible apply AnsK.failed | with_reducible apply AnsK.ok | with_reducible apply AnsK.pend
    | with_reducible exact AnsK.rights | with_reducible exact AnsK.refused | with_reducible exact AnsK.busy
    | with_reducible exact AnsK.bad
    | (extract_lets +onlyGivenNames x; first | (have hx : Keeps s0 x := ?_; clear_value x; rotate_left; subst x; rotate_right) | (have hx : AnsK s0 x := ?_; clear_value x; rotate_left; subst x; rotate_right) | clear_value x | subst x)
    | split | with_reducible refine AnsK.getFailed ?_ (by assumption) | with_reducible refine AnsK.getOk ?_ (by assumption)
    | with_reducible refine AnsK.getPend ?_ (by assumption)

theorem graftPrepare_keeps {s0 : State} {a0 a1 a2} (h2 : Keeps s0 a2) :
    OptP (fun x0 => Keeps s0 x0) (graftPrepare a0 a1 a2) := by
  unfold graftPrepare
  repeat' first
    | with_reducible intro _ | with_reducible assumption | with_reducible apply lysby_keeps
    | with_reducible apply prepareBody_keeps | with_reducible exact OptP.of_none | with_reducible apply OptP.of_some
    | with_reducible apply AnsK.failed | with_reducible apply AnsK.ok | with_reducible apply AnsK.pend
    | with_reducible exact AnsK.rights | with_reducible exact AnsK.refused | with_reducible exact AnsK.busy
    | with_reducible exact AnsK.bad

theorem execGraftPrepare_keeps {s0 : State} {a0 a1 a2} (h2 : Keeps s0 a2) :
    OutK s0 (execGraftPrepare a0 a1 a2) := by
  unfold execGraftPrepare
  repeat' first
    | with_reducible intro _ | with_reducible assumption | with_reducible apply graftPrepare_keeps
    | with_reducible apply attempt_keeps | with_reducible exact OptP.of_none | with_reducible apply OptP.of_some
    | with_reducible apply OutK.next

theorem graftStatusBody_keeps {s0 : State} {a0 a1} (h0 : Keeps s0 a0) :
    AnsK s0 (graftStatusBody a0 a1) := by
  unfold graftStatusBody
  repeat' first
    | with_reducible intro _ | with_reducible assumption | with_reducible apply Ans.check_keeps
    | with_reducible exact OptP.of_none | with_reducible apply OptP.of_some | with_reducible apply AnsK.failed
    | with_reducible apply AnsK.ok | with_reducible apply AnsK.pend | with_reducible exact AnsK.rights
    | with_reducible exact AnsK.refused | with_reducible exact AnsK.busy | with_reducible exact AnsK.bad
    | (extract_lets +onlyGivenNames x; first | (have hx : Keeps s0 x := ?_; clear_value x; rotate_left; subst x; rotate_right) | (have hx : AnsK s0 x := ?_; clear_value x; rotate_left; subst x; rotate_right) | clear_value x | subst x)
    | split | with_reducible refine AnsK.getFailed ?_ (by assumption) | with_reducible refine AnsK.getOk ?_ (by assumption)
    | with_reducible refine AnsK.getPend ?_ (by assumption)

theorem graftStatus_keeps {s0 : State} {a0 a1 a2} (h2 : Keeps s0 a2) :
    OptP (fun x0 => Keeps s0 x0) (graftStatus a0 a1 a2) := by
  unfold graftStatus
  repeat' first
    | with_reducible intro _ | with_reducible assumption | with_reducible apply graftStatusBody_keeps
    | with_reducible apply lysby_keeps | with_reducible exact OptP.of_none | with_reducible apply OptP.of_some
    | with_reducible apply AnsK.failed | with_reducible apply AnsK.ok | with_reducible apply AnsK.pend
    | with_reducible exact AnsK.rights | with_reducible exact AnsK.refused | with_reducible exact AnsK.busy
    | with_reducible exact AnsK.bad

theorem execGraftStatus_keeps {s0 : State} {a0 a1 a2} (h2 : Keeps s0 a2) :
    OutK s0 (execGraftStatus a0 a1 a2) := by
  unfold execGraftStatus
  repeat' first
    | with_reducible intro _ | with_reducible assumption | with_reducible apply graftStatus_keeps
    | with_reducible apply attempt_keeps | with_reducible exact OptP.of_none | with_reducible apply OptP.of_some
    | with_reducible apply OutK.next

end Sys2Proof.Machine
end

