-- ==== Sys2Proof/Laws/KeepsOfInspect.lean ====
section
/-! SUPPORT. What the operations of Inspect keep. -/

namespace Sys2Proof.Machine

theorem State.armRing_keeps {s0 : State} {a0 a1 a2 a3} (h0 : Keeps s0 a0) :
    Keeps s0 (State.armRing a0 a1 a2 a3) := by
  unfold State.armRing
  repeat' first
    | with_reducible intro _ | with_reducible assumption | with_reducible apply State.setCfgW_keeps
    | with_reducible exact OptP.of_none | with_reducible apply OptP.of_some
    | (extract_lets +onlyGivenNames x; first | (have hx : Keeps s0 x := ?_; clear_value x; rotate_left; subst x; rotate_right) | clear_value x | subst x)

theorem State.fire_keeps {s0 : State} {a0 a1 a2} (h0 : Keeps s0 a0) :
    Keeps s0 (State.fire a0 a1 a2).2 := by
  unfold State.fire
  repeat' first
    | with_reducible intro _ | with_reducible assumption | with_reducible apply State.ringTrigger_keeps
    | with_reducible exact OptP.of_none | with_reducible apply OptP.of_some | split

theorem State.takeAt_keeps {s0 : State} {a0 a1} (h0 : Keeps s0 a0) :
    OptP (fun x0 => Keeps s0 x0.2) (State.takeAt a0 a1) := by
  unfold State.takeAt
  repeat' first
    | with_reducible intro _ | with_reducible assumption | with_reducible apply State.fire_keeps
    | with_reducible apply State.takeFifoPeak_keeps | with_reducible apply State.takePeakW_keeps
    | with_reducible exact OptP.of_none | with_reducible apply OptP.of_some | with_reducible apply OptP.mapS
    | with_reducible apply OptP.map | with_reducible apply OptP.mapP | split
    | with_reducible refine pair2 ?_ (by assumption)

theorem armBody_keeps {s0 : State} {a0 a1} (h0 : Keeps s0 a0) :
    AnsK s0 (armBody a0 a1) := by
  unfold armBody
  repeat' first
    | with_reducible intro _ | with_reducible assumption | with_reducible apply Ans.check_keeps
    | with_reducible apply State.armRing_keeps | with_reducible apply State.partIn_keeps
    | with_reducible exact OptP.of_none | with_reducible apply OptP.of_some | with_reducible apply AnsK.failed
    | with_reducible apply AnsK.ok | with_reducible apply AnsK.pend | with_reducible exact AnsK.rights
    | with_reducible exact AnsK.refused | with_reducible exact AnsK.busy | with_reducible exact AnsK.bad
    | (extract_lets +onlyGivenNames x; first | (have hx : Keeps s0 x := ?_; clear_value x; rotate_left; subst x; rotate_right) | (have hx : AnsK s0 x := ?_; clear_value x; rotate_left; subst x; rotate_right) | clear_value x | subst x)

theorem completePeek_keeps {s0 : State} {a0 a1} (h1 : Keeps s0 a1) :
    OptP (fun x0 => Keeps s0 x0) (completePeek a0 a1) := by
  unfold completePeek
  repeat' first
    | with_reducible intro _ | with_reducible assumption | with_reducible apply State.finish_keeps
    | with_reducible apply State.setPoison_keeps | with_reducible apply State.wr_keeps | with_reducible exact OptP.of_none
    | with_reducible apply OptP.of_some | with_reducible apply Keeps.foldl | with_reducible apply Keeps.foldl1
    | with_reducible apply Keeps.foldl2
    | (extract_lets +onlyGivenNames x; first | (have hx : Keeps s0 x := ?_; clear_value x; rotate_left; subst x; rotate_right) | (have hx : OptP (fun y => Keeps s0 y) x := ?_; clear_value x; rotate_left; subst x; rotate_right) | clear_value x | subst x)
    | split

theorem completeSnap_keeps {s0 : State} {a0 a1} (h1 : Keeps s0 a1) :
    OptP (fun x0 => Keeps s0 x0) (completeSnap a0 a1) := by
  unfold completeSnap
  repeat' first
    | with_reducible intro _ | with_reducible assumption | with_reducible apply State.finish_keeps
    | with_reducible apply State.wr_keeps | with_reducible exact OptP.of_none | with_reducible apply OptP.of_some
    | (extract_lets +onlyGivenNames x; first | (have hx : Keeps s0 x := ?_; clear_value x; rotate_left; subst x; rotate_right) | (have hx : OptP (fun y => Keeps s0 y) x := ?_; clear_value x; rotate_left; subst x; rotate_right) | clear_value x | subst x)
    | split

theorem snapBody_keeps {s0 : State} {a0 a1} (h0 : Keeps s0 a0) :
    AnsK s0 (snapBody a0 a1) := by
  unfold snapBody
  repeat' first
    | with_reducible intro _ | with_reducible assumption | with_reducible apply Ans.check_keeps
    | with_reducible apply State.partIn_keeps | with_reducible exact OptP.of_none | with_reducible apply OptP.of_some
    | with_reducible apply AnsK.failed | with_reducible apply AnsK.ok | with_reducible apply AnsK.pend
    | with_reducible exact AnsK.rights | with_reducible exact AnsK.refused | with_reducible exact AnsK.busy
    | with_reducible exact AnsK.bad
    | (extract_lets +onlyGivenNames x; first | (have hx : Keeps s0 x := ?_; clear_value x; rotate_left; subst x; rotate_right) | (have hx : AnsK s0 x := ?_; clear_value x; rotate_left; subst x; rotate_right) | clear_value x | subst x)
    | split | with_reducible refine AnsK.getFailed ?_ (by assumption) | with_reducible refine AnsK.getOk ?_ (by assumption)
    | with_reducible refine AnsK.getPend ?_ (by assumption)

theorem countersSnap_keeps {s0 : State} {a0 a1 a2} (h2 : Keeps s0 a2) :
    OptP (fun x0 => Keeps s0 x0) (countersSnap a0 a1 a2) := by
  unfold countersSnap
  repeat' first
    | with_reducible intro _ | with_reducible assumption | with_reducible apply lysby_keeps
    | with_reducible apply snapBody_keeps | with_reducible exact OptP.of_none | with_reducible apply OptP.of_some
    | with_reducible apply AnsK.failed | with_reducible apply AnsK.ok | with_reducible apply AnsK.pend
    | with_reducible exact AnsK.rights | with_reducible exact AnsK.refused | with_reducible exact AnsK.busy
    | with_reducible exact AnsK.bad

theorem execAccWinWrite_keeps {s0 : State} {a0 a1 a2} (h2 : Keeps s0 a2) :
    OutK s0 (execAccWinWrite a0 a1 a2) := by
  unfold execAccWinWrite
  repeat' first
    | with_reducible intro _ | with_reducible assumption | with_reducible apply State.setCfgW_keeps
    | with_reducible exact OptP.of_none | with_reducible apply OptP.of_some | with_reducible apply OutK.next

theorem execBoundaryScan_keeps {s0 : State} {a0 a1} (h1 : Keeps s0 a1) :
    OutK s0 (execBoundaryScan a0 a1) := by
  unfold execBoundaryScan
  repeat' first
    | with_reducible intro _ | with_reducible assumption | with_reducible apply State.emit_keeps
    | with_reducible exact OptP.of_none | with_reducible apply OptP.of_some | with_reducible apply OutK.next
    | (extract_lets +onlyGivenNames x; first | (have hx : Keeps s0 x := ?_; clear_value x; rotate_left; subst x; rotate_right) | clear_value x | subst x)
    | split | with_reducible apply Keeps.lit

theorem execCountersSnap_keeps {s0 : State} {a0 a1 a2} (h2 : Keeps s0 a2) :
    OutK s0 (execCountersSnap a0 a1 a2) := by
  unfold execCountersSnap
  repeat' first
    | with_reducible intro _ | with_reducible assumption | with_reducible apply countersSnap_keeps
    | with_reducible apply attempt_keeps | with_reducible exact OptP.of_none | with_reducible apply OptP.of_some
    | with_reducible apply OutK.next

theorem peekBody_keeps {s0 : State} {a0 a1 a2 a3} (h2 : Keeps s0 a2) :
    AnsK s0 (peekBody a0 a1 a2 a3) := by
  unfold peekBody
  repeat' first
    | with_reducible intro _ | with_reducible assumption | with_reducible apply State.requestWake_keeps
    | with_reducible exact OptP.of_none | with_reducible apply OptP.of_some | with_reducible apply OptP.mapS
    | with_reducible apply OptP.map | with_reducible apply OptP.mapP | with_reducible apply AnsK.failed
    | with_reducible apply AnsK.ok | with_reducible apply AnsK.pend | with_reducible exact AnsK.rights
    | with_reducible exact AnsK.refused | with_reducible exact AnsK.busy | with_reducible exact AnsK.bad
    | (extract_lets +onlyGivenNames x; first | (have hx : Keeps s0 x := ?_; clear_value x; rotate_left; subst x; rotate_right) | (have hx : AnsK s0 x := ?_; clear_value x; rotate_left; subst x; rotate_right) | clear_value x | subst x)
    | split

theorem peek_keeps {s0 : State} {a0 a1 a2} (h2 : Keeps s0 a2) :
    OptP (fun x0 => Keeps s0 x0) (peek a0 a1 a2) := by
  unfold peek
  repeat' first
    | with_reducible intro _ | with_reducible assumption | with_reducible apply lysby_keeps
    | with_reducible apply peekBody_keeps | with_reducible exact OptP.of_none | with_reducible apply OptP.of_some
    | with_reducible apply AnsK.failed | with_reducible apply AnsK.ok | with_reducible apply AnsK.pend
    | with_reducible exact AnsK.rights | with_reducible exact AnsK.refused | with_reducible exact AnsK.busy
    | with_reducible exact AnsK.bad

theorem execPeek_keeps {s0 : State} {a0 a1 a2} (h2 : Keeps s0 a2) :
    OutK s0 (execPeek a0 a1 a2) := by
  unfold execPeek
  repeat' first
    | with_reducible intro _ | with_reducible assumption | with_reducible apply peek_keeps
    | with_reducible apply attempt_keeps | with_reducible exact OptP.of_none | with_reducible apply OptP.of_some
    | with_reducible apply OutK.next

theorem snapshotLatch_keeps {s0 : State} {a0 a1} (h1 : Keeps s0 a1) :
    OptP (fun x0 => Keeps s0 x0) (snapshotLatch a0 a1) := by
  unfold snapshotLatch
  repeat' first
    | with_reducible intro _ | with_reducible assumption | with_reducible exact OptP.of_none
    | with_reducible apply OptP.of_some
    | (extract_lets +onlyGivenNames x; first | (have hx : Keeps s0 x := ?_; clear_value x; rotate_left; subst x; rotate_right) | (have hx : OptP (fun y => Keeps s0 y) x := ?_; clear_value x; rotate_left; subst x; rotate_right) | clear_value x | subst x)
    | split | with_reducible apply Keeps.lit

theorem execSnapshotLatch_keeps {s0 : State} {a0 a1} (h1 : Keeps s0 a1) :
    OutK s0 (execSnapshotLatch a0 a1) := by
  unfold execSnapshotLatch
  repeat' first
    | with_reducible intro _ | with_reducible assumption | with_reducible apply snapshotLatch_keeps
    | with_reducible apply attempt_keeps | with_reducible exact OptP.of_none | with_reducible apply OptP.of_some
    | with_reducible apply OutK.next

theorem snapTimeout_keeps {s0 : State} {a0 a1} (h1 : Keeps s0 a1) :
    OptP (fun x0 => Keeps s0 x0) (snapTimeout a0 a1) := by
  unfold snapTimeout
  repeat' first
    | with_reducible intro _ | with_reducible assumption | with_reducible apply State.bumpCfg_keeps
    | with_reducible apply State.finish_keeps | with_reducible exact OptP.of_none | with_reducible apply OptP.of_some
    | split

theorem execSnapshotWriteTimeout_keeps {s0 : State} {a0 a1} (h1 : Keeps s0 a1) :
    OutK s0 (execSnapshotWriteTimeout a0 a1) := by
  unfold execSnapshotWriteTimeout
  repeat' first
    | with_reducible intro _ | with_reducible assumption | with_reducible apply snapTimeout_keeps
    | with_reducible apply attempt_keeps | with_reducible exact OptP.of_none | with_reducible apply OptP.of_some
    | with_reducible apply OutK.next

theorem takeBody_keeps {s0 : State} {a0 a1 a2 a3} (h2 : Keeps s0 a2) :
    AnsK s0 (takeBody a0 a1 a2 a3) := by
  unfold takeBody
  repeat' first
    | with_reducible intro _ | with_reducible assumption | with_reducible apply State.partIn_keeps
    | with_reducible apply State.takeAt_keeps | with_reducible exact OptP.of_none | with_reducible apply OptP.of_some
    | with_reducible apply AnsK.failed | with_reducible apply AnsK.ok | with_reducible apply AnsK.pend
    | with_reducible exact AnsK.rights | with_reducible exact AnsK.refused | with_reducible exact AnsK.busy
    | with_reducible exact AnsK.bad
    | (extract_lets +onlyGivenNames x; first | (have hx : Keeps s0 x := ?_; clear_value x; rotate_left; subst x; rotate_right) | (have hx : Keeps s0 x.2 := ?_; clear_value x; rotate_left; subst x; rotate_right) | (have hx : AnsK s0 x := ?_; clear_value x; rotate_left; subst x; rotate_right) | clear_value x | subst x)
    | split | with_reducible refine OptP.get2 ?_ (by assumption) | with_reducible refine OptP.get2' ?_ (by assumption)
    | with_reducible refine AnsK.getFailed ?_ (by assumption) | with_reducible refine AnsK.getOk ?_ (by assumption)
    | with_reducible refine AnsK.getPend ?_ (by assumption)

theorem take__keeps {s0 : State} {a0 a1 a2} (h2 : Keeps s0 a2) :
    OptP (fun x0 => Keeps s0 x0) (take_ a0 a1 a2) := by
  unfold take_
  repeat' first
    | with_reducible intro _ | with_reducible assumption | with_reducible apply lysby_keeps
    | with_reducible apply takeBody_keeps | with_reducible exact OptP.of_none | with_reducible apply OptP.of_some
    | with_reducible apply AnsK.failed | with_reducible apply AnsK.ok | with_reducible apply AnsK.pend
    | with_reducible exact AnsK.rights | with_reducible exact AnsK.refused | with_reducible exact AnsK.busy
    | with_reducible exact AnsK.bad

theorem execTake_keeps {s0 : State} {a0 a1 a2} (h2 : Keeps s0 a2) :
    OutK s0 (execTake a0 a1 a2) := by
  unfold execTake
  repeat' first
    | with_reducible intro _ | with_reducible assumption | with_reducible apply take__keeps
    | with_reducible apply attempt_keeps | with_reducible exact OptP.of_none | with_reducible apply OptP.of_some
    | with_reducible apply OutK.next

theorem traceArm_keeps {s0 : State} {a0 a1 a2} (h2 : Keeps s0 a2) :
    OptP (fun x0 => Keeps s0 x0) (traceArm a0 a1 a2) := by
  unfold traceArm
  repeat' first
    | with_reducible intro _ | with_reducible assumption | with_reducible apply armBody_keeps
    | with_reducible apply lysby_keeps | with_reducible exact OptP.of_none | with_reducible apply OptP.of_some
    | with_reducible apply AnsK.failed | with_reducible apply AnsK.ok | with_reducible apply AnsK.pend
    | with_reducible exact AnsK.rights | with_reducible exact AnsK.refused | with_reducible exact AnsK.busy
    | with_reducible exact AnsK.bad

theorem execTraceArm_keeps {s0 : State} {a0 a1 a2} (h2 : Keeps s0 a2) :
    OutK s0 (execTraceArm a0 a1 a2) := by
  unfold execTraceArm
  repeat' first
    | with_reducible intro _ | with_reducible assumption | with_reducible apply traceArm_keeps
    | with_reducible apply attempt_keeps | with_reducible exact OptP.of_none | with_reducible apply OptP.of_some
    | with_reducible apply OutK.next

theorem traceTrigger_keeps {s0 : State} {a0 a1 a2} (h2 : Keeps s0 a2) :
    OptP (fun x0 => Keeps s0 x0) (traceTrigger a0 a1 a2) := by
  unfold traceTrigger
  repeat' first
    | with_reducible intro _ | with_reducible assumption | with_reducible apply State.ringTrigger_keeps
    | with_reducible exact OptP.of_none | with_reducible apply OptP.of_some
    | (extract_lets +onlyGivenNames x; first | (have hx : Keeps s0 x := ?_; clear_value x; rotate_left; subst x; rotate_right) | (have hx : OptP (fun y => Keeps s0 y) x := ?_; clear_value x; rotate_left; subst x; rotate_right) | clear_value x | subst x)
    | split

theorem execTraceTrigger_keeps {s0 : State} {a0 a1} (h1 : Keeps s0 a1) :
    OutK s0 (execTraceTrigger a0 a1) := by
  unfold execTraceTrigger
  repeat' first
    | with_reducible intro _ | with_reducible assumption | with_reducible apply traceTrigger_keeps
    | with_reducible apply attempt_keeps | with_reducible exact OptP.of_none | with_reducible apply OptP.of_some
    | with_reducible apply OutK.next

theorem execTrcFire_keeps {s0 : State} {a0 a1} (h1 : Keeps s0 a1) :
    OutK s0 (execTrcFire a0 a1) := by
  unfold execTrcFire
  repeat' first
    | with_reducible intro _ | with_reducible assumption | with_reducible apply State.emit_keeps
    | with_reducible apply State.fire_keeps | with_reducible exact OptP.of_none | with_reducible apply OptP.of_some
    | with_reducible apply OutK.next
    | (extract_lets +onlyGivenNames x; first | (have hx : Keeps s0 x := ?_; clear_value x; rotate_left; subst x; rotate_right) | (have hx : Keeps s0 x.2 := ?_; clear_value x; rotate_left; subst x; rotate_right) | clear_value x | subst x)

end Sys2Proof.Machine
end

