-- ==== Sys2Proof/Laws/KeepsOfJobCmd.lean ====
section
/-! SUPPORT. What the operations of JobCmd keep. -/

namespace Sys2Proof.Machine

theorem State.disarm_keeps {s0 : State} {a0 a1} (h0 : Keeps s0 a0) :
    Keeps s0 (State.disarm a0 a1) := by
  unfold State.disarm
  repeat' first
    | with_reducible intro _ | with_reducible assumption | with_reducible apply State.setPart_keeps
    | with_reducible exact OptP.of_none | with_reducible apply OptP.of_some
    | (extract_lets +onlyGivenNames x; first | (have hx : Keeps s0 x := ?_; clear_value x; rotate_left; subst x; rotate_right) | clear_value x | subst x)

theorem State.inputEntry_keeps {s0 : State} {a0 a1 a2 a3} (h0 : Keeps s0 a0) :
    Keeps s0 (State.inputEntry a0 a1 a2 a3).1 := by
  unfold State.inputEntry
  repeat' first
    | with_reducible intro _ | with_reducible assumption | with_reducible apply State.diverge_keeps
    | with_reducible apply State.journal_keeps | with_reducible exact OptP.of_none | with_reducible apply OptP.of_some
    | (extract_lets +onlyGivenNames x; first | (have hx : Keeps s0 x := ?_; clear_value x; rotate_left; subst x; rotate_right) | (have hx : Keeps s0 x.1 := ?_; clear_value x; rotate_left; subst x; rotate_right) | clear_value x | subst x)
    | split

theorem State.nextBatch_keeps {s0 : State} {a0 a1} (h0 : Keeps s0 a0) :
    Keeps s0 (State.nextBatch a0 a1) := by
  unfold State.nextBatch
  repeat' first
    | with_reducible intro _ | with_reducible assumption | with_reducible apply State.setPart_keeps
    | with_reducible exact OptP.of_none | with_reducible apply OptP.of_some
    | (extract_lets +onlyGivenNames x; first | (have hx : Keeps s0 x := ?_; clear_value x; rotate_left; subst x; rotate_right) | clear_value x | subst x)

theorem State.resume_keeps {s0 : State} {a0 a1} (h0 : Keeps s0 a0) :
    Keeps s0 (State.resume a0 a1) := by
  unfold State.resume
  repeat' first
    | with_reducible intro _ | with_reducible assumption | with_reducible apply State.setPart_keeps
    | with_reducible exact OptP.of_none | with_reducible apply OptP.of_some
    | (extract_lets +onlyGivenNames x; first | (have hx : Keeps s0 x := ?_; clear_value x; rotate_left; subst x; rotate_right) | clear_value x | subst x)
    | split

theorem State.takeBatch_keeps {s0 : State} {a0 a1} (h0 : Keeps s0 a0) :
    Keeps s0 (State.takeBatch a0 a1).1 := by
  unfold State.takeBatch
  repeat' first
    | with_reducible intro _ | with_reducible assumption | with_reducible apply State.inputEntry_keeps
    | with_reducible apply State.nextBatch_keeps | with_reducible exact OptP.of_none | with_reducible apply OptP.of_some

theorem auditBody_keeps {s0 : State} {a0 a1} (h0 : Keeps s0 a0) :
    AnsK s0 (auditBody a0 a1) := by
  unfold auditBody
  repeat' first
    | with_reducible intro _ | with_reducible assumption | with_reducible apply Ans.check_keeps
    | with_reducible apply State.partIn_keeps | with_reducible apply State.unlessBusy_keeps
    | with_reducible exact OptP.of_none | with_reducible apply OptP.of_some | with_reducible apply AnsK.failed
    | with_reducible apply AnsK.ok | with_reducible apply AnsK.pend | with_reducible exact AnsK.rights
    | with_reducible exact AnsK.refused | with_reducible exact AnsK.busy | with_reducible exact AnsK.bad
    | (extract_lets +onlyGivenNames x; first | (have hx : Keeps s0 x := ?_; clear_value x; rotate_left; subst x; rotate_right) | (have hx : AnsK s0 x := ?_; clear_value x; rotate_left; subst x; rotate_right) | clear_value x | subst x)

theorem completeAudit_keeps {s0 : State} {a0 a1} (h1 : Keeps s0 a1) :
    OptP (fun x0 => Keeps s0 x0) (completeAudit a0 a1) := by
  unfold completeAudit
  repeat' first
    | with_reducible intro _ | with_reducible assumption | with_reducible apply State.finish_keeps
    | with_reducible apply State.wr_keeps | with_reducible exact OptP.of_none | with_reducible apply OptP.of_some
    | (extract_lets +onlyGivenNames x; first | (have hx : Keeps s0 x := ?_; clear_value x; rotate_left; subst x; rotate_right) | (have hx : OptP (fun y => Keeps s0 y) x := ?_; clear_value x; rotate_left; subst x; rotate_right) | clear_value x | subst x)

theorem completeInput_keeps {s0 : State} {a0 a1} (h1 : Keeps s0 a1) :
    OptP (fun x0 => Keeps s0 x0) (completeInput a0 a1) := by
  unfold completeInput
  repeat' first
    | with_reducible intro _ | with_reducible assumption | with_reducible apply State.finish_keeps
    | with_reducible apply State.inputEntry_keeps | with_reducible exact OptP.of_none | with_reducible apply OptP.of_some
    | (extract_lets +onlyGivenNames x; first | (have hx : Keeps s0 x := ?_; clear_value x; rotate_left; subst x; rotate_right) | (have hx : Keeps s0 x.1 := ?_; clear_value x; rotate_left; subst x; rotate_right) | (have hx : OptP (fun y => Keeps s0 y) x := ?_; clear_value x; rotate_left; subst x; rotate_right) | clear_value x | subst x)
    | split | with_reducible refine pair1 ?_ (by assumption)

theorem completeTeardown_keeps {s0 : State} {a0 a1} (h1 : Keeps s0 a1) :
    OptP (fun x0 => Keeps s0 x0) (completeTeardown a0 a1) := by
  unfold completeTeardown
  repeat' first
    | with_reducible intro _ | with_reducible assumption | with_reducible apply State.finish_keeps
    | with_reducible exact OptP.of_none | with_reducible apply OptP.of_some

theorem inputBody_keeps {s0 : State} {a0 a1} (h0 : Keeps s0 a0) :
    AnsK s0 (inputBody a0 a1) := by
  unfold inputBody
  repeat' first
    | with_reducible intro _ | with_reducible assumption | with_reducible apply Ans.check_keeps
    | with_reducible apply State.nextBatch_keeps | with_reducible apply State.partIn_keeps
    | with_reducible apply State.takeBatch_keeps | with_reducible apply State.unlessBusy_keeps
    | with_reducible exact OptP.of_none | with_reducible apply OptP.of_some | with_reducible apply AnsK.failed
    | with_reducible apply AnsK.ok | with_reducible apply AnsK.pend | with_reducible exact AnsK.rights
    | with_reducible exact AnsK.refused | with_reducible exact AnsK.busy | with_reducible exact AnsK.bad
    | (extract_lets +onlyGivenNames x; first | (have hx : Keeps s0 x := ?_; clear_value x; rotate_left; subst x; rotate_right) | (have hx : Keeps s0 x.1 := ?_; clear_value x; rotate_left; subst x; rotate_right) | (have hx : AnsK s0 x := ?_; clear_value x; rotate_left; subst x; rotate_right) | clear_value x | subst x)
    | split | with_reducible refine AnsK.getFailed ?_ (by assumption) | with_reducible refine AnsK.getOk ?_ (by assumption)
    | with_reducible refine AnsK.getPend ?_ (by assumption) | with_reducible refine pair1 ?_ (by assumption)

theorem inputCommit_keeps {s0 : State} {a0 a1 a2} (h2 : Keeps s0 a2) :
    OptP (fun x0 => Keeps s0 x0) (inputCommit a0 a1 a2) := by
  unfold inputCommit
  repeat' first
    | with_reducible intro _ | with_reducible assumption | with_reducible apply inputBody_keeps
    | with_reducible apply lysby_keeps | with_reducible exact OptP.of_none | with_reducible apply OptP.of_some
    | with_reducible apply AnsK.failed | with_reducible apply AnsK.ok | with_reducible apply AnsK.pend
    | with_reducible exact AnsK.rights | with_reducible exact AnsK.refused | with_reducible exact AnsK.busy
    | with_reducible exact AnsK.bad

theorem execInputCommit_keeps {s0 : State} {a0 a1 a2} (h2 : Keeps s0 a2) :
    OutK s0 (execInputCommit a0 a1 a2) := by
  unfold execInputCommit
  repeat' first
    | with_reducible intro _ | with_reducible assumption | with_reducible apply inputCommit_keeps
    | with_reducible apply attempt_keeps | with_reducible exact OptP.of_none | with_reducible apply OptP.of_some
    | with_reducible apply OutK.next

theorem resumeBody_keeps {s0 : State} {a0 a1} (h0 : Keeps s0 a0) :
    AnsK s0 (resumeBody a0 a1) := by
  unfold resumeBody
  repeat' first
    | with_reducible intro _ | with_reducible assumption | with_reducible apply State.partIn_keeps
    | with_reducible apply State.resume_keeps | with_reducible apply State.unlessBusy_keeps
    | with_reducible exact OptP.of_none | with_reducible apply OptP.of_some | with_reducible apply AnsK.failed
    | with_reducible apply AnsK.ok | with_reducible apply AnsK.pend | with_reducible exact AnsK.rights
    | with_reducible exact AnsK.refused | with_reducible exact AnsK.busy | with_reducible exact AnsK.bad
    | (extract_lets +onlyGivenNames x; first | (have hx : Keeps s0 x := ?_; clear_value x; rotate_left; subst x; rotate_right) | (have hx : AnsK s0 x := ?_; clear_value x; rotate_left; subst x; rotate_right) | clear_value x | subst x)
    | split | with_reducible refine AnsK.getFailed ?_ (by assumption) | with_reducible refine AnsK.getOk ?_ (by assumption)
    | with_reducible refine AnsK.getPend ?_ (by assumption)

theorem jobResume_keeps {s0 : State} {a0 a1 a2} (h2 : Keeps s0 a2) :
    OptP (fun x0 => Keeps s0 x0) (jobResume a0 a1 a2) := by
  unfold jobResume
  repeat' first
    | with_reducible intro _ | with_reducible assumption | with_reducible apply lysby_keeps
    | with_reducible apply resumeBody_keeps | with_reducible exact OptP.of_none | with_reducible apply OptP.of_some
    | with_reducible apply AnsK.failed | with_reducible apply AnsK.ok | with_reducible apply AnsK.pend
    | with_reducible exact AnsK.rights | with_reducible exact AnsK.refused | with_reducible exact AnsK.busy
    | with_reducible exact AnsK.bad

theorem execJobResume_keeps {s0 : State} {a0 a1 a2} (h2 : Keeps s0 a2) :
    OutK s0 (execJobResume a0 a1 a2) := by
  unfold execJobResume
  repeat' first
    | with_reducible intro _ | with_reducible assumption | with_reducible apply jobResume_keeps
    | with_reducible apply attempt_keeps | with_reducible exact OptP.of_none | with_reducible apply OptP.of_some
    | with_reducible apply OutK.next

theorem teardownBody_keeps {s0 : State} {a0 a1} (h0 : Keeps s0 a0) :
    AnsK s0 (teardownBody a0 a1) := by
  unfold teardownBody
  repeat' first
    | with_reducible intro _ | with_reducible assumption | with_reducible apply Ans.check_keeps
    | with_reducible apply State.disarm_keeps | with_reducible apply State.dropOrphans_keeps
    | with_reducible apply State.endPartCmds_keeps | with_reducible apply State.endStops_keeps
    | with_reducible apply State.partIn_keeps | with_reducible apply State.tearDown_keeps
    | with_reducible apply State.unlessBusy_keeps | with_reducible exact OptP.of_none | with_reducible apply OptP.of_some
    | with_reducible apply AnsK.failed | with_reducible apply AnsK.ok | with_reducible apply AnsK.pend
    | with_reducible exact AnsK.rights | with_reducible exact AnsK.refused | with_reducible exact AnsK.busy
    | with_reducible exact AnsK.bad
    | (extract_lets +onlyGivenNames x; first | (have hx : Keeps s0 x := ?_; clear_value x; rotate_left; subst x; rotate_right) | (have hx : Keeps s0 x.1 := ?_; clear_value x; rotate_left; subst x; rotate_right) | (have hx : AnsK s0 x := ?_; clear_value x; rotate_left; subst x; rotate_right) | clear_value x | subst x)
    | split | with_reducible refine AnsK.getFailed ?_ (by assumption) | with_reducible refine AnsK.getOk ?_ (by assumption)
    | with_reducible refine AnsK.getPend ?_ (by assumption) | with_reducible refine pair1 ?_ (by assumption)

theorem jobTeardown_keeps {s0 : State} {a0 a1 a2} (h2 : Keeps s0 a2) :
    OptP (fun x0 => Keeps s0 x0) (jobTeardown a0 a1 a2) := by
  unfold jobTeardown
  repeat' first
    | with_reducible intro _ | with_reducible assumption | with_reducible apply lysby_keeps
    | with_reducible apply teardownBody_keeps | with_reducible exact OptP.of_none | with_reducible apply OptP.of_some
    | with_reducible apply AnsK.failed | with_reducible apply AnsK.ok | with_reducible apply AnsK.pend
    | with_reducible exact AnsK.rights | with_reducible exact AnsK.refused | with_reducible exact AnsK.busy
    | with_reducible exact AnsK.bad

theorem execJobTeardown_keeps {s0 : State} {a0 a1 a2} (h2 : Keeps s0 a2) :
    OutK s0 (execJobTeardown a0 a1 a2) := by
  unfold execJobTeardown
  repeat' first
    | with_reducible intro _ | with_reducible assumption | with_reducible apply jobTeardown_keeps
    | with_reducible apply attempt_keeps | with_reducible exact OptP.of_none | with_reducible apply OptP.of_some
    | with_reducible apply OutK.next

theorem variantBody_keeps {s0 : State} {a0 a1} (h0 : Keeps s0 a0) :
    AnsK s0 (variantBody a0 a1) := by
  unfold variantBody
  repeat' first
    | with_reducible intro _ | with_reducible assumption | with_reducible apply Ans.check_keeps
    | with_reducible apply State.notReplay_keeps | with_reducible apply State.partIn_keeps
    | with_reducible apply State.setPart_keeps | with_reducible apply State.unlessBusy_keeps
    | with_reducible exact OptP.of_none | with_reducible apply OptP.of_some | with_reducible apply AnsK.failed
    | with_reducible apply AnsK.ok | with_reducible apply AnsK.pend | with_reducible exact AnsK.rights
    | with_reducible exact AnsK.refused | with_reducible exact AnsK.busy | with_reducible exact AnsK.bad
    | (extract_lets +onlyGivenNames x; first | (have hx : Keeps s0 x := ?_; clear_value x; rotate_left; subst x; rotate_right) | (have hx : AnsK s0 x := ?_; clear_value x; rotate_left; subst x; rotate_right) | clear_value x | subst x)
    | split | with_reducible refine AnsK.getFailed ?_ (by assumption) | with_reducible refine AnsK.getOk ?_ (by assumption)
    | with_reducible refine AnsK.getPend ?_ (by assumption)

theorem jobVariant_keeps {s0 : State} {a0 a1 a2} (h2 : Keeps s0 a2) :
    OptP (fun x0 => Keeps s0 x0) (jobVariant a0 a1 a2) := by
  unfold jobVariant
  repeat' first
    | with_reducible intro _ | with_reducible assumption | with_reducible apply lysby_keeps
    | with_reducible apply variantBody_keeps | with_reducible exact OptP.of_none | with_reducible apply OptP.of_some
    | with_reducible apply AnsK.failed | with_reducible apply AnsK.ok | with_reducible apply AnsK.pend
    | with_reducible exact AnsK.rights | with_reducible exact AnsK.refused | with_reducible exact AnsK.busy
    | with_reducible exact AnsK.bad

theorem execJobVariant_keeps {s0 : State} {a0 a1 a2} (h2 : Keeps s0 a2) :
    OutK s0 (execJobVariant a0 a1 a2) := by
  unfold execJobVariant
  repeat' first
    | with_reducible intro _ | with_reducible assumption | with_reducible apply jobVariant_keeps
    | with_reducible apply attempt_keeps | with_reducible exact OptP.of_none | with_reducible apply OptP.of_some
    | with_reducible apply OutK.next

theorem poolAudit_keeps {s0 : State} {a0 a1 a2} (h2 : Keeps s0 a2) :
    OptP (fun x0 => Keeps s0 x0) (poolAudit a0 a1 a2) := by
  unfold poolAudit
  repeat' first
    | with_reducible intro _ | with_reducible assumption | with_reducible apply auditBody_keeps
    | with_reducible apply lysby_keeps | with_reducible exact OptP.of_none | with_reducible apply OptP.of_some
    | with_reducible apply AnsK.failed | with_reducible apply AnsK.ok | with_reducible apply AnsK.pend
    | with_reducible exact AnsK.rights | with_reducible exact AnsK.refused | with_reducible exact AnsK.busy
    | with_reducible exact AnsK.bad

theorem execPoolAudit_keeps {s0 : State} {a0 a1 a2} (h2 : Keeps s0 a2) :
    OutK s0 (execPoolAudit a0 a1 a2) := by
  unfold execPoolAudit
  repeat' first
    | with_reducible intro _ | with_reducible assumption | with_reducible apply poolAudit_keeps
    | with_reducible apply attempt_keeps | with_reducible exact OptP.of_none | with_reducible apply OptP.of_some
    | with_reducible apply OutK.next

end Sys2Proof.Machine
end

