-- ==== Sys2Proof/Laws/KeepsOfLoadCheck.lean ====
section
/-! SUPPORT. What the operations of LoadCheck keep. -/

namespace Sys2Proof.Machine

theorem State.loadWord_keeps {s0 : State} {a0 a1 a2} (h0 : Keeps s0 a0) :
    Keeps s0 (State.loadWord a0 a1 a2) := by
  unfold State.loadWord
  repeat' first
    | with_reducible intro _ | with_reducible assumption | with_reducible apply State.cfgWrite_keeps
    | with_reducible apply State.setGoverned_keeps | with_reducible exact OptP.of_none | with_reducible apply OptP.of_some
    | (extract_lets +onlyGivenNames x; first | (have hx : Keeps s0 x := ?_; clear_value x; rotate_left; subst x; rotate_right) | clear_value x | subst x)
    | split

theorem State.writeImage_keeps {s0 : State} {a0 a1} (h0 : Keeps s0 a0) :
    Keeps s0 (State.writeImage a0 a1) := by
  unfold State.writeImage
  repeat' first
    | with_reducible intro _ | with_reducible assumption | with_reducible apply State.loadWord_keeps
    | with_reducible apply State.wr_keeps | with_reducible exact OptP.of_none | with_reducible apply OptP.of_some
    | with_reducible apply Keeps.foldl | with_reducible apply Keeps.foldl1 | with_reducible apply Keeps.foldl2
    | (extract_lets +onlyGivenNames x; first | (have hx : Keeps s0 x := ?_; clear_value x; rotate_left; subst x; rotate_right) | clear_value x | subst x)

end Sys2Proof.Machine
end

