-- ==== Sys2Proof/Laws/KeepsOfJobLoad.lean ====
section
/-! SUPPORT. What the operations of JobLoad keep. -/

namespace Sys2Proof.Machine

theorem State.clearForLoad_keeps {s0 : State} {a0 a1} (h0 : Keeps s0 a0) :
    Keeps s0 (State.clearForLoad a0 a1) := by
  unfold State.clearForLoad
  repeat' first
    | with_reducible intro _ | with_reducible assumption | with_reducible apply State.setGoverned_keeps
    | with_reducible exact OptP.of_none | with_reducible apply OptP.of_some | with_reducible apply Keeps.foldl
    | with_reducible apply Keeps.foldl1 | with_reducible apply Keeps.foldl2
    | (extract_lets +onlyGivenNames x; first | (have hx : Keeps s0 x := ?_; clear_value x; rotate_left; subst x; rotate_right) | clear_value x | subst x)
    | with_reducible apply Keeps.litAll | with_reducible exact id | exact Nat.le_refl _ | exact Nat.le_add_right _ _
    | exact tblWf_filter (by assumption) _ | exact List.Pairwise.filter _ (by assumption) | rfl

theorem State.dropCaches_keeps {s0 : State} {a0 a1} (h0 : Keeps s0 a0) :
    Keeps s0 (State.dropCaches a0 a1) := by
  unfold State.dropCaches
  repeat' first
    | with_reducible intro _ | with_reducible assumption | with_reducible exact OptP.of_none
    | with_reducible apply OptP.of_some
    | (extract_lets +onlyGivenNames x; first | (have hx : Keeps s0 x := ?_; clear_value x; rotate_left; subst x; rotate_right) | clear_value x | subst x)
    | split | with_reducible apply Keeps.lit

theorem State.freeLedger_keeps {s0 : State} {a0 a1} (h0 : Keeps s0 a0) :
    Keeps s0 (State.freeLedger a0 a1) := by
  unfold State.freeLedger
  repeat' first
    | with_reducible intro _ | with_reducible assumption | with_reducible apply State.clearLedger_keeps
    | with_reducible exact OptP.of_none | with_reducible apply OptP.of_some
    | (extract_lets +onlyGivenNames x; first | (have hx : Keeps s0 x := ?_; clear_value x; rotate_left; subst x; rotate_right) | clear_value x | subst x)
    | with_reducible apply Keeps.litAll | with_reducible exact id | exact Nat.le_refl _ | exact Nat.le_add_right _ _
    | exact tblWf_filter (by assumption) _ | exact List.Pairwise.filter _ (by assumption) | rfl

theorem State.freeSegments_keeps {s0 : State} {a0 a1} (h0 : Keeps s0 a0) :
    Keeps s0 (State.freeSegments a0 a1) := by
  unfold State.freeSegments
  repeat' first
    | with_reducible intro _ | with_reducible assumption | with_reducible apply State.setSegState_keeps
    | with_reducible apply State.wr_keeps | with_reducible apply State.wrN_keeps | with_reducible exact OptP.of_none
    | with_reducible apply OptP.of_some | with_reducible apply Keeps.foldl | with_reducible apply Keeps.foldl1
    | with_reducible apply Keeps.foldl2 | split

theorem State.launchJob_keeps {s0 : State} {a0 a1 a2 a3} (h0 : Keeps s0 a0) :
    Keeps s0 (State.launchJob a0 a1 a2 a3) := by
  unfold State.launchJob
  repeat' first
    | with_reducible intro _ | with_reducible assumption | with_reducible apply State.journal_keeps
    | with_reducible apply State.setPart_keeps | with_reducible exact OptP.of_none | with_reducible apply OptP.of_some
    | (extract_lets +onlyGivenNames x; first | (have hx : Keeps s0 x := ?_; clear_value x; rotate_left; subst x; rotate_right) | clear_value x | subst x)

theorem State.loadStreams_keeps {s0 : State} {a0 a1 a2} (h0 : Keeps s0 a0) :
    Keeps s0 (State.loadStreams a0 a1 a2) := by
  unfold State.loadStreams
  repeat' first
    | with_reducible intro _ | with_reducible assumption | with_reducible apply State.setStream_keeps
    | with_reducible exact OptP.of_none | with_reducible apply OptP.of_some | with_reducible apply Keeps.foldl
    | with_reducible apply Keeps.foldl1 | with_reducible apply Keeps.foldl2
    | (extract_lets +onlyGivenNames x; first | (have hx : Keeps s0 x := ?_; clear_value x; rotate_left; subst x; rotate_right) | clear_value x | subst x)

theorem State.pinImage_keeps {s0 : State} {a0 a1} (h0 : Keeps s0 a0) :
    Keeps s0 (State.pinImage a0 a1) := by
  unfold State.pinImage
  repeat' first
    | with_reducible intro _ | with_reducible assumption | with_reducible apply State.setIline_keeps
    | with_reducible exact OptP.of_none | with_reducible apply OptP.of_some | with_reducible apply Keeps.foldl
    | with_reducible apply Keeps.foldl1 | with_reducible apply Keeps.foldl2

theorem State.loadJob_keeps {s0 : State} {a0 a1 a2 a3} (h0 : Keeps s0 a0) :
    Keeps s0 (State.loadJob a0 a1 a2 a3) := by
  unfold State.loadJob
  repeat' first
    | with_reducible intro _ | with_reducible assumption | with_reducible apply State.clearBells_keeps
    | with_reducible apply State.clearEngines_keeps | with_reducible apply State.clearForLoad_keeps
    | with_reducible apply State.dropCaches_keeps | with_reducible apply State.formatRegion_keeps
    | with_reducible apply State.freeLedger_keeps | with_reducible apply State.freeSegments_keeps
    | with_reducible apply State.loadStreams_keeps | with_reducible apply State.measure_keeps
    | with_reducible apply State.pinImage_keeps | with_reducible apply State.setPart_keeps
    | with_reducible apply State.writeImage_keeps | with_reducible exact OptP.of_none | with_reducible apply OptP.of_some
    | with_reducible apply Keeps.foldl | with_reducible apply Keeps.foldl1 | with_reducible apply Keeps.foldl2
    | (extract_lets +onlyGivenNames x; first | (have hx : Keeps s0 x := ?_; clear_value x; rotate_left; subst x; rotate_right) | clear_value x | subst x)

theorem completeLoad_keeps {s0 : State} {a0 a1} (h1 : Keeps s0 a1) :
    OptP (fun x0 => Keeps s0 x0) (completeLoad a0 a1) := by
  unfold completeLoad
  repeat' first
    | with_reducible intro _ | with_reducible assumption | with_reducible apply State.finish_keeps
    | with_reducible apply State.loadJob_keeps | with_reducible apply State.setPart_keeps
    | with_reducible exact OptP.of_none | with_reducible apply OptP.of_some
    | (extract_lets +onlyGivenNames x; first | (have hx : Keeps s0 x := ?_; clear_value x; rotate_left; subst x; rotate_right) | (have hx : OptP (fun y => Keeps s0 y) x := ?_; clear_value x; rotate_left; subst x; rotate_right) | clear_value x | subst x)
    | split

theorem completeUnload_keeps {s0 : State} {a0 a1} (h1 : Keeps s0 a1) :
    OptP (fun x0 => Keeps s0 x0) (completeUnload a0 a1) := by
  unfold completeUnload
  repeat' first
    | with_reducible intro _ | with_reducible assumption | with_reducible apply State.dropJob_keeps
    | with_reducible apply State.finish_keeps | with_reducible exact OptP.of_none | with_reducible apply OptP.of_some
    | (extract_lets +onlyGivenNames x; first | (have hx : Keeps s0 x := ?_; clear_value x; rotate_left; subst x; rotate_right) | (have hx : OptP (fun y => Keeps s0 y) x := ?_; clear_value x; rotate_left; subst x; rotate_right) | clear_value x | subst x)

theorem launchBody_keeps {s0 : State} {a0 a1} (h0 : Keeps s0 a0) :
    AnsK s0 (launchBody a0 a1) := by
  unfold launchBody
  repeat' first
    | with_reducible intro _ | with_reducible assumption | with_reducible apply Ans.check_keeps
    | with_reducible apply State.launchJob_keeps | with_reducible apply State.partIn_keeps
    | with_reducible apply State.unlessBusy_keeps | with_reducible exact OptP.of_none | with_reducible apply OptP.of_some
    | with_reducible apply AnsK.failed | with_reducible apply AnsK.ok | with_reducible apply AnsK.pend
    | with_reducible exact AnsK.rights | with_reducible exact AnsK.refused | with_reducible exact AnsK.busy
    | with_reducible exact AnsK.bad
    | (extract_lets +onlyGivenNames x; first | (have hx : Keeps s0 x := ?_; clear_value x; rotate_left; subst x; rotate_right) | (have hx : AnsK s0 x := ?_; clear_value x; rotate_left; subst x; rotate_right) | clear_value x | subst x)
    | split | with_reducible refine AnsK.getFailed ?_ (by assumption) | with_reducible refine AnsK.getOk ?_ (by assumption)
    | with_reducible refine AnsK.getPend ?_ (by assumption)

theorem jobLaunch_keeps {s0 : State} {a0 a1 a2} (h2 : Keeps s0 a2) :
    OptP (fun x0 => Keeps s0 x0) (jobLaunch a0 a1 a2) := by
  unfold jobLaunch
  repeat' first
    | with_reducible intro _ | with_reducible assumption | with_reducible apply launchBody_keeps
    | with_reducible apply lysby_keeps | with_reducible exact OptP.of_none | with_reducible apply OptP.of_some
    | with_reducible apply AnsK.failed | with_reducible apply AnsK.ok | with_reducible apply AnsK.pend
    | with_reducible exact AnsK.rights | with_reducible exact AnsK.refused | with_reducible exact AnsK.busy
    | with_reducible exact AnsK.bad

theorem execJobLaunch_keeps {s0 : State} {a0 a1 a2} (h2 : Keeps s0 a2) :
    OutK s0 (execJobLaunch a0 a1 a2) := by
  unfold execJobLaunch
  repeat' first
    | with_reducible intro _ | with_reducible assumption | with_reducible apply jobLaunch_keeps
    | with_reducible apply attempt_keeps | with_reducible exact OptP.of_none | with_reducible apply OptP.of_some
    | with_reducible apply OutK.next

theorem loadBody_keeps {s0 : State} {a0 a1 a2} (h1 : Keeps s0 a1) :
    AnsK s0 (loadBody a0 a1 a2) := by
  unfold loadBody
  repeat' first
    | with_reducible intro _ | with_reducible assumption | with_reducible apply Ans.check_keeps
    | with_reducible apply State.clearForLoad_keeps | with_reducible apply State.partIn_keeps
    | with_reducible apply State.unlessBusy_keeps | with_reducible apply State.writeImage_keeps
    | with_reducible exact OptP.of_none | with_reducible apply OptP.of_some | with_reducible apply AnsK.failed
    | with_reducible apply AnsK.ok | with_reducible apply AnsK.pend | with_reducible exact AnsK.rights
    | with_reducible exact AnsK.refused | with_reducible exact AnsK.busy | with_reducible exact AnsK.bad
    | (extract_lets +onlyGivenNames x; first | (have hx : Keeps s0 x := ?_; clear_value x; rotate_left; subst x; rotate_right) | (have hx : AnsK s0 x := ?_; clear_value x; rotate_left; subst x; rotate_right) | clear_value x | subst x)
    | split | with_reducible refine AnsK.getFailed ?_ (by assumption) | with_reducible refine AnsK.getOk ?_ (by assumption)
    | with_reducible refine AnsK.getPend ?_ (by assumption)

theorem jobLoad_keeps {s0 : State} {a0 a1 a2 a3} (h3 : Keeps s0 a3) :
    OptP (fun x0 => Keeps s0 x0) (jobLoad a0 a1 a2 a3) := by
  unfold jobLoad
  repeat' first
    | with_reducible intro _ | with_reducible assumption | with_reducible apply loadBody_keeps
    | with_reducible apply lysby_keeps | with_reducible exact OptP.of_none | with_reducible apply OptP.of_some
    | with_reducible apply AnsK.failed | with_reducible apply AnsK.ok | with_reducible apply AnsK.pend
    | with_reducible exact AnsK.rights | with_reducible exact AnsK.refused | with_reducible exact AnsK.busy
    | with_reducible exact AnsK.bad

theorem execJobLoad_keeps {s0 : State} {a0 a1 a2 a3} (h3 : Keeps s0 a3) :
    OutK s0 (execJobLoad a0 a1 a2 a3) := by
  unfold execJobLoad
  repeat' first
    | with_reducible intro _ | with_reducible assumption | with_reducible apply jobLoad_keeps
    | with_reducible apply attempt_keeps | with_reducible exact OptP.of_none | with_reducible apply OptP.of_some
    | with_reducible apply OutK.next

theorem unloadBody_keeps {s0 : State} {a0 a1} (h0 : Keeps s0 a0) :
    AnsK s0 (unloadBody a0 a1) := by
  unfold unloadBody
  repeat' first
    | with_reducible intro _ | with_reducible assumption | with_reducible apply State.dropOrphans_keeps
    | with_reducible apply State.endPartCmds_keeps | with_reducible apply State.endStops_keeps
    | with_reducible apply State.partIn_keeps | with_reducible apply State.unlessBusy_keeps
    | with_reducible exact OptP.of_none | with_reducible apply OptP.of_some | with_reducible apply AnsK.failed
    | with_reducible apply AnsK.ok | with_reducible apply AnsK.pend | with_reducible exact AnsK.rights
    | with_reducible exact AnsK.refused | with_reducible exact AnsK.busy | with_reducible exact AnsK.bad
    | (extract_lets +onlyGivenNames x; first | (have hx : Keeps s0 x := ?_; clear_value x; rotate_left; subst x; rotate_right) | (have hx : AnsK s0 x := ?_; clear_value x; rotate_left; subst x; rotate_right) | clear_value x | subst x)

theorem jobUnload_keeps {s0 : State} {a0 a1 a2} (h2 : Keeps s0 a2) :
    OptP (fun x0 => Keeps s0 x0) (jobUnload a0 a1 a2) := by
  unfold jobUnload
  repeat' first
    | with_reducible intro _ | with_reducible assumption | with_reducible apply lysby_keeps
    | with_reducible apply unloadBody_keeps | with_reducible exact OptP.of_none | with_reducible apply OptP.of_some
    | with_reducible apply AnsK.failed | with_reducible apply AnsK.ok | with_reducible apply AnsK.pend
    | with_reducible exact AnsK.rights | with_reducible exact AnsK.refused | with_reducible exact AnsK.busy
    | with_reducible exact AnsK.bad

theorem execJobUnload_keeps {s0 : State} {a0 a1 a2} (h2 : Keeps s0 a2) :
    OutK s0 (execJobUnload a0 a1 a2) := by
  unfold execJobUnload
  repeat' first
    | with_reducible intro _ | with_reducible assumption | with_reducible apply jobUnload_keeps
    | with_reducible apply attempt_keeps | with_reducible exact OptP.of_none | with_reducible apply OptP.of_some
    | with_reducible apply OutK.next

end Sys2Proof.Machine
end

