-- ==== Sys2Proof/Laws/KeepsOfTime.lean ====
section
/-! SUPPORT. What the operations of Time keep. -/

namespace Sys2Proof.Machine

theorem State.noteSent_keeps {s0 : State} {a0 a1} (h0 : Keeps s0 a0) :
    Keeps s0 (State.noteSent a0 a1) := by
  unfold State.noteSent
  repeat' first
    | with_reducible intro _ | with_reducible assumption | with_reducible exact OptP.of_none
    | with_reducible apply OptP.of_some
    | (extract_lets +onlyGivenNames x; first | (have hx : Keeps s0 x := ?_; clear_value x; rotate_left; subst x; rotate_right) | clear_value x | subst x)
    | with_reducible apply Keeps.lit

theorem State.beaconOut_keeps {s0 : State} {a0 a1} (h0 : Keeps s0 a0) :
    Keeps s0 (State.beaconOut a0 a1) := by
  unfold State.beaconOut
  repeat' first
    | with_reducible intro _ | with_reducible assumption | with_reducible apply State.drawBytes_keeps
    | with_reducible apply State.noteSent_keeps | with_reducible apply State.sendFrame_keeps
    | with_reducible exact OptP.of_none | with_reducible apply OptP.of_some
    | (extract_lets +onlyGivenNames x; first | (have hx : Keeps s0 x := ?_; clear_value x; rotate_left; subst x; rotate_right) | (have hx : Keeps s0 x.2 := ?_; clear_value x; rotate_left; subst x; rotate_right) | clear_value x | subst x)

theorem State.shiftCopies_keeps {s0 : State} {a0 a1} (h0 : Keeps s0 a0) :
    Keeps s0 (State.shiftCopies a0 a1) := by
  unfold State.shiftCopies
  repeat' first
    | with_reducible intro _ | with_reducible assumption | with_reducible exact OptP.of_none
    | with_reducible apply OptP.of_some | with_reducible apply Keeps.foldl | with_reducible apply Keeps.foldl1
    | with_reducible apply Keeps.foldl2
    | (extract_lets +onlyGivenNames x; first | (have hx : Keeps s0 x := ?_; clear_value x; rotate_left; subst x; rotate_right) | clear_value x | subst x)
    | with_reducible apply Keeps.lit

theorem State.holdCount_keeps {s0 : State} {a0 a1} (h0 : Keeps s0 a0) :
    Keeps s0 (State.holdCount a0 a1) := by
  unfold State.holdCount
  repeat' first
    | with_reducible intro _ | with_reducible assumption | with_reducible apply State.shiftCopies_keeps
    | with_reducible exact OptP.of_none | with_reducible apply OptP.of_some
    | (extract_lets +onlyGivenNames x; first | (have hx : Keeps s0 x := ?_; clear_value x; rotate_left; subst x; rotate_right) | clear_value x | subst x)
    | with_reducible apply Keeps.lit

theorem State.stepCount_keeps {s0 : State} {a0 a1} (h0 : Keeps s0 a0) :
    Keeps s0 (State.stepCount a0 a1) := by
  unfold State.stepCount
  repeat' first
    | with_reducible intro _ | with_reducible assumption | with_reducible apply State.shiftCopies_keeps
    | with_reducible exact OptP.of_none | with_reducible apply OptP.of_some | with_reducible apply Keeps.litAll
    | with_reducible exact id | exact Nat.le_refl _ | exact Nat.le_add_right _ _ | exact tblWf_filter (by assumption) _
    | exact List.Pairwise.filter _ (by assumption) | rfl

theorem State.discipline_keeps {s0 : State} {a0 a1} (h0 : Keeps s0 a0) :
    Keeps s0 (State.discipline a0 a1) := by
  unfold State.discipline
  repeat' first
    | with_reducible intro _ | with_reducible assumption | with_reducible apply State.bumpCfg_keeps
    | with_reducible apply State.holdCount_keeps | with_reducible apply State.stepCount_keeps
    | with_reducible exact OptP.of_none | with_reducible apply OptP.of_some
    | (extract_lets +onlyGivenNames x; first | (have hx : Keeps s0 x := ?_; clear_value x; rotate_left; subst x; rotate_right) | clear_value x | subst x)
    | split | with_reducible apply Keeps.lit

theorem State.setPtp_keeps {s0 : State} {a0 a1 a2} (h0 : Keeps s0 a0) :
    Keeps s0 (State.setPtp a0 a1 a2) := by
  unfold State.setPtp
  repeat' first
    | with_reducible intro _ | with_reducible assumption | with_reducible exact OptP.of_none
    | with_reducible apply OptP.of_some
    | (extract_lets +onlyGivenNames x; first | (have hx : Keeps s0 x := ?_; clear_value x; rotate_left; subst x; rotate_right) | clear_value x | subst x)
    | with_reducible apply Keeps.lit

theorem State.sendDelayReq_keeps {s0 : State} {a0 a1 a2} (h0 : Keeps s0 a0) :
    Keeps s0 (State.sendDelayReq a0 a1 a2) := by
  unfold State.sendDelayReq
  repeat' first
    | with_reducible intro _ | with_reducible assumption | with_reducible apply State.emit_keeps
    | with_reducible apply State.setPtp_keeps | with_reducible exact OptP.of_none | with_reducible apply OptP.of_some

theorem State.setGcState_keeps {s0 : State} {a0 a1} (h0 : Keeps s0 a0) :
    Keeps s0 (State.setGcState a0 a1) := by
  unfold State.setGcState
  repeat' first
    | with_reducible intro _ | with_reducible assumption | with_reducible apply State.notice_keeps
    | with_reducible apply State.setCfgF_keeps | with_reducible apply State.setCfgW_keeps
    | with_reducible apply State.takeEvent_keeps | with_reducible exact OptP.of_none | with_reducible apply OptP.of_some
    | with_reducible apply Keeps.foldl | with_reducible apply Keeps.foldl1 | with_reducible apply Keeps.foldl2
    | (extract_lets +onlyGivenNames x; first | (have hx : Keeps s0 x := ?_; clear_value x; rotate_left; subst x; rotate_right) | clear_value x | subst x)
    | split

theorem State.timeRun_keeps {s0 : State} {a0 a1} (h0 : Keeps s0 a0) :
    Keeps s0 (State.timeRun a0 a1) := by
  unfold State.timeRun
  repeat' first
    | with_reducible intro _ | with_reducible assumption | with_reducible exact OptP.of_none
    | with_reducible apply OptP.of_some
    | (extract_lets +onlyGivenNames x; first | (have hx : Keeps s0 x := ?_; clear_value x; rotate_left; subst x; rotate_right) | clear_value x | subst x)
    | split | with_reducible apply Keeps.lit

theorem State.timeSample_keeps {s0 : State} {a0 a1 a2 a3} (h0 : Keeps s0 a0) :
    Keeps s0 (State.timeSample a0 a1 a2 a3) := by
  unfold State.timeSample
  repeat' first
    | with_reducible intro _ | with_reducible assumption | with_reducible apply State.setCfgF_keeps
    | with_reducible exact OptP.of_none | with_reducible apply OptP.of_some
    | (extract_lets +onlyGivenNames x; first | (have hx : Keeps s0 x := ?_; clear_value x; rotate_left; subst x; rotate_right) | clear_value x | subst x)
    | split | with_reducible apply Keeps.litAll | with_reducible exact id | exact Nat.le_refl _
    | exact Nat.le_add_right _ _ | exact tblWf_filter (by assumption) _ | exact List.Pairwise.filter _ (by assumption)
    | rfl

theorem State.timeState_keeps {s0 : State} {a0 a1} (h0 : Keeps s0 a0) :
    Keeps s0 (State.timeState a0 a1) := by
  unfold State.timeState
  repeat' first
    | with_reducible intro _ | with_reducible assumption | with_reducible apply State.discipline_keeps
    | with_reducible apply State.setGcState_keeps | with_reducible exact OptP.of_none | with_reducible apply OptP.of_some
    | (extract_lets +onlyGivenNames x; first | (have hx : Keeps s0 x := ?_; clear_value x; rotate_left; subst x; rotate_right) | clear_value x | subst x)
    | split

theorem State.timeUpdate_keeps {s0 : State} {a0 a1 a2 a3} (h0 : Keeps s0 a0) :
    Keeps s0 (State.timeUpdate a0 a1 a2 a3) := by
  unfold State.timeUpdate
  repeat' first
    | with_reducible intro _ | with_reducible assumption | with_reducible apply State.timeRun_keeps
    | with_reducible apply State.timeSample_keeps | with_reducible apply State.timeState_keeps
    | with_reducible exact OptP.of_none | with_reducible apply OptP.of_some
    | (extract_lets +onlyGivenNames x; first | (have hx : Keeps s0 x := ?_; clear_value x; rotate_left; subst x; rotate_right) | clear_value x | subst x)
    | split | with_reducible apply Keeps.lit

theorem beaconIn_keeps {s0 : State} {a0 a1 a2 a3} (h3 : Keeps s0 a3) :
    OptP (fun x0 => Keeps s0 x0) (beaconIn a0 a1 a2 a3) := by
  unfold beaconIn
  repeat' first
    | with_reducible intro _ | with_reducible assumption | with_reducible apply State.dropFrame_keeps
    | with_reducible apply State.takeArrived_keeps | with_reducible apply State.timeUpdate_keeps
    | with_reducible exact OptP.of_none | with_reducible apply OptP.of_some
    | (extract_lets +onlyGivenNames x; first | (have hx : Keeps s0 x := ?_; clear_value x; rotate_left; subst x; rotate_right) | (have hx : OptP (fun y => Keeps s0 y) x := ?_; clear_value x; rotate_left; subst x; rotate_right) | clear_value x | subst x)
    | split

theorem beaconSend_keeps {s0 : State} {a0 a1} (h1 : Keeps s0 a1) :
    OptP (fun x0 => Keeps s0 x0) (beaconSend a0 a1) := by
  unfold beaconSend
  repeat' first
    | with_reducible intro _ | with_reducible assumption | with_reducible apply State.beaconOut_keeps
    | with_reducible exact OptP.of_none | with_reducible apply OptP.of_some | split

theorem countBeaconReceive_keeps {s0 : State} {a0 a1} (h1 : Keeps s0 a1) :
    OptP (fun x0 => Keeps s0 x0) (countBeaconReceive a0 a1) := by
  unfold countBeaconReceive
  repeat' first
    | with_reducible intro _ | with_reducible assumption | with_reducible exact OptP.of_none
    | with_reducible apply OptP.of_some
    | (extract_lets +onlyGivenNames x; first | (have hx : Keeps s0 x := ?_; clear_value x; rotate_left; subst x; rotate_right) | (have hx : OptP (fun y => Keeps s0 y) x := ?_; clear_value x; rotate_left; subst x; rotate_right) | clear_value x | subst x)
    | split | with_reducible apply Keeps.lit

theorem countBeaconSend_keeps {s0 : State} {a0} (h0 : Keeps s0 a0) :
    OptP (fun x0 => Keeps s0 x0) (countBeaconSend a0) := by
  unfold countBeaconSend
  repeat' first
    | with_reducible intro _ | with_reducible assumption | with_reducible exact OptP.of_none
    | with_reducible apply OptP.of_some
    | (extract_lets +onlyGivenNames x; first | (have hx : Keeps s0 x := ?_; clear_value x; rotate_left; subst x; rotate_right) | (have hx : OptP (fun y => Keeps s0 y) x := ?_; clear_value x; rotate_left; subst x; rotate_right) | clear_value x | subst x)
    | split | with_reducible apply Keeps.lit

theorem errEstGrowth_keeps {s0 : State} {a0} (h0 : Keeps s0 a0) :
    OptP (fun x0 => Keeps s0 x0) (errEstGrowth a0) := by
  unfold errEstGrowth
  repeat' first
    | with_reducible intro _ | with_reducible assumption | with_reducible apply State.bumpCfg_keeps
    | with_reducible apply State.setGcState_keeps | with_reducible exact OptP.of_none | with_reducible apply OptP.of_some
    | (extract_lets +onlyGivenNames x; first | (have hx : Keeps s0 x := ?_; clear_value x; rotate_left; subst x; rotate_right) | (have hx : OptP (fun y => Keeps s0 y) x := ?_; clear_value x; rotate_left; subst x; rotate_right) | clear_value x | subst x)
    | split | with_reducible apply Keeps.lit

theorem execBeacon_keeps {s0 : State} {a0 a1 a2 a3} (h3 : Keeps s0 a3) :
    OutK s0 (execBeacon a0 a1 a2 a3) := by
  unfold execBeacon
  repeat' first
    | with_reducible intro _ | with_reducible assumption | with_reducible apply beaconIn_keeps
    | with_reducible apply attempt_keeps | with_reducible exact OptP.of_none | with_reducible apply OptP.of_some
    | with_reducible apply OutK.next

theorem execBeaconSend_keeps {s0 : State} {a0 a1} (h1 : Keeps s0 a1) :
    OutK s0 (execBeaconSend a0 a1) := by
  unfold execBeaconSend
  repeat' first
    | with_reducible intro _ | with_reducible assumption | with_reducible apply beaconSend_keeps
    | with_reducible apply attempt_keeps | with_reducible exact OptP.of_none | with_reducible apply OptP.of_some
    | with_reducible apply OutK.next

theorem execCountBeaconReceive_keeps {s0 : State} {a0 a1} (h1 : Keeps s0 a1) :
    OutK s0 (execCountBeaconReceive a0 a1) := by
  unfold execCountBeaconReceive
  repeat' first
    | with_reducible intro _ | with_reducible assumption | with_reducible apply countBeaconReceive_keeps
    | with_reducible apply attempt_keeps | with_reducible exact OptP.of_none | with_reducible apply OptP.of_some
    | with_reducible apply OutK.next

theorem execCountBeaconSend_keeps {s0 : State} {a0} (h0 : Keeps s0 a0) :
    OutK s0 (execCountBeaconSend a0) := by
  unfold execCountBeaconSend
  repeat' first
    | with_reducible intro _ | with_reducible assumption | with_reducible apply countBeaconSend_keeps
    | with_reducible apply attempt_keeps | with_reducible exact OptP.of_none | with_reducible apply OptP.of_some
    | with_reducible apply OutK.next

theorem execErrEstGrowth_keeps {s0 : State} {a0} (h0 : Keeps s0 a0) :
    OutK s0 (execErrEstGrowth a0) := by
  unfold execErrEstGrowth
  repeat' first
    | with_reducible intro _ | with_reducible assumption | with_reducible apply errEstGrowth_keeps
    | with_reducible apply attempt_keeps | with_reducible exact OptP.of_none | with_reducible apply OptP.of_some
    | with_reducible apply OutK.next

theorem ptpDelayReq_keeps {s0 : State} {a0 a1 a2 a3} (h3 : Keeps s0 a3) :
    OptP (fun x0 => Keeps s0 x0) (ptpDelayReq a0 a1 a2 a3) := by
  unfold ptpDelayReq
  repeat' first
    | with_reducible intro _ | with_reducible assumption | with_reducible apply State.emit_keeps
    | with_reducible exact OptP.of_none | with_reducible apply OptP.of_some | split

theorem execPtpDelayReq_keeps {s0 : State} {a0 a1 a2 a3} (h3 : Keeps s0 a3) :
    OutK s0 (execPtpDelayReq a0 a1 a2 a3) := by
  unfold execPtpDelayReq
  repeat' first
    | with_reducible intro _ | with_reducible assumption | with_reducible apply ptpDelayReq_keeps
    | with_reducible apply attempt_keeps | with_reducible exact OptP.of_none | with_reducible apply OptP.of_some
    | with_reducible apply OutK.next

theorem ptpDelayResp_keeps {s0 : State} {a0 a1 a2 a3} (h3 : Keeps s0 a3) :
    OptP (fun x0 => Keeps s0 x0) (ptpDelayResp a0 a1 a2 a3) := by
  unfold ptpDelayResp
  repeat' first
    | with_reducible intro _ | with_reducible assumption | with_reducible apply State.setPtp_keeps
    | with_reducible apply State.timeUpdate_keeps | with_reducible exact OptP.of_none | with_reducible apply OptP.of_some
    | (extract_lets +onlyGivenNames x; first | (have hx : Keeps s0 x := ?_; clear_value x; rotate_left; subst x; rotate_right) | (have hx : OptP (fun y => Keeps s0 y) x := ?_; clear_value x; rotate_left; subst x; rotate_right) | clear_value x | subst x)
    | split

theorem execPtpDelayResp_keeps {s0 : State} {a0 a1 a2 a3} (h3 : Keeps s0 a3) :
    OutK s0 (execPtpDelayResp a0 a1 a2 a3) := by
  unfold execPtpDelayResp
  repeat' first
    | with_reducible intro _ | with_reducible assumption | with_reducible apply ptpDelayResp_keeps
    | with_reducible apply attempt_keeps | with_reducible exact OptP.of_none | with_reducible apply OptP.of_some
    | with_reducible apply OutK.next

theorem ptpFollowUp_keeps {s0 : State} {a0 a1 a2 a3} (h3 : Keeps s0 a3) :
    OptP (fun x0 => Keeps s0 x0) (ptpFollowUp a0 a1 a2 a3) := by
  unfold ptpFollowUp
  repeat' first
    | with_reducible intro _ | with_reducible assumption | with_reducible apply State.sendDelayReq_keeps
    | with_reducible exact OptP.of_none | with_reducible apply OptP.of_some | split

theorem execPtpFollowUp_keeps {s0 : State} {a0 a1 a2 a3} (h3 : Keeps s0 a3) :
    OutK s0 (execPtpFollowUp a0 a1 a2 a3) := by
  unfold execPtpFollowUp
  repeat' first
    | with_reducible intro _ | with_reducible assumption | with_reducible apply ptpFollowUp_keeps
    | with_reducible apply attempt_keeps | with_reducible exact OptP.of_none | with_reducible apply OptP.of_some
    | with_reducible apply OutK.next

theorem ptpSync_keeps {s0 : State} {a0 a1 a2 a3 a4 a5} (h5 : Keeps s0 a5) :
    OptP (fun x0 => Keeps s0 x0) (ptpSync a0 a1 a2 a3 a4 a5) := by
  unfold ptpSync
  repeat' first
    | with_reducible intro _ | with_reducible assumption | with_reducible apply State.sendDelayReq_keeps
    | with_reducible apply State.setPtp_keeps | with_reducible exact OptP.of_none | with_reducible apply OptP.of_some
    | split

theorem execPtpSync_keeps {s0 : State} {a0 a1 a2 a3 a4 a5} (h5 : Keeps s0 a5) :
    OutK s0 (execPtpSync a0 a1 a2 a3 a4 a5) := by
  unfold execPtpSync
  repeat' first
    | with_reducible intro _ | with_reducible assumption | with_reducible apply ptpSync_keeps
    | with_reducible apply attempt_keeps | with_reducible exact OptP.of_none | with_reducible apply OptP.of_some
    | with_reducible apply OutK.next

theorem ptpSyncSend_keeps {s0 : State} {a0 a1} (h1 : Keeps s0 a1) :
    OptP (fun x0 => Keeps s0 x0) (ptpSyncSend a0 a1) := by
  unfold ptpSyncSend
  repeat' first
    | with_reducible intro _ | with_reducible assumption | with_reducible apply State.emit_keeps
    | with_reducible apply State.noteSent_keeps | with_reducible exact OptP.of_none | with_reducible apply OptP.of_some
    | (extract_lets +onlyGivenNames x; first | (have hx : Keeps s0 x := ?_; clear_value x; rotate_left; subst x; rotate_right) | (have hx : OptP (fun y => Keeps s0 y) x := ?_; clear_value x; rotate_left; subst x; rotate_right) | clear_value x | subst x)
    | split

theorem execPtpSyncSend_keeps {s0 : State} {a0 a1} (h1 : Keeps s0 a1) :
    OutK s0 (execPtpSyncSend a0 a1) := by
  unfold execPtpSyncSend
  repeat' first
    | with_reducible intro _ | with_reducible assumption | with_reducible apply ptpSyncSend_keeps
    | with_reducible apply attempt_keeps | with_reducible exact OptP.of_none | with_reducible apply OptP.of_some
    | with_reducible apply OutK.next

theorem sourceTimeout_keeps {s0 : State} {a0} (h0 : Keeps s0 a0) :
    OptP (fun x0 => Keeps s0 x0) (sourceTimeout a0) := by
  unfold sourceTimeout
  repeat' first
    | with_reducible intro _ | with_reducible assumption | with_reducible apply State.setCfgF_keeps
    | with_reducible apply State.setGcState_keeps | with_reducible exact OptP.of_none | with_reducible apply OptP.of_some
    | (extract_lets +onlyGivenNames x; first | (have hx : Keeps s0 x := ?_; clear_value x; rotate_left; subst x; rotate_right) | (have hx : OptP (fun y => Keeps s0 y) x := ?_; clear_value x; rotate_left; subst x; rotate_right) | clear_value x | subst x)
    | split | with_reducible apply Keeps.lit

theorem execSourceTimeout_keeps {s0 : State} {a0} (h0 : Keeps s0 a0) :
    OutK s0 (execSourceTimeout a0) := by
  unfold execSourceTimeout
  repeat' first
    | with_reducible intro _ | with_reducible assumption | with_reducible apply sourceTimeout_keeps
    | with_reducible apply attempt_keeps | with_reducible exact OptP.of_none | with_reducible apply OptP.of_some
    | with_reducible apply OutK.next

end Sys2Proof.Machine
end

