-- ==== Sys2Proof/Laws/KeepsOfFinal.lean ====
section
/-! SUPPORT. What the operations of Final keep. -/

namespace Sys2Proof.Machine

theorem completeCmd_keeps {s0 : State} {a0 a1 a2} (h2 : Keeps s0 a2) :
    OptP (fun x0 => Keeps s0 x0) (completeCmd a0 a1 a2) := by
  unfold completeCmd
  repeat' first
    | with_reducible intro _ | with_reducible assumption | with_reducible apply completeApply_keeps
    | with_reducible apply completeAudit_keeps | with_reducible apply completeCommit_keeps
    | with_reducible apply completeCompare_keeps | with_reducible apply completeExport_keeps
    | with_reducible apply completeHalt_keeps | with_reducible apply completeImport_keeps
    | with_reducible apply completeInput_keeps | with_reducible apply completeLoad_keeps
    | with_reducible apply completeOverlay_keeps | with_reducible apply completePeek_keeps
    | with_reducible apply completePrepare_keeps | with_reducible apply completeReset_keeps
    | with_reducible apply completeReturn_keeps | with_reducible apply completeSnap_keeps
    | with_reducible apply completeStage_keeps | with_reducible apply completeStart_keeps
    | with_reducible apply completeStop_keeps | with_reducible apply completeTeardown_keeps
    | with_reducible apply completeTgen_keeps | with_reducible apply completeUnload_keeps
    | with_reducible exact OptP.of_none | with_reducible apply OptP.of_some | split
    | with_reducible refine OptP.get ?_ (by assumption) | with_reducible exact OptP.get (by assumption) rfl

theorem pendingComplete_keeps {s0 : State} {a0 a1 a2} (h2 : Keeps s0 a2) :
    OptP (fun x0 => Keeps s0 x0) (pendingComplete a0 a1 a2) := by
  unfold pendingComplete
  repeat' first
    | with_reducible intro _ | with_reducible assumption | with_reducible apply completeCmd_keeps
    | with_reducible exact OptP.of_none | with_reducible apply OptP.of_some | split
    | with_reducible refine OptP.get ?_ (by assumption) | with_reducible exact OptP.get (by assumption) rfl

theorem execPendingCommandComplete_keeps {s0 : State} {a0 a1 a2} (h2 : Keeps s0 a2) :
    OutK s0 (execPendingCommandComplete a0 a1 a2) := by
  unfold execPendingCommandComplete
  repeat' first
    | with_reducible intro _ | with_reducible assumption | with_reducible apply pendingComplete_keeps
    | with_reducible apply attempt_keeps | with_reducible exact OptP.of_none | with_reducible apply OptP.of_some
    | with_reducible apply OutK.next

end Sys2Proof.Machine
end

