-- ==== Sys2Proof/Laws/KeepsOfHeartwood.lean ====
section
/-! SUPPORT. What the operations of Heartwood keep. -/

namespace Sys2Proof.Machine

theorem State.i3cStore_keeps {s0 : State} {a0 a1 a2} (h0 : Keeps s0 a0) :
    Keeps s0 (State.i3cStore a0 a1 a2) := by
  unfold State.i3cStore
  repeat' first
    | with_reducible intro _ | with_reducible assumption | with_reducible apply State.mbxPlain_keeps
    | with_reducible apply State.mbxWrite_keeps | with_reducible exact OptP.of_none | with_reducible apply OptP.of_some
    | with_reducible apply Keeps.foldl | with_reducible apply Keeps.foldl1 | with_reducible apply Keeps.foldl2
    | (extract_lets +onlyGivenNames x; first | (have hx : Keeps s0 x := ?_; clear_value x; rotate_left; subst x; rotate_right) | clear_value x | subst x)
    | split

theorem State.setI3c_keeps {s0 : State} {a0 a1 a2} (h0 : Keeps s0 a0) :
    Keeps s0 (State.setI3c a0 a1 a2) := by
  unfold State.setI3c
  repeat' first
    | with_reducible intro _ | with_reducible assumption | with_reducible exact OptP.of_none
    | with_reducible apply OptP.of_some
    | (extract_lets +onlyGivenNames x; first | (have hx : Keeps s0 x := ?_; clear_value x; rotate_left; subst x; rotate_right) | clear_value x | subst x)
    | with_reducible apply Keeps.lit

theorem disec_keeps {s0 : State} {a0 a1 a2} (h2 : Keeps s0 a2) :
    OptP (fun x0 => Keeps s0 x0) (disec a0 a1 a2) := by
  unfold disec
  repeat' first
    | with_reducible intro _ | with_reducible assumption | with_reducible apply State.setI3c_keeps
    | with_reducible exact OptP.of_none | with_reducible apply OptP.of_some
    | (extract_lets +onlyGivenNames x; first | (have hx : Keeps s0 x := ?_; clear_value x; rotate_left; subst x; rotate_right) | (have hx : OptP (fun y => Keeps s0 y) x := ?_; clear_value x; rotate_left; subst x; rotate_right) | clear_value x | subst x)
    | split

theorem enec_keeps {s0 : State} {a0 a1 a2} (h2 : Keeps s0 a2) :
    OptP (fun x0 => Keeps s0 x0) (enec a0 a1 a2) := by
  unfold enec
  repeat' first
    | with_reducible intro _ | with_reducible assumption | with_reducible apply State.setI3c_keeps
    | with_reducible exact OptP.of_none | with_reducible apply OptP.of_some
    | (extract_lets +onlyGivenNames x; first | (have hx : Keeps s0 x := ?_; clear_value x; rotate_left; subst x; rotate_right) | (have hx : OptP (fun y => Keeps s0 y) x := ?_; clear_value x; rotate_left; subst x; rotate_right) | clear_value x | subst x)
    | split

theorem entdaa_keeps {s0 : State} {a0 a1 a2 a3} (h3 : Keeps s0 a3) :
    OptP (fun x0 => Keeps s0 x0) (entdaa a0 a1 a2 a3) := by
  unfold entdaa
  repeat' first
    | with_reducible intro _ | with_reducible assumption | with_reducible apply State.setI3c_keeps
    | with_reducible exact OptP.of_none | with_reducible apply OptP.of_some
    | (extract_lets +onlyGivenNames x; first | (have hx : Keeps s0 x := ?_; clear_value x; rotate_left; subst x; rotate_right) | (have hx : OptP (fun y => Keeps s0 y) x := ?_; clear_value x; rotate_left; subst x; rotate_right) | clear_value x | subst x)
    | split

theorem execDisec_keeps {s0 : State} {a0 a1 a2} (h2 : Keeps s0 a2) :
    OutK s0 (execDisec a0 a1 a2) := by
  unfold execDisec
  repeat' first
    | with_reducible intro _ | with_reducible assumption | with_reducible apply disec_keeps
    | with_reducible apply attempt_keeps | with_reducible exact OptP.of_none | with_reducible apply OptP.of_some
    | with_reducible apply OutK.next

theorem execEnec_keeps {s0 : State} {a0 a1 a2} (h2 : Keeps s0 a2) :
    OutK s0 (execEnec a0 a1 a2) := by
  unfold execEnec
  repeat' first
    | with_reducible intro _ | with_reducible assumption | with_reducible apply enec_keeps
    | with_reducible apply attempt_keeps | with_reducible exact OptP.of_none | with_reducible apply OptP.of_some
    | with_reducible apply OutK.next

theorem execEntdaa_keeps {s0 : State} {a0 a1 a2 a3} (h3 : Keeps s0 a3) :
    OutK s0 (execEntdaa a0 a1 a2 a3) := by
  unfold execEntdaa
  repeat' first
    | with_reducible intro _ | with_reducible assumption | with_reducible apply entdaa_keeps
    | with_reducible apply attempt_keeps | with_reducible exact OptP.of_none | with_reducible apply OptP.of_some
    | with_reducible apply OutK.next

theorem getbcr_keeps {s0 : State} {a0 a1} (h1 : Keeps s0 a1) :
    OptP (fun x0 => Keeps s0 x0) (getbcr a0 a1) := by
  unfold getbcr
  repeat' first
    | with_reducible intro _ | with_reducible assumption | with_reducible apply State.emit_keeps
    | with_reducible exact OptP.of_none | with_reducible apply OptP.of_some | split

theorem execGetbcr_keeps {s0 : State} {a0 a1} (h1 : Keeps s0 a1) :
    OutK s0 (execGetbcr a0 a1) := by
  unfold execGetbcr
  repeat' first
    | with_reducible intro _ | with_reducible assumption | with_reducible apply getbcr_keeps
    | with_reducible apply attempt_keeps | with_reducible exact OptP.of_none | with_reducible apply OptP.of_some
    | with_reducible apply OutK.next

theorem getdcr_keeps {s0 : State} {a0 a1} (h1 : Keeps s0 a1) :
    OptP (fun x0 => Keeps s0 x0) (getdcr a0 a1) := by
  unfold getdcr
  repeat' first
    | with_reducible intro _ | with_reducible assumption | with_reducible apply State.emit_keeps
    | with_reducible exact OptP.of_none | with_reducible apply OptP.of_some | split

theorem execGetdcr_keeps {s0 : State} {a0 a1} (h1 : Keeps s0 a1) :
    OutK s0 (execGetdcr a0 a1) := by
  unfold execGetdcr
  repeat' first
    | with_reducible intro _ | with_reducible assumption | with_reducible apply getdcr_keeps
    | with_reducible apply attempt_keeps | with_reducible exact OptP.of_none | with_reducible apply OptP.of_some
    | with_reducible apply OutK.next

theorem getpid_keeps {s0 : State} {a0 a1} (h1 : Keeps s0 a1) :
    OptP (fun x0 => Keeps s0 x0) (getpid a0 a1) := by
  unfold getpid
  repeat' first
    | with_reducible intro _ | with_reducible assumption | with_reducible apply State.emit_keeps
    | with_reducible exact OptP.of_none | with_reducible apply OptP.of_some | split

theorem execGetpid_keeps {s0 : State} {a0 a1} (h1 : Keeps s0 a1) :
    OutK s0 (execGetpid a0 a1) := by
  unfold execGetpid
  repeat' first
    | with_reducible intro _ | with_reducible assumption | with_reducible apply getpid_keeps
    | with_reducible apply attempt_keeps | with_reducible exact OptP.of_none | with_reducible apply OptP.of_some
    | with_reducible apply OutK.next

theorem getstatus_keeps {s0 : State} {a0 a1} (h1 : Keeps s0 a1) :
    OptP (fun x0 => Keeps s0 x0) (getstatus a0 a1) := by
  unfold getstatus
  repeat' first
    | with_reducible intro _ | with_reducible assumption | with_reducible apply State.emit_keeps
    | with_reducible exact OptP.of_none | with_reducible apply OptP.of_some | split

theorem execGetstatus_keeps {s0 : State} {a0 a1} (h1 : Keeps s0 a1) :
    OutK s0 (execGetstatus a0 a1) := by
  unfold execGetstatus
  repeat' first
    | with_reducible intro _ | with_reducible assumption | with_reducible apply getstatus_keeps
    | with_reducible apply attempt_keeps | with_reducible exact OptP.of_none | with_reducible apply OptP.of_some
    | with_reducible apply OutK.next

theorem heartbeatSend_keeps {s0 : State} {a0} (h0 : Keeps s0 a0) :
    OptP (fun x0 => Keeps s0 x0) (heartbeatSend a0) := by
  unfold heartbeatSend
  repeat' first
    | with_reducible intro _ | with_reducible assumption | with_reducible exact OptP.of_none
    | with_reducible apply OptP.of_some
    | (extract_lets +onlyGivenNames x; first | (have hx : Keeps s0 x := ?_; clear_value x; rotate_left; subst x; rotate_right) | (have hx : OptP (fun y => Keeps s0 y) x := ?_; clear_value x; rotate_left; subst x; rotate_right) | clear_value x | subst x)
    | split | with_reducible apply Keeps.lit

theorem execHeartbeatSend_keeps {s0 : State} {a0} (h0 : Keeps s0 a0) :
    OutK s0 (execHeartbeatSend a0) := by
  unfold execHeartbeatSend
  repeat' first
    | with_reducible intro _ | with_reducible assumption | with_reducible apply heartbeatSend_keeps
    | with_reducible apply attempt_keeps | with_reducible exact OptP.of_none | with_reducible apply OptP.of_some
    | with_reducible apply OutK.next

theorem heartbeatTimeout_keeps {s0 : State} {a0} (h0 : Keeps s0 a0) :
    OptP (fun x0 => Keeps s0 x0) (heartbeatTimeout a0) := by
  unfold heartbeatTimeout
  repeat' first
    | with_reducible intro _ | with_reducible assumption | with_reducible exact OptP.of_none
    | with_reducible apply OptP.of_some
    | (extract_lets +onlyGivenNames x; first | (have hx : Keeps s0 x := ?_; clear_value x; rotate_left; subst x; rotate_right) | (have hx : OptP (fun y => Keeps s0 y) x := ?_; clear_value x; rotate_left; subst x; rotate_right) | clear_value x | subst x)
    | split | with_reducible apply Keeps.lit

theorem execHeartbeatTimeout_keeps {s0 : State} {a0} (h0 : Keeps s0 a0) :
    OutK s0 (execHeartbeatTimeout a0) := by
  unfold execHeartbeatTimeout
  repeat' first
    | with_reducible intro _ | with_reducible assumption | with_reducible apply heartbeatTimeout_keeps
    | with_reducible apply attempt_keeps | with_reducible exact OptP.of_none | with_reducible apply OptP.of_some
    | with_reducible apply OutK.next

theorem heartwoodSilence_keeps {s0 : State} {a0} (h0 : Keeps s0 a0) :
    OptP (fun x0 => Keeps s0 x0) (heartwoodSilence a0) := by
  unfold heartwoodSilence
  repeat' first
    | with_reducible intro _ | with_reducible assumption | with_reducible exact OptP.of_none
    | with_reducible apply OptP.of_some
    | (extract_lets +onlyGivenNames x; first | (have hx : Keeps s0 x := ?_; clear_value x; rotate_left; subst x; rotate_right) | (have hx : OptP (fun y => Keeps s0 y) x := ?_; clear_value x; rotate_left; subst x; rotate_right) | clear_value x | subst x)
    | split | with_reducible apply Keeps.lit

theorem execHeartwoodSilence_keeps {s0 : State} {a0} (h0 : Keeps s0 a0) :
    OutK s0 (execHeartwoodSilence a0) := by
  unfold execHeartwoodSilence
  repeat' first
    | with_reducible intro _ | with_reducible assumption | with_reducible apply heartwoodSilence_keeps
    | with_reducible apply attempt_keeps | with_reducible exact OptP.of_none | with_reducible apply OptP.of_some
    | with_reducible apply OutK.next

theorem privateRead_keeps {s0 : State} {a0 a1 a2} (h2 : Keeps s0 a2) :
    OptP (fun x0 => Keeps s0 x0) (privateRead a0 a1 a2) := by
  unfold privateRead
  repeat' first
    | with_reducible intro _ | with_reducible assumption | with_reducible apply State.emit_keeps
    | with_reducible apply State.irqTake_keeps | with_reducible exact OptP.of_none | with_reducible apply OptP.of_some
    | (extract_lets +onlyGivenNames x; first | (have hx : Keeps s0 x := ?_; clear_value x; rotate_left; subst x; rotate_right) | (have hx : OptP (fun y => Keeps s0 y) x := ?_; clear_value x; rotate_left; subst x; rotate_right) | clear_value x | subst x)
    | split

theorem execI3cPrivateRead_keeps {s0 : State} {a0 a1 a2} (h2 : Keeps s0 a2) :
    OutK s0 (execI3cPrivateRead a0 a1 a2) := by
  unfold execI3cPrivateRead
  repeat' first
    | with_reducible intro _ | with_reducible assumption | with_reducible apply privateRead_keeps
    | with_reducible apply attempt_keeps | with_reducible exact OptP.of_none | with_reducible apply OptP.of_some
    | with_reducible apply OutK.next

theorem privateWrite_keeps {s0 : State} {a0 a1 a2} (h2 : Keeps s0 a2) :
    OptP (fun x0 => Keeps s0 x0) (privateWrite a0 a1 a2) := by
  unfold privateWrite
  repeat' first
    | with_reducible intro _ | with_reducible assumption | with_reducible apply State.i3cStore_keeps
    | with_reducible apply State.setI3c_keeps | with_reducible exact OptP.of_none | with_reducible apply OptP.of_some
    | (extract_lets +onlyGivenNames x; first | (have hx : Keeps s0 x := ?_; clear_value x; rotate_left; subst x; rotate_right) | (have hx : OptP (fun y => Keeps s0 y) x := ?_; clear_value x; rotate_left; subst x; rotate_right) | clear_value x | subst x)
    | split

theorem execI3cPrivateWrite_keeps {s0 : State} {a0 a1 a2} (h2 : Keeps s0 a2) :
    OutK s0 (execI3cPrivateWrite a0 a1 a2) := by
  unfold execI3cPrivateWrite
  repeat' first
    | with_reducible intro _ | with_reducible assumption | with_reducible apply privateWrite_keeps
    | with_reducible apply attempt_keeps | with_reducible exact OptP.of_none | with_reducible apply OptP.of_some
    | with_reducible apply OutK.next

theorem ibiRetry_keeps {s0 : State} {a0} (h0 : Keeps s0 a0) :
    OptP (fun x0 => Keeps s0 x0) (ibiRetry a0) := by
  unfold ibiRetry
  repeat' first
    | with_reducible intro _ | with_reducible assumption | with_reducible apply State.emit_keeps
    | with_reducible exact OptP.of_none | with_reducible apply OptP.of_some | split

theorem execIbiRetry_keeps {s0 : State} {a0} (h0 : Keeps s0 a0) :
    OutK s0 (execIbiRetry a0) := by
  unfold execIbiRetry
  repeat' first
    | with_reducible intro _ | with_reducible assumption | with_reducible apply ibiRetry_keeps
    | with_reducible apply attempt_keeps | with_reducible exact OptP.of_none | with_reducible apply OptP.of_some
    | with_reducible apply OutK.next

theorem mirrorAck_keeps {s0 : State} {a0} (h0 : Keeps s0 a0) :
    OptP (fun x0 => Keeps s0 x0) (mirrorAck a0) := by
  unfold mirrorAck
  repeat' first
    | with_reducible intro _ | with_reducible assumption | with_reducible exact OptP.of_none
    | with_reducible apply OptP.of_some
    | (extract_lets +onlyGivenNames x; first | (have hx : Keeps s0 x := ?_; clear_value x; rotate_left; subst x; rotate_right) | (have hx : OptP (fun y => Keeps s0 y) x := ?_; clear_value x; rotate_left; subst x; rotate_right) | clear_value x | subst x)
    | split | with_reducible apply Keeps.lit

theorem execMirrorAck_keeps {s0 : State} {a0} (h0 : Keeps s0 a0) :
    OutK s0 (execMirrorAck a0) := by
  unfold execMirrorAck
  repeat' first
    | with_reducible intro _ | with_reducible assumption | with_reducible apply mirrorAck_keeps
    | with_reducible apply attempt_keeps | with_reducible exact OptP.of_none | with_reducible apply OptP.of_some
    | with_reducible apply OutK.next

theorem mirrorRecord_keeps {s0 : State} {a0} (h0 : Keeps s0 a0) :
    OptP (fun x0 => Keeps s0 x0) (mirrorRecord a0) := by
  unfold mirrorRecord
  repeat' first
    | with_reducible intro _ | with_reducible assumption | with_reducible exact OptP.of_none
    | with_reducible apply OptP.of_some
    | (extract_lets +onlyGivenNames x; first | (have hx : Keeps s0 x := ?_; clear_value x; rotate_left; subst x; rotate_right) | (have hx : OptP (fun y => Keeps s0 y) x := ?_; clear_value x; rotate_left; subst x; rotate_right) | clear_value x | subst x)
    | split | with_reducible apply Keeps.lit

theorem execMirrorRecord_keeps {s0 : State} {a0} (h0 : Keeps s0 a0) :
    OutK s0 (execMirrorRecord a0) := by
  unfold execMirrorRecord
  repeat' first
    | with_reducible intro _ | with_reducible assumption | with_reducible apply mirrorRecord_keeps
    | with_reducible apply attempt_keeps | with_reducible exact OptP.of_none | with_reducible apply OptP.of_some
    | with_reducible apply OutK.next

theorem rstdaa_keeps {s0 : State} {a0 a1} (h1 : Keeps s0 a1) :
    OptP (fun x0 => Keeps s0 x0) (rstdaa a0 a1) := by
  unfold rstdaa
  repeat' first
    | with_reducible intro _ | with_reducible assumption | with_reducible apply State.setI3c_keeps
    | with_reducible exact OptP.of_none | with_reducible apply OptP.of_some
    | (extract_lets +onlyGivenNames x; first | (have hx : Keeps s0 x := ?_; clear_value x; rotate_left; subst x; rotate_right) | (have hx : OptP (fun y => Keeps s0 y) x := ?_; clear_value x; rotate_left; subst x; rotate_right) | clear_value x | subst x)
    | split

theorem execRstdaa_keeps {s0 : State} {a0 a1} (h1 : Keeps s0 a1) :
    OutK s0 (execRstdaa a0 a1) := by
  unfold execRstdaa
  repeat' first
    | with_reducible intro _ | with_reducible assumption | with_reducible apply rstdaa_keeps
    | with_reducible apply attempt_keeps | with_reducible exact OptP.of_none | with_reducible apply OptP.of_some
    | with_reducible apply OutK.next

theorem setmrl_keeps {s0 : State} {a0 a1 a2} (h2 : Keeps s0 a2) :
    OptP (fun x0 => Keeps s0 x0) (setmrl a0 a1 a2) := by
  unfold setmrl
  repeat' first
    | with_reducible intro _ | with_reducible assumption | with_reducible apply State.setI3c_keeps
    | with_reducible exact OptP.of_none | with_reducible apply OptP.of_some
    | (extract_lets +onlyGivenNames x; first | (have hx : Keeps s0 x := ?_; clear_value x; rotate_left; subst x; rotate_right) | (have hx : OptP (fun y => Keeps s0 y) x := ?_; clear_value x; rotate_left; subst x; rotate_right) | clear_value x | subst x)
    | split

theorem execSetmrl_keeps {s0 : State} {a0 a1 a2} (h2 : Keeps s0 a2) :
    OutK s0 (execSetmrl a0 a1 a2) := by
  unfold execSetmrl
  repeat' first
    | with_reducible intro _ | with_reducible assumption | with_reducible apply setmrl_keeps
    | with_reducible apply attempt_keeps | with_reducible exact OptP.of_none | with_reducible apply OptP.of_some
    | with_reducible apply OutK.next

theorem setmwl_keeps {s0 : State} {a0 a1 a2} (h2 : Keeps s0 a2) :
    OptP (fun x0 => Keeps s0 x0) (setmwl a0 a1 a2) := by
  unfold setmwl
  repeat' first
    | with_reducible intro _ | with_reducible assumption | with_reducible apply State.setI3c_keeps
    | with_reducible exact OptP.of_none | with_reducible apply OptP.of_some
    | (extract_lets +onlyGivenNames x; first | (have hx : Keeps s0 x := ?_; clear_value x; rotate_left; subst x; rotate_right) | (have hx : OptP (fun y => Keeps s0 y) x := ?_; clear_value x; rotate_left; subst x; rotate_right) | clear_value x | subst x)
    | split

theorem execSetmwl_keeps {s0 : State} {a0 a1 a2} (h2 : Keeps s0 a2) :
    OutK s0 (execSetmwl a0 a1 a2) := by
  unfold execSetmwl
  repeat' first
    | with_reducible intro _ | with_reducible assumption | with_reducible apply setmwl_keeps
    | with_reducible apply attempt_keeps | with_reducible exact OptP.of_none | with_reducible apply OptP.of_some
    | with_reducible apply OutK.next

theorem standbyFailure_keeps {s0 : State} {a0 a1} (h1 : Keeps s0 a1) :
    OptP (fun x0 => Keeps s0 x0) (standbyFailure a0 a1) := by
  unfold standbyFailure
  repeat' first
    | with_reducible intro _ | with_reducible assumption | with_reducible apply State.takeEvent_keeps
    | with_reducible exact OptP.of_none | with_reducible apply OptP.of_some
    | (extract_lets +onlyGivenNames x; first | (have hx : Keeps s0 x := ?_; clear_value x; rotate_left; subst x; rotate_right) | (have hx : OptP (fun y => Keeps s0 y) x := ?_; clear_value x; rotate_left; subst x; rotate_right) | clear_value x | subst x)
    | split | with_reducible apply Keeps.lit

theorem execStandbyFailure_keeps {s0 : State} {a0 a1} (h1 : Keeps s0 a1) :
    OutK s0 (execStandbyFailure a0 a1) := by
  unfold execStandbyFailure
  repeat' first
    | with_reducible intro _ | with_reducible assumption | with_reducible apply standbyFailure_keeps
    | with_reducible apply attempt_keeps | with_reducible exact OptP.of_none | with_reducible apply OptP.of_some
    | with_reducible apply OutK.next

theorem takeoverComplete_keeps {s0 : State} {a0} (h0 : Keeps s0 a0) :
    OptP (fun x0 => Keeps s0 x0) (takeoverComplete a0) := by
  unfold takeoverComplete
  repeat' first
    | with_reducible intro _ | with_reducible assumption | with_reducible apply State.setIrq_keeps
    | with_reducible apply State.takeEvent_keeps | with_reducible exact OptP.of_none | with_reducible apply OptP.of_some
    | with_reducible apply Keeps.foldl | with_reducible apply Keeps.foldl1 | with_reducible apply Keeps.foldl2
    | (extract_lets +onlyGivenNames x; first | (have hx : Keeps s0 x := ?_; clear_value x; rotate_left; subst x; rotate_right) | (have hx : OptP (fun y => Keeps s0 y) x := ?_; clear_value x; rotate_left; subst x; rotate_right) | clear_value x | subst x)
    | split | with_reducible apply Keeps.lit

theorem execTakeoverComplete_keeps {s0 : State} {a0} (h0 : Keeps s0 a0) :
    OutK s0 (execTakeoverComplete a0) := by
  unfold execTakeoverComplete
  repeat' first
    | with_reducible intro _ | with_reducible assumption | with_reducible apply takeoverComplete_keeps
    | with_reducible apply attempt_keeps | with_reducible exact OptP.of_none | with_reducible apply OptP.of_some
    | with_reducible apply OutK.next

end Sys2Proof.Machine
end

