-- ==== Sys2Proof/Laws/KeepsOfMatrix.lean ====
section
/-! SUPPORT. What the operations of Matrix keep. -/

namespace Sys2Proof.Machine

theorem State.engineEnd_keeps {s0 : State} {a0 a1 a2} (h0 : Keeps s0 a0) :
    Keeps s0 (State.engineEnd a0 a1 a2) := by
  unfold State.engineEnd
  repeat' first
    | with_reducible intro _ | with_reducible assumption | with_reducible apply State.bumpCtr_keeps
    | with_reducible apply State.sendSigs_keeps | with_reducible apply State.setStream_keeps
    | with_reducible apply State.traceEng_keeps | with_reducible apply State.wsLeave_keeps
    | with_reducible exact OptP.of_none | with_reducible apply OptP.of_some
    | (extract_lets +onlyGivenNames x; first | (have hx : Keeps s0 x := ?_; clear_value x; rotate_left; subst x; rotate_right) | clear_value x | subst x)
    | split | with_reducible apply Keeps.lit

theorem State.setAcc_keeps {s0 : State} {a0 a1 a2 a3 a4} (h0 : Keeps s0 a0) :
    Keeps s0 (State.setAcc a0 a1 a2 a3 a4) := by
  unfold State.setAcc
  repeat' first
    | with_reducible intro _ | with_reducible assumption | with_reducible exact OptP.of_none
    | with_reducible apply OptP.of_some
    | (extract_lets +onlyGivenNames x; first | (have hx : Keeps s0 x := ?_; clear_value x; rotate_left; subst x; rotate_right) | clear_value x | subst x)
    | with_reducible apply Keeps.lit

theorem State.meRow_keeps {s0 : State} {a0 a1 a2 a3 a4} (h1 : Keeps s0 a1) :
    Keeps s0 (State.meRow a0 a1 a2 a3 a4).1 := by
  unfold State.meRow
  repeat' first
    | with_reducible intro _ | with_reducible assumption | with_reducible apply State.setAcc_keeps
    | with_reducible exact OptP.of_none | with_reducible apply OptP.of_some | with_reducible apply Keeps.foldl
    | with_reducible apply Keeps.foldl1 | with_reducible apply Keeps.foldl2
    | (extract_lets +onlyGivenNames x; first | (have hx : Keeps s0 x := ?_; clear_value x; rotate_left; subst x; rotate_right) | (have hx : Keeps s0 x.1 := ?_; clear_value x; rotate_left; subst x; rotate_right) | clear_value x | subst x)
    | split

theorem State.meEffect_keeps {s0 : State} {a0 a1} (h0 : Keeps s0 a0) :
    Keeps s0 (State.meEffect a0 a1) := by
  unfold State.meEffect
  repeat' first
    | with_reducible intro _ | with_reducible assumption | with_reducible apply State.meRow_keeps
    | with_reducible apply State.putRow_keeps | with_reducible apply State.putZeros_keeps
    | with_reducible apply State.sentUpdate_keeps | with_reducible exact OptP.of_none | with_reducible apply OptP.of_some
    | with_reducible apply Keeps.foldl | with_reducible apply Keeps.foldl1 | with_reducible apply Keeps.foldl2
    | (extract_lets +onlyGivenNames x; first | (have hx : Keeps s0 x := ?_; clear_value x; rotate_left; subst x; rotate_right) | (have hx : Keeps s0 x.1 := ?_; clear_value x; rotate_left; subst x; rotate_right) | clear_value x | subst x)
    | split | with_reducible refine pair1 ?_ (by assumption) | with_reducible apply Keeps.lit

theorem State.sentInvalid_keeps {s0 : State} {a0 a1 a2 a3} (h0 : Keeps s0 a0) :
    Keeps s0 (State.sentInvalid a0 a1 a2 a3) := by
  unfold State.sentInvalid
  repeat' first
    | with_reducible intro _ | with_reducible assumption | with_reducible apply State.sentUpdate_keeps
    | with_reducible exact OptP.of_none | with_reducible apply OptP.of_some
    | (extract_lets +onlyGivenNames x; first | (have hx : Keeps s0 x := ?_; clear_value x; rotate_left; subst x; rotate_right) | clear_value x | subst x)
    | split

theorem State.meInvalid_keeps {s0 : State} {a0 a1} (h0 : Keeps s0 a0) :
    Keeps s0 (State.meInvalid a0 a1) := by
  unfold State.meInvalid
  repeat' first
    | with_reducible intro _ | with_reducible assumption | with_reducible apply State.countInvalid_keeps
    | with_reducible apply State.sentInvalid_keeps | with_reducible exact OptP.of_none | with_reducible apply OptP.of_some
    | (extract_lets +onlyGivenNames x; first | (have hx : Keeps s0 x := ?_; clear_value x; rotate_left; subst x; rotate_right) | clear_value x | subst x)
    | split

theorem State.meMapCounts_keeps {s0 : State} {a0 a1 a2} (h0 : Keeps s0 a0) :
    Keeps s0 (State.meMapCounts a0 a1 a2) := by
  unfold State.meMapCounts
  repeat' first
    | with_reducible intro _ | with_reducible assumption | with_reducible exact OptP.of_none
    | with_reducible apply OptP.of_some | with_reducible apply Keeps.foldl | with_reducible apply Keeps.foldl1
    | with_reducible apply Keeps.foldl2
    | (extract_lets +onlyGivenNames x; first | (have hx : Keeps s0 x := ?_; clear_value x; rotate_left; subst x; rotate_right) | clear_value x | subst x)
    | split | with_reducible apply Keeps.lit

theorem State.meFinish_keeps {s0 : State} {a0 a1 a2 a3 a4} (h0 : Keeps s0 a0) :
    Keeps s0 (State.meFinish a0 a1 a2 a3 a4) := by
  unfold State.meFinish
  repeat' first
    | with_reducible intro _ | with_reducible assumption | with_reducible apply State.meEffect_keeps
    | with_reducible apply State.meInvalid_keeps | with_reducible apply State.meMapCounts_keeps
    | with_reducible apply State.wsEnter_keeps | with_reducible apply State.wsLeave_keeps
    | with_reducible apply startFlight_keeps | with_reducible exact OptP.of_none | with_reducible apply OptP.of_some
    | (extract_lets +onlyGivenNames x; first | (have hx : Keeps s0 x := ?_; clear_value x; rotate_left; subst x; rotate_right) | clear_value x | subst x)
    | split

theorem engineDone_keeps {s0 : State} {a0 a1} (h1 : Keeps s0 a1) :
    OptP (fun x0 => Keeps s0 x0) (engineDone a0 a1) := by
  unfold engineDone
  repeat' first
    | with_reducible intro _ | with_reducible assumption | with_reducible apply State.engineEnd_keeps
    | with_reducible exact OptP.of_none | with_reducible apply OptP.of_some
    | (extract_lets +onlyGivenNames x; first | (have hx : Keeps s0 x := ?_; clear_value x; rotate_left; subst x; rotate_right) | (have hx : OptP (fun y => Keeps s0 y) x := ?_; clear_value x; rotate_left; subst x; rotate_right) | clear_value x | subst x)
    | split

theorem execEngineInstructionComplete_keeps {s0 : State} {a0 a1} (h1 : Keeps s0 a1) :
    OutK s0 (execEngineInstructionComplete a0 a1) := by
  unfold execEngineInstructionComplete
  repeat' first
    | with_reducible intro _ | with_reducible assumption | with_reducible apply engineDone_keeps
    | with_reducible apply attempt_keeps | with_reducible exact OptP.of_none | with_reducible apply OptP.of_some
    | with_reducible apply OutK.next

theorem runMe_keeps {s0 : State} {a0 a1 a2 a3 a4} (h2 : Keeps s0 a2) :
    RanK s0 (runMe a0 a1 a2 a3 a4) := by
  unfold runMe
  repeat' first
    | with_reducible intro _ | with_reducible assumption | with_reducible apply State.meFinish_keeps
    | with_reducible exact OptP.of_none | with_reducible apply OptP.of_some | with_reducible apply RanK.done
    | with_reducible exact RanK.fault | with_reducible exact RanK.bad | with_reducible exact RanK.asleep
    | with_reducible exact RanK.full
    | (extract_lets +onlyGivenNames x; first | (have hx : Keeps s0 x := ?_; clear_value x; rotate_left; subst x; rotate_right) | clear_value x | subst x)
    | split

theorem execMe_keeps {s0 : State} {a0 a1 a2} (h2 : Keeps s0 a2) :
    OptP (fun x0 => Keeps s0 x0) (execMe a0 a1 a2) := by
  unfold execMe
  repeat' first
    | with_reducible intro _ | with_reducible assumption | with_reducible apply issue_keeps
    | with_reducible apply runMe_keeps | with_reducible exact OptP.of_none | with_reducible apply OptP.of_some
    | with_reducible apply RanK.done | with_reducible exact RanK.fault | with_reducible exact RanK.bad
    | with_reducible exact RanK.asleep | with_reducible exact RanK.full

theorem execMxc_keeps {s0 : State} {a0 a1} (h1 : Keeps s0 a1) :
    OutK s0 (execMxc a0 a1) := by
  unfold execMxc
  repeat' first
    | with_reducible intro _ | with_reducible assumption | with_reducible apply execMe_keeps
    | with_reducible apply attempt_keeps | with_reducible exact OptP.of_none | with_reducible apply OptP.of_some
    | with_reducible apply OutK.next

theorem execMxd_keeps {s0 : State} {a0 a1} (h1 : Keeps s0 a1) :
    OutK s0 (execMxd a0 a1) := by
  unfold execMxd
  repeat' first
    | with_reducible intro _ | with_reducible assumption | with_reducible apply execMe_keeps
    | with_reducible apply attempt_keeps | with_reducible exact OptP.of_none | with_reducible apply OptP.of_some
    | with_reducible apply OutK.next

theorem execMxo_keeps {s0 : State} {a0 a1} (h1 : Keeps s0 a1) :
    OutK s0 (execMxo a0 a1) := by
  unfold execMxo
  repeat' first
    | with_reducible intro _ | with_reducible assumption | with_reducible apply execMe_keeps
    | with_reducible apply attempt_keeps | with_reducible exact OptP.of_none | with_reducible apply OptP.of_some
    | with_reducible apply OutK.next

theorem execMxs_keeps {s0 : State} {a0 a1} (h1 : Keeps s0 a1) :
    OutK s0 (execMxs a0 a1) := by
  unfold execMxs
  repeat' first
    | with_reducible intro _ | with_reducible assumption | with_reducible apply execMe_keeps
    | with_reducible apply attempt_keeps | with_reducible exact OptP.of_none | with_reducible apply OptP.of_some
    | with_reducible apply OutK.next

theorem execMxt_keeps {s0 : State} {a0 a1} (h1 : Keeps s0 a1) :
    OutK s0 (execMxt a0 a1) := by
  unfold execMxt
  repeat' first
    | with_reducible intro _ | with_reducible assumption | with_reducible apply execMe_keeps
    | with_reducible apply attempt_keeps | with_reducible exact OptP.of_none | with_reducible apply OptP.of_some
    | with_reducible apply OutK.next

theorem execMxw_keeps {s0 : State} {a0 a1} (h1 : Keeps s0 a1) :
    OutK s0 (execMxw a0 a1) := by
  unfold execMxw
  repeat' first
    | with_reducible intro _ | with_reducible assumption | with_reducible apply execMe_keeps
    | with_reducible apply attempt_keeps | with_reducible exact OptP.of_none | with_reducible apply OptP.of_some
    | with_reducible apply OutK.next

end Sys2Proof.Machine
end

