-- ==== Sys2Proof/Laws/KeepsOfMove.lean ====
section
/-! SUPPORT. What the operations of Move keep. -/

namespace Sys2Proof.Machine

theorem MoveJob.run_keeps {s0 : State} {a0 a1 a2 a3} (h0 : MvK s0 a0) (h3 : Keeps s0 a3) :
    MovedK s0 (MoveJob.run a0 a1 a2 a3) := by
  unfold MoveJob.run
  repeat' first
    | with_reducible intro _ | with_reducible assumption | exact h0 | with_reducible exact OptP.of_none
    | with_reducible apply OptP.of_some | with_reducible apply MovedK.ok | with_reducible apply MovedK.bad
    | with_reducible exact MovedK.asleep | with_reducible apply MvK.eff | split

theorem State.setChan_keeps {s0 : State} {a0 a1 a2 a3} (h0 : Keeps s0 a0) :
    Keeps s0 (State.setChan a0 a1 a2 a3) := by
  unfold State.setChan
  repeat' first
    | with_reducible intro _ | with_reducible assumption | with_reducible apply State.setCfgF_keeps
    | with_reducible exact OptP.of_none | with_reducible apply OptP.of_some
    | (extract_lets +onlyGivenNames x; first | (have hx : Keeps s0 x := ?_; clear_value x; rotate_left; subst x; rotate_right) | clear_value x | subst x)
    | with_reducible apply Keeps.lit

theorem State.chanTake_keeps {s0 : State} {a0 a1 a2 a3 a4} (h0 : Keeps s0 a0) :
    Keeps s0 (State.chanTake a0 a1 a2 a3 a4) := by
  unfold State.chanTake
  repeat' first
    | with_reducible intro _ | with_reducible assumption | with_reducible apply State.setCfgF_keeps
    | with_reducible apply State.setChan_keeps | with_reducible exact OptP.of_none | with_reducible apply OptP.of_some

theorem State.putTensor_keeps {s0 : State} {a0 a1 a2 a3 a4 a5} (h0 : Keeps s0 a0) :
    Keeps s0 (State.putTensor a0 a1 a2 a3 a4 a5) := by
  unfold State.putTensor
  repeat' first
    | with_reducible intro _ | with_reducible assumption | with_reducible apply State.putCodes_keeps
    | with_reducible apply State.putScale_keeps | with_reducible apply State.wr_keeps | with_reducible exact OptP.of_none
    | with_reducible apply OptP.of_some | with_reducible apply Keeps.foldl | with_reducible apply Keeps.foldl1
    | with_reducible apply Keeps.foldl2
    | (extract_lets +onlyGivenNames x; first | (have hx : Keeps s0 x := ?_; clear_value x; rotate_left; subst x; rotate_right) | clear_value x | subst x)
    | split

theorem State.convertRow_keeps {s0 : State} {a0 a1 a2 a3 a4 a5 a6} (h0 : Keeps s0 a0) :
    Keeps s0 (State.convertRow a0 a1 a2 a3 a4 a5 a6).1 := by
  unfold State.convertRow
  repeat' first
    | with_reducible intro _ | with_reducible assumption | with_reducible apply State.putTensor_keeps
    | with_reducible exact OptP.of_none | with_reducible apply OptP.of_some | with_reducible apply Keeps.foldl
    | with_reducible apply Keeps.foldl1 | with_reducible apply Keeps.foldl2
    | (extract_lets +onlyGivenNames x; first | (have hx : Keeps s0 x := ?_; clear_value x; rotate_left; subst x; rotate_right) | (have hx : Keeps s0 x.1 := ?_; clear_value x; rotate_left; subst x; rotate_right) | clear_value x | subst x)
    | split

theorem State.copyPoison_keeps {s0 : State} {a0 a1 a2 a3 a4} (h0 : Keeps s0 a0) :
    Keeps s0 (State.copyPoison a0 a1 a2 a3 a4) := by
  unfold State.copyPoison
  repeat' first
    | with_reducible intro _ | with_reducible assumption | with_reducible apply State.setPoison_keeps
    | with_reducible exact OptP.of_none | with_reducible apply OptP.of_some | with_reducible apply Keeps.foldl
    | with_reducible apply Keeps.foldl1 | with_reducible apply Keeps.foldl2
    | (extract_lets +onlyGivenNames x; first | (have hx : Keeps s0 x := ?_; clear_value x; rotate_left; subst x; rotate_right) | clear_value x | subst x)

theorem State.moveEvent_keeps {s0 : State} {a0 a1 a2 a3} (h0 : Keeps s0 a0) :
    Keeps s0 (State.moveEvent a0 a1 a2 a3) := by
  unfold State.moveEvent
  repeat' first
    | with_reducible intro _ | with_reducible assumption | with_reducible apply State.sendEvent_keeps
    | with_reducible exact OptP.of_none | with_reducible apply OptP.of_some
    | (extract_lets +onlyGivenNames x; first | (have hx : Keeps s0 x := ?_; clear_value x; rotate_left; subst x; rotate_right) | clear_value x | subst x)
    | split

theorem State.moveIrq_keeps {s0 : State} {a0 a1 a2 a3} (h0 : Keeps s0 a0) :
    Keeps s0 (State.moveIrq a0 a1 a2 a3) := by
  unfold State.moveIrq
  repeat' first
    | with_reducible intro _ | with_reducible assumption | with_reducible apply State.bumpCfg_keeps
    | with_reducible apply State.notice_keeps | with_reducible apply State.setMbxF_keeps
    | with_reducible exact OptP.of_none | with_reducible apply OptP.of_some
    | (extract_lets +onlyGivenNames x; first | (have hx : Keeps s0 x := ?_; clear_value x; rotate_left; subst x; rotate_right) | clear_value x | subst x)
    | split | with_reducible apply Keeps.lit

theorem State.descriptorEnd_keeps {s0 : State} {a0 a1 a2 a3} (h0 : Keeps s0 a0) :
    Keeps s0 (State.descriptorEnd a0 a1 a2 a3) := by
  unfold State.descriptorEnd
  repeat' first
    | with_reducible intro _ | with_reducible assumption | with_reducible apply State.bumpCfg_keeps
    | with_reducible apply State.moveEvent_keeps | with_reducible apply State.moveIrq_keeps
    | with_reducible apply State.setCfgW_keeps | with_reducible apply State.setChan_keeps
    | with_reducible apply State.traceEng_keeps | with_reducible apply State.wsLeave_keeps
    | with_reducible exact OptP.of_none | with_reducible apply OptP.of_some
    | (extract_lets +onlyGivenNames x; first | (have hx : Keeps s0 x := ?_; clear_value x; rotate_left; subst x; rotate_right) | clear_value x | subst x)
    | split

theorem State.freeFoot_keeps {s0 : State} {a0 a1 a2 a3} (h0 : Keeps s0 a0) :
    Keeps s0 (State.freeFoot a0 a1 a2 a3) := by
  unfold State.freeFoot
  repeat' first
    | with_reducible intro _ | with_reducible assumption | with_reducible apply State.drawBytes_keeps
    | with_reducible apply State.wr_keeps | with_reducible exact OptP.of_none | with_reducible apply OptP.of_some
    | with_reducible apply Keeps.foldl | with_reducible apply Keeps.foldl1 | with_reducible apply Keeps.foldl2
    | (extract_lets +onlyGivenNames x; first | (have hx : Keeps s0 x := ?_; clear_value x; rotate_left; subst x; rotate_right) | (have hx : Keeps s0 x.2 := ?_; clear_value x; rotate_left; subst x; rotate_right) | clear_value x | subst x)
    | split | with_reducible refine pair2 ?_ (by assumption)

theorem State.moveWr_keeps {s0 : State} {a0 a1 a2 a3} (h0 : Keeps s0 a0) :
    Keeps s0 (State.moveWr a0 a1 a2 a3) := by
  unfold State.moveWr
  repeat' first
    | with_reducible intro _ | with_reducible assumption | with_reducible apply State.setCfgF_keeps
    | with_reducible apply State.wr_keeps | with_reducible exact OptP.of_none | with_reducible apply OptP.of_some
    | with_reducible apply Keeps.foldl | with_reducible apply Keeps.foldl1 | with_reducible apply Keeps.foldl2
    | (extract_lets +onlyGivenNames x; first | (have hx : Keeps s0 x := ?_; clear_value x; rotate_left; subst x; rotate_right) | clear_value x | subst x)
    | split

theorem State.stopChans_keeps {s0 : State} {a0 a1 a2} (h0 : Keeps s0 a0) :
    Keeps s0 (State.stopChans a0 a1 a2) := by
  unfold State.stopChans
  repeat' first
    | with_reducible intro _ | with_reducible assumption | with_reducible apply State.setCfgF_keeps
    | with_reducible apply State.setChan_keeps | with_reducible apply State.wsLeave_keeps
    | with_reducible exact OptP.of_none | with_reducible apply OptP.of_some | with_reducible apply Keeps.foldl
    | with_reducible apply Keeps.foldl1 | with_reducible apply Keeps.foldl2
    | (extract_lets +onlyGivenNames x; first | (have hx : Keeps s0 x := ?_; clear_value x; rotate_left; subst x; rotate_right) | clear_value x | subst x)

theorem State.mvFault_keeps {s0 : State} {a0 a1 a2 a3 a4 a5 a6} (h0 : Keeps s0 a0) :
    Keeps s0 (State.mvFault a0 a1 a2 a3 a4 a5 a6) := by
  unfold State.mvFault
  repeat' first
    | with_reducible intro _ | with_reducible assumption | with_reducible apply State.accessError_keeps
    | with_reducible apply State.raise_keeps | with_reducible apply State.setCfgW_keeps
    | with_reducible apply State.setStream_keeps | with_reducible apply State.stopChans_keeps
    | with_reducible exact OptP.of_none | with_reducible apply OptP.of_some
    | (extract_lets +onlyGivenNames x; first | (have hx : Keeps s0 x := ?_; clear_value x; rotate_left; subst x; rotate_right) | clear_value x | subst x)
    | split

theorem State.putRuns_keeps {s0 : State} {a0 a1 a2 a3 a4} (h0 : Keeps s0 a0) :
    Keeps s0 (State.putRuns a0 a1 a2 a3 a4) := by
  induction a4 generalizing a0 a1 a2 a3 with
  | nil =>
    rw [State.putRuns]
    repeat' first
      | with_reducible intro _ | with_reducible assumption
      | with_reducible apply State.copyPoison_keeps | with_reducible apply State.moveWr_keeps
      | with_reducible apply State.moveWr_keeps | with_reducible apply State.copyPoison_keeps
      | with_reducible exact OptP.of_none | with_reducible apply OptP.of_some
      | (extract_lets +onlyGivenNames x; first | (have hx : Keeps s0 x := ?_; clear_value x; rotate_left; subst x; rotate_right) | clear_value x | subst x)
      | split
  | cons y l ih =>
    rw [State.putRuns]
    repeat' first
      | with_reducible intro _ | with_reducible assumption | with_reducible apply ih
      | with_reducible apply State.copyPoison_keeps | with_reducible apply State.moveWr_keeps
      | with_reducible apply State.moveWr_keeps | with_reducible apply State.copyPoison_keeps
      | with_reducible exact OptP.of_none | with_reducible apply OptP.of_some
      | (extract_lets +onlyGivenNames x; first | (have hx : Keeps s0 x := ?_; clear_value x; rotate_left; subst x; rotate_right) | clear_value x | subst x)
      | split

theorem State.wsDescriptor_keeps {s0 : State} {a0 a1 a2 a3} (h0 : Keeps s0 a0) :
    Keeps s0 (State.wsDescriptor a0 a1 a2 a3) := by
  unfold State.wsDescriptor
  repeat' first
    | with_reducible intro _ | with_reducible assumption | with_reducible apply State.wsEnter_keeps
    | with_reducible exact OptP.of_none | with_reducible apply OptP.of_some
    | (extract_lets +onlyGivenNames x; first | (have hx : Keeps s0 x := ?_; clear_value x; rotate_left; subst x; rotate_right) | clear_value x | subst x)
    | split

theorem compareJob_keeps {s0 : State} {a0 a1} (h1 : Keeps s0 a1) :
    MvK s0 (compareJob a0 a1) := by
  unfold compareJob
  repeat' first
    | with_reducible intro _ | with_reducible assumption | with_reducible exact OptP.of_none
    | with_reducible apply OptP.of_some | with_reducible apply OptP.getD | with_reducible apply MovedK.ok
    | with_reducible apply MovedK.bad | with_reducible exact MovedK.asleep | with_reducible apply MvK.mk
    | with_reducible apply MvK.eff
    | (extract_lets +onlyGivenNames x; first | (have hx : Keeps s0 x := ?_; clear_value x; rotate_left; subst x; rotate_right) | clear_value x | subst x)
    | split

theorem convertJob_keeps {s0 : State} {a0 a1 a2 a3 a4} (h4 : Keeps s0 a4) :
    MvK s0 (convertJob a0 a1 a2 a3 a4) := by
  unfold convertJob
  repeat' first
    | with_reducible intro _ | with_reducible assumption | with_reducible apply State.convertRow_keeps
    | with_reducible apply State.countInvalid_keeps | with_reducible apply State.sentUpdate_keeps
    | with_reducible exact OptP.of_none | with_reducible apply OptP.of_some | with_reducible apply MovedK.ok
    | with_reducible apply MovedK.bad | with_reducible exact MovedK.asleep | with_reducible apply MvK.mk
    | with_reducible apply MvK.eff | with_reducible apply Keeps.foldl | with_reducible apply Keeps.foldl1
    | with_reducible apply Keeps.foldl2
    | (extract_lets +onlyGivenNames x; first | (have hx : Keeps s0 x := ?_; clear_value x; rotate_left; subst x; rotate_right) | (have hx : Keeps s0 x.1 := ?_; clear_value x; rotate_left; subst x; rotate_right) | clear_value x | subst x)
    | split | with_reducible refine pair1 ?_ (by assumption)

theorem copyJob_keeps {s0 : State} {a0 a1 a2} (h2 : Keeps s0 a2) :
    MvK s0 (copyJob a0 a1 a2) := by
  unfold copyJob
  repeat' first
    | with_reducible intro _ | with_reducible assumption | with_reducible apply State.copyPoison_keeps
    | with_reducible apply State.moveWr_keeps | with_reducible exact OptP.of_none | with_reducible apply OptP.of_some
    | with_reducible apply MovedK.ok | with_reducible apply MovedK.bad | with_reducible exact MovedK.asleep
    | with_reducible apply MvK.mk | with_reducible apply MvK.eff | with_reducible apply Keeps.foldl
    | with_reducible apply Keeps.foldl1 | with_reducible apply Keeps.foldl2
    | (extract_lets +onlyGivenNames x; first | (have hx : Keeps s0 x := ?_; clear_value x; rotate_left; subst x; rotate_right) | clear_value x | subst x)
    | split

theorem descriptorDone_keeps {s0 : State} {a0 a1 a2} (h2 : Keeps s0 a2) :
    OptP (fun x0 => Keeps s0 x0) (descriptorDone a0 a1 a2) := by
  unfold descriptorDone
  repeat' first
    | with_reducible intro _ | with_reducible assumption | with_reducible apply State.descriptorEnd_keeps
    | with_reducible exact OptP.of_none | with_reducible apply OptP.of_some | split

theorem execDescriptorDone_keeps {s0 : State} {a0 a1 a2} (h2 : Keeps s0 a2) :
    OutK s0 (execDescriptorDone a0 a1 a2) := by
  unfold execDescriptorDone
  repeat' first
    | with_reducible intro _ | with_reducible assumption | with_reducible apply descriptorDone_keeps
    | with_reducible apply attempt_keeps | with_reducible exact OptP.of_none | with_reducible apply OptP.of_some
    | with_reducible apply OutK.next

theorem fillJob_keeps {s0 : State} {a0 a1 a2} (h2 : Keeps s0 a2) :
    MvK s0 (fillJob a0 a1 a2) := by
  unfold fillJob
  repeat' first
    | with_reducible intro _ | with_reducible assumption | with_reducible apply State.moveWr_keeps
    | with_reducible exact OptP.of_none | with_reducible apply OptP.of_some | with_reducible apply MovedK.ok
    | with_reducible apply MovedK.bad | with_reducible exact MovedK.asleep | with_reducible apply MvK.mk
    | with_reducible apply MvK.eff | with_reducible apply Keeps.foldl | with_reducible apply Keeps.foldl1
    | with_reducible apply Keeps.foldl2
    | (extract_lets +onlyGivenNames x; first | (have hx : Keeps s0 x := ?_; clear_value x; rotate_left; subst x; rotate_right) | clear_value x | subst x)

theorem gatherAll_keeps {s0 : State} {a0 a1 a2 a3 a4 a5 a6} (h5 : Keeps s0 a5) :
    MovedK s0 (gatherAll a0 a1 a2 a3 a4 a5 a6).1 := by
  induction a4 generalizing a0 a1 a2 a3 a5 a6 with
  | nil =>
    rw [gatherAll]
    repeat' first
      | with_reducible intro _ | with_reducible assumption
      | with_reducible apply State.moveWr_keeps | with_reducible apply State.putRuns_keeps
      | with_reducible apply State.quarantine_keeps | with_reducible exact OptP.of_none | with_reducible apply OptP.of_some
      | with_reducible apply MovedK.ok | with_reducible apply MovedK.bad | with_reducible exact MovedK.asleep
      | (extract_lets +onlyGivenNames x; first | (have hx : Keeps s0 x := ?_; clear_value x; rotate_left; subst x; rotate_right) | (have hx : Keeps s0 x.1 := ?_; clear_value x; rotate_left; subst x; rotate_right) | clear_value x | subst x)
      | split
  | cons y l ih =>
    rw [gatherAll]
    repeat' first
      | with_reducible intro _ | with_reducible assumption | with_reducible apply ih
      | with_reducible apply State.moveWr_keeps | with_reducible apply State.putRuns_keeps
      | with_reducible apply State.quarantine_keeps | with_reducible exact OptP.of_none | with_reducible apply OptP.of_some
      | with_reducible apply MovedK.ok | with_reducible apply MovedK.bad | with_reducible exact MovedK.asleep
      | (extract_lets +onlyGivenNames x; first | (have hx : Keeps s0 x := ?_; clear_value x; rotate_left; subst x; rotate_right) | (have hx : Keeps s0 x.1 := ?_; clear_value x; rotate_left; subst x; rotate_right) | clear_value x | subst x)
      | split

theorem releaseAll_keeps {s0 : State} {a0 a1 a2} (h2 : Keeps s0 a2) :
    ExP (fun x0 => Keeps s0 x0.2.2) (fun x0 => Keeps s0 x0) (releaseAll a0 a1 a2) := by
  induction a1 generalizing a0 a2 with
  | nil =>
    rw [releaseAll]
    repeat' first
      | with_reducible intro _ | with_reducible assumption
      | with_reducible apply State.release_keeps | with_reducible exact OptP.of_none | with_reducible apply OptP.of_some
      | with_reducible apply ExP.ok | with_reducible apply ExP.error | with_reducible exact trivial
      | with_reducible apply ReleaseK.done | with_reducible apply ReleaseK.bad
      | (extract_lets +onlyGivenNames x; first | (have hx : Keeps s0 x := ?_; clear_value x; rotate_left; subst x; rotate_right) | (have hx : Keeps s0 x.2 := ?_; clear_value x; rotate_left; subst x; rotate_right) | clear_value x | subst x)
      | split | with_reducible refine ReleaseK.get ?_ (by assumption)
      | with_reducible refine ReleaseK.getBad ?_ (by assumption)
  | cons y l ih =>
    rw [releaseAll]
    repeat' first
      | with_reducible intro _ | with_reducible assumption | with_reducible apply ih
      | with_reducible apply State.release_keeps | with_reducible exact OptP.of_none | with_reducible apply OptP.of_some
      | with_reducible apply ExP.ok | with_reducible apply ExP.error | with_reducible exact trivial
      | with_reducible apply ReleaseK.done | with_reducible apply ReleaseK.bad
      | (extract_lets +onlyGivenNames x; first | (have hx : Keeps s0 x := ?_; clear_value x; rotate_left; subst x; rotate_right) | (have hx : Keeps s0 x.2 := ?_; clear_value x; rotate_left; subst x; rotate_right) | clear_value x | subst x)
      | split | with_reducible refine ReleaseK.get ?_ (by assumption)
      | with_reducible refine ReleaseK.getBad ?_ (by assumption)

theorem gatherJob_keeps {s0 : State} {a0 a1 a2 a3} (h3 : Keeps s0 a3) :
    MvK s0 (gatherJob a0 a1 a2 a3) := by
  unfold gatherJob
  repeat' first
    | with_reducible intro _ | with_reducible assumption | with_reducible apply gatherAll_keeps
    | with_reducible apply releaseAll_keeps | with_reducible exact OptP.of_none | with_reducible apply OptP.of_some
    | with_reducible apply ExP.ok | with_reducible apply ExP.error | with_reducible exact trivial
    | with_reducible apply MovedK.ok | with_reducible apply MovedK.bad | with_reducible exact MovedK.asleep
    | with_reducible apply MvK.mk | with_reducible apply MvK.eff
    | (extract_lets +onlyGivenNames x; first | (have hx : Keeps s0 x := ?_; clear_value x; rotate_left; subst x; rotate_right) | (have hx : Keeps s0 x.1 := ?_; clear_value x; rotate_left; subst x; rotate_right) | (have hx : Keeps s0 x.2 := ?_; clear_value x; rotate_left; subst x; rotate_right) | clear_value x | subst x)
    | split | with_reducible refine MovedK.get ?_ (by assumption) | with_reducible refine MovedK.getBad ?_ (by assumption)
    | with_reducible refine MovedK.getP ?_ (by assumption) | with_reducible refine MovedK.getBadP ?_ (by assumption)
    | with_reducible refine MovedK.fst ?_ (by assumption) | with_reducible refine pair1 ?_ (by assumption)
    | with_reducible refine ExP.getOk3 ?_ (by assumption) | with_reducible refine ExP.getErr3 ?_ (by assumption)

theorem relayoutJob_keeps {s0 : State} {a0 a1 a2 a3} (h3 : Keeps s0 a3) :
    MvK s0 (relayoutJob a0 a1 a2 a3) := by
  unfold relayoutJob
  repeat' first
    | with_reducible intro _ | with_reducible assumption | with_reducible apply State.putTensor_keeps
    | with_reducible apply State.setPoison_keeps | with_reducible exact OptP.of_none | with_reducible apply OptP.of_some
    | with_reducible apply MovedK.ok | with_reducible apply MovedK.bad | with_reducible exact MovedK.asleep
    | with_reducible apply MvK.mk | with_reducible apply MvK.eff | with_reducible apply Keeps.foldl
    | with_reducible apply Keeps.foldl1 | with_reducible apply Keeps.foldl2
    | (extract_lets +onlyGivenNames x; first | (have hx : Keeps s0 x := ?_; clear_value x; rotate_left; subst x; rotate_right) | clear_value x | subst x)
    | split

theorem moveJob_keeps {s0 : State} {a0 a1 a2 a3 a4} (h4 : Keeps s0 a4) :
    MvK s0 (moveJob a0 a1 a2 a3 a4) := by
  unfold moveJob
  generalize mOp a3 = k
  split
  · exact copyJob_keeps h4
  · exact fillJob_keeps h4
  · exact compareJob_keeps h4
  · exact convertJob_keeps h4
  · exact relayoutJob_keeps h4
  · exact gatherJob_keeps h4

theorem moveBegin_keeps {s0 : State} {a0 a1 a2 a3 a4 a5 a6 a7 a8 a9} (h8 : Keeps s0 a8) (h9 : Keeps s0 a9) :
    Keeps s0 (moveBegin a0 a1 a2 a3 a4 a5 a6 a7 a8 a9) := by
  unfold moveBegin
  repeat' first
    | with_reducible intro _ | with_reducible assumption | with_reducible apply MoveJob.run_keeps
    | with_reducible apply State.freeFoot_keeps | with_reducible apply State.mvFault_keeps
    | with_reducible apply State.requestWake_keeps | with_reducible apply State.setChan_keeps
    | with_reducible apply State.wsDescriptor_keeps | with_reducible apply moveJob_keeps
    | with_reducible exact OptP.of_none | with_reducible apply OptP.of_some | with_reducible apply MovedK.ok
    | with_reducible apply MovedK.bad | with_reducible exact MovedK.asleep | with_reducible apply MvK.eff | split
    | with_reducible refine MovedK.get ?_ (by assumption) | with_reducible refine MovedK.getBad ?_ (by assumption)
    | with_reducible refine MovedK.getP ?_ (by assumption) | with_reducible refine MovedK.getBadP ?_ (by assumption)
    | with_reducible refine MovedK.fst ?_ (by assumption)

theorem moveStart_keeps {s0 : State} {a0 a1 a2 a3} (h3 : Keeps s0 a3) :
    OptP (fun x0 => Keeps s0 x0) (moveStart a0 a1 a2 a3) := by
  unfold moveStart
  repeat' first
    | with_reducible intro _ | with_reducible assumption | with_reducible apply State.chanTake_keeps
    | with_reducible apply State.mvFault_keeps | with_reducible apply moveBegin_keeps | with_reducible exact OptP.of_none
    | with_reducible apply OptP.of_some
    | (extract_lets +onlyGivenNames x; first | (have hx : Keeps s0 x := ?_; clear_value x; rotate_left; subst x; rotate_right) | (have hx : OptP (fun y => Keeps s0 y) x := ?_; clear_value x; rotate_left; subst x; rotate_right) | clear_value x | subst x)
    | split

theorem execGatherMap_keeps {s0 : State} {a0 a1 a2} (h2 : Keeps s0 a2) :
    OutK s0 (execGatherMap a0 a1 a2) := by
  unfold execGatherMap
  repeat' first
    | with_reducible intro _ | with_reducible assumption | with_reducible apply moveStart_keeps
    | with_reducible apply attempt_keeps | with_reducible exact OptP.of_none | with_reducible apply OptP.of_some
    | with_reducible apply OutK.next

theorem moveIssue_keeps {s0 : State} {a0 a1} (h1 : Keeps s0 a1) :
    OptP (fun x0 => Keeps s0 x0) (moveIssue a0 a1) := by
  unfold moveIssue
  repeat' first
    | with_reducible intro _ | with_reducible assumption | with_reducible apply State.setChan_keeps
    | with_reducible apply State.stopChans_keeps | with_reducible apply finishNow_keeps | with_reducible apply issue_keeps
    | with_reducible exact OptP.of_none | with_reducible apply OptP.of_some | with_reducible apply RanK.done
    | with_reducible exact RanK.fault | with_reducible exact RanK.bad | with_reducible exact RanK.asleep
    | with_reducible exact RanK.full
    | (extract_lets +onlyGivenNames x; first | (have hx : Keeps s0 x := ?_; clear_value x; rotate_left; subst x; rotate_right) | (have hx : OptP (fun y => Keeps s0 y) x := ?_; clear_value x; rotate_left; subst x; rotate_right) | clear_value x | subst x)
    | split | with_reducible refine OptP.get ?_ (by assumption) | with_reducible exact OptP.get (by assumption) rfl

theorem execMove_keeps {s0 : State} {a0 a1} (h1 : Keeps s0 a1) :
    OutK s0 (execMove a0 a1) := by
  unfold execMove
  repeat' first
    | with_reducible intro _ | with_reducible assumption | with_reducible apply moveIssue_keeps
    | with_reducible apply attempt_keeps | with_reducible exact OptP.of_none | with_reducible apply OptP.of_some
    | with_reducible apply OutK.next

theorem execMoveCompare_keeps {s0 : State} {a0 a1 a2} (h2 : Keeps s0 a2) :
    OutK s0 (execMoveCompare a0 a1 a2) := by
  unfold execMoveCompare
  repeat' first
    | with_reducible intro _ | with_reducible assumption | with_reducible apply moveStart_keeps
    | with_reducible apply attempt_keeps | with_reducible exact OptP.of_none | with_reducible apply OptP.of_some
    | with_reducible apply OutK.next

theorem execMoveConvert_keeps {s0 : State} {a0 a1 a2} (h2 : Keeps s0 a2) :
    OutK s0 (execMoveConvert a0 a1 a2) := by
  unfold execMoveConvert
  repeat' first
    | with_reducible intro _ | with_reducible assumption | with_reducible apply moveStart_keeps
    | with_reducible apply attempt_keeps | with_reducible exact OptP.of_none | with_reducible apply OptP.of_some
    | with_reducible apply OutK.next

theorem execMoveCopy_keeps {s0 : State} {a0 a1 a2} (h2 : Keeps s0 a2) :
    OutK s0 (execMoveCopy a0 a1 a2) := by
  unfold execMoveCopy
  repeat' first
    | with_reducible intro _ | with_reducible assumption | with_reducible apply moveStart_keeps
    | with_reducible apply attempt_keeps | with_reducible exact OptP.of_none | with_reducible apply OptP.of_some
    | with_reducible apply OutK.next

theorem execMoveFill_keeps {s0 : State} {a0 a1 a2} (h2 : Keeps s0 a2) :
    OutK s0 (execMoveFill a0 a1 a2) := by
  unfold execMoveFill
  repeat' first
    | with_reducible intro _ | with_reducible assumption | with_reducible apply moveStart_keeps
    | with_reducible apply attempt_keeps | with_reducible exact OptP.of_none | with_reducible apply OptP.of_some
    | with_reducible apply OutK.next

theorem execMoveRelayout_keeps {s0 : State} {a0 a1 a2} (h2 : Keeps s0 a2) :
    OutK s0 (execMoveRelayout a0 a1 a2) := by
  unfold execMoveRelayout
  repeat' first
    | with_reducible intro _ | with_reducible assumption | with_reducible apply moveStart_keeps
    | with_reducible apply attempt_keeps | with_reducible exact OptP.of_none | with_reducible apply OptP.of_some
    | with_reducible apply OutK.next

theorem tileGroupDone_keeps {s0 : State} {a0 a1 a2} (h2 : Keeps s0 a2) :
    OptP (fun x0 => Keeps s0 x0) (tileGroupDone a0 a1 a2) := by
  unfold tileGroupDone
  repeat' first
    | with_reducible intro _ | with_reducible assumption | with_reducible apply State.moveEvent_keeps
    | with_reducible apply State.setChan_keeps | with_reducible exact OptP.of_none | with_reducible apply OptP.of_some
    | (extract_lets +onlyGivenNames x; first | (have hx : Keeps s0 x := ?_; clear_value x; rotate_left; subst x; rotate_right) | (have hx : OptP (fun y => Keeps s0 y) x := ?_; clear_value x; rotate_left; subst x; rotate_right) | clear_value x | subst x)
    | split

theorem execTileGroupDone_keeps {s0 : State} {a0 a1 a2} (h2 : Keeps s0 a2) :
    OutK s0 (execTileGroupDone a0 a1 a2) := by
  unfold execTileGroupDone
  repeat' first
    | with_reducible intro _ | with_reducible assumption | with_reducible apply tileGroupDone_keeps
    | with_reducible apply attempt_keeps | with_reducible exact OptP.of_none | with_reducible apply OptP.of_some
    | with_reducible apply OutK.next

end Sys2Proof.Machine
end

