-- ==== Sys2Proof/Laws/KeepsOfPhysical.lean ====
section
/-! SUPPORT. What the operations of Physical keep. -/

namespace Sys2Proof.Machine

theorem State.bootFrom_keeps {s0 : State} {a0 a1 a2} (h0 : Keeps s0 a0) :
    Keeps s0 (State.bootFrom a0 a1 a2) := by
  unfold State.bootFrom
  repeat' first
    | with_reducible intro _ | with_reducible assumption | with_reducible apply State.measure_keeps
    | with_reducible exact OptP.of_none | with_reducible apply OptP.of_some
    | (extract_lets +onlyGivenNames x; first | (have hx : Keeps s0 x := ?_; clear_value x; rotate_left; subst x; rotate_right) | clear_value x | subst x)
    | with_reducible apply Keeps.lit

theorem State.mainOff_keeps {s0 : State} {a0 a1} (h0 : Keeps s0 a0) :
    Keeps s0 (State.mainOff a0 a1) := by
  unfold State.mainOff
  repeat' first
    | with_reducible intro _ | with_reducible assumption | with_reducible apply State.cutOff_keeps
    | with_reducible apply State.setCfgF_keeps | with_reducible apply State.takeEvent_keeps
    | with_reducible exact OptP.of_none | with_reducible apply OptP.of_some | with_reducible apply Keeps.foldl
    | with_reducible apply Keeps.foldl1 | with_reducible apply Keeps.foldl2
    | (extract_lets +onlyGivenNames x; first | (have hx : Keeps s0 x := ?_; clear_value x; rotate_left; subst x; rotate_right) | clear_value x | subst x)
    | split | with_reducible apply Keeps.lit

theorem State.mainOn_keeps {s0 : State} {a0} (h0 : Keeps s0 a0) :
    Keeps s0 (State.mainOn a0) := by
  unfold State.mainOn
  repeat' first
    | with_reducible intro _ | with_reducible assumption | with_reducible apply State.enable_keeps
    | with_reducible apply State.hostTrains_keeps | with_reducible apply State.setCfgF_keeps
    | with_reducible exact OptP.of_none | with_reducible apply OptP.of_some | with_reducible apply Keeps.foldl
    | with_reducible apply Keeps.foldl1 | with_reducible apply Keeps.foldl2
    | (extract_lets +onlyGivenNames x; first | (have hx : Keeps s0 x := ?_; clear_value x; rotate_left; subst x; rotate_right) | clear_value x | subst x)
    | with_reducible apply Keeps.lit

theorem boot_keeps {s0 : State} {a0} (h0 : Keeps s0 a0) :
    OptP (fun x0 => Keeps s0 x0) (boot a0) := by
  unfold boot
  repeat' first
    | with_reducible intro _ | with_reducible assumption | with_reducible apply State.bootFrom_keeps
    | with_reducible exact OptP.of_none | with_reducible apply OptP.of_some
    | (extract_lets +onlyGivenNames x; first | (have hx : Keeps s0 x := ?_; clear_value x; rotate_left; subst x; rotate_right) | (have hx : OptP (fun y => Keeps s0 y) x := ?_; clear_value x; rotate_left; subst x; rotate_right) | clear_value x | subst x)
    | split | with_reducible apply Keeps.lit

theorem execBoot_keeps {s0 : State} {a0} (h0 : Keeps s0 a0) :
    OutK s0 (execBoot a0) := by
  unfold execBoot
  repeat' first
    | with_reducible intro _ | with_reducible assumption | with_reducible apply boot_keeps
    | with_reducible apply attempt_keeps | with_reducible exact OptP.of_none | with_reducible apply OptP.of_some
    | with_reducible apply OutK.next

theorem mainClear_keeps {s0 : State} {a0 a1} (h1 : Keeps s0 a1) :
    OptP (fun x0 => Keeps s0 x0) (mainClear a0 a1) := by
  unfold mainClear
  repeat' first
    | with_reducible intro _ | with_reducible assumption | with_reducible apply State.mainOff_keeps
    | with_reducible exact OptP.of_none | with_reducible apply OptP.of_some | split

theorem execMainGoodClear_keeps {s0 : State} {a0 a1} (h1 : Keeps s0 a1) :
    OutK s0 (execMainGoodClear a0 a1) := by
  unfold execMainGoodClear
  repeat' first
    | with_reducible intro _ | with_reducible assumption | with_reducible apply mainClear_keeps
    | with_reducible apply attempt_keeps | with_reducible exact OptP.of_none | with_reducible apply OptP.of_some
    | with_reducible apply OutK.next

theorem mainSet_keeps {s0 : State} {a0 a1} (h1 : Keeps s0 a1) :
    OptP (fun x0 => Keeps s0 x0) (mainSet a0 a1) := by
  unfold mainSet
  repeat' first
    | with_reducible intro _ | with_reducible assumption | with_reducible apply State.mainOn_keeps
    | with_reducible exact OptP.of_none | with_reducible apply OptP.of_some | split

theorem execMainGoodSet_keeps {s0 : State} {a0 a1} (h1 : Keeps s0 a1) :
    OutK s0 (execMainGoodSet a0 a1) := by
  unfold execMainGoodSet
  repeat' first
    | with_reducible intro _ | with_reducible assumption | with_reducible apply mainSet_keeps
    | with_reducible apply attempt_keeps | with_reducible exact OptP.of_none | with_reducible apply OptP.of_some
    | with_reducible apply OutK.next

theorem refclkLost_keeps {s0 : State} {a0 a1} (h1 : Keeps s0 a1) :
    OptP (fun x0 => Keeps s0 x0) (refclkLost a0 a1) := by
  unfold refclkLost
  repeat' first
    | with_reducible intro _ | with_reducible assumption | with_reducible apply State.takeEvent_keeps
    | with_reducible exact OptP.of_none | with_reducible apply OptP.of_some
    | (extract_lets +onlyGivenNames x; first | (have hx : Keeps s0 x := ?_; clear_value x; rotate_left; subst x; rotate_right) | (have hx : OptP (fun y => Keeps s0 y) x := ?_; clear_value x; rotate_left; subst x; rotate_right) | clear_value x | subst x)
    | split

theorem execRefclkLost_keeps {s0 : State} {a0 a1} (h1 : Keeps s0 a1) :
    OutK s0 (execRefclkLost a0 a1) := by
  unfold execRefclkLost
  repeat' first
    | with_reducible intro _ | with_reducible assumption | with_reducible apply refclkLost_keeps
    | with_reducible apply attempt_keeps | with_reducible exact OptP.of_none | with_reducible apply OptP.of_some
    | with_reducible apply OutK.next

end Sys2Proof.Machine
end

