-- ==== Sys2Proof/Laws/KeepsOfTick.lean ====
section
/-! SUPPORT. What the operations of Tick keep. -/

namespace Sys2Proof.Machine

theorem State.endRun_keeps {s0 : State} {a0 a1} (h0 : Keeps s0 a0) : Keeps s0 (State.endRun a0 a1) := by
  unfold State.endRun
  extract_lets x g
  split
  · exact h0
  · have k : Keeps { a0 with gc := g - 1 } (({ a0 with gc := g - 1 } : State).traceEng a1 4 (natLe 1 x.idleCode ++ natLe 4 x.idleRun)) :=
      State.traceEng_keeps (Keeps.refl _)
    refine h0.trans ⟨fun w => ?_, k.pending, k.order, k.free, k.out, Nat.le_refl _⟩
    have f := k.form ⟨w.mem, w.poison, w.cfg, w.mbx, w.doms, w.parts⟩
    exact ⟨f.mem, f.poison, f.cfg, f.mbx, f.doms, f.parts⟩

theorem State.countCycles_keeps {s0 : State} {a0 a1} (h0 : Keeps s0 a0) :
    Keeps s0 (State.countCycles a0 a1) := by
  unfold State.countCycles
  repeat' first
    | with_reducible intro _ | with_reducible assumption | with_reducible apply State.bumpCtr_keeps
    | with_reducible apply State.endRun_keeps | with_reducible apply State.setCfgF_keeps
    | with_reducible apply State.setStream_keeps | with_reducible exact OptP.of_none | with_reducible apply OptP.of_some
    | with_reducible apply OptP.getD
    | (extract_lets +onlyGivenNames x; first | (have hx : Keeps s0 x := ?_; clear_value x; rotate_left; subst x; rotate_right) | clear_value x | subst x)
    | split

theorem State.runFlight_keeps {s0 : State} {a0 a1} (h0 : Keeps s0 a0) :
    Keeps s0 (State.runFlight a0 a1) := by
  unfold State.runFlight
  repeat' first
    | with_reducible intro _ | with_reducible assumption | with_reducible apply State.setStream_keeps
    | with_reducible exact OptP.of_none | with_reducible apply OptP.of_some
    | (extract_lets +onlyGivenNames x; first | (have hx : Keeps s0 x := ?_; clear_value x; rotate_left; subst x; rotate_right) | clear_value x | subst x)
    | split

theorem State.tickStream_keeps {s0 : State} {a0 a1} (h0 : Keeps s0 a0) :
    Keeps s0 (State.tickStream a0 a1) := by
  unfold State.tickStream
  repeat' first
    | with_reducible intro _ | with_reducible assumption | with_reducible apply State.bumpCtr_keeps
    | with_reducible apply State.countCycles_keeps | with_reducible apply State.runFlight_keeps
    | with_reducible exact OptP.of_none | with_reducible apply OptP.of_some | split

theorem State.tickWear_keeps {s0 : State} {a0} (h0 : Keeps s0 a0) :
    Keeps s0 (State.tickWear a0) := by
  unfold State.tickWear
  repeat' first
    | with_reducible intro _ | with_reducible assumption | with_reducible exact OptP.of_none
    | with_reducible apply OptP.of_some | with_reducible apply Keeps.foldl | with_reducible apply Keeps.foldl1
    | with_reducible apply Keeps.foldl2
    | (extract_lets +onlyGivenNames x; first | (have hx : Keeps s0 x := ?_; clear_value x; rotate_left; subst x; rotate_right) | clear_value x | subst x)
    | with_reducible apply Keeps.lit

theorem State.tick_keeps {s0 : State} {a0} (h0 : Keeps s0 a0) :
    Keeps s0 (State.tick a0) := by
  unfold State.tick
  repeat' first
    | with_reducible intro _ | with_reducible assumption | with_reducible apply State.serveUnknown_keeps
    | with_reducible apply State.tickStream_keeps | with_reducible apply State.tickWear_keeps
    | with_reducible exact OptP.of_none | with_reducible apply OptP.of_some | with_reducible apply Keeps.foldl
    | with_reducible apply Keeps.foldl1 | with_reducible apply Keeps.foldl2
    | (extract_lets +onlyGivenNames x; first | (have hx : Keeps s0 x := ?_; clear_value x; rotate_left; subst x; rotate_right) | clear_value x | subst x)
    | split | with_reducible apply Keeps.litAll | with_reducible exact id | exact Nat.le_refl _
    | exact Nat.le_add_right _ _ | exact tblWf_filter (by assumption) _ | exact List.Pairwise.filter _ (by assumption)
    | rfl

end Sys2Proof.Machine
end

