-- ==== Sys2Proof/Laws/KeepsOfVector.lean ====
section
/-! SUPPORT. What the operations of Vector keep. -/

namespace Sys2Proof.Machine

theorem State.putRows_keeps {s0 : State} {a0 a1 a2 a3 a4 a5} (h0 : Keeps s0 a0) :
    Keeps s0 (State.putRows a0 a1 a2 a3 a4 a5) := by
  unfold State.putRows
  repeat' first
    | with_reducible intro _ | with_reducible assumption | with_reducible apply State.putRow_keeps
    | with_reducible apply State.putZeros_keeps | with_reducible apply State.sentUpdate_keeps
    | with_reducible exact OptP.of_none | with_reducible apply OptP.of_some | with_reducible apply Keeps.foldl
    | with_reducible apply Keeps.foldl1 | with_reducible apply Keeps.foldl2
    | (extract_lets +onlyGivenNames x; first | (have hx : Keeps s0 x := ?_; clear_value x; rotate_left; subst x; rotate_right) | (have hx : Keeps s0 x.1 := ?_; clear_value x; rotate_left; subst x; rotate_right) | clear_value x | subst x)
    | split | with_reducible refine pair1 ?_ (by assumption)

theorem State.readInvalid_keeps {s0 : State} {a0 a1 a2 a3} (h0 : Keeps s0 a0) :
    Keeps s0 (State.readInvalid a0 a1 a2 a3) := by
  unfold State.readInvalid
  repeat' first
    | with_reducible intro _ | with_reducible assumption | with_reducible apply State.countInvalid_keeps
    | with_reducible exact OptP.of_none | with_reducible apply OptP.of_some

theorem VeJob.run_keeps {s0 : State} {a0 a1 a2 a3 a4} (h0 : VeK s0 a0) :
    RanK s0 (VeJob.run a0 a1 a2 a3 a4) := by
  unfold VeJob.run
  extract_lets x
  split
  · exact RanK.fault
  · split
    · exact RanK.bad
    · exact RanK.asleep
    · exact RanK.done (startFlight_keeps h0)

theorem elemJob_keeps {s0 : State} {a0 a1 a2 a3 a4} (h2 : Keeps s0 a2) :
    VeK s0 (elemJob a0 a1 a2 a3 a4) := by
  unfold elemJob
  repeat' first
    | with_reducible intro _ | with_reducible assumption | with_reducible apply State.putRows_keeps
    | with_reducible apply State.readInvalid_keeps | with_reducible exact OptP.of_none | with_reducible apply OptP.of_some
    | with_reducible apply VeK.mk | with_reducible apply VeK.eff
    | (extract_lets +onlyGivenNames x; first | (have hx : Keeps s0 x := ?_; clear_value x; rotate_left; subst x; rotate_right) | clear_value x | subst x)
    | split

theorem readFirst_keeps {s0 : State} {a0 a1 a2 a3 a4 a5} (h1 : (∀ v0, Keeps s0 v0 → (∀ v1, (∀ v2, RanK s0 (((a1 v0) v1) v2))))) (h3 : Keeps s0 a3) :
    RanK s0 (readFirst a0 a1 a2 a3 a4 a5) := by
  unfold readFirst
  repeat' first
    | with_reducible intro _ | with_reducible assumption | with_reducible apply h1 | with_reducible exact OptP.of_none
    | with_reducible apply OptP.of_some | with_reducible apply RanK.done | with_reducible exact RanK.fault
    | with_reducible exact RanK.bad | with_reducible exact RanK.asleep | with_reducible exact RanK.full | split
    | with_reducible refine RanK.get ?_ (by assumption)

theorem veRun_keeps {s0 : State} {a0 a1 a2 a3 a4} (h0 : (∀ v0, Keeps s0 v0 → (∀ v1, (∀ v2, VeK s0 (((a0 v0) v1) v2))))) (h2 : Keeps s0 a2) :
    RanK s0 (veRun a0 a1 a2 a3 a4) := by
  unfold veRun
  repeat' first
    | with_reducible intro _ | with_reducible assumption | with_reducible apply h0 | with_reducible apply VeJob.run_keeps
    | with_reducible exact OptP.of_none | with_reducible apply OptP.of_some | with_reducible apply RanK.done
    | with_reducible exact RanK.fault | with_reducible exact RanK.bad | with_reducible exact RanK.asleep
    | with_reducible exact RanK.full | with_reducible apply VeK.eff

theorem execVe_keeps {s0 : State} {a0 a1 a2 a3 a4} (h2 : (∀ v0, (∀ v1, Keeps s0 v1 → (∀ v2, (∀ v3, VeK s0 ((((a2 v0) v1) v2) v3)))))) (h4 : Keeps s0 a4) :
    OptP (fun x0 => Keeps s0 x0) (execVe a0 a1 a2 a3 a4) := by
  unfold execVe
  repeat' first
    | with_reducible intro _ | with_reducible assumption | with_reducible apply h2 | with_reducible apply issue_keeps
    | with_reducible apply readFirst_keeps | with_reducible apply veRun_keeps | with_reducible exact OptP.of_none
    | with_reducible apply OptP.of_some | with_reducible apply RanK.done | with_reducible exact RanK.fault
    | with_reducible exact RanK.bad | with_reducible exact RanK.asleep | with_reducible exact RanK.full
    | with_reducible apply VeK.eff

theorem rowwiseJob_keeps {s0 : State} {a0 a1 a2 a3 a4} (h2 : Keeps s0 a2) :
    VeK s0 (rowwiseJob a0 a1 a2 a3 a4) := by
  unfold rowwiseJob
  repeat' first
    | with_reducible intro _ | with_reducible assumption | with_reducible apply State.countInvalid_keeps
    | with_reducible apply State.putRows_keeps | with_reducible apply State.readInvalid_keeps
    | with_reducible exact OptP.of_none | with_reducible apply OptP.of_some | with_reducible apply VeK.mk
    | with_reducible apply VeK.eff
    | (extract_lets +onlyGivenNames x; first | (have hx : Keeps s0 x := ?_; clear_value x; rotate_left; subst x; rotate_right) | clear_value x | subst x)
    | split

theorem execLayernorm_keeps {s0 : State} {a0 a1} (h1 : Keeps s0 a1) :
    OutK s0 (execLayernorm a0 a1) := by
  unfold execLayernorm
  repeat' first
    | with_reducible intro _ | with_reducible assumption | with_reducible apply execVe_keeps
    | with_reducible apply rowwiseJob_keeps | with_reducible apply attempt_keeps | with_reducible exact OptP.of_none
    | with_reducible apply OptP.of_some | with_reducible apply OutK.next | with_reducible apply VeK.eff

theorem execRmsnorm_keeps {s0 : State} {a0 a1} (h1 : Keeps s0 a1) :
    OutK s0 (execRmsnorm a0 a1) := by
  unfold execRmsnorm
  repeat' first
    | with_reducible intro _ | with_reducible assumption | with_reducible apply execVe_keeps
    | with_reducible apply rowwiseJob_keeps | with_reducible apply attempt_keeps | with_reducible exact OptP.of_none
    | with_reducible apply OptP.of_some | with_reducible apply OutK.next | with_reducible apply VeK.eff

theorem execVcomp_keeps {s0 : State} {a0 a1} (h1 : Keeps s0 a1) :
    OutK s0 (execVcomp a0 a1) := by
  unfold execVcomp
  repeat' first
    | with_reducible intro _ | with_reducible assumption | with_reducible apply elemJob_keeps
    | with_reducible apply execVe_keeps | with_reducible apply attempt_keeps | with_reducible exact OptP.of_none
    | with_reducible apply OptP.of_some | with_reducible apply OutK.next | with_reducible apply VeK.eff

theorem vcvtJob_keeps {s0 : State} {a0 a1 a2 a3} (h1 : Keeps s0 a1) :
    VeK s0 (vcvtJob a0 a1 a2 a3) := by
  unfold vcvtJob
  repeat' first
    | with_reducible intro _ | with_reducible assumption | with_reducible apply State.putRows_keeps
    | with_reducible apply State.readInvalid_keeps | with_reducible exact OptP.of_none | with_reducible apply OptP.of_some
    | with_reducible apply VeK.mk | with_reducible apply VeK.eff
    | (extract_lets +onlyGivenNames x; first | (have hx : Keeps s0 x := ?_; clear_value x; rotate_left; subst x; rotate_right) | clear_value x | subst x)
    | split

theorem execVcvt_keeps {s0 : State} {a0 a1} (h1 : Keeps s0 a1) :
    OutK s0 (execVcvt a0 a1) := by
  unfold execVcvt
  repeat' first
    | with_reducible intro _ | with_reducible assumption | with_reducible apply execVe_keeps
    | with_reducible apply vcvtJob_keeps | with_reducible apply attempt_keeps | with_reducible exact OptP.of_none
    | with_reducible apply OptP.of_some | with_reducible apply OutK.next | with_reducible apply VeK.eff

theorem vexitJob_keeps {s0 : State} {a0 a1 a2 a3} (h1 : Keeps s0 a1) :
    VeK s0 (vexitJob a0 a1 a2 a3) := by
  unfold vexitJob
  repeat' first
    | with_reducible intro _ | with_reducible assumption | with_reducible apply State.readInvalid_keeps
    | with_reducible apply State.wr_keeps | with_reducible apply State.wrN_keeps | with_reducible exact OptP.of_none
    | with_reducible apply OptP.of_some | with_reducible apply VeK.mk | with_reducible apply VeK.eff
    | (extract_lets +onlyGivenNames x; first | (have hx : Keeps s0 x := ?_; clear_value x; rotate_left; subst x; rotate_right) | clear_value x | subst x)
    | split

theorem execVexit_keeps {s0 : State} {a0 a1} (h1 : Keeps s0 a1) :
    OutK s0 (execVexit a0 a1) := by
  unfold execVexit
  repeat' first
    | with_reducible intro _ | with_reducible assumption | with_reducible apply execVe_keeps
    | with_reducible apply vexitJob_keeps | with_reducible apply attempt_keeps | with_reducible exact OptP.of_none
    | with_reducible apply OptP.of_some | with_reducible apply OutK.next | with_reducible apply VeK.eff

theorem execVexplog_keeps {s0 : State} {a0 a1} (h1 : Keeps s0 a1) :
    OutK s0 (execVexplog a0 a1) := by
  unfold execVexplog
  repeat' first
    | with_reducible intro _ | with_reducible assumption | with_reducible apply elemJob_keeps
    | with_reducible apply execVe_keeps | with_reducible apply attempt_keeps | with_reducible exact OptP.of_none
    | with_reducible apply OptP.of_some | with_reducible apply OutK.next | with_reducible apply VeK.eff

theorem execVieee_keeps {s0 : State} {a0 a1} (h1 : Keeps s0 a1) :
    OutK s0 (execVieee a0 a1) := by
  unfold execVieee
  repeat' first
    | with_reducible intro _ | with_reducible assumption | with_reducible apply elemJob_keeps
    | with_reducible apply execVe_keeps | with_reducible apply attempt_keeps | with_reducible exact OptP.of_none
    | with_reducible apply OptP.of_some | with_reducible apply OutK.next | with_reducible apply VeK.eff

theorem voptJob_keeps {s0 : State} {a0 a1 a2 a3} (h1 : Keeps s0 a1) :
    VeK s0 (voptJob a0 a1 a2 a3) := by
  unfold voptJob
  repeat' first
    | with_reducible intro _ | with_reducible assumption | with_reducible apply State.putRows_keeps
    | with_reducible apply State.readInvalid_keeps | with_reducible exact OptP.of_none | with_reducible apply OptP.of_some
    | with_reducible apply VeK.mk | with_reducible apply VeK.eff
    | (extract_lets +onlyGivenNames x; first | (have hx : Keeps s0 x := ?_; clear_value x; rotate_left; subst x; rotate_right) | clear_value x | subst x)
    | split

theorem execVopt_keeps {s0 : State} {a0 a1} (h1 : Keeps s0 a1) :
    OutK s0 (execVopt a0 a1) := by
  unfold execVopt
  repeat' first
    | with_reducible intro _ | with_reducible assumption | with_reducible apply execVe_keeps
    | with_reducible apply voptJob_keeps | with_reducible apply attempt_keeps | with_reducible exact OptP.of_none
    | with_reducible apply OptP.of_some | with_reducible apply OutK.next | with_reducible apply VeK.eff

theorem vredJob_keeps {s0 : State} {a0 a1 a2 a3} (h1 : Keeps s0 a1) :
    VeK s0 (vredJob a0 a1 a2 a3) := by
  unfold vredJob
  repeat' first
    | with_reducible intro _ | with_reducible assumption | with_reducible apply State.putRows_keeps
    | with_reducible apply State.readInvalid_keeps | with_reducible apply State.wrN_keeps
    | with_reducible exact OptP.of_none | with_reducible apply OptP.of_some | with_reducible apply VeK.mk
    | with_reducible apply VeK.eff | with_reducible apply Keeps.foldl | with_reducible apply Keeps.foldl1
    | with_reducible apply Keeps.foldl2
    | (extract_lets +onlyGivenNames x; first | (have hx : Keeps s0 x := ?_; clear_value x; rotate_left; subst x; rotate_right) | clear_value x | subst x)
    | split

theorem execVred_keeps {s0 : State} {a0 a1} (h1 : Keeps s0 a1) :
    OutK s0 (execVred a0 a1) := by
  unfold execVred
  repeat' first
    | with_reducible intro _ | with_reducible assumption | with_reducible apply execVe_keeps
    | with_reducible apply vredJob_keeps | with_reducible apply attempt_keeps | with_reducible exact OptP.of_none
    | with_reducible apply OptP.of_some | with_reducible apply OutK.next | with_reducible apply VeK.eff

theorem vrouteJob_keeps {s0 : State} {a0 a1 a2 a3} (h1 : Keeps s0 a1) :
    VeK s0 (vrouteJob a0 a1 a2 a3) := by
  unfold vrouteJob
  repeat' first
    | with_reducible intro _ | with_reducible assumption | with_reducible apply State.readInvalid_keeps
    | with_reducible apply State.wr_keeps | with_reducible exact OptP.of_none | with_reducible apply OptP.of_some
    | with_reducible apply VeK.mk | with_reducible apply VeK.eff
    | (extract_lets +onlyGivenNames x; first | (have hx : Keeps s0 x := ?_; clear_value x; rotate_left; subst x; rotate_right) | clear_value x | subst x)
    | split

theorem execVroute_keeps {s0 : State} {a0 a1} (h1 : Keeps s0 a1) :
    OutK s0 (execVroute a0 a1) := by
  unfold execVroute
  repeat' first
    | with_reducible intro _ | with_reducible assumption | with_reducible apply execVe_keeps
    | with_reducible apply vrouteJob_keeps | with_reducible apply attempt_keeps | with_reducible exact OptP.of_none
    | with_reducible apply OptP.of_some | with_reducible apply OutK.next | with_reducible apply VeK.eff

theorem vscloseJob_keeps {s0 : State} {a0 a1 a2 a3} (h1 : Keeps s0 a1) :
    VeK s0 (vscloseJob a0 a1 a2 a3) := by
  unfold vscloseJob
  repeat' first
    | with_reducible intro _ | with_reducible assumption | with_reducible apply State.notice_keeps
    | with_reducible apply State.wr_keeps | with_reducible apply State.wrN_keeps | with_reducible exact OptP.of_none
    | with_reducible apply OptP.of_some | with_reducible apply VeK.mk | with_reducible apply VeK.eff
    | (extract_lets +onlyGivenNames x; first | (have hx : Keeps s0 x := ?_; clear_value x; rotate_left; subst x; rotate_right) | clear_value x | subst x)
    | split

theorem execVsclose_keeps {s0 : State} {a0 a1} (h1 : Keeps s0 a1) :
    OutK s0 (execVsclose a0 a1) := by
  unfold execVsclose
  repeat' first
    | with_reducible intro _ | with_reducible assumption | with_reducible apply execVe_keeps
    | with_reducible apply vscloseJob_keeps | with_reducible apply attempt_keeps | with_reducible exact OptP.of_none
    | with_reducible apply OptP.of_some | with_reducible apply OutK.next | with_reducible apply VeK.eff

theorem execVsimple_keeps {s0 : State} {a0 a1} (h1 : Keeps s0 a1) :
    OutK s0 (execVsimple a0 a1) := by
  unfold execVsimple
  repeat' first
    | with_reducible intro _ | with_reducible assumption | with_reducible apply elemJob_keeps
    | with_reducible apply execVe_keeps | with_reducible apply attempt_keeps | with_reducible exact OptP.of_none
    | with_reducible apply OptP.of_some | with_reducible apply OutK.next | with_reducible apply VeK.eff

theorem execVsoftmax_keeps {s0 : State} {a0 a1} (h1 : Keeps s0 a1) :
    OutK s0 (execVsoftmax a0 a1) := by
  unfold execVsoftmax
  repeat' first
    | with_reducible intro _ | with_reducible assumption | with_reducible apply execVe_keeps
    | with_reducible apply rowwiseJob_keeps | with_reducible apply attempt_keeps | with_reducible exact OptP.of_none
    | with_reducible apply OptP.of_some | with_reducible apply OutK.next | with_reducible apply VeK.eff

end Sys2Proof.Machine
end

