-- ==== Sys2Proof/Laws/ExecKeeps.lean ====
section
/-! SUPPORT. What every command but the loss and the return of the heartwood supply keeps. -/

namespace Sys2Proof.Machine
/-- Whatever a command does, the tables keep their form, the queue and the ordering code stay, and the output, the free
values drawn and the count only grow; the two supply rows, which start the count again, are not covered. -/
theorem exec_keeps (c : Instr) (s : State) (h : c ≠ .heartwoodSupplyLost)
    (h2 : ∀ k, c ≠ .heartwoodSupplyUp k) : OutK s (exec c s) := by
  have k := Keeps.refl s
  cases c with
  | nop _ => exact execNop_keeps k
  | twait _ => exact execTwait_keeps k
  | signal _ => exact execSignal_keeps k
  | setx _ => exact execSetx_keeps k
  | addx _ => exact execAddx_keeps k
  | loop _ => exact execLoop_keeps k
  | jump _ => exact execJump_keeps k
  | brx _ => exact execBrx_keeps k
  | waitgc _ => exact execWaitgc_keeps k
  | fetchahead _ => exact execFetchahead_keeps k
  | lock _ => exact execLock_keeps k
  | halt _ => exact execHalt_keeps k
  | wend _ => exact execWend_keeps k
  | dset _ => exact execDset_keeps k
  | dlive _ => exact execDlive_keeps k
  | mxw _ => exact execMxw_keeps k
  | mxo _ => exact execMxo_keeps k
  | mxt _ => exact execMxt_keeps k
  | mxs _ => exact execMxs_keeps k
  | mxc _ => exact execMxc_keeps k
  | mxd _ => exact execMxd_keeps k
  | vsimple _ => exact execVsimple_keeps k
  | vieee _ => exact execVieee_keeps k
  | vexplog _ => exact execVexplog_keeps k
  | vcomp _ => exact execVcomp_keeps k
  | vcvt _ => exact execVcvt_keeps k
  | vred _ => exact execVred_keeps k
  | vsoftmax _ => exact execVsoftmax_keeps k
  | rmsnorm _ => exact execRmsnorm_keeps k
  | layernorm _ => exact execLayernorm_keeps k
  | vroute _ => exact execVroute_keeps k
  | vexit _ => exact execVexit_keeps k
  | vsclose _ => exact execVsclose_keeps k
  | vopt _ => exact execVopt_keeps k
  | move _ => exact execMove_keeps k
  | moveCopy _ _ => exact execMoveCopy_keeps k
  | moveFill _ _ => exact execMoveFill_keeps k
  | moveCompare _ _ => exact execMoveCompare_keeps k
  | moveConvert _ _ => exact execMoveConvert_keeps k
  | moveRelayout _ _ => exact execMoveRelayout_keeps k
  | gatherMap _ _ => exact execGatherMap_keeps k
  | descriptorDone _ _ => exact execDescriptorDone_keeps k
  | tileGroupDone _ _ => exact execTileGroupDone_keeps k
  | xsendForward _ _ => exact execXsendForward_keeps k
  | xsendBackward _ => exact execXsendBackward_keeps k
  | xrecvLanding _ => exact execXrecvLanding_keeps k
  | xrecvReturn _ => exact execXrecvReturn_keeps k
  | xreturn _ => exact execXreturn_keeps k
  | xclose _ => exact execXclose_keeps k
  | xmsgRow _ _ _ => exact execXmsgRow_keeps k
  | xmsgCount _ _ _ => exact execXmsgCount_keeps k
  | xmsgReturn _ _ _ => exact execXmsgReturn_keeps k
  | xmsgAck _ _ _ => exact execXmsgAck_keeps k
  | xmsgNack _ _ _ => exact execXmsgNack_keeps k
  | xmsgReject _ _ _ => exact execXmsgReject_keeps k
  | landingComplete _ _ => exact execLandingComplete_keeps k
  | ceOperationBegin _ => exact execCeOperationBegin_keeps k
  | credscat _ => exact execCredscat_keeps k
  | callred _ => exact execCallred_keeps k
  | cgather _ => exact execCgather_keeps k
  | cbcast _ => exact execCbcast_keeps k
  | cdigest _ => exact execCdigest_keeps k
  | cmsgNode _ _ => exact execCmsgNode_keeps k
  | cmsgAbsent _ _ => exact execCmsgAbsent_keeps k
  | cmsgData _ _ => exact execCmsgData_keeps k
  | cmsgRelay _ _ => exact execCmsgRelay_keeps k
  | cmsgAck _ _ => exact execCmsgAck_keeps k
  | cmsgNack _ _ => exact execCmsgNack_keeps k
  | cmsgReject _ _ => exact execCmsgReject_keeps k
  | countEventArrive _ => exact execCountEventArrive_keeps k
  | demandFillComplete _ => exact execDemandFillComplete_keeps k
  | fetchaheadFillComplete _ => exact execFetchaheadFillComplete_keeps k
  | speculativeFetch _ _ => exact execSpeculativeFetch_keeps k
  | heldAccessComplete _ => exact execHeldAccessComplete_keeps k
  | poolAllocate _ _ _ _ => exact execPoolAllocate_keeps k
  | poolRelease _ _ _ => exact execPoolRelease_keeps k
  | poolWaiterGrant _ _ => exact execPoolWaiterGrant_keeps k
  | spillCacheRefill _ _ => exact execSpillCacheRefill_keeps k
  | boundaryStart _ => exact execBoundaryStart_keeps k
  | paceSend _ => exact execPaceSend_keeps k
  | entryPcLoad _ => exact execEntryPcLoad_keeps k
  | windowOpen _ => exact execWindowOpen_keeps k
  | windowClose _ => exact execWindowClose_keeps k
  | sleepAnswer _ _ => exact execSleepAnswer_keeps k
  | sleepAnswerDeadline _ => exact execSleepAnswerDeadline_keeps k
  | sleepCommit _ => exact execSleepCommit_keeps k
  | wakeRequest _ => exact execWakeRequest_keeps k
  | latchedWake _ => exact execLatchedWake_keeps k
  | scheduledWake _ => exact execScheduledWake_keeps k
  | meetingCountReached _ => exact execMeetingCountReached_keeps k
  | hangLimitExpiry _ => exact execHangLimitExpiry_keeps k
  | holdLimitExpiry _ _ => exact execHoldLimitExpiry_keeps k
  | window0Boundary _ => exact execWindow0Boundary_keeps k
  | launchCount _ => exact execLaunchCount_keeps k
  | normVerdict _ => exact execNormVerdict_keeps k
  | load _ _ => exact execLoad_keeps k
  | store _ _ => exact execStore_keeps k
  | atomic _ _ => exact execAtomic_keeps k
  | fill _ _ => exact execFill_keeps k
  | evict _ _ => exact execEvict_keeps k
  | inval _ _ => exact execInval_keeps k
  | loadData _ _ => exact execLoadData_keeps k
  | storeAck _ _ => exact execStoreAck_keeps k
  | atomicData _ _ => exact execAtomicData_keeps k
  | fillData _ _ => exact execFillData_keeps k
  | invalAck _ _ => exact execInvalAck_keeps k
  | resync _ _ => exact execResync_keeps k
  | requestTimeout _ _ => exact execRequestTimeout_keeps k
  | suspectResend _ => exact execSuspectResend_keeps k
  | farCacheLoad _ _ _ _ _ => exact execFarCacheLoad_keeps k
  | beacon _ _ _ => exact execBeacon_keeps k
  | beaconSend _ => exact execBeaconSend_keeps k
  | late _ _ => exact execLate_keeps k
  | teardown _ _ => exact execTeardown_keeps k
  | alarm _ _ => exact execAlarm_keeps k
  | dataUnit _ _ _ _ => exact execDataUnit_keeps k
  | unitAck _ _ => exact execUnitAck_keeps k
  | unitNak _ _ => exact execUnitNak_keeps k
  | credit _ _ _ => exact execCredit_keeps k
  | spare _ _ _ => exact execSpare_keeps k
  | echo _ _ => exact execEcho_keeps k
  | echoReply _ _ => exact execEchoReply_keeps k
  | linkAckTimer _ => exact execLinkAckTimer_keeps k
  | laneFailure _ _ => exact execLaneFailure_keeps k
  | spareSwitch _ => exact execSpareSwitch_keeps k
  | portDown _ => exact execPortDown_keeps k
  | d2dLinkFailure _ _ _ _ => exact execD2dLinkFailure_keeps k
  | ptpSync _ _ _ _ _ => exact execPtpSync_keeps k
  | ptpFollowUp _ _ _ => exact execPtpFollowUp_keeps k
  | ptpDelayReq _ _ _ => exact execPtpDelayReq_keeps k
  | ptpDelayResp _ _ _ => exact execPtpDelayResp_keeps k
  | ptpSyncSend _ => exact execPtpSyncSend_keeps k
  | sourceTimeout  => exact execSourceTimeout_keeps k
  | errEstGrowth  => exact execErrEstGrowth_keeps k
  | countBeaconSend  => exact execCountBeaconSend_keeps k
  | countBeaconReceive _ => exact execCountBeaconReceive_keeps k
  | heartbeatSend  => exact execHeartbeatSend_keeps k
  | heartbeatTimeout  => exact execHeartbeatTimeout_keeps k
  | takeoverComplete  => exact execTakeoverComplete_keeps k
  | mirrorRecord  => exact execMirrorRecord_keeps k
  | mirrorAck  => exact execMirrorAck_keeps k
  | standbyFailure _ => exact execStandbyFailure_keeps k
  | heartwoodSilence  => exact execHeartwoodSilence_keeps k
  | errorEvent _ => exact execErrorEvent_keeps k
  | recordWrite  => exact execRecordWrite_keeps k
  | flashAppend  => exact execFlashAppend_keeps k
  | hbmTempSample _ _ => exact execHbmTempSample_keeps k
  | bandChange _ => exact execBandChange_keeps k
  | hbmScrub _ _ => exact execHbmScrub_keeps k
  | sramScrub _ _ => exact execSramScrub_keeps k
  | rowRemap _ _ _ _ _ => exact execRowRemap_keeps k
  | stackRetirement _ _ _ _ => exact execStackRetirement_keeps k
  | sensorSample _ _ _ => exact execSensorSample_keeps k
  | energySlotMeasured _ _ _ _ _ => exact execEnergySlotMeasured_keeps k
  | thermalClamp _ => exact execThermalClamp_keeps k
  | thermalClampRelease _ => exact execThermalClampRelease_keeps k
  | currentLimit _ => exact execCurrentLimit_keeps k
  | currentLimitRelease  => exact execCurrentLimitRelease_keeps k
  | avgLimit _ => exact execAvgLimit_keeps k
  | avgLimitRelease _ => exact execAvgLimitRelease_keeps k
  | regOvercurrent _ _ => exact execRegOvercurrent_keeps k
  | thermalTrip _ => exact execThermalTrip_keeps k
  | packageSleep  => exact execPackageSleep_keeps k
  | domainTransitionDone _ => exact execDomainTransitionDone_keeps k
  | heartwoodSupplyUp _ => simp at h h2
  | boot  => exact execBoot_keeps k
  | heartwoodSupplyLost  => simp at h h2
  | mainGoodSet _ => exact execMainGoodSet_keeps k
  | mainGoodClear _ => exact execMainGoodClear_keeps k
  | refclkLost _ => exact execRefclkLost_keeps k
  | perstAssert _ => exact execPerstAssert_keeps k
  | ageingSample _ => exact execAgeingSample_keeps k
  | graftFinalCopy _ => exact execGraftFinalCopy_keeps k
  | graftMapSwitch _ => exact execGraftMapSwitch_keeps k
  | graftForwardEnd _ => exact execGraftForwardEnd_keeps k
  | cut _ => exact execCut_keeps k
  | frameCapture _ _ => exact execFrameCapture_keeps k
  | cutResume _ => exact execCutResume_keeps k
  | engineHalt _ => exact execEngineHalt_keeps k
  | traceTrigger _ => exact execTraceTrigger_keeps k
  | snapshotLatch _ => exact execSnapshotLatch_keeps k
  | tgenRunEnd _ _ _ => exact execTgenRunEnd_keeps k
  | tgenStart _ _ => exact execTgenStart_keeps k
  | tgenStop _ _ => exact execTgenStop_keeps k
  | cmdProdWrite _ _ _ => exact execCmdProdWrite_keeps k
  | rspConsWrite _ _ _ => exact execRspConsWrite_keeps k
  | mbxIrqTake _ => exact execMbxIrqTake_keeps k
  | portTake _ _ => exact execPortTake_keeps k
  | peakWTake  => exact execPeakWTake_keeps k
  | fifoPeakTake  => exact execFifoPeakTake_keeps k
  | trcFire _ => exact execTrcFire_keeps k
  | jnlReadWrite _ _ => exact execJnlReadWrite_keeps k
  | doorbellWrite _ _ _ => exact execDoorbellWrite_keeps k
  | bar2Access _ _ _ _ => exact execBar2Access_keeps k
  | accWinWrite _ _ => exact execAccWinWrite_keeps k
  | registerWrite _ _ => exact execRegisterWrite_keeps k
  | i3cPrivateWrite _ _ => exact execI3cPrivateWrite_keeps k
  | i3cPrivateRead _ _ => exact execI3cPrivateRead_keeps k
  | entdaa _ _ _ => exact execEntdaa_keeps k
  | rstdaa _ => exact execRstdaa_keeps k
  | setmwl _ _ => exact execSetmwl_keeps k
  | setmrl _ _ => exact execSetmrl_keeps k
  | getpid _ => exact execGetpid_keeps k
  | getbcr _ => exact execGetbcr_keeps k
  | getdcr _ => exact execGetdcr_keeps k
  | getstatus _ => exact execGetstatus_keeps k
  | enec _ _ => exact execEnec_keeps k
  | disec _ _ => exact execDisec_keeps k
  | pendingCommandComplete _ _ => exact execPendingCommandComplete_keeps k
  | deviceStart _ _ => exact execDeviceStart_keeps k
  | deviceStop _ _ => exact execDeviceStop_keeps k
  | deviceReset _ _ => exact execDeviceReset_keeps k
  | deviceIdentity _ _ => exact execDeviceIdentity_keeps k
  | deviceMeasure _ _ => exact execDeviceMeasure_keeps k
  | deviceStatus _ _ => exact execDeviceStatus_keeps k
  | powerCap _ _ => exact execPowerCap_keeps k
  | firmwareCommit _ _ => exact execFirmwareCommit_keeps k
  | jobLoad _ _ _ => exact execJobLoad_keeps k
  | jobUnload _ _ => exact execJobUnload_keeps k
  | jobLaunch _ _ => exact execJobLaunch_keeps k
  | jobTeardown _ _ => exact execJobTeardown_keeps k
  | jobResume _ _ => exact execJobResume_keeps k
  | jobVariant _ _ => exact execJobVariant_keeps k
  | inputCommit _ _ => exact execInputCommit_keeps k
  | poolAudit _ _ => exact execPoolAudit_keeps k
  | pacePlan _ _ => exact execPacePlan_keeps k
  | paceRead _ _ => exact execPaceRead_keeps k
  | plateStage _ _ _ _ => exact execPlateStage_keeps k
  | plateApply _ _ => exact execPlateApply_keeps k
  | overlayApply _ _ _ => exact execOverlayApply_keeps k
  | overlayRemove _ _ => exact execOverlayRemove_keeps k
  | overlayList _ _ => exact execOverlayList_keeps k
  | nodeAssign _ _ => exact execNodeAssign_keeps k
  | timeSource _ _ => exact execTimeSource_keeps k
  | partQuery _ _ => exact execPartQuery_keeps k
  | graftPrepare _ _ => exact execGraftPrepare_keeps k
  | graftCommit _ _ => exact execGraftCommit_keeps k
  | graftAbort _ _ => exact execGraftAbort_keeps k
  | graftStatus _ _ => exact execGraftStatus_keeps k
  | normArm _ _ => exact execNormArm_keeps k
  | normAnswer _ _ => exact execNormAnswer_keeps k
  | proofArm _ _ => exact execProofArm_keeps k
  | proofCompareCommand _ _ => exact execProofCompareCommand_keeps k
  | journalOpen _ _ => exact execJournalOpen_keeps k
  | journalClose _ _ => exact execJournalClose_keeps k
  | exportStart _ _ => exact execExportStart_keeps k
  | importStart _ _ => exact execImportStart_keeps k
  | stopAt _ _ => exact execStopAt_keeps k
  | stopCancel _ _ => exact execStopCancel_keeps k
  | debugHalt _ _ => exact execDebugHalt_keeps k
  | debugRun _ _ => exact execDebugRun_keeps k
  | peek _ _ => exact execPeek_keeps k
  | take _ _ => exact execTake_keeps k
  | traceArm _ _ => exact execTraceArm_keeps k
  | countersSnap _ _ => exact execCountersSnap_keeps k
  | serviceEnter _ _ => exact execServiceEnter_keeps k
  | serviceExit _ _ => exact execServiceExit_keeps k
  | tgenRun _ _ => exact execTgenRun_keeps k
  | tgenRead _ _ => exact execTgenRead_keeps k
  | recordRead _ _ => exact execRecordRead_keeps k
  | wearRead _ _ => exact execWearRead_keeps k
  | stackRetire _ _ => exact execStackRetire_keeps k
  | returnPrepare _ _ => exact execReturnPrepare_keeps k
  | gcWaitSatisfied _ => exact execGcWaitSatisfied_keeps k
  | engineInstructionComplete _ => exact execEngineInstructionComplete_keeps k
  | tallyFifoApply _ => exact execTallyFifoApply_keeps k
  | linkTrainingComplete _ _ => exact execLinkTrainingComplete_keeps k
  | perstDeassert _ => exact execPerstDeassert_keeps k
  | snapshotWriteTimeout _ => exact execSnapshotWriteTimeout_keeps k
  | ibiRetry  => exact execIbiRetry_keeps k
  | boundaryScan _ => exact execBoundaryScan_keeps k
end Sys2Proof.Machine
end

