-- ==== Sys2Proof/Laws/Frames.lean ====
section
/-! SUPPORT. What lets a frame in, said once for every frame row of the fabric. -/

namespace Sys2Proof.Machine

/-- A frame that comes in is taken from its port's buffer and handed on. -/
theorem letIn_comes {p op cls : Nat} {f : Frame} {s : State} (h : ComesIn p op cls f s) (k : State → Option State) :
    s.letIn p op cls f k = k (s.takeArrived p f) := by
  obtain ⟨h1, h2, h3, h4, h5, h6, h7, h8, h9, _⟩ := h
  have e1 : ((s.takeArrived p f).node) = s.node := rfl
  have e2 : ((s.takeArrived p f).ctxValid (fSrc f)) = s.ctxValid (fSrc f) := rfl
  have e3 : ((s.takeArrived p f).ctxState (fSrc f)) = s.ctxState (fSrc f) := rfl
  unfold State.letIn
  have h6' : (f.payload.length != if (op == 1 || op == 4) = true then 0 else fLen f) = false := by
    rw [h6]; simp
  simp [h1, h2, h3, h4, e1, e2, e3, h8, h9, Nat.not_lt.mpr h5, Nat.not_lt.mpr h7]
  intro hne
  exact absurd (by rw [h6]) hne

end Sys2Proof.Machine
end

