-- ==== Sys2Proof/Laws/Issue.lean ====
section
/-! SUPPORT. What one attempt to issue an instruction does, said once for every row of the engine programs. -/

namespace Sys2Proof.Machine

theorem attempt_some {s t : State} {o : Option State} (h : o = some t) : attempt s o = .next t := by
  simp [attempt, h]

theorem attempt_none {s : State} {o : Option State} (h : o = none) : attempt s o = .next s := by
  simp [attempt, h]

/-- An instruction of the row that issues, with no cause of its own before the waits, ends as its run says. -/
theorem issue_runs {st : Stream} {w : IWord} {s : State} (h : Issues st w s) {mine : IWord → Bool}
    {pre : State → StreamSt → IWord → List Nat} {run : State → StreamSt → IWord → Ran}
    (hm : mine w = true) (hp : pre s (s.stream (streamIx st)) w = []) :
    issue st mine pre run s =
      match run (s.afterWaits (streamIx st) w) (issuing (s.stream (streamIx st))) w with
      | .fault c => some ((s.afterWaits (streamIx st) w).fault (streamIx st) c)
      | .bad c a iso => some (((s.afterWaits (streamIx st) w).accessError (streamIx st) a iso).fault (streamIx st) c)
      | .asleep k =>
        some ((((s.afterWaits (streamIx st) w).setStream (streamIx st)
          (issuing (s.stream (streamIx st)))).holdStream (streamIx st) k).requestWake k)
      | .full =>
        some ((s.afterWaits (streamIx st) w).setStream (streamIx st)
          { issuing (s.stream (streamIx st)) with queue := true })
      | .done t => some t := by
  obtain ⟨h1, h2, h3, h4, h5⟩ := h
  unfold issue State.afterWaits
  rcases h5 with hg | ⟨ho, hw, hr⟩
  · simp [h1, h2, h3, hm, h4, hp, hg, minCause, issuing] <;> rfl
  · by_cases hg : (s.stream (streamIx st)).granted = true
    · simp [h1, h2, h3, hm, h4, hp, hg, minCause, issuing] <;> rfl
    · simp [h1, h2, h3, hm, h4, hp, hg, ho, hw, hr, minCause, issuing] <;> rfl

/-- An instruction that runs to completion gives the state its run answers. -/
theorem issue_done {st : Stream} {w : IWord} {s t : State} (h : Issues st w s) {mine : IWord → Bool}
    {pre : State → StreamSt → IWord → List Nat} {run : State → StreamSt → IWord → Ran}
    (hm : mine w = true) (hp : pre s (s.stream (streamIx st)) w = [])
    (hr : run (s.afterWaits (streamIx st) w) (issuing (s.stream (streamIx st))) w = .done t) :
    issue st mine pre run s = some t := by
  rw [issue_runs h hm hp, hr]

end Sys2Proof.Machine
end

