-- ==== Sys2Proof/Laws/State.lean ====
section
/-! SUPPORT. What each plain update of State leaves as it is: one lemma per update and per field, and one per table that an
update writes at another key. -/

namespace Sys2Proof.Machine

variable (s : State)

-- setCfgW

@[simp] theorem setCfgW_gc (a : Nat) (w : W64) : (s.setCfgW a w).gc = s.gc := rfl
@[simp] theorem setCfgW_eng (a : Nat) (w : W64) : (s.setCfgW a w).eng = s.eng := rfl
@[simp] theorem setCfgW_mem (a : Nat) (w : W64) : (s.setCfgW a w).mem = s.mem := rfl
@[simp] theorem setCfgW_poison (a : Nat) (w : W64) : (s.setCfgW a w).poison = s.poison := rfl
@[simp] theorem setCfgW_mbx (a : Nat) (w : W64) : (s.setCfgW a w).mbx = s.mbx := rfl
@[simp] theorem setCfgW_doms (a : Nat) (w : W64) : (s.setCfgW a w).doms = s.doms := rfl
@[simp] theorem setCfgW_parts (a : Nat) (w : W64) : (s.setCfgW a w).parts = s.parts := rfl
@[simp] theorem setCfgW_pool (a : Nat) (w : W64) : (s.setCfgW a w).pool = s.pool := rfl
@[simp] theorem setCfgW_mv (a : Nat) (w : W64) : (s.setCfgW a w).mv = s.mv := rfl
@[simp] theorem setCfgW_xch (a : Nat) (w : W64) : (s.setCfgW a w).xch = s.xch := rfl
@[simp] theorem setCfgW_ce (a : Nat) (w : W64) : (s.setCfgW a w).ce = s.ce := rfl
@[simp] theorem setCfgW_net (a : Nat) (w : W64) : (s.setCfgW a w).net = s.net := rfl
@[simp] theorem setCfgW_mgmt (a : Nat) (w : W64) : (s.setCfgW a w).mgmt = s.mgmt := rfl
@[simp] theorem setCfgW_time (a : Nat) (w : W64) : (s.setCfgW a w).time = s.time := rfl
@[simp] theorem setCfgW_svc (a : Nat) (w : W64) : (s.setCfgW a w).svc = s.svc := rfl
@[simp] theorem setCfgW_pw (a : Nat) (w : W64) : (s.setCfgW a w).pw = s.pw := rfl
@[simp] theorem setCfgW_log (a : Nat) (w : W64) : (s.setCfgW a w).log = s.log := rfl
@[simp] theorem setCfgW_order (a : Nat) (w : W64) : (s.setCfgW a w).order = s.order := rfl
@[simp] theorem setCfgW_freeCount (a : Nat) (w : W64) : (s.setCfgW a w).freeCount = s.freeCount := rfl
@[simp] theorem setCfgW_out (a : Nat) (w : W64) : (s.setCfgW a w).out = s.out := rfl
@[simp] theorem setCfgW_pending (a : Nat) (w : W64) : (s.setCfgW a w).pending = s.pending := rfl

-- setCfgF

@[simp] theorem setCfgF_gc (a lo n v : Nat) : (s.setCfgF a lo n v).gc = s.gc := rfl
@[simp] theorem setCfgF_eng (a lo n v : Nat) : (s.setCfgF a lo n v).eng = s.eng := rfl
@[simp] theorem setCfgF_mem (a lo n v : Nat) : (s.setCfgF a lo n v).mem = s.mem := rfl
@[simp] theorem setCfgF_poison (a lo n v : Nat) : (s.setCfgF a lo n v).poison = s.poison := rfl
@[simp] theorem setCfgF_mbx (a lo n v : Nat) : (s.setCfgF a lo n v).mbx = s.mbx := rfl
@[simp] theorem setCfgF_doms (a lo n v : Nat) : (s.setCfgF a lo n v).doms = s.doms := rfl
@[simp] theorem setCfgF_parts (a lo n v : Nat) : (s.setCfgF a lo n v).parts = s.parts := rfl
@[simp] theorem setCfgF_pool (a lo n v : Nat) : (s.setCfgF a lo n v).pool = s.pool := rfl
@[simp] theorem setCfgF_mv (a lo n v : Nat) : (s.setCfgF a lo n v).mv = s.mv := rfl
@[simp] theorem setCfgF_xch (a lo n v : Nat) : (s.setCfgF a lo n v).xch = s.xch := rfl
@[simp] theorem setCfgF_ce (a lo n v : Nat) : (s.setCfgF a lo n v).ce = s.ce := rfl
@[simp] theorem setCfgF_net (a lo n v : Nat) : (s.setCfgF a lo n v).net = s.net := rfl
@[simp] theorem setCfgF_mgmt (a lo n v : Nat) : (s.setCfgF a lo n v).mgmt = s.mgmt := rfl
@[simp] theorem setCfgF_time (a lo n v : Nat) : (s.setCfgF a lo n v).time = s.time := rfl
@[simp] theorem setCfgF_svc (a lo n v : Nat) : (s.setCfgF a lo n v).svc = s.svc := rfl
@[simp] theorem setCfgF_pw (a lo n v : Nat) : (s.setCfgF a lo n v).pw = s.pw := rfl
@[simp] theorem setCfgF_log (a lo n v : Nat) : (s.setCfgF a lo n v).log = s.log := rfl
@[simp] theorem setCfgF_order (a lo n v : Nat) : (s.setCfgF a lo n v).order = s.order := rfl
@[simp] theorem setCfgF_freeCount (a lo n v : Nat) : (s.setCfgF a lo n v).freeCount = s.freeCount := rfl
@[simp] theorem setCfgF_out (a lo n v : Nat) : (s.setCfgF a lo n v).out = s.out := rfl
@[simp] theorem setCfgF_pending (a lo n v : Nat) : (s.setCfgF a lo n v).pending = s.pending := rfl

-- bumpCfg

@[simp] theorem bumpCfg_gc (a lo n k : Nat) : (s.bumpCfg a lo n k).gc = s.gc := rfl
@[simp] theorem bumpCfg_eng (a lo n k : Nat) : (s.bumpCfg a lo n k).eng = s.eng := rfl
@[simp] theorem bumpCfg_mem (a lo n k : Nat) : (s.bumpCfg a lo n k).mem = s.mem := rfl
@[simp] theorem bumpCfg_poison (a lo n k : Nat) : (s.bumpCfg a lo n k).poison = s.poison := rfl
@[simp] theorem bumpCfg_mbx (a lo n k : Nat) : (s.bumpCfg a lo n k).mbx = s.mbx := rfl
@[simp] theorem bumpCfg_doms (a lo n k : Nat) : (s.bumpCfg a lo n k).doms = s.doms := rfl
@[simp] theorem bumpCfg_parts (a lo n k : Nat) : (s.bumpCfg a lo n k).parts = s.parts := rfl
@[simp] theorem bumpCfg_pool (a lo n k : Nat) : (s.bumpCfg a lo n k).pool = s.pool := rfl
@[simp] theorem bumpCfg_mv (a lo n k : Nat) : (s.bumpCfg a lo n k).mv = s.mv := rfl
@[simp] theorem bumpCfg_xch (a lo n k : Nat) : (s.bumpCfg a lo n k).xch = s.xch := rfl
@[simp] theorem bumpCfg_ce (a lo n k : Nat) : (s.bumpCfg a lo n k).ce = s.ce := rfl
@[simp] theorem bumpCfg_net (a lo n k : Nat) : (s.bumpCfg a lo n k).net = s.net := rfl
@[simp] theorem bumpCfg_mgmt (a lo n k : Nat) : (s.bumpCfg a lo n k).mgmt = s.mgmt := rfl
@[simp] theorem bumpCfg_time (a lo n k : Nat) : (s.bumpCfg a lo n k).time = s.time := rfl
@[simp] theorem bumpCfg_svc (a lo n k : Nat) : (s.bumpCfg a lo n k).svc = s.svc := rfl
@[simp] theorem bumpCfg_pw (a lo n k : Nat) : (s.bumpCfg a lo n k).pw = s.pw := rfl
@[simp] theorem bumpCfg_log (a lo n k : Nat) : (s.bumpCfg a lo n k).log = s.log := rfl
@[simp] theorem bumpCfg_order (a lo n k : Nat) : (s.bumpCfg a lo n k).order = s.order := rfl
@[simp] theorem bumpCfg_freeCount (a lo n k : Nat) : (s.bumpCfg a lo n k).freeCount = s.freeCount := rfl
@[simp] theorem bumpCfg_out (a lo n k : Nat) : (s.bumpCfg a lo n k).out = s.out := rfl
@[simp] theorem bumpCfg_pending (a lo n k : Nat) : (s.bumpCfg a lo n k).pending = s.pending := rfl

-- setMbxW

@[simp] theorem setMbxW_gc (a : Nat) (w : W64) : (s.setMbxW a w).gc = s.gc := rfl
@[simp] theorem setMbxW_eng (a : Nat) (w : W64) : (s.setMbxW a w).eng = s.eng := rfl
@[simp] theorem setMbxW_mem (a : Nat) (w : W64) : (s.setMbxW a w).mem = s.mem := rfl
@[simp] theorem setMbxW_poison (a : Nat) (w : W64) : (s.setMbxW a w).poison = s.poison := rfl
@[simp] theorem setMbxW_cfg (a : Nat) (w : W64) : (s.setMbxW a w).cfg = s.cfg := rfl
@[simp] theorem setMbxW_doms (a : Nat) (w : W64) : (s.setMbxW a w).doms = s.doms := rfl
@[simp] theorem setMbxW_parts (a : Nat) (w : W64) : (s.setMbxW a w).parts = s.parts := rfl
@[simp] theorem setMbxW_pool (a : Nat) (w : W64) : (s.setMbxW a w).pool = s.pool := rfl
@[simp] theorem setMbxW_mv (a : Nat) (w : W64) : (s.setMbxW a w).mv = s.mv := rfl
@[simp] theorem setMbxW_xch (a : Nat) (w : W64) : (s.setMbxW a w).xch = s.xch := rfl
@[simp] theorem setMbxW_ce (a : Nat) (w : W64) : (s.setMbxW a w).ce = s.ce := rfl
@[simp] theorem setMbxW_net (a : Nat) (w : W64) : (s.setMbxW a w).net = s.net := rfl
@[simp] theorem setMbxW_mgmt (a : Nat) (w : W64) : (s.setMbxW a w).mgmt = s.mgmt := rfl
@[simp] theorem setMbxW_time (a : Nat) (w : W64) : (s.setMbxW a w).time = s.time := rfl
@[simp] theorem setMbxW_svc (a : Nat) (w : W64) : (s.setMbxW a w).svc = s.svc := rfl
@[simp] theorem setMbxW_pw (a : Nat) (w : W64) : (s.setMbxW a w).pw = s.pw := rfl
@[simp] theorem setMbxW_log (a : Nat) (w : W64) : (s.setMbxW a w).log = s.log := rfl
@[simp] theorem setMbxW_order (a : Nat) (w : W64) : (s.setMbxW a w).order = s.order := rfl
@[simp] theorem setMbxW_freeCount (a : Nat) (w : W64) : (s.setMbxW a w).freeCount = s.freeCount := rfl
@[simp] theorem setMbxW_out (a : Nat) (w : W64) : (s.setMbxW a w).out = s.out := rfl
@[simp] theorem setMbxW_pending (a : Nat) (w : W64) : (s.setMbxW a w).pending = s.pending := rfl

-- setMbxF

@[simp] theorem setMbxF_gc (a lo n v : Nat) : (s.setMbxF a lo n v).gc = s.gc := rfl
@[simp] theorem setMbxF_eng (a lo n v : Nat) : (s.setMbxF a lo n v).eng = s.eng := rfl
@[simp] theorem setMbxF_mem (a lo n v : Nat) : (s.setMbxF a lo n v).mem = s.mem := rfl
@[simp] theorem setMbxF_poison (a lo n v : Nat) : (s.setMbxF a lo n v).poison = s.poison := rfl
@[simp] theorem setMbxF_cfg (a lo n v : Nat) : (s.setMbxF a lo n v).cfg = s.cfg := rfl
@[simp] theorem setMbxF_doms (a lo n v : Nat) : (s.setMbxF a lo n v).doms = s.doms := rfl
@[simp] theorem setMbxF_parts (a lo n v : Nat) : (s.setMbxF a lo n v).parts = s.parts := rfl
@[simp] theorem setMbxF_pool (a lo n v : Nat) : (s.setMbxF a lo n v).pool = s.pool := rfl
@[simp] theorem setMbxF_mv (a lo n v : Nat) : (s.setMbxF a lo n v).mv = s.mv := rfl
@[simp] theorem setMbxF_xch (a lo n v : Nat) : (s.setMbxF a lo n v).xch = s.xch := rfl
@[simp] theorem setMbxF_ce (a lo n v : Nat) : (s.setMbxF a lo n v).ce = s.ce := rfl
@[simp] theorem setMbxF_net (a lo n v : Nat) : (s.setMbxF a lo n v).net = s.net := rfl
@[simp] theorem setMbxF_mgmt (a lo n v : Nat) : (s.setMbxF a lo n v).mgmt = s.mgmt := rfl
@[simp] theorem setMbxF_time (a lo n v : Nat) : (s.setMbxF a lo n v).time = s.time := rfl
@[simp] theorem setMbxF_svc (a lo n v : Nat) : (s.setMbxF a lo n v).svc = s.svc := rfl
@[simp] theorem setMbxF_pw (a lo n v : Nat) : (s.setMbxF a lo n v).pw = s.pw := rfl
@[simp] theorem setMbxF_log (a lo n v : Nat) : (s.setMbxF a lo n v).log = s.log := rfl
@[simp] theorem setMbxF_order (a lo n v : Nat) : (s.setMbxF a lo n v).order = s.order := rfl
@[simp] theorem setMbxF_freeCount (a lo n v : Nat) : (s.setMbxF a lo n v).freeCount = s.freeCount := rfl
@[simp] theorem setMbxF_out (a lo n v : Nat) : (s.setMbxF a lo n v).out = s.out := rfl
@[simp] theorem setMbxF_pending (a lo n v : Nat) : (s.setMbxF a lo n v).pending = s.pending := rfl

-- setDom

@[simp] theorem setDom_gc (k : Nat) (d : Dom) : (s.setDom k d).gc = s.gc := rfl
@[simp] theorem setDom_eng (k : Nat) (d : Dom) : (s.setDom k d).eng = s.eng := rfl
@[simp] theorem setDom_mem (k : Nat) (d : Dom) : (s.setDom k d).mem = s.mem := rfl
@[simp] theorem setDom_poison (k : Nat) (d : Dom) : (s.setDom k d).poison = s.poison := rfl
@[simp] theorem setDom_cfg (k : Nat) (d : Dom) : (s.setDom k d).cfg = s.cfg := rfl
@[simp] theorem setDom_mbx (k : Nat) (d : Dom) : (s.setDom k d).mbx = s.mbx := rfl
@[simp] theorem setDom_parts (k : Nat) (d : Dom) : (s.setDom k d).parts = s.parts := rfl
@[simp] theorem setDom_pool (k : Nat) (d : Dom) : (s.setDom k d).pool = s.pool := rfl
@[simp] theorem setDom_mv (k : Nat) (d : Dom) : (s.setDom k d).mv = s.mv := rfl
@[simp] theorem setDom_xch (k : Nat) (d : Dom) : (s.setDom k d).xch = s.xch := rfl
@[simp] theorem setDom_ce (k : Nat) (d : Dom) : (s.setDom k d).ce = s.ce := rfl
@[simp] theorem setDom_net (k : Nat) (d : Dom) : (s.setDom k d).net = s.net := rfl
@[simp] theorem setDom_mgmt (k : Nat) (d : Dom) : (s.setDom k d).mgmt = s.mgmt := rfl
@[simp] theorem setDom_time (k : Nat) (d : Dom) : (s.setDom k d).time = s.time := rfl
@[simp] theorem setDom_svc (k : Nat) (d : Dom) : (s.setDom k d).svc = s.svc := rfl
@[simp] theorem setDom_pw (k : Nat) (d : Dom) : (s.setDom k d).pw = s.pw := rfl
@[simp] theorem setDom_log (k : Nat) (d : Dom) : (s.setDom k d).log = s.log := rfl
@[simp] theorem setDom_order (k : Nat) (d : Dom) : (s.setDom k d).order = s.order := rfl
@[simp] theorem setDom_freeCount (k : Nat) (d : Dom) : (s.setDom k d).freeCount = s.freeCount := rfl
@[simp] theorem setDom_out (k : Nat) (d : Dom) : (s.setDom k d).out = s.out := rfl
@[simp] theorem setDom_pending (k : Nat) (d : Dom) : (s.setDom k d).pending = s.pending := rfl

-- setStream

@[simp] theorem setStream_gc (i : Nat) (t : StreamSt) : (s.setStream i t).gc = s.gc := rfl
@[simp] theorem setStream_mem (i : Nat) (t : StreamSt) : (s.setStream i t).mem = s.mem := rfl
@[simp] theorem setStream_poison (i : Nat) (t : StreamSt) : (s.setStream i t).poison = s.poison := rfl
@[simp] theorem setStream_cfg (i : Nat) (t : StreamSt) : (s.setStream i t).cfg = s.cfg := rfl
@[simp] theorem setStream_mbx (i : Nat) (t : StreamSt) : (s.setStream i t).mbx = s.mbx := rfl
@[simp] theorem setStream_doms (i : Nat) (t : StreamSt) : (s.setStream i t).doms = s.doms := rfl
@[simp] theorem setStream_parts (i : Nat) (t : StreamSt) : (s.setStream i t).parts = s.parts := rfl
@[simp] theorem setStream_pool (i : Nat) (t : StreamSt) : (s.setStream i t).pool = s.pool := rfl
@[simp] theorem setStream_mv (i : Nat) (t : StreamSt) : (s.setStream i t).mv = s.mv := rfl
@[simp] theorem setStream_xch (i : Nat) (t : StreamSt) : (s.setStream i t).xch = s.xch := rfl
@[simp] theorem setStream_ce (i : Nat) (t : StreamSt) : (s.setStream i t).ce = s.ce := rfl
@[simp] theorem setStream_net (i : Nat) (t : StreamSt) : (s.setStream i t).net = s.net := rfl
@[simp] theorem setStream_mgmt (i : Nat) (t : StreamSt) : (s.setStream i t).mgmt = s.mgmt := rfl
@[simp] theorem setStream_time (i : Nat) (t : StreamSt) : (s.setStream i t).time = s.time := rfl
@[simp] theorem setStream_svc (i : Nat) (t : StreamSt) : (s.setStream i t).svc = s.svc := rfl
@[simp] theorem setStream_pw (i : Nat) (t : StreamSt) : (s.setStream i t).pw = s.pw := rfl
@[simp] theorem setStream_log (i : Nat) (t : StreamSt) : (s.setStream i t).log = s.log := rfl
@[simp] theorem setStream_order (i : Nat) (t : StreamSt) : (s.setStream i t).order = s.order := rfl
@[simp] theorem setStream_freeCount (i : Nat) (t : StreamSt) : (s.setStream i t).freeCount = s.freeCount := rfl
@[simp] theorem setStream_out (i : Nat) (t : StreamSt) : (s.setStream i t).out = s.out := rfl
@[simp] theorem setStream_pending (i : Nat) (t : StreamSt) : (s.setStream i t).pending = s.pending := rfl

-- setTally

@[simp] theorem setTally_gc (c t : Nat) (v : Tally) : (s.setTally c t v).gc = s.gc := rfl
@[simp] theorem setTally_mem (c t : Nat) (v : Tally) : (s.setTally c t v).mem = s.mem := rfl
@[simp] theorem setTally_poison (c t : Nat) (v : Tally) : (s.setTally c t v).poison = s.poison := rfl
@[simp] theorem setTally_cfg (c t : Nat) (v : Tally) : (s.setTally c t v).cfg = s.cfg := rfl
@[simp] theorem setTally_mbx (c t : Nat) (v : Tally) : (s.setTally c t v).mbx = s.mbx := rfl
@[simp] theorem setTally_doms (c t : Nat) (v : Tally) : (s.setTally c t v).doms = s.doms := rfl
@[simp] theorem setTally_parts (c t : Nat) (v : Tally) : (s.setTally c t v).parts = s.parts := rfl
@[simp] theorem setTally_pool (c t : Nat) (v : Tally) : (s.setTally c t v).pool = s.pool := rfl
@[simp] theorem setTally_mv (c t : Nat) (v : Tally) : (s.setTally c t v).mv = s.mv := rfl
@[simp] theorem setTally_xch (c t : Nat) (v : Tally) : (s.setTally c t v).xch = s.xch := rfl
@[simp] theorem setTally_ce (c t : Nat) (v : Tally) : (s.setTally c t v).ce = s.ce := rfl
@[simp] theorem setTally_net (c t : Nat) (v : Tally) : (s.setTally c t v).net = s.net := rfl
@[simp] theorem setTally_mgmt (c t : Nat) (v : Tally) : (s.setTally c t v).mgmt = s.mgmt := rfl
@[simp] theorem setTally_time (c t : Nat) (v : Tally) : (s.setTally c t v).time = s.time := rfl
@[simp] theorem setTally_svc (c t : Nat) (v : Tally) : (s.setTally c t v).svc = s.svc := rfl
@[simp] theorem setTally_pw (c t : Nat) (v : Tally) : (s.setTally c t v).pw = s.pw := rfl
@[simp] theorem setTally_log (c t : Nat) (v : Tally) : (s.setTally c t v).log = s.log := rfl
@[simp] theorem setTally_order (c t : Nat) (v : Tally) : (s.setTally c t v).order = s.order := rfl
@[simp] theorem setTally_freeCount (c t : Nat) (v : Tally) : (s.setTally c t v).freeCount = s.freeCount := rfl
@[simp] theorem setTally_out (c t : Nat) (v : Tally) : (s.setTally c t v).out = s.out := rfl
@[simp] theorem setTally_pending (c t : Nat) (v : Tally) : (s.setTally c t v).pending = s.pending := rfl

-- setBank

@[simp] theorem setBank_gc (c : Nat) (b : Bank) : (s.setBank c b).gc = s.gc := rfl
@[simp] theorem setBank_mem (c : Nat) (b : Bank) : (s.setBank c b).mem = s.mem := rfl
@[simp] theorem setBank_poison (c : Nat) (b : Bank) : (s.setBank c b).poison = s.poison := rfl
@[simp] theorem setBank_cfg (c : Nat) (b : Bank) : (s.setBank c b).cfg = s.cfg := rfl
@[simp] theorem setBank_mbx (c : Nat) (b : Bank) : (s.setBank c b).mbx = s.mbx := rfl
@[simp] theorem setBank_doms (c : Nat) (b : Bank) : (s.setBank c b).doms = s.doms := rfl
@[simp] theorem setBank_parts (c : Nat) (b : Bank) : (s.setBank c b).parts = s.parts := rfl
@[simp] theorem setBank_pool (c : Nat) (b : Bank) : (s.setBank c b).pool = s.pool := rfl
@[simp] theorem setBank_mv (c : Nat) (b : Bank) : (s.setBank c b).mv = s.mv := rfl
@[simp] theorem setBank_xch (c : Nat) (b : Bank) : (s.setBank c b).xch = s.xch := rfl
@[simp] theorem setBank_ce (c : Nat) (b : Bank) : (s.setBank c b).ce = s.ce := rfl
@[simp] theorem setBank_net (c : Nat) (b : Bank) : (s.setBank c b).net = s.net := rfl
@[simp] theorem setBank_mgmt (c : Nat) (b : Bank) : (s.setBank c b).mgmt = s.mgmt := rfl
@[simp] theorem setBank_time (c : Nat) (b : Bank) : (s.setBank c b).time = s.time := rfl
@[simp] theorem setBank_svc (c : Nat) (b : Bank) : (s.setBank c b).svc = s.svc := rfl
@[simp] theorem setBank_pw (c : Nat) (b : Bank) : (s.setBank c b).pw = s.pw := rfl
@[simp] theorem setBank_log (c : Nat) (b : Bank) : (s.setBank c b).log = s.log := rfl
@[simp] theorem setBank_order (c : Nat) (b : Bank) : (s.setBank c b).order = s.order := rfl
@[simp] theorem setBank_freeCount (c : Nat) (b : Bank) : (s.setBank c b).freeCount = s.freeCount := rfl
@[simp] theorem setBank_out (c : Nat) (b : Bank) : (s.setBank c b).out = s.out := rfl
@[simp] theorem setBank_pending (c : Nat) (b : Bank) : (s.setBank c b).pending = s.pending := rfl

-- setIline

@[simp] theorem setIline_gc (k : Nat) (l : ILine) : (s.setIline k l).gc = s.gc := rfl
@[simp] theorem setIline_mem (k : Nat) (l : ILine) : (s.setIline k l).mem = s.mem := rfl
@[simp] theorem setIline_poison (k : Nat) (l : ILine) : (s.setIline k l).poison = s.poison := rfl
@[simp] theorem setIline_cfg (k : Nat) (l : ILine) : (s.setIline k l).cfg = s.cfg := rfl
@[simp] theorem setIline_mbx (k : Nat) (l : ILine) : (s.setIline k l).mbx = s.mbx := rfl
@[simp] theorem setIline_doms (k : Nat) (l : ILine) : (s.setIline k l).doms = s.doms := rfl
@[simp] theorem setIline_parts (k : Nat) (l : ILine) : (s.setIline k l).parts = s.parts := rfl
@[simp] theorem setIline_pool (k : Nat) (l : ILine) : (s.setIline k l).pool = s.pool := rfl
@[simp] theorem setIline_mv (k : Nat) (l : ILine) : (s.setIline k l).mv = s.mv := rfl
@[simp] theorem setIline_xch (k : Nat) (l : ILine) : (s.setIline k l).xch = s.xch := rfl
@[simp] theorem setIline_ce (k : Nat) (l : ILine) : (s.setIline k l).ce = s.ce := rfl
@[simp] theorem setIline_net (k : Nat) (l : ILine) : (s.setIline k l).net = s.net := rfl
@[simp] theorem setIline_mgmt (k : Nat) (l : ILine) : (s.setIline k l).mgmt = s.mgmt := rfl
@[simp] theorem setIline_time (k : Nat) (l : ILine) : (s.setIline k l).time = s.time := rfl
@[simp] theorem setIline_svc (k : Nat) (l : ILine) : (s.setIline k l).svc = s.svc := rfl
@[simp] theorem setIline_pw (k : Nat) (l : ILine) : (s.setIline k l).pw = s.pw := rfl
@[simp] theorem setIline_log (k : Nat) (l : ILine) : (s.setIline k l).log = s.log := rfl
@[simp] theorem setIline_order (k : Nat) (l : ILine) : (s.setIline k l).order = s.order := rfl
@[simp] theorem setIline_freeCount (k : Nat) (l : ILine) : (s.setIline k l).freeCount = s.freeCount := rfl
@[simp] theorem setIline_out (k : Nat) (l : ILine) : (s.setIline k l).out = s.out := rfl
@[simp] theorem setIline_pending (k : Nat) (l : ILine) : (s.setIline k l).pending = s.pending := rfl

-- setPart

@[simp] theorem setPart_gc (p : Nat) (t : PartSt) : (s.setPart p t).gc = s.gc := rfl
@[simp] theorem setPart_eng (p : Nat) (t : PartSt) : (s.setPart p t).eng = s.eng := rfl
@[simp] theorem setPart_mem (p : Nat) (t : PartSt) : (s.setPart p t).mem = s.mem := rfl
@[simp] theorem setPart_poison (p : Nat) (t : PartSt) : (s.setPart p t).poison = s.poison := rfl
@[simp] theorem setPart_cfg (p : Nat) (t : PartSt) : (s.setPart p t).cfg = s.cfg := rfl
@[simp] theorem setPart_mbx (p : Nat) (t : PartSt) : (s.setPart p t).mbx = s.mbx := rfl
@[simp] theorem setPart_doms (p : Nat) (t : PartSt) : (s.setPart p t).doms = s.doms := rfl
@[simp] theorem setPart_pool (p : Nat) (t : PartSt) : (s.setPart p t).pool = s.pool := rfl
@[simp] theorem setPart_mv (p : Nat) (t : PartSt) : (s.setPart p t).mv = s.mv := rfl
@[simp] theorem setPart_xch (p : Nat) (t : PartSt) : (s.setPart p t).xch = s.xch := rfl
@[simp] theorem setPart_ce (p : Nat) (t : PartSt) : (s.setPart p t).ce = s.ce := rfl
@[simp] theorem setPart_net (p : Nat) (t : PartSt) : (s.setPart p t).net = s.net := rfl
@[simp] theorem setPart_mgmt (p : Nat) (t : PartSt) : (s.setPart p t).mgmt = s.mgmt := rfl
@[simp] theorem setPart_time (p : Nat) (t : PartSt) : (s.setPart p t).time = s.time := rfl
@[simp] theorem setPart_svc (p : Nat) (t : PartSt) : (s.setPart p t).svc = s.svc := rfl
@[simp] theorem setPart_pw (p : Nat) (t : PartSt) : (s.setPart p t).pw = s.pw := rfl
@[simp] theorem setPart_log (p : Nat) (t : PartSt) : (s.setPart p t).log = s.log := rfl
@[simp] theorem setPart_order (p : Nat) (t : PartSt) : (s.setPart p t).order = s.order := rfl
@[simp] theorem setPart_freeCount (p : Nat) (t : PartSt) : (s.setPart p t).freeCount = s.freeCount := rfl
@[simp] theorem setPart_out (p : Nat) (t : PartSt) : (s.setPart p t).out = s.out := rfl
@[simp] theorem setPart_pending (p : Nat) (t : PartSt) : (s.setPart p t).pending = s.pending := rfl

-- wr1

@[simp] theorem wr1_gc (a : Nat) (b : Byte) : (s.wr1 a b).gc = s.gc := rfl
@[simp] theorem wr1_eng (a : Nat) (b : Byte) : (s.wr1 a b).eng = s.eng := rfl
@[simp] theorem wr1_poison (a : Nat) (b : Byte) : (s.wr1 a b).poison = s.poison := rfl
@[simp] theorem wr1_cfg (a : Nat) (b : Byte) : (s.wr1 a b).cfg = s.cfg := rfl
@[simp] theorem wr1_mbx (a : Nat) (b : Byte) : (s.wr1 a b).mbx = s.mbx := rfl
@[simp] theorem wr1_doms (a : Nat) (b : Byte) : (s.wr1 a b).doms = s.doms := rfl
@[simp] theorem wr1_parts (a : Nat) (b : Byte) : (s.wr1 a b).parts = s.parts := rfl
@[simp] theorem wr1_pool (a : Nat) (b : Byte) : (s.wr1 a b).pool = s.pool := rfl
@[simp] theorem wr1_mv (a : Nat) (b : Byte) : (s.wr1 a b).mv = s.mv := rfl
@[simp] theorem wr1_xch (a : Nat) (b : Byte) : (s.wr1 a b).xch = s.xch := rfl
@[simp] theorem wr1_ce (a : Nat) (b : Byte) : (s.wr1 a b).ce = s.ce := rfl
@[simp] theorem wr1_net (a : Nat) (b : Byte) : (s.wr1 a b).net = s.net := rfl
@[simp] theorem wr1_mgmt (a : Nat) (b : Byte) : (s.wr1 a b).mgmt = s.mgmt := rfl
@[simp] theorem wr1_time (a : Nat) (b : Byte) : (s.wr1 a b).time = s.time := rfl
@[simp] theorem wr1_svc (a : Nat) (b : Byte) : (s.wr1 a b).svc = s.svc := rfl
@[simp] theorem wr1_pw (a : Nat) (b : Byte) : (s.wr1 a b).pw = s.pw := rfl
@[simp] theorem wr1_log (a : Nat) (b : Byte) : (s.wr1 a b).log = s.log := rfl
@[simp] theorem wr1_order (a : Nat) (b : Byte) : (s.wr1 a b).order = s.order := rfl
@[simp] theorem wr1_freeCount (a : Nat) (b : Byte) : (s.wr1 a b).freeCount = s.freeCount := rfl
@[simp] theorem wr1_out (a : Nat) (b : Byte) : (s.wr1 a b).out = s.out := rfl
@[simp] theorem wr1_pending (a : Nat) (b : Byte) : (s.wr1 a b).pending = s.pending := rfl

-- wr

@[simp] theorem wr_gc (a : Nat) (bs : List Byte) : (s.wr a bs).gc = s.gc := rfl
@[simp] theorem wr_eng (a : Nat) (bs : List Byte) : (s.wr a bs).eng = s.eng := rfl
@[simp] theorem wr_cfg (a : Nat) (bs : List Byte) : (s.wr a bs).cfg = s.cfg := rfl
@[simp] theorem wr_mbx (a : Nat) (bs : List Byte) : (s.wr a bs).mbx = s.mbx := rfl
@[simp] theorem wr_doms (a : Nat) (bs : List Byte) : (s.wr a bs).doms = s.doms := rfl
@[simp] theorem wr_parts (a : Nat) (bs : List Byte) : (s.wr a bs).parts = s.parts := rfl
@[simp] theorem wr_pool (a : Nat) (bs : List Byte) : (s.wr a bs).pool = s.pool := rfl
@[simp] theorem wr_mv (a : Nat) (bs : List Byte) : (s.wr a bs).mv = s.mv := rfl
@[simp] theorem wr_xch (a : Nat) (bs : List Byte) : (s.wr a bs).xch = s.xch := rfl
@[simp] theorem wr_ce (a : Nat) (bs : List Byte) : (s.wr a bs).ce = s.ce := rfl
@[simp] theorem wr_net (a : Nat) (bs : List Byte) : (s.wr a bs).net = s.net := rfl
@[simp] theorem wr_mgmt (a : Nat) (bs : List Byte) : (s.wr a bs).mgmt = s.mgmt := rfl
@[simp] theorem wr_time (a : Nat) (bs : List Byte) : (s.wr a bs).time = s.time := rfl
@[simp] theorem wr_svc (a : Nat) (bs : List Byte) : (s.wr a bs).svc = s.svc := rfl
@[simp] theorem wr_pw (a : Nat) (bs : List Byte) : (s.wr a bs).pw = s.pw := rfl
@[simp] theorem wr_log (a : Nat) (bs : List Byte) : (s.wr a bs).log = s.log := rfl
@[simp] theorem wr_order (a : Nat) (bs : List Byte) : (s.wr a bs).order = s.order := rfl
@[simp] theorem wr_freeCount (a : Nat) (bs : List Byte) : (s.wr a bs).freeCount = s.freeCount := rfl
@[simp] theorem wr_out (a : Nat) (bs : List Byte) : (s.wr a bs).out = s.out := rfl
@[simp] theorem wr_pending (a : Nat) (bs : List Byte) : (s.wr a bs).pending = s.pending := rfl

-- wrN

@[simp] theorem wrN_gc (a n v : Nat) : (s.wrN a n v).gc = s.gc := rfl
@[simp] theorem wrN_eng (a n v : Nat) : (s.wrN a n v).eng = s.eng := rfl
@[simp] theorem wrN_cfg (a n v : Nat) : (s.wrN a n v).cfg = s.cfg := rfl
@[simp] theorem wrN_mbx (a n v : Nat) : (s.wrN a n v).mbx = s.mbx := rfl
@[simp] theorem wrN_doms (a n v : Nat) : (s.wrN a n v).doms = s.doms := rfl
@[simp] theorem wrN_parts (a n v : Nat) : (s.wrN a n v).parts = s.parts := rfl
@[simp] theorem wrN_pool (a n v : Nat) : (s.wrN a n v).pool = s.pool := rfl
@[simp] theorem wrN_mv (a n v : Nat) : (s.wrN a n v).mv = s.mv := rfl
@[simp] theorem wrN_xch (a n v : Nat) : (s.wrN a n v).xch = s.xch := rfl
@[simp] theorem wrN_ce (a n v : Nat) : (s.wrN a n v).ce = s.ce := rfl
@[simp] theorem wrN_net (a n v : Nat) : (s.wrN a n v).net = s.net := rfl
@[simp] theorem wrN_mgmt (a n v : Nat) : (s.wrN a n v).mgmt = s.mgmt := rfl
@[simp] theorem wrN_time (a n v : Nat) : (s.wrN a n v).time = s.time := rfl
@[simp] theorem wrN_svc (a n v : Nat) : (s.wrN a n v).svc = s.svc := rfl
@[simp] theorem wrN_pw (a n v : Nat) : (s.wrN a n v).pw = s.pw := rfl
@[simp] theorem wrN_log (a n v : Nat) : (s.wrN a n v).log = s.log := rfl
@[simp] theorem wrN_order (a n v : Nat) : (s.wrN a n v).order = s.order := rfl
@[simp] theorem wrN_freeCount (a n v : Nat) : (s.wrN a n v).freeCount = s.freeCount := rfl
@[simp] theorem wrN_out (a n v : Nat) : (s.wrN a n v).out = s.out := rfl
@[simp] theorem wrN_pending (a n v : Nat) : (s.wrN a n v).pending = s.pending := rfl

-- setPoison

@[simp] theorem setPoison_gc (l : Nat) : (s.setPoison l).gc = s.gc := rfl
@[simp] theorem setPoison_eng (l : Nat) : (s.setPoison l).eng = s.eng := rfl
@[simp] theorem setPoison_mem (l : Nat) : (s.setPoison l).mem = s.mem := rfl
@[simp] theorem setPoison_cfg (l : Nat) : (s.setPoison l).cfg = s.cfg := rfl
@[simp] theorem setPoison_mbx (l : Nat) : (s.setPoison l).mbx = s.mbx := rfl
@[simp] theorem setPoison_doms (l : Nat) : (s.setPoison l).doms = s.doms := rfl
@[simp] theorem setPoison_parts (l : Nat) : (s.setPoison l).parts = s.parts := rfl
@[simp] theorem setPoison_pool (l : Nat) : (s.setPoison l).pool = s.pool := rfl
@[simp] theorem setPoison_mv (l : Nat) : (s.setPoison l).mv = s.mv := rfl
@[simp] theorem setPoison_xch (l : Nat) : (s.setPoison l).xch = s.xch := rfl
@[simp] theorem setPoison_ce (l : Nat) : (s.setPoison l).ce = s.ce := rfl
@[simp] theorem setPoison_net (l : Nat) : (s.setPoison l).net = s.net := rfl
@[simp] theorem setPoison_mgmt (l : Nat) : (s.setPoison l).mgmt = s.mgmt := rfl
@[simp] theorem setPoison_time (l : Nat) : (s.setPoison l).time = s.time := rfl
@[simp] theorem setPoison_svc (l : Nat) : (s.setPoison l).svc = s.svc := rfl
@[simp] theorem setPoison_pw (l : Nat) : (s.setPoison l).pw = s.pw := rfl
@[simp] theorem setPoison_log (l : Nat) : (s.setPoison l).log = s.log := rfl
@[simp] theorem setPoison_order (l : Nat) : (s.setPoison l).order = s.order := rfl
@[simp] theorem setPoison_freeCount (l : Nat) : (s.setPoison l).freeCount = s.freeCount := rfl
@[simp] theorem setPoison_out (l : Nat) : (s.setPoison l).out = s.out := rfl
@[simp] theorem setPoison_pending (l : Nat) : (s.setPoison l).pending = s.pending := rfl

-- raise

@[simp] theorem raise_gc (e : ErrEvent) : (s.raise e).gc = s.gc := rfl
@[simp] theorem raise_eng (e : ErrEvent) : (s.raise e).eng = s.eng := rfl
@[simp] theorem raise_mem (e : ErrEvent) : (s.raise e).mem = s.mem := rfl
@[simp] theorem raise_poison (e : ErrEvent) : (s.raise e).poison = s.poison := rfl
@[simp] theorem raise_cfg (e : ErrEvent) : (s.raise e).cfg = s.cfg := rfl
@[simp] theorem raise_mbx (e : ErrEvent) : (s.raise e).mbx = s.mbx := rfl
@[simp] theorem raise_doms (e : ErrEvent) : (s.raise e).doms = s.doms := rfl
@[simp] theorem raise_parts (e : ErrEvent) : (s.raise e).parts = s.parts := rfl
@[simp] theorem raise_pool (e : ErrEvent) : (s.raise e).pool = s.pool := rfl
@[simp] theorem raise_mv (e : ErrEvent) : (s.raise e).mv = s.mv := rfl
@[simp] theorem raise_xch (e : ErrEvent) : (s.raise e).xch = s.xch := rfl
@[simp] theorem raise_ce (e : ErrEvent) : (s.raise e).ce = s.ce := rfl
@[simp] theorem raise_net (e : ErrEvent) : (s.raise e).net = s.net := rfl
@[simp] theorem raise_mgmt (e : ErrEvent) : (s.raise e).mgmt = s.mgmt := rfl
@[simp] theorem raise_time (e : ErrEvent) : (s.raise e).time = s.time := rfl
@[simp] theorem raise_svc (e : ErrEvent) : (s.raise e).svc = s.svc := rfl
@[simp] theorem raise_pw (e : ErrEvent) : (s.raise e).pw = s.pw := rfl
@[simp] theorem raise_order (e : ErrEvent) : (s.raise e).order = s.order := rfl
@[simp] theorem raise_freeCount (e : ErrEvent) : (s.raise e).freeCount = s.freeCount := rfl
@[simp] theorem raise_out (e : ErrEvent) : (s.raise e).out = s.out := rfl
@[simp] theorem raise_pending (e : ErrEvent) : (s.raise e).pending = s.pending := rfl

-- emit

@[simp] theorem emit_gc (o : Output) : (s.emit o).gc = s.gc := rfl
@[simp] theorem emit_eng (o : Output) : (s.emit o).eng = s.eng := rfl
@[simp] theorem emit_mem (o : Output) : (s.emit o).mem = s.mem := rfl
@[simp] theorem emit_poison (o : Output) : (s.emit o).poison = s.poison := rfl
@[simp] theorem emit_cfg (o : Output) : (s.emit o).cfg = s.cfg := rfl
@[simp] theorem emit_mbx (o : Output) : (s.emit o).mbx = s.mbx := rfl
@[simp] theorem emit_doms (o : Output) : (s.emit o).doms = s.doms := rfl
@[simp] theorem emit_parts (o : Output) : (s.emit o).parts = s.parts := rfl
@[simp] theorem emit_pool (o : Output) : (s.emit o).pool = s.pool := rfl
@[simp] theorem emit_mv (o : Output) : (s.emit o).mv = s.mv := rfl
@[simp] theorem emit_xch (o : Output) : (s.emit o).xch = s.xch := rfl
@[simp] theorem emit_ce (o : Output) : (s.emit o).ce = s.ce := rfl
@[simp] theorem emit_net (o : Output) : (s.emit o).net = s.net := rfl
@[simp] theorem emit_mgmt (o : Output) : (s.emit o).mgmt = s.mgmt := rfl
@[simp] theorem emit_time (o : Output) : (s.emit o).time = s.time := rfl
@[simp] theorem emit_svc (o : Output) : (s.emit o).svc = s.svc := rfl
@[simp] theorem emit_pw (o : Output) : (s.emit o).pw = s.pw := rfl
@[simp] theorem emit_log (o : Output) : (s.emit o).log = s.log := rfl
@[simp] theorem emit_order (o : Output) : (s.emit o).order = s.order := rfl
@[simp] theorem emit_freeCount (o : Output) : (s.emit o).freeCount = s.freeCount := rfl
@[simp] theorem emit_pending (o : Output) : (s.emit o).pending = s.pending := rfl

-- Other keys

theorem cfgW_setCfgW_ne {a b : Nat} (w : W64) (h : b ≠ a) : (s.setCfgW a w).cfgW b = s.cfgW b := tget_tput_ne _ _ h
theorem mbxW_setMbxW_ne {a b : Nat} (w : W64) (h : b ≠ a) : (s.setMbxW a w).mbxW b = s.mbxW b := tget_tput_ne _ _ h
theorem dom_setDom_ne {k j : Nat} (d : Dom) (h : j ≠ k) : (s.setDom k d).dom j = s.dom j := tget_tput_ne _ _ h
theorem part_setPart_ne {p q : Nat} (t : PartSt) (h : q ≠ p) : (s.setPart p t).part q = s.part q := tget_tput_ne _ _ h
theorem stream_setStream_ne {i j : Nat} (t : StreamSt) (h : j ≠ i) : (s.setStream i t).stream j = s.stream j := tget_tput_ne _ _ h
theorem bank_setBank_ne {c d : Nat} (b : Bank) (h : d ≠ c) : (s.setBank c b).bank d = s.bank d := tget_tput_ne _ _ h
theorem tally_setTally_ne {c t d u : Nat} (v : Tally) (h : 1024 * d + u ≠ 1024 * c + t) :
    (s.setTally c t v).tally d u = s.tally d u := tget_tput_ne _ _ h
theorem rd1_wr1_ne {a b : Nat} (v : Byte) (h : b ≠ a) : (s.wr1 a v).rd1 b = s.rd1 b := tget_tput_ne _ _ h

-- Bytes written and read back

theorem rd1_wr_ne {a x : Nat} (bs : List Byte) (h : x < a ∨ a + bs.length ≤ x) : (s.wr a bs).rd1 x = s.rd1 x :=
  tget_wrMem_ne bs s.mem a x h

end Sys2Proof.Machine
end

