-- ==== Sys2Proof/Tests/Base.lean ====
section
/-! SUPPORT. Small states for the tests and for the witnesses of the statements' hypotheses. -/

namespace Sys2Proof.Tests

set_option Elab.async false
open Sys2Proof.Machine

/-- The same well entry of Table 16-16 for each of the 12 wells. -/
def wells (n : Nat) : BitVec 192 := BitVec.ofNat 192 ((List.range 12).foldl (fun a m => a + n * 2 ^ (16 * m)) 0)

/-- Partition 0: dies 0 to 15, the lower part of every stack, the lower 128 MiB of every well, ports 0 to 23. -/
def part0 : PlatePart := ⟨true, 0x0000FFFF, 0xFFF, 0x555555, wells 0x7F00, 0x000000FFFFFF⟩
/-- Partition 1: the rest. -/
def part1 : PlatePart := ⟨true, 0xFFFF0000, 0xFFF, 0xAAAAAA, wells 0x7F80, 0xFFFFFF000000⟩

def plate2 : Plate := { plateFactory with parts := [part0, part1], ledgerAddr := 0x10000, ledgerRanges := [(0, 64), (64, 64)] }

/-- A device that is READY with every domain ON, serving host port 0. -/
def up : State :=
  { State.reset with
    gc := 50000000
    doms := (List.range 284).map fun k => (k, ⟨.on, none, 0, false⟩)
    mgmt := { State.reset.mgmt with
      plate := some plate2
      dieMap := plate2.dieMap
      devState := 2
      booted := true
      mainGood := true
      standbyOk := true
      hostReady := [(0, 0)] } }

/-- Code lies at 0x1000 of stack 0. -/
def codeAt : Nat := 0x1000

/-- Stream st is to issue word w. -/
def issuingState (st : Stream) (w : Nat) (s : State) : State :=
  let i := streamIx st
  (s.setStream i { streamReset with st := .run, pc := codeAt }).setIline (cacheKey i codeAt) ⟨true, codeAt, natLe 64 w, none⟩

/-- Everything that `Issues` asks, as one test. -/
def issuesBool (st : Stream) (w : IWord) (s : State) : Bool :=
  let i := streamIx st
  s.mayIssue i && s.fetch i == .word w && legalOp st (opOf w) && (s.commonCauses i w).isEmpty
    && ((s.stream i).granted || (!s.waitOvf i (waitsOf w) && s.waitsMet i (waitsOf w) && !s.outranked i (waitsOf w)))

theorem issues_of {st : Stream} {w : IWord} {s : State} (h : issuesBool st w s = true) : Issues st w s := by
  simp only [issuesBool, Bool.and_eq_true, beq_iff_eq, List.isEmpty_iff, Bool.or_eq_true, Bool.not_eq_true'] at h
  obtain ⟨⟨⟨⟨a, b⟩, c⟩, d⟩, e⟩ := h
  refine ⟨a, b, c, d, ?_⟩
  rcases e with e | ⟨⟨x, y⟩, z⟩
  · exact .inl e
  · exact .inr ⟨x, y, z⟩

/-- An instruction word: its opcode and its other fields, each a value at a bit. -/
def word (op : Nat) (fields : List (Nat × Nat)) : Nat := fields.foldl (fun a x => a + x.1 * 2 ^ x.2) op
def iw (n : Nat) : IWord := BitVec.ofNat 512 n

/-- Descriptor h of a core: VALID, its FORMAT (and K-panel bit), base, stride, rows, columns and live rows. -/
def withDesc (core h fmt base stride rows cols live : Nat) (s : State) : State :=
  ((s.setDescWord core h 0 (BitVec.ofNat 64 (1 + 2 * (fmt / 16) + 16 * (fmt % 16) + 65536 * base))).setDescWord core h 1
    (BitVec.ofNat 64 (stride + 2 ^ 32 * rows))).setDescWord core h 2 (BitVec.ofNat 64 (cols + 2 ^ 32 * live))

def me0 : Stream := .core 0 .me
def ve0 : Stream := .core 0 .ve
def mv0 : Stream := .core 0 .mv0
def xe0 : Stream := .die 0 .xe
def ce0 : Stream := .die 0 .ce

end Sys2Proof.Tests
end

