-- ==== Sys2Proof/Tests/Exchange.lean ====
section
/-! SUPPORT. Witnesses for the statements about the buffer pool and the token exchange. -/

namespace Sys2Proof.Tests

set_option Elab.async false
open Sys2Proof.Machine

-- PoolCommandsComplete

/-- Region 1 of memory die 0 (partition 0, 8 well cells, a spill region of 8 cells, cache share 64): owner 5 may take `most`
cells there, `free` are free. -/
def pool (free most : Nat) (s : State) : State :=
  let s := (s.setCfgW (regA 0 1) (BitVec.ofNat 64 (word 1 [(64, 16), (8, 32)]))).setCfgW (regA 0 1 + 8) 0x010000000000
  let s := (s.setCfgW (regA 0 1 + 16) 0x80000).setCfgW (regA 0 1 + 24) (BitVec.ofNat 64 (word 8 [(0x90000, 32)]))
  let s := (s.setCfgW (regA 0 1 + 32) (BitVec.ofNat 64 (word 0 [(free, 32)]))).setCfgW (regA 0 1 + 40) 2
  let s := (s.setCfgW (ownA 0 5) (BitVec.ofNat 64 (word 1 [(1, 2)]))).setCfgW (ownA 0 5 + 8) (BitVec.ofNat 64 most)
  (s.setCfgW (dieCfg 0 + 0x30000) 0).setPops 1 (List.range free)

def allocHead : Alloc → Bool
  | .head _ _ => true
  | _ => false
theorem alloc_head {a : Alloc} (h : allocHead a = true) : ∃ x t, a = .head x t := by
  cases a with
  | head x t => exact ⟨x, t, rfl⟩
  | wait => cases h
  | bad _ _ => cases h
def allocWaits : Alloc → Bool
  | .wait => true
  | _ => false
theorem alloc_wait {a : Alloc} (h : allocWaits a = true) : a = .wait := by
  cases a with
  | head x t => cases h
  | wait => rfl
  | bad _ _ => cases h
def relDone : Release → Bool
  | .done _ => true
  | _ => false
theorem rel_done {r : Release} (h : relDone r = true) : ∃ t, r = .done t := by
  cases r with
  | done t => exact ⟨t, rfl⟩
  | bad _ _ _ => cases h

theorem witness_poolAllocate : (ixDie 512 < (pool 3 4 up).nDies ∧ (pool 3 4 up).power ((pool 3 4 up).engDom 512) = .on
      ∧ (pool 3 4 up).frozenDie (ixDie 512) = false ∧ (pool 3 4 up).homeDie (ixDie 512) 5 0 = some 0)
    ∧ ∃ a t, (pool 3 4 up).allocAt ((pool 3 4 up).partOf 512) 0 5 700 = .head a t :=
  ⟨by decide +kernel, alloc_head (by decide +kernel)⟩
theorem witness_poolAllocate_waits : (ixDie 512 < (pool 0 4 up).nDies ∧ (pool 0 4 up).power ((pool 0 4 up).engDom 512) = .on
      ∧ (pool 0 4 up).frozenDie (ixDie 512) = false ∧ (pool 0 4 up).homeDie (ixDie 512) 5 0 = some 0
      ∧ (pool 0 4 up).dieWaiters 0 < 256)
    ∧ (pool 0 4 up).allocAt ((pool 0 4 up).partOf 512) 0 5 700 = .wait :=
  ⟨by decide +kernel, alloc_wait (by decide +kernel)⟩
/-- The same with the cell at the start of the well allocated to owner 5, alone in its chain. -/
def oneCell : State := (pool 3 4 up).wrN 0x010000000000 16 (word 0 [(1, 48), (1, 49), (240, 56), (5, 64), (1, 76)])
theorem witness_poolRelease : (ixDie 512 < oneCell.nDies ∧ oneCell.power (oneCell.engDom 512) = .on
      ∧ oneCell.frozenDie (ixDie 512) = false)
    ∧ ∃ t, oneCell.release (oneCell.partOf 512) 0x010000000000 true = .done t :=
  ⟨by decide +kernel, rel_done (by decide +kernel)⟩
theorem witness_poolWaiterGrant : (pool 3 4 up).power (memKey 0) = .on := by decide +kernel
theorem witness_spillCacheRefill : (pool 3 4 up).cfgF (regA 0 1) 0 1 = 1
    ∧ 4 * ((pool 3 4 up).spillCache (regKey 0 1)).length < (pool 3 4 up).cacheShare 0 1 ∧ (pool 3 4 up).ringCount 0 1 ≠ 0
    ∧ (pool 3 4 up).pool.dead.contains (regKey 0 1) = false := by
  decide +kernel

-- ExchangeInstructionsComplete

/-- Segment record 0 of die 0: one token, 8 experts, Q = 16, entries from 0, no previous segment, in the state given; its route
entry and its landing entry; queue 0 enabled; descriptors: 1 the routes, 2 rows of 4 FP32, 3 a landing area that is DONE. -/
def exch (state : Nat) : State :=
  let s := withDesc 0 3 0 0x200000 0x2000 1 0x2000 1 (withDesc 0 2 1 0x300000 64 1 4 1 (withDesc 0 1 0 0x10000 16 1 16 1 up))
  let s := (s.setCfgW (dieCfg 0 + 0x120) (BitVec.ofNat 64 (0x40000 + 2 ^ 48))).setCfgW (xqA 0 0) (BitVec.ofNat 64 (1 + 256 * 4))
  let s := s.wrN 0x40000 64 (word 1 [(7, 8), (state, 24), (1, 64), (16, 96), (0xFFFF, 112)])
  ((s.wrN 0x10000 16 1).wrN 0x10010 16 2).wrN 0x200000 8 (2 ^ 32)

/-- The hypotheses of `exchangeCompletes` beside `Issues`, over the state after the waits and the segment record. -/
abbrev XeMeets (role : XRole) (gates : Nat) (mine : Bool) (w : IWord) (s u : State) (a : Nat) : Prop :=
  mine = true ∧ xHandles 512 (s.stream 512) w = [] ∧ roleCause role w = []
    ∧ (u.xch.ops.filter fun o => o.die == ixDie 512 && !o.failed).length < 16
    ∧ xMb w < u.cfgF (dieCfg (ixDie 512) + 0x120) 48 8 ∧ u.reach (u.partOf 512) [(a, 64)] = .ok
    ∧ u.xeCauses role 512 gates (issuing (s.stream 512)) w a = []
    ∧ u.reach (u.partOf 512) (u.xeAreas role 512 gates (issuing (s.stream 512)) w a) = .ok

def wXsendForward : Nat := word 0xA0 [(1, 128), (2, 142)]
def sXsendForward : State := issuingState xe0 wXsendForward (exch 0)
theorem witness_xsendForward : Issues xe0 (iw wXsendForward) sXsendForward
    ∧ XeMeets .send 0x50000 (isOp 0xA0 (iw wXsendForward) && xDir (iw wXsendForward) == 0) (iw wXsendForward) sXsendForward (sXsendForward.afterWaits 512 (iw wXsendForward))
      ((sXsendForward.afterWaits 512 (iw wXsendForward)).xeRecord 512 (iw wXsendForward)) :=
  ⟨issues_of (by decide +kernel), by decide +kernel⟩

def wXsendBackward : Nat := word 0xA0 [(1, 128), (2, 142), (1, 206)]
def sXsendBackward : State := issuingState xe0 wXsendBackward (exch 1)
theorem witness_xsendBackward : Issues xe0 (iw wXsendBackward) sXsendBackward
    ∧ XeMeets .send 0 (isOp 0xA0 (iw wXsendBackward) && xDir (iw wXsendBackward) == 1) (iw wXsendBackward) sXsendBackward (sXsendBackward.afterWaits 512 (iw wXsendBackward))
      ((sXsendBackward.afterWaits 512 (iw wXsendBackward)).xeRecord 512 (iw wXsendBackward)) :=
  ⟨issues_of (by decide +kernel), by decide +kernel⟩

def wXrecvLanding : Nat := word 0xA1 [(3, 156)]
def sXrecvLanding : State := issuingState xe0 wXrecvLanding (exch 1)
theorem witness_xrecvLanding : Issues xe0 (iw wXrecvLanding) sXrecvLanding
    ∧ XeMeets .landing 0 (isOp 0xA1 (iw wXrecvLanding) && nullH (xRoutes (iw wXrecvLanding))) (iw wXrecvLanding) sXrecvLanding (sXrecvLanding.afterWaits 512 (iw wXrecvLanding))
      ((sXrecvLanding.afterWaits 512 (iw wXrecvLanding)).xeRecord 512 (iw wXrecvLanding)) :=
  ⟨issues_of (by decide +kernel), by decide +kernel⟩

def wXrecvReturn : Nat := word 0xA1 [(1, 128), (2, 142), (2, 156)]
def sXrecvReturn : State := issuingState xe0 wXrecvReturn (exch 1)
theorem witness_xrecvReturn : Issues xe0 (iw wXrecvReturn) sXrecvReturn
    ∧ XeMeets .ret 0 (isOp 0xA1 (iw wXrecvReturn) && !nullH (xRoutes (iw wXrecvReturn))) (iw wXrecvReturn) sXrecvReturn (sXrecvReturn.afterWaits 512 (iw wXrecvReturn))
      ((sXrecvReturn.afterWaits 512 (iw wXrecvReturn)).xeRecord 512 (iw wXrecvReturn)) :=
  ⟨issues_of (by decide +kernel), by decide +kernel⟩

def wXreturn : Nat := word 0xA2 [(3, 128), (2, 142)]
def sXreturn : State := issuingState xe0 wXreturn (exch 1)
theorem witness_xreturn : Issues xe0 (iw wXreturn) sXreturn
    ∧ XeMeets .back 0 (isOp 0xA2 (iw wXreturn)) (iw wXreturn) sXreturn (sXreturn.afterWaits 512 (iw wXreturn))
      ((sXreturn.afterWaits 512 (iw wXreturn)).xeRecord 512 (iw wXreturn)) :=
  ⟨issues_of (by decide +kernel), by decide +kernel⟩

def wXclose : Nat := word 0xA3 [(1, 206)]
def sXclose : State := issuingState xe0 wXclose (exch 1)
theorem witness_xclose : Issues xe0 (iw wXclose) sXclose
    ∧ XeMeets .close 0 (isOp 0xA3 (iw wXclose)) (iw wXclose) sXclose (sXclose.afterWaits 512 (iw wXclose))
      ((sXclose.afterWaits 512 (iw wXclose)).xeRecord 512 (iw wXclose)) :=
  ⟨issues_of (by decide +kernel), by decide +kernel⟩

-- ExchangeMessagesComplete

/-- A message of this device to its own die 0, with its checks in order. -/
def msg (mtype : Nat) (fields : List (Nat × Nat)) (payload : List Byte) : Msg :=
  msgSealed ⟨BitVec.ofNat 256 (word mtype fields), payload, 0, 63⟩
/-- A ROW of expert 0, slot 0, position 0; a COUNT of no rows for eight experts; a RETURN of token 0, choice 0. -/
def mRow : Msg := msg 1 [(5, 96)] (natLe 16 0)
def mCount : Msg := msg 2 [] (natLe 16 (16 * 2 ^ 112))
def mReturn : Msg := msg 3 [] (natLe 16 0)
/-- What the arrival statements call v. -/
def arrived (s : State) (m : Msg) : State :=
  (s.traceMsg (xeIx 0) true false 0 m).countRx 0 m.port.val (32 + m.payload.length)

/-- The checks that every arrival passes. -/
abbrev Arrives (mtype : Nat) (m : Msg) (s : State) : Prop :=
  fld m.hdr 0 4 = mtype ∧ s.xeAwake 0 = true ∧ msgCrcOk m = true ∧ 0 = (s.traceMsg (xeIx 0) true false 0 m).node
    ∧ (arrived s m).nodeIn (s.partOfDie 0) 0 = true ∧ (arrived s m).rejects 0 m = false
/-- It waits in the buffer. -/
abbrev Buffers (mtype : Nat) (m : Msg) (s : State) : Prop :=
  Arrives mtype m s ∧ ((arrived s m).msgSeg 0 m).bind (fun a => (arrived s m).receiveOf 0 a m) = none
    ∧ (arrived s m).bufBytes 0 + 32 + m.payload.length ≤ 0x40000

theorem witness_row_buffered : Buffers 1 mRow (exch 1) := by decide +kernel
theorem witness_count_buffered : Buffers 2 mCount (exch 1) := by decide +kernel
theorem witness_return_buffered : Buffers 3 mReturn (exch 1) := by decide +kernel

/-- An open receive of die 0 for segment 0, of one area or one row at 0x200000. -/
def receive (role : XRole) : XOp := ⟨9, 0, codeAt, 0, role, 0x40000, 0, false, [], [], 0x200000, 0x2000, 1, 0, 1, 4, 0x300000, 64, [], []⟩
def receiving (role : XRole) : State :=
  let s := pool 3 4 (exch 1)
  { s with xch := { s.xch with ops := [receive role] } }
abbrev AtReceive (role : XRole) (mtype : Nat) (m : Msg) : Prop :=
  Arrives mtype m (receiving role)
    ∧ ((arrived (receiving role) m).msgSeg 0 m).bind (fun a => (arrived (receiving role) m).receiveOf 0 a m) = some (receive role)
    ∧ (receive role).failed = false

theorem witness_row_lands : AtReceive .landing 1 mRow ∧ ∃ t, (arrived (receiving .landing) mRow).landRow (receive .landing) 0 mRow = some t :=
  ⟨by decide +kernel, Option.isSome_iff_exists.1 (by decide +kernel)⟩
theorem witness_count_lands : AtReceive .landing 2 mCount := by decide +kernel
theorem witness_return_lands : AtReceive .ret 3 mReturn := by decide +kernel

-- ExchangeAnswersComplete

/-- A ROW that die 0 has sent to this device and not yet heard about. -/
def outRow : XOut := ⟨0, 1, 0, 0, 0, 0, 0x300000, 16, 1, 0, []⟩
def sender : XOp := { receive .send with unacked := [outRow] }
def sending : State := let s := exch 1; { s with xch := { s.xch with ops := [sender] } }
def answerTo (mtype : Nat) : Msg :=
  msgSealed ⟨BitVec.ofNat 256 (setBits (setBits ((sending.xMsg sender outRow).hdr.toNat % 2 ^ 128) 0 4 mtype) 92 4 1), [], 0, 63⟩
abbrev AnswersRow (mtype : Nat) : Prop :=
  sending.xeAwake 0 = true ∧ msgCrcOk (answerTo mtype) = true ∧ sending.answered 0 0 (answerTo mtype) = some (sender, outRow)
    ∧ sender.failed = false ∧ fld (answerTo mtype).hdr 0 4 = mtype
theorem witness_xmsgAck : AnswersRow 4 := by decide +kernel
theorem witness_xmsgNack : AnswersRow 5 ∧ outRow.attempt ≠ 3 := by decide +kernel
theorem witness_xmsgReject : AnswersRow 6 := by decide +kernel

-- LandingCompletes

/-- The landing's one area (of Q = 1) has heard from every source, and no row is to come. -/
def landed : State := ((receiving .landing).wrN 0x4000C 2 1).wrN 0x200000 64 (0xFF * 2 ^ 34)
def landedMap : State :=
  let s := landed.wrN (landed.entA ((landed.seg 0x40000).landIx 0)) 16
    (landingEntry 0 (landed.stepOf (landed.partOfDie 0)) (headCounts (landed.rdN 0x200000 64)))
  s.writeRowMap 0x200000 1 (headCounts (landed.rdN 0x200000 64))
def stashOk : Except (Nat × State) State → Bool
  | .ok _ => true
  | .error _ => false
theorem stash_ok {e : Except (Nat × State) State} (h : stashOk e = true) : ∃ u, e = .ok u := by
  cases e with
  | ok u => exact ⟨u, rfl⟩
  | error _ => cases h
theorem witness_landingComplete : (landed.xop 9 = some (receive .landing) ∧ (receive .landing).role = .landing
      ∧ (receive .landing).failed = false ∧ 0 < (receive .landing).rows ∧ (receive .landing).done.contains 0 = false
      ∧ landed.xeAwake 0 = true ∧ headSeen (landed.rdN ((receive .landing).area 0) 64) = 0xFF
      ∧ headLanded (landed.rdN ((receive .landing).area 0) 64) = (headCounts (landed.rdN ((receive .landing).area 0) 64)).sum
      ∧ (landed.seg 0x40000).q = 1 ∧ landed.expert0 (landed.seg 0x40000) = 0)
    ∧ ∃ u, landedMap.stashUpdate (receive .landing) 0 0 = .ok u :=
  ⟨by decide +kernel, stash_ok (by decide +kernel)⟩

end Sys2Proof.Tests
end

