-- ==== Sys2Proof/Tests/Collective.lean ====
section
/-! SUPPORT. Witnesses for the statements about the collectives. -/

namespace Sys2Proof.Tests

set_option Elab.async false
open Sys2Proof.Machine

-- CollectiveInstructionsComplete

/-- Group queue 0 of die 0: this device alone; descriptors 1 and 2 of 16 bytes FP32, 3 of 32 bytes RAW. -/
def coll : State :=
  let s := withDesc 0 3 0 0x400000 32 1 32 1 (withDesc 0 2 1 0x300000 64 1 4 1 (withDesc 0 1 1 0x100000 64 1 4 1 (pool 3 4 up)))
  let s := (s.setCfgW (cgA 0) (BitVec.ofNat 64 (word 1 [(4, 8), (5, 32)]))).setCfgW (cgA 0 + 8) 6
  s.wrN 0x60000 16 0

/-- The hypotheses of `collectiveCompletes` beside `Issues`, over the state after the waits. -/
abbrev CeMeets (op : Nat) (w : IWord) (s u : State) : Prop :=
  opOf w = op ∧ cHandles 513 (s.stream 513) w = [] ∧ (u.ce.ops.filter fun o => o.die == ixDie 513 && !o.failed).length < 16
    ∧ u.ceQueueBad 513 w = false ∧ u.reach (u.partOf 513) [(u.cgMembers (cGroup w), 16 * u.cgSize (cGroup w))] = .ok
    ∧ u.ceCauses 513 (issuing (s.stream 513)) w = []

def wCgather : Nat := word 0xC0 [(1, 128), (2, 142), (16, 167), (12, 176)]
def sCgather : State := issuingState ce0 wCgather coll
theorem witness_cgather : Issues ce0 (iw wCgather) sCgather ∧ CeMeets 0xC0 (iw wCgather) sCgather (sCgather.afterWaits 513 (iw wCgather)) :=
  ⟨issues_of (by decide +kernel), by decide +kernel⟩

def wCredscat : Nat := word 0xC1 [(1, 128), (2, 142), (16, 167), (12, 176)]
def sCredscat : State := issuingState ce0 wCredscat coll
theorem witness_credscat : Issues ce0 (iw wCredscat) sCredscat ∧ CeMeets 0xC1 (iw wCredscat) sCredscat (sCredscat.afterWaits 513 (iw wCredscat)) :=
  ⟨issues_of (by decide +kernel), by decide +kernel⟩

def wCallred : Nat := word 0xC2 [(1, 128), (2, 142), (16, 167), (12, 176)]
def sCallred : State := issuingState ce0 wCallred coll
theorem witness_callred : Issues ce0 (iw wCallred) sCallred ∧ CeMeets 0xC2 (iw wCallred) sCallred (sCallred.afterWaits 513 (iw wCallred)) :=
  ⟨issues_of (by decide +kernel), by decide +kernel⟩

def wCbcast : Nat := word 0xC3 [(1, 128), (2, 142), (16, 167), (12, 176)]
def sCbcast : State := issuingState ce0 wCbcast coll
theorem witness_cbcast : Issues ce0 (iw wCbcast) sCbcast ∧ CeMeets 0xC3 (iw wCbcast) sCbcast (sCbcast.afterWaits 513 (iw wCbcast)) :=
  ⟨issues_of (by decide +kernel), by decide +kernel⟩

def wCdigest : Nat := word 0xC4 [(1, 128), (3, 142), (16, 167), (12, 176)]
def sCdigest : State := issuingState ce0 wCdigest coll
theorem witness_cdigest : Issues ce0 (iw wCdigest) sCdigest ∧ CeMeets 0xC4 (iw wCdigest) sCdigest (sCdigest.afterWaits 513 (iw wCdigest)) :=
  ⟨issues_of (by decide +kernel), by decide +kernel⟩

-- CollectiveOperationBegins

/-- An all-reduce that waits at the head of queue 0, not begun. -/
def queued : COp := ⟨3, 0, codeAt, iw wCallred, false, false, 0, false, false, 16, (0x100000, 64, 1, 16), (0x300000, 64, 1, 16), [], 1,
  [], [], [], [], [], [], [], 0, 0⟩
def queueing : State := { coll with ce := { coll.ce with ops := [queued] } }
theorem witness_ceOperationBegin : (queueing.ce.ops.find? fun x => x.group == 0) = some queued ∧ queued.begun = false
    ∧ queued.failed = false ∧ queueing.xeAwake queued.die = true
    ∧ queueing.reach (queueing.partOfDie queued.die) (queueing.cePrepared queued 0).reads = .ok
    ∧ (((queueing.cePrepared queued 0).kind.reduces || (queueing.cePrepared queued 0).kind == .digest)
      && queueing.anyPoison (queueing.cePrepared queued 0).reads) = false := by
  decide +kernel

-- CollectiveMessagesComplete

/-- A message for queue 0 of die 0 with its checks in order: NODE 1, ABSENT 2, DATA 3; `relay` sets RELAY. -/
def cmsg (mtype relay : Nat) : Msg := cmsgSealed (word mtype [(relay, 10)]) (natLe 16 0) 0
def cArrived (s : State) (m : Msg) : State := (s.traceMsg (ceIx 0) true true 0 m).countRx 0 m.port.val (32 + m.payload.length)
abbrev CArrives (ok : Msg → Bool) (m : Msg) (s : State) : Prop :=
  ok m = true ∧ fld m.hdr 12 11 = 0 ∧ s.xeAwake 0 = true ∧ cmsgCrcOk m = true ∧ 0 = (s.traceMsg (ceIx 0) true true 0 m).node
    ∧ (cArrived s m).nodeIn (s.partOfDie 0) 0 = true ∧ fld m.hdr 192 16 = (cArrived s m).stepOf (s.partOfDie 0) % 65536
    ∧ (cArrived s m).cgEnabled 0 = true
abbrev CBuffers (ok : Msg → Bool) (m : Msg) : Prop :=
  CArrives ok m coll ∧ (cArrived coll m).runningCop 0 = none ∧ behind16 (fld m.hdr 112 16) ((cArrived coll m).cgOpseq 0) = false
    ∧ (cArrived coll m).cBufBytes 0 + 32 + m.payload.length ≤ 0x40000
def relayed (m : Msg) : Bool := 1 ≤ fld m.hdr 0 4 && fld m.hdr 0 4 ≤ 3 && fld m.hdr 10 1 == 1

theorem witness_cmsgNode_buffered : CBuffers (direct 1) (cmsg 1 0) := by decide +kernel
theorem witness_cmsgAbsent_buffered : CBuffers (direct 2) (cmsg 2 0) := by decide +kernel
theorem witness_cmsgData_buffered : CBuffers (direct 3) (cmsg 3 0) := by decide +kernel
theorem witness_cmsgRelay_buffered : CBuffers relayed (cmsg 1 1) := by decide +kernel

/-- The all-reduce has begun. -/
def runOp : COp := { queued with begun := true }
def runOps : State := { coll with ce := { coll.ce with ops := [runOp] } }
abbrev CTaken (ok : Msg → Bool) (m : Msg) : Prop :=
  CArrives ok m runOps ∧ (cArrived runOps m).runningCop 0 = some runOp ∧ fld m.hdr 112 16 = runOp.opseq

theorem witness_cmsgNode_taken : CTaken (direct 1) (cmsg 1 0) ∧ ∃ t, (cArrived runOps (cmsg 1 0)).cTake runOp 0 (cmsg 1 0) = some t :=
  ⟨by decide +kernel, Option.isSome_iff_exists.1 (by decide +kernel)⟩
theorem witness_cmsgAbsent_taken : CTaken (direct 2) (cmsg 2 0)
    ∧ ∃ t, (cArrived runOps (cmsg 2 0)).cTake runOp 0 (cmsg 2 0) = some t :=
  ⟨by decide +kernel, Option.isSome_iff_exists.1 (by decide +kernel)⟩
theorem witness_cmsgData_taken : CTaken (direct 3) (cmsg 3 0) ∧ ∃ t, (cArrived runOps (cmsg 3 0)).cTake runOp 0 (cmsg 3 0) = some t :=
  ⟨by decide +kernel, Option.isSome_iff_exists.1 (by decide +kernel)⟩
theorem witness_cmsgRelay_taken : CTaken relayed (cmsg 1 1) ∧ ∃ t, (cArrived runOps (cmsg 1 1)).cTake runOp 0 (cmsg 1 1) = some t :=
  ⟨by decide +kernel, Option.isSome_iff_exists.1 (by decide +kernel)⟩

-- CollectiveAnswersComplete

/-- A NODE message that the running operation has sent to this device. -/
def sentMsg : CSent := ⟨⟨false, 4, 0, 0, 0, 0, 0⟩, 0, cmsg 1 0, [], false⟩
def sendOp : COp := { runOp with sent := [sentMsg] }
def sendOps : State := { coll with ce := { coll.ce with ops := [sendOp] } }
def cAnswerTo (mtype : Nat) : Msg := cmsgSealed (setBits ((cmsg 1 0).hdr.toNat % 2 ^ 128) 0 4 mtype) [] 0
abbrev CAnswers (mtype : Nat) : Prop :=
  cmsgCrcOk (cAnswerTo mtype) = true ∧ sendOps.cAnswered 0 (cAnswerTo mtype) = some (sendOp, sentMsg) ∧ sendOps.xeAwake sendOp.die = true
    ∧ sendOp.failed = false ∧ sentMsg.relay = false ∧ fld (cAnswerTo mtype).hdr 0 4 = mtype
theorem witness_cmsgAck : CAnswers 4 := by decide +kernel
theorem witness_cmsgNack : CAnswers 5 ∧ fld sentMsg.m.hdr 128 2 ≠ 3 := by decide +kernel
theorem witness_cmsgReject : CAnswers 6 := by decide +kernel

end Sys2Proof.Tests
end

