-- ==== Sys2Proof/Tests/Windows.lean ====
section
/-! SUPPORT. Witnesses for the statements about windows, lateness and sleep agreements. -/

namespace Sys2Proof.Tests

set_option Elab.async false
open Sys2Proof.Machine

-- FlightsComplete

def inFlight : Flight := ⟨codeAt, 0, 0, 0, 0, 0, false⟩
theorem witness_flight : ((up.setStream 0 { streamReset with flight := some inFlight }).stream (streamIx me0)).flight = some inFlight
    ∧ inFlight.left = 0 ∧ (up.setStream 0 { streamReset with flight := some inFlight }).frozenStream (streamIx me0) = false := by
  decide +kernel

-- WindowEventsComplete

/-- A job of two windows, whose window table lies at 0x2000 of stack 0; node 7 is in meeting set 1. -/
def job0 : JobImage := ⟨120, [0x2000], [], none, [[], [7]], 0, 0, 0, 0, [], [], 0, 0, 0, [], [], [], 2, [], []⟩
/-- Partition 0 in window 0, which opened at its launch count. -/
def openJob : PartSt := { PartSt.init with state := 5, job := some job0, lc := 49000000, opened := some 49000000 }
def inPart0 (t : PartSt) : State := up.setPart 0 t
/-- Partition 0 as `t`. -/
abbrev In0 (t : PartSt) (f : State → PartSt → Prop) : Prop := f (inPart0 t) ((inPart0 t).part 0)

theorem witness_windowClose : In0 openJob fun s t => t.inWindow = true ∧ s.openStream 0 = none ∧ s.opsDone 0 = true
    ∧ s.copyOwed 0 = false := by decide +kernel
theorem witness_boundaryStart : In0 { openJob with closed := some 49500000 } fun s t => s.mayBound t = true
    ∧ ((s.answered_ 0).part 0).holds = [] := by decide +kernel
theorem witness_window0Boundary : In0 { openJob with state := 4, lc := 50000032, opened := none } fun s t => t.state = 4
    ∧ t.bAt = none ∧ t.lc ≤ s.gc + 32 ∧ s.mgmt.takeover = none := by decide +kernel
theorem witness_paceSend : In0 { openJob with bAt := some 49999996, phase := 1 } fun s t => t.bAt = some 49999996
    ∧ t.phase = 1 ∧ 49999996 + 4 ≤ s.gc := by decide +kernel
theorem witness_entryPcLoad : In0 { openJob with bAt := some 49999972, phase := 2 } fun s t => t.bAt = some 49999972
    ∧ t.phase = 2 ∧ 49999972 + 28 ≤ s.gc := by decide +kernel
theorem witness_windowOpen : In0 { openJob with bAt := some 49999968, phase := 3 } fun s t => t.bAt = some 49999968
    ∧ t.state = 5 ∧ t.phase = 3 ∧ 49999968 + 32 ≤ s.gc ∧ t.frozen = false ∧ s.graftOwed 0 = false := by decide +kernel
theorem witness_launchCount : In0 { openJob with state := 4, lc := 50000000, phase := 3 } fun s t => t.state = 4 ∧ t.phase = 3
    ∧ t.lc ≤ s.gc ∧ s.graftOwed 0 = false := by decide +kernel

-- LatenessCompletes

theorem witness_meetingCountReached : In0 { openJob with lc := 50000000 } fun s t => t.inWindow = true ∧ t.late = none
    ∧ s.mc t t.window ≤ s.gc := by decide +kernel
theorem witness_hangLimit : In0 { openJob with plan := { openJob.plan with hang := 1000000 } } fun s t => t.inWindow = true
    ∧ t.hangFrom.getD (s.mc t t.window) + t.plan.hang ≤ s.gc ∧ t.holds.any (fun h => h.reason == 2) = false := by decide +kernel
theorem witness_holdLimit : In0 { openJob with holds := [⟨5, 49000000, 1, false⟩], plan := { openJob.plan with hang := 1000000 } }
    fun s t => (t.holds.find? fun h => h.reason == holdCode .norm) = some ⟨5, 49000000, 1, false⟩ ∧ holdCode .norm ≠ 8
      ∧ 49000000 + t.plan.hang ≤ s.gc := by decide +kernel
def verdict0 : Verdict := ⟨0, 0, 0, 0, 0, 0, 0⟩
theorem witness_normVerdict : In0 { openJob with normAt := some 49999776, verdict := some verdict0 } fun s t =>
    t.normAt = some 49999776 ∧ t.verdict = some verdict0 ∧ 49999776 + 224 ≤ s.gc := by decide +kernel

-- SleepAgreementCompletes

/-- Core 0 of die 0 takes part in an agreement whose commit count is c. -/
def agreement (c : Nat) : SleepSt := { commit := c, doms := [domKey (.core 0 0)], ready := [], refused := false, done := false, wake := none }
def core00 : Domain := .core 0 0

theorem witness_sleepAnswer : In0 { openJob with sleep := some (agreement 50001000) } fun s t =>
    t.sleep = some (agreement 50001000) ∧ (agreement 50001000).done = false ∧ s.gc < (agreement 50001000).commit
      ∧ (agreement 50001000).doms.contains (domKey core00) = true ∧ (agreement 50001000).ready.contains (domKey core00) = false := by
  decide +kernel
theorem witness_sleepAnswerDeadline : In0 { openJob with sleep := some (agreement 50000004) } fun s t =>
    t.sleep = some (agreement 50000004) ∧ (agreement 50000004).done = false ∧ (agreement 50000004).commit ≤ s.gc + 4
      ∧ (agreement 50000004).agreed = false := by decide +kernel
def agreedAt : SleepSt := { agreement 50000000 with ready := [domKey core00] }
theorem witness_sleepCommit : In0 { openJob with sleep := some agreedAt } fun s t =>
    t.sleep = some agreedAt ∧ agreedAt.done = false ∧ agreedAt.commit ≤ s.gc ∧ agreedAt.agreed = true := by decide +kernel
def dozing : SleepSt := { agreement 49999875 with ready := [domKey core00], done := true, wake := some 50000000 }
theorem witness_latchedWake : In0 { openJob with sleep := some dozing } fun s t => t.sleep = some dozing
    ∧ dozing.wake = some 50000000 ∧ dozing.done = true ∧ dozing.doms ≠ []
    ∧ max 50000000 (dozing.commit + if dozing.deep then 1250 else 125) ≤ s.gc := by decide +kernel

/-- Window 0 has closed before its meeting count; window 1 runs core 0, which sleeps. -/
def napping : State :=
  ((up.wrN 0x2108 8 0).wrN 0x2120 1 1).setPart 0 { openJob with closed := some 49500000, lc := 50000100 }
    |>.setDom (domKey core00) ⟨.sleep, none, 0, false⟩
theorem witness_scheduledWake : (napping.part 0).opened.isSome = true ∧ (napping.part 0).last = false
    ∧ (napping.part 0).closed.isSome = true ∧ napping.gc < napping.mc (napping.part 0) (napping.part 0).window
    ∧ napping.wakesDue 0 ≠ [] := by decide +kernel

end Sys2Proof.Tests
end

