-- ==== Sys2Proof/Tests/Commands.lean ====
section
/-! SUPPORT. Witnesses for the statements about Lysby's commands, one taken entry for each row of chapter 17. -/

namespace Sys2Proof.Tests

set_option Elab.async false
open Sys2Proof.Machine

/-- An entry: its code, its partition, whether it is of device scope, its payload's length and value. -/
def ent (code part dev plen pay : Nat) : Nat := word code [(part, 32), (dev, 35), (plen, 40), (pay, 64)]

/-- Entry e waits at the head of pair 0 of the physical function, its doorbell written. -/
def asks (e : Nat) (s : State) : State :=
  let s := (List.range 8).foldl (fun s i => s.setMbxW (cmdSlot .pf 0 0 + 8 * i) (BitVec.ofNat 64 (e / 2 ^ (64 * i)))) s
  let s := s.setMbxW (ringA .pf 0) 1
  { s with mgmt := { s.mgmt with bells := [(0, .pf, 0, 1)] } }

def takenBool (r : CmdRow) (s : State) : Bool :=
  let e := s.headEntry .pf 0
  s.mayTake && s.nextTake == some (.pf, 0) && entCode e == r.code && !entBad r e && mayAsk .pf 0 (classOf r e) e
    && (s.mgmt.devState != 9 || classOf r e == .read || r.code == 0x0103)
    && (entDev e || classOf r e == .read || s.mgmt.devState == 2) && !s.sealedAgainst (classOf r e) r.code
theorem taken_of {r : CmdRow} {s : State} (h : takenBool r s = true) : Taken r .pf 0 s := by
  simp only [takenBool, Bool.and_eq_true, beq_iff_eq, bne_iff_ne, Bool.or_eq_true, Bool.not_eq_true'] at h
  obtain ⟨⟨⟨⟨⟨⟨⟨a, b⟩, c⟩, d⟩, e⟩, f⟩, g⟩, i⟩ := h
  refine ⟨a, b, c, d, rfl, e, fun x => ?_, fun x y => ?_, i⟩
  · rcases f with (f | f) | f
    · exact absurd x f
    · exact .inl f
    · exact .inr f
  · rcases g with (g | g) | g
    · rw [g] at x; cases x
    · exact absurd g y
    · exact g

/-- A command of row r is taken in state s, and its own conditions hold of the state that it starts from. -/
abbrev Asked (r : CmdRow) (s : State) (ok : State → BitVec 512 → Prop) : Prop :=
  Taken r .pf 0 s ∧ ok (s.given r .pf 0) (s.headEntry .pf 0)

/-- The device before its start, its FACTORY plate in slot A. -/
def started (n : Nat) : State := { up with mgmt := { up.mgmt with devState := n } }
/-- Partition 0 stands as `t`. -/
def loaded : PartSt := { openJob with state := 3 }
def noded (s : State) : State := s.setCfgW (ioCfg 0) (BitVec.ofNat 64 (3 + 2 ^ 14))

def asksDeviceStart : State := asks (ent 0x0101 0 1 0 0) (started 1)
theorem witness_deviceStart : Asked (devRow 0x0101 0 .power) asksDeviceStart fun u e => u.mgmt.devState = 1 ∧ u.busyWith e .power = false ∧ u.mgmt.mainGood = true
    ∧ u.bootPlate.isSome = true :=
  ⟨taken_of (by decide +kernel), by decide +kernel⟩

def asksDeviceStop : State := asks (ent 0x0102 0 1 0 0) up
theorem witness_deviceStop : Asked (devRow 0x0102 0 .power) asksDeviceStop fun u e => u.mgmt.devState = 2 ∧ u.blocker idleStates = none ∧ u.busyWith e .power = false :=
  ⟨taken_of (by decide +kernel), by decide +kernel⟩

def asksDeviceReset : State := asks (ent 0x0103 0 1 0 0) (started 9)
theorem witness_deviceReset : Asked (devRow 0x0103 0 .power) asksDeviceReset fun u _ => u.mgmt.devState ≠ 0 :=
  ⟨taken_of (by decide +kernel), by decide +kernel⟩

def asksDeviceIdentity : State := asks (ent 0x0104 0 1 0 0) up
theorem witness_deviceIdentity : Taken (devRow 0x0104 0 .read) .pf 0 asksDeviceIdentity := taken_of (by decide +kernel)

def asksDeviceMeasure : State := asks (ent 0x0105 0 1 1 7) up
theorem witness_deviceMeasure : Asked (devRow 0x0105 1 .read) asksDeviceMeasure fun _ e => payF e 0 1 < 8 :=
  ⟨taken_of (by decide +kernel), by decide +kernel⟩

def asksDeviceStatus : State := asks (ent 0x0106 0 1 0 0) up
theorem witness_deviceStatus : Taken (devRow 0x0106 0 .read) .pf 0 asksDeviceStatus := taken_of (by decide +kernel)

def asksPowerCap : State := asks (ent 0x0107 0 1 2 400) up
theorem witness_powerCap : Asked (devRow 0x0107 2 .power) asksPowerCap fun u e => u.mgmt.devState ∈ [1, 2, 8] ∧ u.busyWith e .power = false
    ∧ (payF e 0 2 = 0 ∨ (400 ≤ payF e 0 2 ∧ payF e 0 2 ≤ u.envelope)) :=
  ⟨taken_of (by decide +kernel), by decide +kernel⟩

def asksFirmwareCommit : State := asks (ent 0x0108 0 1 1 0) up
theorem witness_firmwareCommit : Asked (devRow 0x0108 1 .admin) asksFirmwareCommit fun u e => u.mgmt.devState ∈ [1, 2, 8] ∧ u.busyWith e .admin = false
    ∧ u.mgmt.fusedMin ≤ payF e 0 1 ∧ payF e 0 1 ≤ u.runningRollback :=
  ⟨taken_of (by decide +kernel), by decide +kernel⟩

def legalPlate : Plate := { plate2 with ledgerAddr := 0x010000000000 }
def asksPlateStage : State := asks (ent 0x0401 0 1 12 (word 0x40000 [(64, 64)])) up
theorem witness_plateStage : Asked (devRow 0x0401 12 .admin) asksPlateStage fun u e => u.mgmt.devState ∈ [2, 8] ∧ u.busyWith e .admin = false
    ∧ u.bufOk e (payF e 0 8) (payF e 8 4) = true ∧ payF e 8 4 ≤ 0x100000 ∧ u.plateOk legalPlate = true :=
  ⟨taken_of (by decide +kernel), by decide +kernel⟩

def staged : PlateSlot := ⟨legalPlate, zeros48, true⟩
def platesStaged : State := { up with mgmt := { up.mgmt with plates := [none, some staged] } }
def asksPlateApply : State := asks (ent 0x0402 0 1 1 1) platesStaged
theorem witness_plateApply : Asked (devRow 0x0402 1 .admin) asksPlateApply fun u e => u.mgmt.devState = 2 ∧ u.blocker idleStates = none
    ∧ u.busyWith e .admin = false ∧ u.mgmt.plates[payF e 0 1]? = some (some staged) ∧ payF e 0 1 < 2 ∧ staged.good = true
    ∧ u.plateOk staged.plate = true :=
  ⟨taken_of (by decide +kernel), by decide +kernel⟩

/-- An overlay of device scope without entries, its plate digest of zeros, lies at 0x40000. -/
def overlaid : State := up.wrN 0x40000 8 (word 0x5952564F [(1, 32), (1, 59)])
def asksOverlayApply : State := asks (ent 0x0403 0 1 10 (word 0x40000 [(160, 64)])) overlaid
theorem witness_overlayApply : Asked ⟨0x0403, .either, .admin, .admin, 10⟩ asksOverlayApply fun u e => u.overlayMay e = true
    ∧ (u.mgmt.overlays.findIdx? fun o => o.isNone).isSome = true ∧ u.bufOk e (payF e 0 8) (payF e 8 2) = true
    ∧ u.overlayOk (entScope e) (u.rd (payF e 0 8) (payF e 8 2)) = true :=
  ⟨taken_of (by decide +kernel), by decide +kernel⟩

def emptyOverlay : Overlay := ⟨none, 0, [], [], 1⟩
def overlayOn0 : State := up.setOverlay 0 (some emptyOverlay)
def asksOverlayRemove : State := asks (ent 0x0404 0 1 1 0) overlayOn0
theorem witness_overlayRemove : Asked ⟨0x0404, .either, .admin, .admin, 1⟩ asksOverlayRemove fun u e => u.overlayMay e = true ∧ u.handleBusy (payF e 0 1) = false
    ∧ u.mgmt.overlays[payF e 0 1]? = some (some emptyOverlay) ∧ emptyOverlay.part = entScope e :=
  ⟨taken_of (by decide +kernel), by decide +kernel⟩

def asksOverlayList : State := asks (ent 0x0405 0 1 0 0) up
theorem witness_overlayList : Taken (devRow 0x0405 0 .read) .pf 0 asksOverlayList := taken_of (by decide +kernel)

def asksNodeAssign : State := asks (ent 0x0501 0 1 4 (word 16383 [(4095, 16)])) up
theorem witness_nodeAssign : Asked (devRow 0x0501 4 .fabric) asksNodeAssign fun u e => u.mgmt.devState = 2 ∧ u.blocker idleStates = none
    ∧ u.busyWith e .fabric = false ∧ payF e 0 2 < 16384 ∧ payF e 2 2 < 4096 :=
  ⟨taken_of (by decide +kernel), by decide +kernel⟩

def asksTimeSource : State := asks (ent 0x0502 0 1 22 (word 0 [(63, 32), (63, 40)])) up
theorem witness_timeSource : Asked (devRow 0x0502 22 .fabric) asksTimeSource fun u e => u.mgmt.devState ∈ [2, 8] ∧ u.blocker restStates = none
    ∧ u.busyWith e .fabric = false ∧ u.sourcesOk e = true :=
  ⟨taken_of (by decide +kernel), by decide +kernel⟩

def asksPartQuery : State := asks (ent 0x0503 0 0 0 0) up
theorem witness_partQuery : Taken (partRow 0x0503 0 .read) .pf 0 asksPartQuery := taken_of (by decide +kernel)

/-- A job of one window, LAST, of one variant that idles: its record is in the image. -/
def job1 : JobImage := { job0 with windows := 1, memBytes := [(0x2000, natLe 112 (word 0 [(1, 34), (256, 64), (1, 512), (0x3000, 608)]))] }
/-- Partition 0 holds die 0 alone and is READY; the device is node 3. -/
def oneDie : State :=
  let s := noded (inPart0 { PartSt.init with state := 2 })
  { s with mgmt := { s.mgmt with plate := some { plate2 with parts := [{ part0 with dies := 1, wellEn := 1 }] } } }
def asksJobLoad : State := asks (ent 0x0201 0 0 16 (word 0x2000 [(112, 64)])) oneDie
theorem witness_jobLoad : Asked (jobRow 0x0201 16) asksJobLoad fun u e => (u.part (entPart e)).state = 2
    ∧ u.nodeAssigned = true ∧ u.busyWith e .job = false ∧ payF e 8 8 ≠ 0
    ∧ u.inPartHbm (entPart e) (payF e 0 8) (payF e 8 8) = true
    ∧ imageBad u ((u.clearForLoad (entPart e)).writeImage job1) (Fin.ofNat 8 (entPart e)) job1 = false
    ∧ u.needsFailed (entPart e) = false :=
  ⟨taken_of (by decide +kernel), by decide +kernel⟩

def asksJobUnload : State := asks (ent 0x0202 0 0 0 0) (inPart0 loaded)
theorem witness_jobUnload : Asked (jobRow 0x0202 0) asksJobUnload fun u e => (u.part (entPart e)).state ∈ [3, 6, 7] ∧ u.busyWith e .job = false :=
  ⟨taken_of (by decide +kernel), by decide +kernel⟩

def asksJobLaunch : State := asks (ent 0x0203 0 0 52 50002500) ((inPart0 loaded).setCfgW (hwReg 0x2008) 2)
theorem witness_jobLaunch : Asked (jobRow 0x0203 52) asksJobLaunch fun u e => (u.part (entPart e)).state = 3 ∧ u.busyWith e .job = false
    ∧ (u.part (entPart e)).job = some job0 ∧ u.gc + 2500 ≤ payF e 0 8 ∧ payF e 20 4 = 0 ∧ payF e 32 20 = 0
    ∧ u.jobFits (entPart e) job0 = true ∧ (jobMeets job0 = true → 2 ≤ u.gcState) :=
  ⟨taken_of (by decide +kernel), by decide +kernel⟩

def asksJobTeardown : State := asks (ent 0x0204 0 0 8 0) (inPart0 openJob)
theorem witness_jobTeardown : Asked (jobRow 0x0204 8) asksJobTeardown fun u e => (u.part (entPart e)).state ∈ activeStates ∧ u.busyWith e .job = false
    ∧ BitVec.ofNat 64 (payF e 0 8) = (u.part (entPart e)).tag
    ∧ ((u.part (entPart e)).state = 4 → (u.part (entPart e)).lc ≤ u.gc) :=
  ⟨taken_of (by decide +kernel), by decide +kernel⟩

def asksJobResume : State := asks (ent 0x0205 0 0 0 0) (inPart0 { openJob with state := 7 })
theorem witness_jobResume : Asked (jobRow 0x0205 0) asksJobResume fun u e => (u.part (entPart e)).state ∈ [6, 7]
    ∧ (u.part (entPart e)).tornDown = false ∧ ((u.part (entPart e)).state = 7 → (u.part (entPart e)).last = false)
    ∧ u.busyWith e .job = false :=
  ⟨taken_of (by decide +kernel), by decide +kernel⟩

def asksJobVariant : State := asks (ent 0x0206 0 0 1 0) (inPart0 loaded)
theorem witness_jobVariant : Asked (jobRow 0x0206 1) asksJobVariant fun u e => (u.part (entPart e)).state ∈ jobStates ∧ (u.part (entPart e)).replay = none
    ∧ u.busyWith e .job = false ∧ (u.part (entPart e)).job = some job0 ∧ payF e 0 1 < job0.sets.length :=
  ⟨taken_of (by decide +kernel), by decide +kernel⟩

def asksInputCommit : State := asks (ent 0x0207 0 0 20 (word 0x40000 [(4, 64)])) (inPart0 openJob)
theorem witness_inputCommit : Asked (jobRow 0x0207 20) asksInputCommit fun u e => (u.part (entPart e)).state ∈ activeStates
    ∧ u.busyWith e .job = false ∧ payF e 16 4 = (u.part (entPart e)).batch ∧ 1 ≤ payF e 8 8 ∧ payF e 8 8 ≤ 2 ^ 20
    ∧ u.inPartHbm (entPart e) (payF e 0 8) (payF e 8 8) = true ∧ (u.takeBatch e).2 = false :=
  ⟨taken_of (by decide +kernel), by decide +kernel⟩

def asksInputCommitLarge : State := asks (ent 0x0207 0 0 20 (word 0x40000 [(2 ^ 20 + 1, 64)])) (inPart0 openJob)
theorem witness_inputCommitLarge : Asked (jobRow 0x0207 20) asksInputCommitLarge fun u e => (u.part (entPart e)).state ∈ activeStates
    ∧ u.busyWith e .job = false ∧ payF e 16 4 = (u.part (entPart e)).batch ∧ 2 ^ 20 < payF e 8 8 ∧ payF e 8 8 ≤ 2 ^ 40
    ∧ u.inPartHbm (entPart e) (payF e 0 8) (payF e 8 8) = true :=
  ⟨taken_of (by decide +kernel), by decide +kernel⟩

def asksPoolAudit : State := asks (ent 0x0208 0 0 12 (word 0x40000 [(4096, 64)])) (inPart0 loaded)
theorem witness_poolAudit : Asked (jobRow 0x0208 12) asksPoolAudit fun u e => (u.part (entPart e)).state ∈ jobStates
    ∧ u.busyWith e .job = false ∧ u.inPartHbm (entPart e) (payF e 0 8) (payF e 8 4) = true :=
  ⟨taken_of (by decide +kernel), by decide +kernel⟩

/-- Partition 1 holds half of the envelope. -/
def sharing (t : PartSt) : State := (inPart0 t).setPart 1 { PartSt.init with plan := { PartSt.init.plan with share := 32 } }
def asksPacePlan : State := asks (ent 0x0301 0 0 16 (word 0 [(7, 8), (0, 16), (0, 24), (90, 32), (10, 40), (32, 48), (0, 56), (65536, 64)])) (sharing loaded)
theorem witness_pacePlan : Asked (jobRow 0x0301 16) asksPacePlan fun u e => (u.part (entPart e)).state = 3 ∧ (u.part (entPart e)).replay = none
    ∧ u.busyWith e .job = false ∧ planOk (planOf e) = true ∧ u.shareSum (entPart e) (planOf e).share ≤ 64 :=
  ⟨taken_of (by decide +kernel), by decide +kernel⟩

def asksPacePlanLatched : State := asks (ent 0x0301 0 0 16 (word 0 [(7, 8), (0, 16), (0, 24), (90, 32), (10, 40), (32, 48), (0, 56), (65536, 64)])) (sharing openJob)
theorem witness_pacePlanLatched : Asked (jobRow 0x0301 16) asksPacePlanLatched fun u e => (u.part (entPart e)).state ∈ [4, 5, 6, 7]
    ∧ (u.part (entPart e)).replay = none ∧ u.busyWith e .job = false ∧ planOk (planOf e) = true
    ∧ u.shareSum (entPart e) (planOf e).share ≤ 64 :=
  ⟨taken_of (by decide +kernel), by decide +kernel⟩

def asksPaceRead : State := asks (ent 0x0302 0 0 0 0) (inPart0 openJob)
theorem witness_paceRead : Asked (partRow 0x0302 0 .read) asksPaceRead fun u e => (u.part (entPart e)).state ∈ [4, 5, 6, 7] :=
  ⟨taken_of (by decide +kernel), by decide +kernel⟩

def asksNormArm : State := asks (ent 0x0701 0 0 11 (word 0x3F800000 [(0x3F800000, 32), (0, 64), (1, 72), (0, 80)])) (inPart0 loaded)
theorem witness_normArm : Asked (jobRow 0x0701 11) asksNormArm fun u e => (u.part (entPart e)).state ∈ jobStates
    ∧ (u.part (entPart e)).replay = none ∧ u.busyWith e .job = false ∧ boundsOk (boundsOf e) = true :=
  ⟨taken_of (by decide +kernel), by decide +kernel⟩

/-- Partition 0 is held by its norm check. -/
def asking5 : PartSt := { openJob with state := 6, holds := [⟨5, 49000000, 1, false⟩], verdict := some verdict0 }
def asksNormAnswer : State := asks (ent 0x0702 0 0 1 1) (inPart0 asking5)
theorem witness_normAnswer : Asked (jobRow 0x0702 1) asksNormAnswer fun u e => (u.part (entPart e)).asksNorm = true ∧ (u.part (entPart e)).replay = none
    ∧ u.busyWith e .job = false ∧ payF e 0 1 = 1 :=
  ⟨taken_of (by decide +kernel), by decide +kernel⟩

def asksNormAnswerApply : State := asks (ent 0x0702 0 0 1 0) (inPart0 asking5)
theorem witness_normAnswerApply : Asked (jobRow 0x0702 1) asksNormAnswerApply fun u e => (u.part (entPart e)).asksNorm = true ∧ (u.part (entPart e)).replay = none
    ∧ u.busyWith e .job = false ∧ payF e 0 1 = 0 ∧ (u.part (entPart e)).verdict = some verdict0
    ∧ isFinite32 verdict0.norm = true :=
  ⟨taken_of (by decide +kernel), by decide +kernel⟩

def asksProofArm : State := asks (ent 0x0703 0 0 5 (word 2 [(1, 16), (1, 32)])) (inPart0 loaded)
theorem witness_proofArm : Asked (jobRow 0x0703 5) asksProofArm fun u e => (u.part (entPart e)).state ∈ jobStates
    ∧ u.busyWith e .job = false ∧ payF e 4 1 < 2
    ∧ ((payF e 0 2 = 0 ∧ payF e 2 2 = 0) ∨ (payF e 0 2 ≠ 0 ∧ payF e 2 2 < payF e 0 2)) :=
  ⟨taken_of (by decide +kernel), by decide +kernel⟩

/-- The journal of partition 0 is open. -/
def journaling (t : PartSt) : State := (inPart0 t).openJournal 0 0x100000 12
def asksProofCompare : State := asks (ent 0x0704 0 0 12 (word 0x40000 [(1, 64)])) (journaling { openJob with state := 3 })
theorem witness_proofCompare : Asked (jobRow 0x0704 12) asksProofCompare fun u e => (u.part (entPart e)).state ∈ jobStates
    ∧ u.jnlOpen (entPart e) = true ∧ u.busyWith e .job = false
    ∧ (payF e 8 4 = 0 ∨ u.inPartHbm (entPart e) (payF e 0 8) (128 * payF e 8 4) = true) :=
  ⟨taken_of (by decide +kernel), by decide +kernel⟩

def asksJournalOpen : State := asks (ent 0x0801 0 0 9 (word 0x100000 [(12, 64)])) (inPart0 loaded)
theorem witness_journalOpen : Asked (jobRow 0x0801 9) asksJournalOpen fun u e => (u.part (entPart e)).state ∈ [2, 3]
    ∧ u.jnlOpen (entPart e) = false ∧ u.busyWith e .job = false ∧ 12 ≤ payF e 8 1 ∧ payF e 8 1 ≤ 26 ∧ payF e 0 8 % 4096 = 0
    ∧ u.inPartHbm (entPart e) (payF e 0 8) (64 * 2 ^ payF e 8 1) = true :=
  ⟨taken_of (by decide +kernel), by decide +kernel⟩

def asksJournalClose : State := asks (ent 0x0802 0 0 0 0) (journaling { openJob with state := 3 })
theorem witness_journalClose : Asked (jobRow 0x0802 0) asksJournalClose fun u e => (u.part (entPart e)).state ∈ [2, 3, 7] ∧ u.busyWith e .job = false :=
  ⟨taken_of (by decide +kernel), by decide +kernel⟩

def asksExportStart : State := asks (ent 0x0803 0 0 24 (word 1 [(0x100000, 64), (2 ^ 32, 128)])) (inPart0 { openJob with state := 7 })
theorem witness_exportStart : Asked (jobRow 0x0803 24) asksExportStart fun u e => (u.part (entPart e)).state ∈ [6, 7]
    ∧ u.busyWith e .job = false ∧ payF e 0 1 < 2 ∧ u.inPartHbm (entPart e) (payF e 8 8) (payF e 16 8) = true
    ∧ exportBytes (u.extents (entPart e) (payF e 0 1)) ≤ payF e 16 8 :=
  ⟨taken_of (by decide +kernel), by decide +kernel⟩

def asksImportStart : State := asks (ent 0x0804 0 0 16 (word 0x100000 [(32, 64)])) (inPart0 loaded)
theorem witness_importStart : Asked (jobRow 0x0804 16) asksImportStart fun u e => (u.part (entPart e)).state = 3 ∧ u.busyWith e .job = false
    ∧ u.inPartHbm (entPart e) (payF e 0 8) (payF e 8 8) = true ∧ u.importOf (payF e 0 8) (payF e 8 8) = none :=
  ⟨taken_of (by decide +kernel), by decide +kernel⟩

def asksImportWorking : State := asks (ent 0x0804 0 0 16 (word 0x100000 [(64, 64)])) (inPart0 loaded)
theorem witness_importWorking : Asked (jobRow 0x0804 16) asksImportWorking fun u e => (u.part (entPart e)).state = 3 ∧ u.busyWith e .job = false
    ∧ u.inPartHbm (entPart e) (payF e 0 8) (payF e 8 8) = true ∧ u.importOf (payF e 0 8) (payF e 8 8) = some []
    ∧ isWorking [] = false :=
  ⟨taken_of (by decide +kernel), by decide +kernel⟩

def asksGraftPrepare : State := asks (ent 0x0601 0 0 2 (word 0 [(0xFF, 8)])) (inPart0 { PartSt.init with state := 2 })
theorem witness_graftPrepare : Asked (graftRow 0x0601 2 .admin) asksGraftPrepare fun u e => (u.part (entPart e)).replay = none
    ∧ (u.part (entPart e)).state ∈ [2, 3, 4, 5, 6, 7] ∧ u.dieIn (entPart e) (payF e 0 1) = true ∧ payF e 1 1 = 0xFF
    ∧ u.mgmt.grafts.any Graft.open_ = false ∧ (u.spareFor (payF e 1 1)).isSome = true :=
  ⟨taken_of (by decide +kernel), by decide +kernel⟩

/-- A prepared graft of die 0 of partition 0. -/
def spare32 : Graft := ⟨0, 0, 32, 0, 2, 50000000, 0, 0, 0⟩
def prepared (t : PartSt) : State := (inPart0 t).setGrafts [spare32]
def asksGraftCommit : State := asks (ent 0x0602 0 0 16 (word 0 [(50000000, 64)])) (prepared openJob)
theorem witness_graftCommit : Asked (graftRow 0x0602 16 .admin) asksGraftCommit fun u e => (u.part (entPart e)).replay = none
    ∧ u.graftOf (payF e 0 1) = some spare32 ∧ spare32.part = entPart e ∧ spare32.phase = 2
    ∧ (u.part (entPart e)).state ∈ activeStates ∧ spare32.earliest ≤ payF e 8 8 :=
  ⟨taken_of (by decide +kernel), by decide +kernel⟩

def asksGraftAbort : State := asks (ent 0x0603 0 0 1 0) (prepared openJob)
theorem witness_graftAbort : Asked (graftRow 0x0603 1 .admin) asksGraftAbort fun u e => (u.part (entPart e)).replay = none ∧ u.graftOf (payF e 0 1) = some spare32
    ∧ spare32.part = entPart e ∧ spare32.phase = 2 :=
  ⟨taken_of (by decide +kernel), by decide +kernel⟩

def asksGraftStatus : State := asks (ent 0x0604 0 0 1 0) (prepared openJob)
theorem witness_graftStatus : Asked (graftRow 0x0604 1 .read) asksGraftStatus fun u e => u.dieIn (entPart e) (payF e 0 1) = true
    ∧ u.graftOf (payF e 0 1) = some spare32 ∧ spare32.phase ≠ 5 :=
  ⟨taken_of (by decide +kernel), by decide +kernel⟩

def asksStopAt : State := asks (ent 0x0901 0 0 8 50002500) (inPart0 openJob)
theorem witness_stopAt : Asked ⟨0x0901, .either, .job, .admin, 8⟩ asksStopAt fun u e => (if entDev e then u.mgmt.devState = 2 ∧ u.stopTargets e ≠ []
    else (u.part (entPart e)).state ∈ activeStates) ∧ u.gc + 2500 ≤ payF e 0 8 :=
  ⟨taken_of (by decide +kernel), by decide +kernel⟩

def asksStopAtAll : State := asks (ent 0x0901 0 1 8 50002500) (inPart0 openJob)
theorem witness_stopAtAll : Asked ⟨0x0901, .either, .job, .admin, 8⟩ asksStopAtAll fun u e => (if entDev e then u.mgmt.devState = 2 ∧ u.stopTargets e ≠ []
    else (u.part (entPart e)).state ∈ activeStates) ∧ u.gc + 2500 ≤ payF e 0 8 :=
  ⟨taken_of (by decide +kernel), by decide +kernel⟩

def stopping : State := { up with mgmt := { up.mgmt with cmds := [⟨1, .pf, 0, BitVec.ofNat 512 (ent 0x0901 0 1 8 50002500), 0, [1], none, none⟩] } }
def asksStopCancel : State := asks (ent 0x0902 0 1 0 0) stopping
theorem witness_stopCancel : Asked ⟨0x0902, .either, .job, .admin, 0⟩ asksStopCancel fun u e => u.stopsOf e ≠ [] :=
  ⟨taken_of (by decide +kernel), by decide +kernel⟩

def asksDebugHalt : State := asks (ent 0x0903 0 0 3 (word 0xFF [(0, 8), (0x30, 16)])) (inPart0 openJob)
theorem witness_debugHalt : Asked (jobRow 0x0903 3) asksDebugHalt fun u e => (u.part (entPart e)).state ∈ [5, 6]
    ∧ u.busyWith e .job = false ∧ u.haltOk (entPart e) e = true :=
  ⟨taken_of (by decide +kernel), by decide +kernel⟩

def asksDebugRun : State := asks (ent 0x0904 0 0 3 (word 0 [(1, 16)])) ((inPart0 openJob).setStream 0 { streamReset with st := .halted })
theorem witness_debugRun : Asked (jobRow 0x0904 3) asksDebugRun fun u e => (u.part (entPart e)).state ∈ [5, 6]
    ∧ u.anyHalted (entPart e) = true ∧ u.busyWith e .job = false ∧ u.haltOk (entPart e) e = true :=
  ⟨taken_of (by decide +kernel), by decide +kernel⟩

def asksPeek : State := asks (ent 0x0905 0 0 24 (word 0x40000 [(48, 64)])) up
theorem witness_peek : Asked ⟨0x0905, .either, .read, .read, 24⟩ asksPeek fun u e => 1 ≤ payF e 8 4 ∧ payF e 8 4 ≤ 48 ∧ payF e 16 8 = 0
    ∧ u.mayReach .pf 0 e (payF e 0 8) (payF e 8 4) = true ∧ u.mapped (payF e 0 8) (payF e 8 4) = true
    ∧ u.poisoned (payF e 0 8) (payF e 8 4) = false ∧ u.domAt (payF e 0 8) = some (memKey 0) ∧ u.power (memKey 0) = .on :=
  ⟨taken_of (by decide +kernel), by decide +kernel⟩

def asksTake : State := asks (ent 0x0906 0 1 8 (hwReg 0x3008)) up
theorem witness_take : Asked ⟨0x0906, .either, .job, .admin, 8⟩ asksTake fun u e => entDev e = true ∧ u.mayReach .pf 0 e (payF e 0 8) 8 = true
    ∧ (u.takeAt (payF e 0 8)).isSome = true :=
  ⟨taken_of (by decide +kernel), by decide +kernel⟩

def asksTraceArm : State := asks (ent 0x0907 0 0 24 (word 11 [(16, 16), (1, 24), (3, 32)])) ((inPart0 loaded).setCfgF (Sys2Proof.Machine.ringBase 0 11 + 8) 48 5 10)
theorem witness_traceArm : Asked (jobRow 0x0907 24) asksTraceArm fun u e => (u.part (entPart e)).state ∈ jobStates
    ∧ u.dieIn (entPart e) (payF e 0 2 / 12) = true
    ∧ u.cfgF (Sys2Proof.Machine.ringBase (payF e 0 2 / 12) (payF e 0 2 % 12) + 8) 48 5 ≠ 0
    ∧ payF e 2 1 ≤ 16 ∧ payF e 3 1 < 2 ∧ payF e 4 1 < 4 :=
  ⟨taken_of (by decide +kernel), by decide +kernel⟩

def asksCountersSnap : State := asks (ent 0x0908 0 1 12 (word 0x100000 [(2 ^ 31, 64)])) up
theorem witness_countersSnap : Asked ⟨0x0908, .either, .read, .read, 12⟩ asksCountersSnap fun u e => entDev e = true
    ∧ u.bufOk e (payF e 0 8) (payF e 8 4) = true ∧ u.snapBytes e ≤ payF e 8 4 :=
  ⟨taken_of (by decide +kernel), by decide +kernel⟩

def asksServiceEnter : State := asks (ent 0x0A01 0 1 0 0) up
theorem witness_serviceEnter : Asked (devRow 0x0A01 0 .service) asksServiceEnter fun u e => u.mgmt.devState = 2 ∧ u.blocker idleStates = none ∧ u.busyWith e .service = false :=
  ⟨taken_of (by decide +kernel), by decide +kernel⟩

def asksServiceExit : State := asks (ent 0x0A02 0 1 0 0) (started 8)
theorem witness_serviceExit : Asked (devRow 0x0A02 0 .service) asksServiceExit fun u e => u.mgmt.devState = 8 ∧ u.busyWith e .service = false :=
  ⟨taken_of (by decide +kernel), by decide +kernel⟩

def asksTgenRun : State := asks (ent 0x0A03 0 1 36 (word 0 [(62, 8), (63, 16), (5, 64)])) up
theorem witness_tgenRun : Asked (devRow 0x0A03 36 .service) asksTgenRun fun u e => u.mgmt.devState ∈ [2, 8] ∧ payF e 0 1 < 12
    ∧ u.tgenFree (payF e 0 1) = true ∧ u.busyWith e .service = false
    ∧ (∀ i < payF e 2 1 + 1 - payF e 1 1, u.cfgF (tgA (payF e 0 1) (payF e 1 1 + i) + 0x30) 0 1 ≠ 1)
    ∧ payF e 1 1 ≤ payF e 2 1 ∧ payF e 2 1 < 64 ∧ payF e 8 8 % 4 = 1 ∧ payF e 8 8 / 2 ^ 20 = 0
    ∧ u.power (memKey (payF e 0 1)) = .on :=
  ⟨taken_of (by decide +kernel), by decide +kernel⟩

def asksTgenRead : State := asks (ent 0x0A04 0 1 2 (word 11 [(63, 8)])) up
theorem witness_tgenRead : Asked (devRow 0x0A04 2 .read) asksTgenRead fun u e => u.mgmt.devState ∈ [2, 8] ∧ payF e 0 1 < 12 ∧ payF e 1 1 < 64 :=
  ⟨taken_of (by decide +kernel), by decide +kernel⟩

def asksRecordRead : State := asks (ent 0x0A05 0 1 9 (word 0 [(1, 64)])) (up.setCfgW (hwReg 0x5000) 1)
theorem witness_recordRead : Asked ⟨0x0A05, .either, .read, .read, 9⟩ asksRecordRead fun u e => payF e 8 1 < 2
    ∧ (u.record (payF e 0 8)).isSome = true ∧ entDev e = true :=
  ⟨taken_of (by decide +kernel), by decide +kernel⟩

def asksRecordReadOfPart : State := asks (ent 0x0A05 0 0 9 0) (up.setCfgW (hwReg 0x5000) 1)
theorem witness_recordReadOfPart : Asked ⟨0x0A05, .either, .read, .read, 9⟩ asksRecordReadOfPart fun u e => payF e 8 1 < 2
    ∧ u.record (payF e 0 8) = some (natLe 64 0) ∧ bitsAt (leNat ((natLe 64 0).take 1)) 7 1 = 0
    ∧ bitsAt (leNat ((natLe 64 0).take 1)) 4 3 = entPart e :=
  ⟨taken_of (by decide +kernel), by decide +kernel⟩

def asksWearRead : State := asks (ent 0x0A06 0 1 2 112) up
theorem witness_wearRead : Asked (devRow 0x0A06 2 .read) asksWearRead fun _ e => payF e 0 2 < 113 :=
  ⟨taken_of (by decide +kernel), by decide +kernel⟩

def asksStackRetire : State := asks (ent 0x0A07 0 1 16 11) (started 8)
theorem witness_stackRetire : Asked (devRow 0x0A07 16 .service) asksStackRetire fun u e => u.mgmt.devState = 8 ∧ u.busyWith e .service = false ∧ payF e 0 1 < 12
    ∧ BitVec.ofNat 64 (payF e 8 8) = u.mgmt.serial ∧ u.retired (payF e 0 1) = false :=
  ⟨taken_of (by decide +kernel), by decide +kernel⟩

def asksReturnPrepare : State := asks (ent 0x0A08 0 1 8 0) (started 8)
theorem witness_returnPrepare : Asked (devRow 0x0A08 8 .service) asksReturnPrepare fun u e => u.mgmt.devState = 8 ∧ u.busyWith e .service = false
    ∧ BitVec.ofNat 64 (payF e 0 8) = u.mgmt.serial :=
  ⟨taken_of (by decide +kernel), by decide +kernel⟩

end Sys2Proof.Tests
end

