-- ==== Sys2Proof/Tests/Debug.lean ====
section
/-! SUPPORT. Witnesses for the statements about cuts, debug, the host and the tray controller. -/

namespace Sys2Proof.Tests

set_option Elab.async false
open Sys2Proof.Machine

-- DebugEventsComplete

theorem witness_cut : In0 { openJob with stopAt := some 50000000 } fun s t => t.cutAt = some 50000000 ∧ t.cutDue s.gc = true
    ∧ t.opening = false ∧ s.graftOwed 0 = false := by decide +kernel
theorem witness_cutAtOpen : In0 { openJob with stopAt := some 49999970, bAt := some 49999968, phase := 3 } fun s t =>
    t.cutAt = some 50000000 ∧ t.cutDue s.gc = true ∧ t.opening = true ∧ t.phase = 3 ∧ s.graftOwed 0 = false := by
  decide +kernel
theorem witness_cutResume : In0 { openJob with state := 7, frozen := true, resumeAt := some 50000000 } fun s t =>
    t.resumeAt = some 50000000 ∧ t.frozen = true ∧ 50000000 ≤ s.gc := by decide +kernel

/-- Node 3 with a live port 0 and context 7 of partition 0, which a cut has frozen. -/
def capturing : State :=
  let s := (inPart0 { openJob with state := 7, frozen := true }).setCfgW (ioCfg 0) (BitVec.ofNat 64 (3 + 2 ^ 14))
  ((s.setCfgW (portA 0) 1).setCfgW (portA 0 + 8) 2).setCfgW (ctxA 7) (BitVec.ofNat 64 (word 1 [(1, 32)]))
def fCaught : Frame := ⟨BitVec.ofNat 384 (word 3 [(2, 2), (7, 8), (3, 22)]), []⟩
theorem witness_frameCapture : capturing.portLive 0 = true ∧ capturing.frozenFor fCaught = true ∧ 2 ≤ fClass fCaught
    ∧ fDst fCaught = capturing.node := by decide +kernel
def halting : State := up.setStream 0 { streamReset with haltAt := some (50000000, false) }
theorem witness_engineHalt : (halting.stream (streamIx me0)).haltAt = some (50000000, false)
    ∧ halting.mayHalt (streamIx me0) 50000000 = true := by decide +kernel
def lastRing : Nat := Sys2Proof.Machine.ringBase 31 11
theorem witness_traceTrigger : (up.setCfgW lastRing 1).cfgF lastRing 0 2 = 1 ∧ (up.setCfgW lastRing 1).cfgF lastRing 13 3 = 0
    ∧ ((up.setCfgW lastRing 1).cfgW (lastRing + 0x30)).toNat ≤ up.gc := by decide +kernel
/-- A counters.snap that waits for its count k. -/
def snap (k : Nat) : PendCmd := ⟨1, .pf, 0, 0x0908, 0, [k], none, none⟩
def snapping (k : Nat) : State := { up with mgmt := { up.mgmt with cmds := [snap k] } }
theorem witness_snapshotLatch : (snapping 50000000).mgmt.cmds[0]? = some (snap 50000000) ∧ (snap 50000000).data = [50000000]
    ∧ entCode (snap 50000000).entry = 0x0908 ∧ 50000000 ≤ (snapping 50000000).gc := by decide +kernel
theorem witness_snapshotTimeout : (snapping 49750000).mgmt.cmds[0]? = some (snap 49750000)
    ∧ entCode (snap 49750000).entry = 0x0908 ∧ (snap 49750000).data.headD 0 + 250000 ≤ (snapping 49750000).gc := by decide +kernel
theorem witness_boundaryScan : State.reset.allOff = true ∧ drivesPins .extest = true ∧ JtagInstr.extest ≠ .idcode := by
  decide +kernel

-- HostAccessesComplete

theorem witness_reaches : up.reaches .pf = true ∧ (11 : Fin 12).val < pairsOf .pf := by decide +kernel
theorem witness_registerWrite : up.lysbyUp = true ∧ 8 % 8 = 0 := by decide +kernel
def bothHosts : State := { up with mgmt := { up.mgmt with hostReady := [(0, 0), (1, 0)] } }
theorem witness_portTake : bothHosts.hostUp 1 = true ∧ 1 ≠ bothHosts.mgmt.hostPort ∧ fld (1 : W64) 0 1 = 1 := by decide +kernel
theorem witness_hostUp : up.hostUp up.mgmt.hostPort = true ∧ fld (4 : W64) 2 1 = 1 := by decide +kernel
theorem witness_bar2Access : isHbm (up.apertureAddr .pf 0x1000) = true
    ∧ up.access (vfPart .pf) (up.apertureAddr .pf 0x1000) 64 = .ok ∧ 0x1000 + 64 ≤ 2 ^ 36 := by decide +kernel
/-- A VF reaches its own partition's memory. -/
theorem witness_bar2AccessOfVf : isHbm (up.apertureAddr (.vf 0) 0x1000) = true
    ∧ up.access (vfPart (.vf 0)) (up.apertureAddr (.vf 0) 0x1000) 64 = .ok := by decide +kernel

end Sys2Proof.Tests
end

