-- ==== Sys2Proof/Tests/Engines.lean ====
section
/-! SUPPORT. Witnesses: states that meet the hypotheses of the statements about the engine programs, clause by clause. -/

namespace Sys2Proof.Tests

set_option Elab.async false
open Sys2Proof.Machine

-- ControlInstructionsComplete

theorem witness_nop : Issues me0 (iw 0) (issuingState me0 0 up) ∧ opOf (iw 0) = 0 :=
  ⟨issues_of (by decide +kernel), by decide +kernel⟩
theorem witness_twait : Issues xe0 (iw 1) (issuingState xe0 1 up) ∧ opOf (iw 1) = 1 :=
  ⟨issues_of (by decide +kernel), by decide +kernel⟩
theorem witness_signal : Issues ce0 (iw 2) (issuingState ce0 2 up) ∧ opOf (iw 2) = 2 :=
  ⟨issues_of (by decide +kernel), by decide +kernel⟩
theorem witness_setx : Issues ve0 (iw 3) (issuingState ve0 3 up) ∧ opOf (iw 3) = 3 :=
  ⟨issues_of (by decide +kernel), by decide +kernel⟩
theorem witness_addx : Issues mv0 (iw 4) (issuingState mv0 4 up) ∧ opOf (iw 4) = 4 :=
  ⟨issues_of (by decide +kernel), by decide +kernel⟩

/-- LOOP of one instruction, three times. -/
def wLoop : Nat := word 5 [(1, 132), (3, 160)]
theorem witness_loop : Issues me0 (iw wLoop) (issuingState me0 wLoop up) ∧ opOf (iw wLoop) = 5
    ∧ ((issuingState me0 wLoop up).stream 0).loops.length < 4 ∧ fld (iw wLoop) 132 12 ≠ 0
    ∧ ∀ l ∈ ((issuingState me0 wLoop up).stream 0).loops, loopStop ((issuingState me0 wLoop up).stream 0) (iw wLoop) ≤ l.stop :=
  ⟨issues_of (by decide +kernel), by decide +kernel⟩
def wJump : Nat := word 6 [(5, 160)]
theorem witness_jump : Issues me0 (iw wJump) (issuingState me0 wJump up) ∧ opOf (iw wJump) = 6
    ∧ branchOk ((issuingState me0 wJump up).stream 0) (iw wJump) = true :=
  ⟨issues_of (by decide +kernel), by decide +kernel⟩
/-- BRX, taken: X0 = 0. -/
def wBrx : Nat := word 7 [(2, 160)]
theorem witness_brx : Issues me0 (iw wBrx) (issuingState me0 wBrx up) ∧ opOf (iw wBrx) = 7 ∧ fld (iw wBrx) 131 3 < 4
    ∧ (brxTaken ((issuingState me0 wBrx up).stream 0) (iw wBrx) = true
      → branchOk ((issuingState me0 wBrx up).stream 0) (iw wBrx) = true) :=
  ⟨issues_of (by decide +kernel), by decide +kernel⟩
/-- LOCK of the longest sequence. -/
def wLock : Nat := word 10 [(64, 128)]
theorem witness_lock : Issues me0 (iw wLock) (issuingState me0 wLock up) ∧ opOf (iw wLock) = 10
    ∧ 1 ≤ fld (iw wLock) 128 7 ∧ fld (iw wLock) 128 7 ≤ 64 :=
  ⟨issues_of (by decide +kernel), by decide +kernel⟩
theorem witness_halt : Issues me0 (iw 11) (issuingState me0 11 up) ∧ opOf (iw 11) = 11 :=
  ⟨issues_of (by decide +kernel), by decide +kernel⟩
theorem witness_wend : Issues me0 (iw 12) (issuingState me0 12 up) ∧ opOf (iw 12) = 12
    ∧ fld (iw 12) 128 32 = ((issuingState me0 12 up).stream 0).window :=
  ⟨issues_of (by decide +kernel), by decide +kernel⟩

-- WaitgcCompletes

/-- WAITGC for the count that is. -/
def wGc : Nat := word 8 [(50000000, 128)]
theorem witness_waitgc_now : Issues me0 (iw wGc) (issuingState me0 wGc up) ∧ opOf (iw wGc) = 8
    ∧ fld (iw wGc) 128 64 ≤ (issuingState me0 wGc up).gc :=
  ⟨issues_of (by decide +kernel), by decide +kernel⟩
def inWaitGc (n : Nat) : State :=
  let s := issuingState me0 n up
  s.setStream 0 { s.stream 0 with st := .waitGc }
theorem witness_gcWaitSatisfied : Issues me0 (iw wGc) (inWaitGc wGc) ∧ opOf (iw wGc) = 8
    ∧ fld (iw wGc) 128 64 ≤ (inWaitGc wGc).gc ∧ ((inWaitGc wGc).stream 0).st = .waitGc :=
  ⟨issues_of (by decide +kernel), by decide +kernel⟩
/-- WAITGC for the next count. -/
def wGc1 : Nat := word 8 [(50000001, 128)]
theorem witness_waitgc_waits : Issues me0 (iw wGc1) (issuingState me0 wGc1 up) ∧ opOf (iw wGc1) = 8
    ∧ (issuingState me0 wGc1 up).gc < fld (iw wGc1) 128 64
    ∧ (issuingState me0 wGc1 up).waitOvf 0 (waitsOf (iw wGc1)) = false :=
  ⟨issues_of (by decide +kernel), by decide +kernel⟩

-- DescriptorInstructionsComplete

/-- FETCHAHEAD of the most lines. -/
def wAhead : Nat := word 9 [(0x10000, 128), (4096, 176)]
theorem witness_fetchahead : Issues me0 (iw wAhead) (issuingState me0 wAhead up) ∧ opOf (iw wAhead) = 9
    ∧ fld (iw wAhead) 128 48 % 256 = 0 ∧ 1 ≤ fld (iw wAhead) 176 13 ∧ fld (iw wAhead) 176 13 ≤ 4096
    ∧ (issuingState me0 wAhead up).codeRange 0 (fld (iw wAhead) 128 48) (256 * fld (iw wAhead) 176 13) = true :=
  ⟨issues_of (by decide +kernel), by decide +kernel⟩
/-- DSET of word 0 of descriptor 1 of the stream's own core. -/
def wDset : Nat := word 13 [(1, 128), (5, 192)]
theorem witness_dset : Issues me0 (iw wDset) (issuingState me0 wDset up) ∧ opOf (iw wDset) = 13
    ∧ handle14 0 ((issuingState me0 wDset up).stream 0) (iw wDset) (fld (iw wDset) 128 14) = some (0, 1)
    ∧ (0 < 512 → fld (iw wDset) 128 14 / 4096 = (0 / 4) % 4) :=
  ⟨issues_of (by decide +kernel), by decide +kernel⟩
def wDlive : Nat := word 14 [(1, 128), (0x20000, 144), (7, 192)]
def sDlive : State := issuingState me0 wDlive up
theorem witness_dlive : Issues me0 (iw wDlive) sDlive ∧ opOf (iw wDlive) = 14
    ∧ handle14 0 (sDlive.stream 0) (iw wDlive) (fld (iw wDlive) 128 14) = some (0, 1)
    ∧ (0 < 512 → fld (iw wDlive) 128 14 / 4096 = (0 / 4) % 4)
    ∧ (sDlive.afterWaits 0 (iw wDlive)).access ((sDlive.afterWaits 0 (iw wDlive)).partOf 0) (fld (iw wDlive) 144 48) 4 = .ok
    ∧ (sDlive.afterWaits 0 (iw wDlive)).poisoned (fld (iw wDlive) 144 48) 4 = false :=
  ⟨issues_of (by decide +kernel), by decide +kernel⟩

-- MatrixAndVectorInstructionsComplete: the matrix instructions

/-- Formats, shapes and devices all enabled; descriptors 1 and 2 the operands, 3 the output (FP32), 4 a map, 5 a CAB. -/
def meState (fmt : Nat) : State :=
  let panel := if fmt < 16 then 1024 else 0
  let d := withDesc 0 5 0 0x700000 32 1 32 1 (withDesc 0 4 0 0x600000 0x4000 4 0x4000 4
    (withDesc 0 3 1 0x500000 4096 2048 1024 16 (withDesc 0 2 fmt 0x300000 panel 1024 1024 16
      (withDesc 0 1 fmt 0x100000 panel 1024 1024 16 up))))
  d.setCfgW (coreCfg 0 + 0x100) 0xFFFFFFFFFFFFFFFF

/-- A matrix instruction of 16 rows, 8 columns and 32 K positions over the operands above. -/
def wMe (op : Nat) (l : List (Nat × Nat)) : Nat :=
  word op ([(1, 128), (2, 140), (3, 176), (16, 224), (8, 236), (32, 352), (4, 426)] ++ l)

/-- The hypotheses of `matrixCompletes` beside `Issues`. -/
abbrev MeMeets (sh : Shape) (w : IWord) (s u : State) (g : Nat) (cls : Cls) : Prop :=
  opOf w = shapeOp sh ∧ meFieldCauses sh s (s.stream 0) w = []
    ∧ u.unread 0 0 [(meF (issuing (s.stream 0)) w).a, (meF (issuing (s.stream 0)) w).b] = []
    ∧ pairFor sh (sparse24 sh w) (u.desc 0 (meF (issuing (s.stream 0)) w).a).fmt
        (u.desc 0 (meF (issuing (s.stream 0)) w).b).fmt = some (g, cls)
    ∧ u.meCauses 0 (u.meJob sh 0 (issuing (s.stream 0)) w g cls) w = []
    ∧ u.reach (u.partOf 0) (u.meAreas (u.meJob sh 0 (issuing (s.stream 0)) w g cls)) = .ok

def wMxw : Nat := wMe 0x20 []
def sMxw : State := issuingState me0 wMxw (meState 7)
theorem witness_mxw : Issues me0 (iw wMxw) sMxw
    ∧ MeMeets .mxw (iw wMxw) sMxw (sMxw.afterWaits 0 (iw wMxw)) 32 .fp8 :=
  ⟨issues_of (by decide +kernel), by decide +kernel⟩
def wMxo : Nat := wMe 0x21 [(32, 384)]
def sMxo : State := issuingState me0 wMxo (meState 23)
theorem witness_mxo : Issues me0 (iw wMxo) sMxo
    ∧ MeMeets .mxo (iw wMxo) sMxo (sMxo.afterWaits 0 (iw wMxo)) 32 .fp8 :=
  ⟨issues_of (by decide +kernel), by decide +kernel⟩
def wMxt : Nat := wMe 0x22 []
def sMxt : State := issuingState me0 wMxt (meState 7)
theorem witness_mxt : Issues me0 (iw wMxt) sMxt
    ∧ MeMeets .mxt (iw wMxt) sMxt (sMxt.afterWaits 0 (iw wMxt)) 32 .fp8 :=
  ⟨issues_of (by decide +kernel), by decide +kernel⟩
def wMxs : Nat := wMe 0x23 [(4, 152)]
def sMxs : State := issuingState me0 wMxs (meState 7)
theorem witness_mxs : Issues me0 (iw wMxs) sMxs
    ∧ MeMeets .mxs (iw wMxs) sMxs (sMxs.afterWaits 0 (iw wMxs)) 32 .fp8 :=
  ⟨issues_of (by decide +kernel), by decide +kernel⟩
/-- A convolution of 1 × 1 over one pixel of 1 channel, into 16 × 16. -/
def wMxc : Nat := wMe 0x24 [(5, 164)]
def sMxc : State := issuingState me0 wMxc ((meState 7).wrN 0x700000 32
  (word 1 [(1, 16), (1, 32), (1, 48), (1, 56), (1, 64), (1, 72), (1, 80), (1, 88), (16, 112), (16, 128)]))
theorem witness_mxc : Issues me0 (iw wMxc) sMxc
    ∧ MeMeets .mxc (iw wMxc) sMxc (sMxc.afterWaits 0 (iw wMxc)) 32 .fp8 :=
  ⟨issues_of (by decide +kernel), by decide +kernel⟩
def wMxd : Nat := wMe 0x25 []
def sMxd : State := issuingState me0 wMxd (meState 7)
theorem witness_mxd : Issues me0 (iw wMxd) sMxd
    ∧ MeMeets .mxd (iw wMxd) sMxd (sMxd.afterWaits 0 (iw wMxd)) 32 .fp8 :=
  ⟨issues_of (by decide +kernel), by decide +kernel⟩

-- MatrixAndVectorInstructionsComplete: the vector operations

/-- Descriptors 1 to 4 and 7: 2 × 4 FP32 tensors; 5 and 6: RAW of 32 and of 68 bytes. -/
def veState : State :=
  withDesc 0 7 1 0x700000 64 2 4 2 (withDesc 0 6 0 0x600000 68 1 68 1 (withDesc 0 5 0 0x500000 32 1 32 1
    (withDesc 0 4 1 0x400000 64 2 4 2 (withDesc 0 3 1 0x300000 64 2 4 2 (withDesc 0 2 1 0x200000 64 2 4 2
      (withDesc 0 1 1 0x100000 64 2 4 2 up))))))

/-- The hypotheses of `vectorCompletes` beside `Issues`, over the state after the waits and the job. -/
abbrev VeMeets (op : Nat) (first : StreamSt → IWord → List (Nat × Nat)) (w : IWord) (s u : State) (j : VeJob) : Prop :=
  opOf w = op ∧ veFieldCauses op s (s.stream 1) w = []
    ∧ u.reach (u.partOf 1) (first (issuing (s.stream 1)) w) = .ok ∧ u.unread 1 0 j.hs = [] ∧ j.causes = []
    ∧ u.anyPoison j.reads = false ∧ u.reach (u.partOf 1) (j.reads ++ j.writes) = .ok

/-- ADD of two tensors. -/
def wVsimple : Nat := word 0x40 [(1, 128), (2, 140), (4, 164)]
def sVsimple : State := issuingState ve0 wVsimple veState
theorem witness_vsimple : Issues ve0 (iw wVsimple) sVsimple
    ∧ VeMeets 0x40 noFirst (iw wVsimple) sVsimple (sVsimple.afterWaits 1 (iw wVsimple))
      (elemJob 0x40 1 (sVsimple.afterWaits 1 (iw wVsimple)) (issuing (sVsimple.stream 1)) (iw wVsimple)) :=
  ⟨issues_of (by decide +kernel), by decide +kernel⟩
/-- DIV. -/
def wVieee : Nat := word 0x41 [(1, 128), (2, 140), (4, 164), (1, 188)]
def sVieee : State := issuingState ve0 wVieee veState
theorem witness_vieee : Issues ve0 (iw wVieee) sVieee
    ∧ VeMeets 0x41 noFirst (iw wVieee) sVieee (sVieee.afterWaits 1 (iw wVieee))
      (elemJob 0x41 1 (sVieee.afterWaits 1 (iw wVieee)) (issuing (sVieee.stream 1)) (iw wVieee)) :=
  ⟨issues_of (by decide +kernel), by decide +kernel⟩
def wVexplog : Nat := word 0x42 [(1, 128), (4, 164)]
def sVexplog : State := issuingState ve0 wVexplog veState
theorem witness_vexplog : Issues ve0 (iw wVexplog) sVexplog
    ∧ VeMeets 0x42 noFirst (iw wVexplog) sVexplog (sVexplog.afterWaits 1 (iw wVexplog))
      (elemJob 0x42 1 (sVexplog.afterWaits 1 (iw wVexplog)) (issuing (sVexplog.stream 1)) (iw wVexplog)) :=
  ⟨issues_of (by decide +kernel), by decide +kernel⟩
def wVcomp : Nat := word 0x43 [(1, 128), (4, 164)]
def sVcomp : State := issuingState ve0 wVcomp veState
theorem witness_vcomp : Issues ve0 (iw wVcomp) sVcomp
    ∧ VeMeets 0x43 noFirst (iw wVcomp) sVcomp (sVcomp.afterWaits 1 (iw wVcomp))
      (elemJob 0x43 1 (sVcomp.afterWaits 1 (iw wVcomp)) (issuing (sVcomp.stream 1)) (iw wVcomp)) :=
  ⟨issues_of (by decide +kernel), by decide +kernel⟩
def wVcvt : Nat := word 0x44 [(1, 128), (4, 164)]
def sVcvt : State := issuingState ve0 wVcvt veState
theorem witness_vcvt : Issues ve0 (iw wVcvt) sVcvt
    ∧ VeMeets 0x44 noFirst (iw wVcvt) sVcvt (sVcvt.afterWaits 1 (iw wVcvt))
      (vcvtJob 1 (sVcvt.afterWaits 1 (iw wVcvt)) (issuing (sVcvt.stream 1)) (iw wVcvt)) :=
  ⟨issues_of (by decide +kernel), by decide +kernel⟩
def wVred : Nat := word 0x45 [(1, 128), (4, 164)]
def sVred : State := issuingState ve0 wVred veState
theorem witness_vred : Issues ve0 (iw wVred) sVred
    ∧ VeMeets 0x45 noFirst (iw wVred) sVred (sVred.afterWaits 1 (iw wVred))
      (vredJob 1 (sVred.afterWaits 1 (iw wVred)) (issuing (sVred.stream 1)) (iw wVred)) :=
  ⟨issues_of (by decide +kernel), by decide +kernel⟩
def wVsoftmax : Nat := word 0x46 [(1, 128), (4, 164)]
def sVsoftmax : State := issuingState ve0 wVsoftmax veState
theorem witness_vsoftmax : Issues ve0 (iw wVsoftmax) sVsoftmax
    ∧ VeMeets 0x46 noFirst (iw wVsoftmax) sVsoftmax (sVsoftmax.afterWaits 1 (iw wVsoftmax))
      (rowwiseJob 0x46 1 (sVsoftmax.afterWaits 1 (iw wVsoftmax)) (issuing (sVsoftmax.stream 1)) (iw wVsoftmax)) :=
  ⟨issues_of (by decide +kernel), by decide +kernel⟩
def wRmsnorm : Nat := word 0x47 [(1, 128), (2, 140), (4, 164)]
def sRmsnorm : State := issuingState ve0 wRmsnorm veState
theorem witness_rmsnorm : Issues ve0 (iw wRmsnorm) sRmsnorm
    ∧ VeMeets 0x47 noFirst (iw wRmsnorm) sRmsnorm (sRmsnorm.afterWaits 1 (iw wRmsnorm))
      (rowwiseJob 0x47 1 (sRmsnorm.afterWaits 1 (iw wRmsnorm)) (issuing (sRmsnorm.stream 1)) (iw wRmsnorm)) :=
  ⟨issues_of (by decide +kernel), by decide +kernel⟩
def wLayernorm : Nat := word 0x48 [(1, 128), (2, 140), (3, 152), (4, 164)]
def sLayernorm : State := issuingState ve0 wLayernorm veState
theorem witness_layernorm : Issues ve0 (iw wLayernorm) sLayernorm
    ∧ VeMeets 0x48 noFirst (iw wLayernorm) sLayernorm (sLayernorm.afterWaits 1 (iw wLayernorm))
      (rowwiseJob 0x48 1 (sLayernorm.afterWaits 1 (iw wLayernorm)) (issuing (sLayernorm.stream 1)) (iw wLayernorm)) :=
  ⟨issues_of (by decide +kernel), by decide +kernel⟩
/-- The best two of four scores, for two tokens. -/
def wVroute : Nat := word 0x49 [(1, 128), (5, 164), (2, 197)]
def sVroute : State := issuingState ve0 wVroute veState
theorem witness_vroute : Issues ve0 (iw wVroute) sVroute
    ∧ VeMeets 0x49 noFirst (iw wVroute) sVroute (sVroute.afterWaits 1 (iw wVroute))
      (vrouteJob 1 (sVroute.afterWaits 1 (iw wVroute)) (issuing (sVroute.stream 1)) (iw wVroute)) :=
  ⟨issues_of (by decide +kernel), by decide +kernel⟩
def wVexit : Nat := word 0x4A [(1, 128), (6, 164)]
def sVexit : State := issuingState ve0 wVexit veState
theorem witness_vexit : Issues ve0 (iw wVexit) sVexit
    ∧ VeMeets 0x4A noFirst (iw wVexit) sVexit (sVexit.afterWaits 1 (iw wVexit))
      (vexitJob 1 (sVexit.afterWaits 1 (iw wVexit)) (issuing (sVexit.stream 1)) (iw wVexit)) :=
  ⟨issues_of (by decide +kernel), by decide +kernel⟩
/-- The slot at the start of well 0, core 0 alone. -/
def wVsclose : Nat := word 0x4B [(0x010000000000, 288)]
def sVsclose : State := issuingState ve0 wVsclose veState
theorem witness_vsclose : Issues ve0 (iw wVsclose) sVsclose
    ∧ VeMeets 0x4B closeFirst (iw wVsclose) sVsclose (sVsclose.afterWaits 1 (iw wVsclose))
      (vscloseJob 1 (sVsclose.afterWaits 1 (iw wVsclose)) (issuing (sVsclose.stream 1)) (iw wVsclose)) :=
  ⟨issues_of (by decide +kernel), by decide +kernel⟩
/-- SGD with an all-zero parameter block, and no working copy. -/
def wVopt : Nat := word 0x4C [(1, 128), (2, 140), (3, 152), (0x800000, 288)]
def sVopt : State := issuingState ve0 wVopt veState
theorem witness_vopt : Issues ve0 (iw wVopt) sVopt
    ∧ VeMeets 0x4C optFirst (iw wVopt) sVopt (sVopt.afterWaits 1 (iw wVopt))
      (voptJob 1 (sVopt.afterWaits 1 (iw wVopt)) (issuing (sVopt.stream 1)) (iw wVopt)) :=
  ⟨issues_of (by decide +kernel), by decide +kernel⟩

end Sys2Proof.Tests
end

