-- ==== Sys2Proof/Tests/Fabric.lean ====
section
/-! SUPPORT. Witnesses for the statements about the fabric, its ports and time. -/

namespace Sys2Proof.Tests

set_option Elab.async false
open Sys2Proof.Machine

/-- Node 3, whose NATIVE port 0 is up with a lane to spare, with context 7 of partition 0 over that port; a region of
partition 0 with every right covers well 0. -/
def linked : State :=
  let s := (up.setCfgW (ioCfg 0) (BitVec.ofNat 64 (3 + 2 ^ 14))).setCfgW (portA 0) (BitVec.ofNat 64 (word 1 [(1, 3)]))
  let s := ((s.setCfgW (portA 0 + 8) 2).setCfgW (ctxA 7) (BitVec.ofNat 64 (word 1 [(16, 16), (1, 32)]))).setCfgW (ctxA 7 + 16) 1000
  s.setCfgW regionBase (BitVec.ofNat 64 (word 1 [(15, 4), (28, 8), (0x010000000000, 16)]))

/-- A frame from node 7 to node 3: operation, class, length, address and sequence number. -/
def frame (op cls len addr seq : Nat) (bytes : List Byte) : Frame :=
  ⟨BitVec.ofNat 384 (word cls [(op, 2), (7, 8), (3, 22), (len, 40), (addr, 64), (seq, 128)]), bytes⟩

def comesInBool (p op cls : Nat) (f : Frame) (s : State) : Bool :=
  s.portLive p && fOp f == op && fDst f == s.node && fClass f == cls && decide (fStatus f ≤ 5)
    && f.payload.length == (if op = 1 ∨ op = 4 then 0 else fLen f) && decide (fLen f ≤ 4096) && s.ctxValid (fSrc f)
    && s.ctxState (fSrc f) != 2 && !s.frozenFor f
theorem comes_in {p op cls : Nat} {f : Frame} {s : State} (h : comesInBool p op cls f s = true) : ComesIn p op cls f s := by
  simp only [comesInBool, Bool.and_eq_true, beq_iff_eq, decide_eq_true_eq, bne_iff_ne, Bool.not_eq_true'] at h
  obtain ⟨⟨⟨⟨⟨⟨⟨⟨⟨a, b⟩, c⟩, d⟩, e⟩, f⟩, g⟩, i⟩, j⟩, k⟩ := h
  exact ⟨a, b, c, d, e, f, g, i, j, k⟩
theorem at_home {p op : Nat} {f : Frame} {l : List (Nat × Nat)} {s : State} (h : comesInBool p op 3 f s = true)
    (h' : (s.takeArrived p f).homeAcc l = .ok ∧ (s.takeArrived p f).turn p f = .now) : AtHome p op f l s :=
  ⟨comes_in h, h'.1, h'.2⟩
def regionOk (c : RegionCheck) : Bool := match c with
  | .ok _ => true
  | .bad _ _ => false
theorem region_ok {c : RegionCheck} (h : regionOk c = true) : ∃ r, c = .ok r := by
  cases c with
  | ok r => exact ⟨r, rfl⟩
  | bad _ _ => cases h

-- HomeRequestsComplete

def well0 : Nat := 0x010000000000
def toHome (f : Frame) : State := linked.takeArrived 0 f
def fLoad : Frame := frame 1 3 64 well0 0 []
theorem witness_load : AtHome 0 1 fLoad [(fAddr fLoad, fLen fLoad)] linked ∧ fLen fLoad ≠ 0
    ∧ ∃ r, (toHome fLoad).checkRegion ((toHome fLoad).ctxPart 7) fLoad (fLen fLoad) (fun r => r.permR) = .ok r :=
  ⟨at_home (by decide +kernel) (by decide +kernel), by decide +kernel, region_ok (by decide +kernel)⟩
def fStore : Frame := frame 2 3 8 well0 0 (natLe 8 5)
theorem witness_store : AtHome 0 2 fStore [(fAddr fStore, fLen fStore)] linked ∧ fLen fStore ≠ 0
    ∧ ∃ r, (toHome fStore).checkRegion ((toHome fStore).ctxPart 7) fStore (fLen fStore) (fun r => r.permW) = .ok r :=
  ⟨at_home (by decide +kernel) (by decide +kernel), by decide +kernel, region_ok (by decide +kernel)⟩
def fAtomic : Frame := frame 3 3 16 well0 0 (natLe 16 5)
theorem witness_atomic : AtHome 0 3 fAtomic [(fAddr fAtomic, aopWidth (fAop fAtomic))] linked ∧ aopBad fAtomic = false
    ∧ ∃ r, (toHome fAtomic).checkRegion ((toHome fAtomic).ctxPart 7) fAtomic (fLen fAtomic) (fun r => r.permA) = .ok r :=
  ⟨at_home (by decide +kernel) (by decide +kernel), by decide +kernel, region_ok (by decide +kernel)⟩
def fFill : Frame := frame 4 3 256 well0 0 []
theorem witness_fill : AtHome 0 4 fFill [(fAddr fFill / 256 * 256, 256)] linked
    ∧ ∃ r, (toHome fFill).checkRegion ((toHome fFill).ctxPart 7) fFill 1 (fun r => r.permR) = .ok r :=
  ⟨at_home (by decide +kernel) (by decide +kernel), region_ok (by decide +kernel)⟩
def fEvict : Frame := frame 5 3 0 well0 0 []
theorem witness_evict : AtHome 0 5 fEvict [] linked := at_home (by decide +kernel) (by decide +kernel)

/-- A line of node 7 held in way 0 of its set of a far cache of 1 MiB. -/
def line7 : FcLine := ⟨7, 0, 0, false, false, 0, [], 0, []⟩
def farCaching : State :=
  let s := linked.setCfgF (ioCfg 0 + 0x18) 48 7 1
  s.setFc (8 * s.fcSet 7 0) (some line7)
def fInval : Frame := frame 6 3 0 0 0 []
theorem witness_inval : AtHome 0 6 fInval [] farCaching
    ∧ (farCaching.takeArrived 0 fInval).fcFind 7 0 = some (8 * farCaching.fcSet 7 0, line7) :=
  ⟨at_home (by decide +kernel) (by decide +kernel), by decide +kernel⟩

-- FabricAnswersComplete

/-- Request 0 to node 7 over port 0 is outstanding. -/
def req (use : ReqUse) : Req := ⟨7, 0, 0, frame 1 3 0 well0 0 [], use, 49000000, 0, []⟩
def asking (use : ReqUse) : State := { linked with net := { linked.net with reqs := [req use] } }
def xe0Load : ReqUse := .load 512 0x40000
def fAnswer (op len : Nat) : Frame := frame op 2 len 0 0 (natLe len 9)
def AnswersReq (op len : Nat) (use : ReqUse) : Prop :=
  Answers 0 op (fAnswer op len) (req use) (asking use) ∧ (req use).use = use
theorem answers_req {op len : Nat} {use : ReqUse} (h : comesInBool 0 op 2 (fAnswer op len) (asking use) = true)
    (h' : ((asking use).takeArrived 0 (fAnswer op len)).reqOf 0 (fAnswer op len) = some (req use)
      ∧ fStatus (fAnswer op len) = 0) : AnswersReq op len use := ⟨⟨comes_in h, h'.1, h'.2⟩, rfl⟩

theorem witness_loadData : AnswersReq 0x21 64 (.load 512 0x40000) := answers_req (by decide +kernel) (by decide +kernel)
theorem witness_storeAck : AnswersReq 0x22 0 (.store 512) := answers_req (by decide +kernel) (by decide +kernel)
theorem witness_atomicData : AnswersReq 0x23 8 (.atomic 512 0x40000) := answers_req (by decide +kernel) (by decide +kernel)
theorem witness_fillData : AnswersReq 0x24 256 .fill ∧ (asking .fill).reqOf 0 (fAnswer 0x24 256) = some (req .fill) :=
  ⟨answers_req (by decide +kernel) (by decide +kernel), by decide +kernel⟩
theorem witness_invalAck : AnswersReq 0x26 0 (.inval 1) := answers_req (by decide +kernel) (by decide +kernel)
theorem witness_resync : ComesIn 0 0x2F 2 (fAnswer 0x2F 0) linked := comes_in (by decide +kernel)
theorem witness_requestTimeout : (asking .fill).ctxState 7 = 0 ∧ req .fill ∈ (asking .fill).reqsOf 7 ∧ (req .fill).port = 0
    ∧ (req .fill).sentAt + (asking .fill).cfgF (ctxA 7 + 16) 0 32 ≤ (asking .fill).gc := by decide +kernel
def suspecting : State := (asking .fill).setCfgF (ctxA 7) 8 3 1
theorem witness_suspectResend : suspecting.ctxState 7 = 1 ∧ suspecting.reqsOf 7 = [req .fill] ∧ suspecting.usable 7 = [0]
    ∧ (req .fill).sentAt + 65536 ≤ suspecting.gc := by decide +kernel

-- FarLoadsComplete

abbrev FarReady (s : State) : Prop :=
  512 ≤ streamIx xe0 ∧ s.power (s.engDom 512) = .on ∧ s.frozenDie (ixDie 512) = false ∧ s.ctxState 7 = 0 ∧ s.ctxValid 7 = true
    ∧ some (Fin.ofNat 8 (s.ctxPart 7)) = s.partOf 512 ∧ s.noPort 7 = false ∧ s.access (s.partOf 512) 0x40000 64 = .ok
theorem witness_farLoad : FarReady linked ∧ linked.cfgF (ctxA 7) 6 1 = 0
    ∧ ∃ t, linked.issueReq 1 7 0 64 [] (.load 512 0x40000) = some t :=
  ⟨by decide +kernel, by decide +kernel, Option.isSome_iff_exists.1 (by decide +kernel)⟩
def cacheable : State := farCaching.setCfgF (ctxA 7) 6 1 1
theorem witness_farCacheLoad : FarReady cacheable ∧ cacheable.cfgF (ctxA 7) 6 1 = 1 ∧ cacheable.fcSets ≠ 0
    ∧ ∃ t, cacheable.fcLoad 7 0 64 512 0x40000 = some t :=
  ⟨by decide +kernel, by decide +kernel, by decide +kernel, Option.isSome_iff_exists.1 (by decide +kernel)⟩

-- LinkUnitsComplete and LinkEventsComplete

theorem witness_native : linked.native 0 = true := by decide +kernel
theorem witness_dataUnit : unitCrc 0 [1] = unitCrc 0 [1] ∧ fld (0 : W64) 0 2 = 0 ∧ fld (0 : W64) 8 16 = (linked.lnk 0).rxLsn := by
  decide +kernel
def sent0 : State := linked.setLnk 0 { linkReset with store := [(0, 0, [1])] }
theorem witness_unitAck : sent0.native 0 = true
    ∧ ((sent0.lnk 0).store.findIdx fun u => u.1 == (0 : W16).toNat) < (sent0.lnk 0).store.length := by decide +kernel
theorem witness_credit : linked.portSpan 0 = false := by decide +kernel
theorem witness_linkAckTimer : (linked.lnk 0).ackAt + 256 ≤ linked.gc := by decide +kernel
theorem witness_spare : linked.spareFree 0 = true := by decide +kernel
theorem witness_spareSwitch : ((linked.armSpare 0 1 49999999).lnk 0).spare = some (1, 49999999)
    ∧ 49999999 ≤ (linked.armSpare 0 1 49999999).gc := by decide +kernel
theorem witness_laneFailure : linked.linkUp 0 = true ∧ linked.spareFree 0 = true := by decide +kernel
theorem witness_portDown : (linked.armSpare 0 1 49999999).linkUp 0 = true
    ∧ (linked.armSpare 0 1 49999999).spareFree 0 = false := by decide +kernel
def training : State := linked.setCfgW (portA 0 + 8) 1
theorem witness_linkTraining : training.canTrain 0 = true ∧ training.portMode 0 = 1
    ∧ (training.nodeAssigned && 7 == training.node) = false := by decide +kernel
theorem witness_d2dLinkFailure : linked.net.d2dLost.contains (unitKey (.compute 0), 0) = false
    ∧ tget (fun _ => 0) linked.net.d2dUsed ((unitKey (.compute 0) * 6 + 0) * 16 + 0)
      + (linked.net.d2d.filter fun x => x.1 == unitKey (.compute 0) && x.2.1 == 0 && x.2.2.1 == 0).length < 4 := by decide +kernel
theorem witness_alarm : ComesIn 0 0x0C 0 (frame 0x0C 0 24 0 0 (natLe 24 0)) linked := comes_in (by decide +kernel)

-- TimeMessagesComplete

/-- Port 0 is a port of role r, by PTP in ETH mode or by beacons. -/
def timing (role : Nat) (ptp : Bool) : State :=
  let s := if ptp then linked.setCfgF (portA 0) 0 2 2 else linked
  s.setCfgF (timeA 0) 0 3 (role + if ptp then 4 else 0)
def fBeacon : Frame := frame 9 1 32 0 0 (natLe 32 (word 0 [(2, 80)]))
theorem witness_beacon : ComesIn 0 9 1 fBeacon (timing 1 false) ∧ fLen fBeacon = 32 ∧ (timing 1 false).beaconPort 0 1 = true
    ∧ bitsAt (leNat fBeacon.payload) 80 3 = 2 ∧ bitsAt (leNat fBeacon.payload) 112 14 = (timing 1 false).time.root :=
  ⟨comes_in (by decide +kernel), by decide +kernel⟩
theorem witness_beaconSend : (timing 2 false).beaconPort 0 2 = true ∧ (timing 2 false).nodeAssigned = true
    ∧ (timing 2 false).sendDue 0 16384 = true := by decide +kernel
theorem witness_ptpSync : (timing 1 true).ptpPort 0 1 = true := by decide +kernel
def halfSync : PtpSt := ⟨5, none, 0, none⟩
theorem witness_ptpFollowUp : ((timing 1 true).setPtp 0 (some halfSync)).ptpPort 0 1 = true
    ∧ ((timing 1 true).setPtp 0 (some halfSync)).ptp 0 = some halfSync ∧ halfSync.t1 = none := by decide +kernel
theorem witness_ptpDelayResp : ((timing 1 true).setPtp 0 (some ⟨5, some 1, 2, some 3⟩)).ptpPort 0 1 = true
    ∧ ((timing 1 true).setPtp 0 (some ⟨5, some 1, 2, some 3⟩)).ptp 0 = some ⟨5, some 1, 2, some 3⟩ := by decide +kernel
theorem witness_ptpServe : (timing 2 true).ptpPort 0 2 = true ∧ (timing 2 true).sendDue 0 244141 = true := by decide +kernel

def locked : State := linked.setCfgW (hwReg 0x2008) 2
theorem witness_sourceTimeout : locked.gcSrc ≠ 63 ∧ locked.heardAt locked.gcSrc + 2 ^ 20 ≤ locked.gc ∧ locked.gcState = 2
    ∧ ∀ p ∈ locked.time.sources, locked.heardAt p + 2 ^ 20 ≤ locked.gc := by decide +kernel
def holdover : State := linked.setCfgW (hwReg 0x2008) 3
theorem witness_errEstGrowth : holdover.gcState = 3 ∧ holdover.time.growAt + 16384 ≤ holdover.gc := by decide +kernel
theorem witness_countBeaconSend : up.mgmt.supply = true ∧ up.time.beaconAt + 256 ≤ up.gc := by decide +kernel
theorem witness_countBeaconReceive :
    ({ up with time := { up.time with owing := [0] } }).time.owing.contains (unitKey (.compute 0)) = true := by decide +kernel

-- PartitionFramesComplete

def peered : PartSt := { PartSt.init with
  state := 5, lc := 49000000, opened := some 49000000, tag := 5
  job := some ⟨120, [0x2000], [], none, [[], [7]], 0, 0, 0, 0, [], [], 0, 0, 0, [], [], [], 2, [], []⟩ }
/-- Window 0 has meeting set 1. -/
def peering : State := (linked.wrN (0x2000 + 24) 2 1).setPart 0 peered
def fLate : Frame := frame 0x0A 1 24 0 0 (natLe 24 (word 0 [(5, 64)]))
theorem witness_late : ComesIn 0 0x0A 1 fLate peering ∧ fLen fLate = 24
    ∧ BitVec.ofNat 64 (bitsAt (leNat fLate.payload) 64 64) = peered.tag
    ∧ (peering.takeArrived 0 fLate).part ((peering.takeArrived 0 fLate).ctxPart (fSrc fLate)) = peered
    ∧ (peering.takeArrived 0 fLate).hasJob 0 = true ∧ (peering.takeArrived 0 fLate).meetSet peered 0 = 1
    ∧ peered.peers.any (fun x => x.1 == 0) = false :=
  ⟨comes_in (by decide +kernel), by decide +kernel⟩
def fTeardown : Frame := frame 0x0B 0 8 0 0 (natLe 8 5)
theorem witness_teardownFrame : ComesIn 0 0x0B 0 fTeardown peering ∧ fLen fTeardown = 8
    ∧ peered.tag = BitVec.ofNat 64 (leNat fTeardown.payload) ∧ [4, 5, 6, 7].contains peered.state = true
    ∧ peered.tornDown = false :=
  ⟨comes_in (by decide +kernel), by decide +kernel⟩

end Sys2Proof.Tests
end

