-- ==== Sys2Proof/Tests/Heartwood.lean ====
section
/-! SUPPORT. Witnesses for the statements about heartwood, the I3C ports, records, memory dies, power and protection. -/

namespace Sys2Proof.Tests

set_option Elab.async false
open Sys2Proof.Machine

-- HeartwoodEventsComplete

def withMgmt (f : MgmtSt → MgmtSt) (s : State) : State := { s with mgmt := f s.mgmt }
theorem witness_heartbeatSend : up.hwAlive up.mgmt.active = true ∧ up.mgmt.lastBeat + 256 ≤ up.gc := by decide +kernel
theorem witness_heartbeatTimeout : up.mgmt.standbyOk = true ∧ up.mgmt.supply = true ∧ up.mgmt.booted = true
    ∧ up.mgmt.takeover = none ∧ up.mgmt.lastBeat + 1280 ≤ up.gc := by decide +kernel
def takingOver : State := withMgmt (fun m => { m with takeover := some 49996220 }) up
theorem witness_takeoverComplete : takingOver.mgmt.takeover = some 49996220 ∧ 49996220 + 3780 ≤ takingOver.gc := by decide +kernel
theorem witness_mirrorRecord : up.mgmt.standbyOk = true ∧ up.lysbyUp = true := by decide +kernel
def mirroring (t : Nat) : State := withMgmt (fun m => { m with mirror := [t] }) up
theorem witness_mirrorAck : (mirroring 49999960).mgmt.mirror = [49999960] ∧ (mirroring 49999960).gc ≤ 49999960 + 40 := by
  decide +kernel
theorem witness_standbyFailure : (mirroring 49999959).mgmt.standbyOk = true ∧ (mirroring 49999959).lysbyUp = true
    ∧ (1 : Fin 4).val ≠ 0 ∧ ∃ t ∈ (mirroring 49999959).mgmt.mirror, t + 40 < (mirroring 49999959).gc := by decide +kernel
def alone : State := withMgmt (fun m => { m with standbyOk := false }) up
theorem witness_heartwoodSilence : alone.mgmt.supply = true ∧ alone.mgmt.booted = true ∧ alone.mgmt.standbyOk = false
    ∧ alone.mgmt.lastBeat + 1280 ≤ alone.gc := by decide +kernel

-- I3cTransfersComplete

def onI3c : State := withMgmt (fun m => { m with i3c := [{ i3cReset with addr := some 9 }, { i3cReset with addr := some 10 }], ibi := [3] }) up
theorem witness_entdaa : up.hwAlive 0 = true ∧ (up.i3c 0).addr = none ∧ ∀ o ∈ ([] : List Nat), up.i3cPid 0 < o :=
  ⟨by decide +kernel, by decide +kernel, by simp⟩
theorem witness_i3cAddressed : onI3c.hwAlive 0 = true ∧ (onI3c.i3c 0).addr.isSome = true
    ∧ 2 ≤ (([0, 1, 2] : List Byte).take (onI3c.i3c 0).mwl).length := by decide +kernel
theorem witness_i3cStandbyRead : onI3c.hwAlive 1 = true ∧ (onI3c.i3c 1).addr.isSome = true ∧ 1 ≠ onI3c.mgmt.active
    ∧ (onI3c.i3c 1).off + min 8 (onI3c.i3c 1).mrl ≤ 0x1000 := by decide +kernel
theorem witness_ibiRetry : 0 = onI3c.mgmt.active ∧ onI3c.mgmt.ibi = [3] ∧ onI3c.ibiReady = true := by decide +kernel

-- RecordsComplete

def anEvent : ErrEvent := mkErr 1 3 0 0 0x0208
def reporting : State := { up with log := { up.log with raised := [anEvent] } }
def waitingEvent : FifoEnt := ⟨anEvent, false, 1, 0, 0⟩
theorem witness_errorEvent : reporting.log.raised = [anEvent] := by decide +kernel
def recording : State := { up with log := { up.log with fifo := [waitingEvent], lastWrite := some 49999960 } }
theorem witness_recordWrite : recording.log.fifo = [waitingEvent] ∧ recording.recordDue = true := by decide +kernel
def appending : State := { up with log := { up.log with flashDue := [(1, 49999999)] } }
theorem witness_flashAppend : appending.log.flashDue = [(1, 49999999)]
    ∧ (∀ x ∈ appending.log.flashDue, appending.gc < x.2 + 10 * oneSecond)
    ∧ (appending.log.appends.filter fun t => appending.gc < t + oneSecond).length < 64 ∧ appending.log.flash.length < 16384 := by
  decide +kernel

-- MemoryServiceCompletes

theorem witness_hbmTempSample : up.retired 11 = false ∧ up.power (memKey 11) ≠ .off := by decide +kernel
def warming : State := { up with svc := { up.svc with bandDue := tput (fun _ => none) up.svc.bandDue 0 (some (1, 49000000)) } }
theorem witness_bandChange : warming.retired 0 = false ∧ tget (fun _ => none) warming.svc.bandDue 0 = some (1, 49000000) := by
  decide +kernel
theorem witness_hbmScrub : up.retired 0 = false ∧ up.power (memKey 0) = .on ∧ cnt up.svc.hbmTick 0 + 2 ^ 20 ≤ up.gc := by
  decide +kernel
theorem witness_sramScrub : up.power (up.sramDom (sramUnit (.coreStore 127))) = .on
    ∧ cnt up.svc.sramTick (sramUnit (.coreStore 127)) + 2 ^ 16 ≤ up.gc := by decide +kernel
theorem witness_stackRetirement : (4 : Fin 6).val ≠ 0 ∧ (4 : Fin 6).val ≠ 5 := by decide
theorem witness_tgenStart : up.tgenMay 0 = true ∧ up.cfgF (tgA 0 63 + 0x30) 0 1 = 0 := by decide +kernel
def generating : State := (up.setCfgW (tgA 0 63 + 0x30) 1).setTgen 0 63 { tgenReset with stopping := true }
theorem witness_tgenStop : generating.retired 0 = false ∧ generating.cfgF (tgA 0 63 + 0x30) 0 1 = 1 := by decide +kernel
theorem witness_tgenRunEnd : (generating.tgen 0 63).stopping = true := by decide +kernel

-- PowerEventsComplete

def coming : State := up.setDom 283 ⟨.off, some .on, 0, false⟩
theorem witness_domainTransitionDone : (coming.dom (domKey (.hostPort 1))).going.isSome = true := by decide +kernel
def idling : State := { up with gc := oneSecond }
theorem witness_packageSleep : idling.mgmt.devState = 2 ∧ idling.mgmt.asleep = false ∧ idling.allIdle = true
    ∧ idling.mgmt.lastWork + oneSecond ≤ idling.gc := by decide +kernel
theorem witness_sensorSample : (5 : Fin 6).val < sensorsOf (unitKey (.compute 33)) := by decide +kernel
theorem witness_energySlot : 2500 * (19998 + 1) + 100 ≤ up.gc := by decide +kernel

-- ProtectionsComplete

/-- Stack 0 reads 105 °C, and the device stands on rung 1 of the average limiter. -/
def hot : State := (up.setCfgF (stackA 0) 8 8 110).setCfgF (hwReg 0x3000) 34 5 1
theorem witness_thermalClamp : 420 ≤ (hot.thermalTop (thermalKey (.stack 0))).1
    ∧ hot.pw.clamps.contains (thermalKey (.stack 0)) = false
    ∧ (thermalKey (.stack 0) < 50 ∨ 52 ≤ thermalKey (.stack 0)) := by decide +kernel
def clamped : State := { up with pw := { up.pw with clamps := [52] } }
theorem witness_thermalClampRelease : clamped.pw.clamps.contains (thermalKey (.stack 0)) = true
    ∧ clamped.cooled (thermalKey (.stack 0)) = true := by decide +kernel
theorem witness_currentLimit : up.currClamp = false ∧ up.currLimit ≤ 1750 := by decide +kernel
theorem witness_currentLimitRelease : (up.setCfgF (hwReg 0x3000) 33 1 1).currClamp = true := by decide +kernel
theorem witness_avgLimit : 102 * up.envUnder up.pw.cap < 100000 * 100 ∧ up.avgRung < up.rungs ∧ up.avgRung = 0 := by
  decide +kernel
theorem witness_avgLimitRelease : hot.avgRung ≠ 0 ∧ 0 * 100 < 95 * hot.envUnder hot.pw.cap
    ∧ hot.pw.rungAt + 2500 ≤ hot.gc := by decide +kernel
theorem witness_regOvercurrent : outputDom (unitKey (.io 2)) 20 = some 283 ∧ up.power 283 ≠ .off := by decide +kernel
theorem witness_thermalTrip : (if 52 ≤ thermalKey (.stack 0) then 440 else 460) ≤ (hot.thermalTop (thermalKey (.stack 0))).1
    ∧ hot.cfgF (hwReg 0x3000) 39 1 = 0 := by decide +kernel

-- SupplyEventsComplete

def dark : State := withMgmt (fun m => { m with supply := false }) up
theorem witness_supplyUp : dark.mgmt.supply = false := by decide +kernel
theorem witness_supplyLost : up.mgmt.supply = true := by decide +kernel
def image (v : Bool) (n : Nat) : FwImage := ⟨v, n, 0, []⟩
def booting (l : List FwImage) : State :=
  withMgmt (fun m => { m with images := l, booted := false, supply := true, validImage := true }) State.reset
def fused (s : State) : State := withMgmt (fun m => { m with active := m.firstActive, deadHw := m.hwFused }) s
theorem witness_boot : (booting [image true 1, image true 2]).mgmt.supply = true
    ∧ (booting [image true 1, image true 2]).mgmt.booted = false ∧ (booting [image true 1, image true 2]).mgmt.validImage = true
    ∧ (fused (booting [image true 1, image true 2])).mgmt.bootImage = some (1, image true 2) := by decide +kernel
theorem witness_bootFails : (booting [image false 1, image false 2]).mgmt.validImage = true
    ∧ (fused (booting [image false 1, image false 2])).mgmt.bootImage = none := by decide +kernel
theorem witness_mainGoodSet : State.reset.mgmt.supply = true ∧ State.reset.mgmt.mainGood = false := by decide +kernel
theorem witness_mainGoodClear : up.mgmt.supply = true ∧ up.mgmt.mainGood = true := by decide +kernel
theorem witness_refclkLost : up.mgmt.supply = true ∧ up.mgmt.booted = true ∧ ((-51 : Int) < -50 ∧ (50 : Int) < 51) := by
  decide +kernel
theorem witness_perstAssert : up.mgmt.perst.contains 1 = false := by decide +kernel
theorem witness_perstDeassert : (withMgmt (fun m => { m with perst := [1] }) up).mgmt.perst.contains 1 = true := by decide +kernel

-- WearAndGraftComplete

theorem witness_ageingSample : up.mgmt.supply = true ∧ up.mgmt.booted = true ∧ ∀ t, up.mgmt.aged = some t → t + 2 ^ 38 ≤ up.gc := by
  have h : up.mgmt.aged = none := by decide +kernel
  exact ⟨by decide +kernel, by decide +kernel, fun t e => by rw [h] at e; cases e⟩
def graft (phase : Nat) : Graft := ⟨0, 0, 32, 0, phase, 0, 49000000, 49500000, 49600000⟩
def grafting (phase : Nat) : State := (inPart0 { openJob with state := 3 }).setGrafts [graft phase]
theorem witness_graftFinalCopy : (grafting 3).graftOf 0 = some (graft 3) ∧ (grafting 3).faulted = false
    ∧ (grafting 3).copyMay (graft 3) = true := by decide +kernel
theorem witness_graftMapSwitch : (grafting 4).graftOf 0 = some (graft 4) ∧ (grafting 4).faulted = false
    ∧ (graft 4).agreed ≠ 0 ∧ (graft 4).agreed ≤ (grafting 4).gc := by decide +kernel
theorem witness_graftForwardEnd : (grafting 5).graftOf 0 = some (graft 5) ∧ (graft 5).until_ ≤ (grafting 5).gc := by
  decide +kernel

end Sys2Proof.Tests
end

