-- ==== Sys2Proof/Tests/Moves.lean ====
section
/-! SUPPORT. Witnesses for the statements about the move engines, count events, instruction lines and the buffer pool. -/

namespace Sys2Proof.Tests

set_option Elab.async false
open Sys2Proof.Machine

-- MoveChainsComplete

def wMove : Nat := word 0x80 [(3, 128), (0x11000, 132), (2, 180)]
def sMove : State := issuingState mv0 wMove up
theorem witness_move : Issues mv0 (iw wMove) sMove ∧ opOf (iw wMove) = 0x80 ∧ fld (iw wMove) 180 16 ≠ 0
    ∧ fld (iw wMove) 132 48 % 64 = 0
    ∧ ((sMove.afterWaits 2 (iw wMove)).chan (2 / 4) (moveChan 2 (iw wMove))).queue.length < 8 :=
  ⟨issues_of (by decide +kernel), by decide +kernel⟩

/-- A descriptor under way on channel 31 of core 5, with n row groups to go. -/
def running (n : Nat) : State := up.setChan 5 31 ⟨[], (0, 0), some ⟨coreBase 5, 0, n, 0, 0, 0⟩⟩
theorem witness_descriptorDone : ((running 0).chan 5 31).running = some ⟨coreBase 5, 0, 0, 0, 0, 0⟩
    ∧ (running 0).chanStopped 5 31 = false ∧ (running 0).frozenDie (5 / 4) = false ∧ (running 0).power ((running 0).coreKey 5) = .on := by
  decide +kernel
theorem witness_tileGroupDone : ((running 1).chan 5 31).running = some ⟨coreBase 5, 0, 1, 0, 0, 0⟩
    ∧ (running 1).chanStopped 5 31 = false ∧ (running 1).frozenDie (5 / 4) = false ∧ (running 1).power ((running 1).coreKey 5) = .on := by
  decide +kernel

-- MoveOperationsComplete

/-- Channel 3 of core 0 with one descriptor waiting, over tensors 1 and 2 (2 × 4 FP32). -/
def moving (w : Nat) : State :=
  let s := (withDesc 0 2 1 0x200000 64 2 4 2 (withDesc 0 1 1 0x100000 64 2 4 2 up)).wrN (coreBase 0) 64 w
  s.setChan 0 3 ⟨[(coreBase 0, 1)], (0, 0), none⟩
/-- The channel's state once the descriptor is its head. -/
def headed : ChanSt := ⟨[], (coreBase 0, 1), none⟩
def taken (w : Nat) : State := (moving w).chanTake 0 3 (coreBase 0) headed

def movedOk : Moved → Bool
  | .ok _ _ _ _ => true
  | _ => false
theorem moved_ok {m : Moved} (h : movedOk m = true) : ∃ u a b c, m = .ok u a b c := by
  cases m with
  | ok u a b c => exact ⟨u, a, b, c, rfl⟩
  | bad _ _ _ _ _ => cases h
  | asleep _ => cases h

/-- The hypotheses of `moveCompletes` but for the effect. -/
abbrev MoveMeets (op w : Nat) (j : MoveJob) : Prop :=
  (moving w).chanReady 0 3 = true ∧ ((moving w).chan 0 3).head = some (coreBase 0, 1, headed)
    ∧ chainOk 0 (coreBase 0) 1 = true ∧ (moving w).poisoned (coreBase 0) 64 = false
    ∧ BitVec.ofNat 512 ((moving w).rdN (coreBase 0) 64) = iw w ∧ mDescBad (iw w) = false ∧ mOp (iw w) = op
    ∧ j.stop.isNone = true ∧ j.way 0 ((moving w).partOf 2) (taken w) = .ok
    ∧ (j.poisonStops && (taken w).anyPoison j.reads) = false

/-- COPY of one row of 16 bytes. -/
def wCopy : Nat := word 0 [(0x300000, 64), (0x400000, 128), (16, 192), (1, 224), (1, 240)]
def jCopy : MoveJob := moveJob 2 0 ((moving wCopy).partOf 2) (iw wCopy) (taken wCopy)
theorem witness_moveCopy : MoveMeets 0 wCopy jCopy ∧ ∃ u a b c, jCopy.effect () = .ok u a b c :=
  ⟨by decide +kernel, moved_ok (by decide +kernel)⟩

/-- FILL. -/
def wFill : Nat := word 1 [(0x400000, 128), (16, 192), (1, 224), (1, 240)]
def jFill : MoveJob := moveJob 2 0 ((moving wFill).partOf 2) (iw wFill) (taken wFill)
theorem witness_moveFill : MoveMeets 1 wFill jFill ∧ ∃ u a b c, jFill.effect () = .ok u a b c :=
  ⟨by decide +kernel, moved_ok (by decide +kernel)⟩

/-- COMPARE. -/
def wCompare : Nat := word 2 [(0x300000, 64), (0x400000, 128), (16, 192), (1, 224), (1, 240)]
def jCompare : MoveJob := moveJob 2 0 ((moving wCompare).partOf 2) (iw wCompare) (taken wCompare)
theorem witness_moveCompare : MoveMeets 2 wCompare jCompare ∧ ∃ u a b c, jCompare.effect () = .ok u a b c :=
  ⟨by decide +kernel, moved_ok (by decide +kernel)⟩

/-- CONVERT of two rows. -/
def wConvert : Nat := word 3 [(1, 64), (2, 76), (4, 192), (2, 224), (1, 240)]
def jConvert : MoveJob := moveJob 2 0 ((moving wConvert).partOf 2) (iw wConvert) (taken wConvert)
theorem witness_moveConvert : MoveMeets 3 wConvert jConvert ∧ ∃ u a b c, jConvert.effect () = .ok u a b c :=
  ⟨by decide +kernel, moved_ok (by decide +kernel)⟩

/-- RELAYOUT of two rows. -/
def wRelayout : Nat := word 4 [(1, 64), (2, 76), (4, 192), (2, 224), (1, 240)]
def jRelayout : MoveJob := moveJob 2 0 ((moving wRelayout).partOf 2) (iw wRelayout) (taken wRelayout)
theorem witness_moveRelayout : MoveMeets 4 wRelayout jRelayout ∧ ∃ u a b c, jRelayout.effect () = .ok u a b c :=
  ⟨by decide +kernel, moved_ok (by decide +kernel)⟩

/-- GATHER_MAP of one entry that names no row. -/
def wGather : Nat := word 5 [(0x300000, 64), (0x400000, 128), (16, 192), (1, 224), (1, 240)]
def jGather : MoveJob := moveJob 2 0 ((moving wGather).partOf 2) (iw wGather) (taken wGather)
theorem witness_moveGather : MoveMeets 5 wGather jGather ∧ ∃ u a b c, jGather.effect () = .ok u a b c :=
  ⟨by decide +kernel, moved_ok (by decide +kernel)⟩

-- CountEventsAndLineFillsComplete

/-- An event of stream ME of core 0 to tally 1023 of core 1 is under way. -/
def ev : CountEvent := ⟨0, 1, 1023, 1, 0, 0, some 0⟩
def sent (b : Bank) : State := ({ up with eng := { up.eng with events := [ev] } } : State).setBank 1 b
theorem witness_countEvent_applied : (sent ⟨3, []⟩).eng.events[0]? = some ev
    ∧ ((sent ⟨3, []⟩).eng.events.take 0).any (sameLane ev) = false
    ∧ (sent ⟨3, []⟩).power ((sent ⟨3, []⟩).coreKey (4 * ev.die + ev.pos)) = .on
    ∧ (sent ⟨3, []⟩).frozenDie ev.die = false
    ∧ (((sent ⟨3, []⟩).sleepTouch 1).bank 1).applied < 4 ∧ (((sent ⟨3, []⟩).sleepTouch 1).bank 1).fifo = [] := by
  decide +kernel
theorem witness_countEvent_queued : (sent ⟨4, []⟩).eng.events[0]? = some ev
    ∧ ((sent ⟨4, []⟩).eng.events.take 0).any (sameLane ev) = false
    ∧ (sent ⟨4, []⟩).power ((sent ⟨4, []⟩).coreKey (4 * ev.die + ev.pos)) = .on
    ∧ (sent ⟨4, []⟩).frozenDie ev.die = false
    ∧ 4 ≤ (((sent ⟨4, []⟩).sleepTouch 1).bank 1).applied ∧ (((sent ⟨4, []⟩).sleepTouch 1).bank 1).fifo.length < 64 := by
  decide +kernel
theorem witness_tallyFifo : ((sent ⟨4, [ev]⟩).bank 1).fifo ≠ [] ∧ (sent ⟨4, [ev]⟩).power ((sent ⟨4, [ev]⟩).coreKey 1) = .on
    ∧ (sent ⟨4, [ev]⟩).frozenDie (1 / 4) = false := by
  decide +kernel

/-- Accesses held for domains that are ON: a stream's, an event, and a host write. -/
def hostWrite : HostAccess := ⟨.vf 0, 0x2000, 4, some (natLe 4 7)⟩
def holding : State :=
  { up with eng := { up.eng with held := [⟨some 0, none, 222, none⟩, ⟨none, some ev, 1, none⟩, ⟨none, none, 222, some hostWrite⟩] } }
theorem witness_held_stream : holding.eng.held[0]? = some ⟨some 0, none, 222, none⟩ ∧ holding.power 222 = .on := by decide +kernel
theorem witness_held_host : holding.eng.held[2]? = some ⟨none, none, 222, some hostWrite⟩ ∧ holding.power 222 = .on := by
  decide +kernel
theorem witness_held_event : holding.eng.held[1]? = some ⟨none, some ev, 1, none⟩ ∧ holding.power 1 = .on
    ∧ holding.frozenDie ev.die = false ∧ (holding.bank 1).applied < 4 ∧ (holding.bank 1).fifo = [] := by
  decide +kernel

/-- ME of core 0 misses at 0x1000; with `pinned`, its cache slot holds a pinned line of another address. -/
def missing (pinned : Bool) : State :=
  let s := up.setStream 0 { streamReset with st := .waitFetch, pc := codeAt }
  if pinned then s.setIline (cacheKey 0 codeAt) ⟨true, codeAt + 0x100000, [], some 1⟩ else s
theorem witness_demandFill : ((missing false).stream 0).st = .waitFetch ∧ (missing false).power ((missing false).engDom 0) = .on
    ∧ (missing false).frozenStream 0 = false ∧ (missing false).access ((missing false).partOf 0) codeAt 256 = .ok
    ∧ (missing false).readLine 0 codeAt = some ((missing false).rd codeAt 256) ∧ (missing false).pinnedOther 0 codeAt = false := by
  decide +kernel
theorem witness_demandFill_pinned : ((missing true).stream 0).st = .waitFetch ∧ (missing true).power ((missing true).engDom 0) = .on
    ∧ (missing true).frozenStream 0 = false ∧ (missing true).access ((missing true).partOf 0) codeAt 256 = .ok
    ∧ (missing true).readLine 0 codeAt = some ((missing true).rd codeAt 256) ∧ (missing true).pinnedOther 0 codeAt = true := by
  decide +kernel

/-- ME of core 0 owes the lines of a FETCHAHEAD. -/
def aheadOf (l : List Nat) : State := up.setStream 0 { streamReset with st := .run, pc := codeAt, ahead := [⟨l, 1, 0⟩] }
theorem witness_fetchaheadFill : ((aheadOf [0x2000, 0x2100]).stream 0).ahead = [⟨[0x2000, 0x2100], 1, 0⟩]
    ∧ (aheadOf [0x2000, 0x2100]).power ((aheadOf [0x2000, 0x2100]).engDom 0) = .on
    ∧ (aheadOf [0x2000, 0x2100]).frozenStream 0 = false := by
  decide +kernel
theorem witness_fetchaheadFill_last : ((aheadOf [0x2000]).stream 0).ahead = [⟨[0x2000], 1, 0⟩]
    ∧ (aheadOf [0x2000]).power ((aheadOf [0x2000]).engDom 0) = .on ∧ (aheadOf [0x2000]).frozenStream 0 = false
    ∧ ((aheadOf [0x2000]).stream 0).wend = false := by
  decide +kernel
theorem witness_speculativeFetch : ((aheadOf []).stream 0).st ≠ .idle ∧ ((aheadOf []).stream 0).st ≠ .faulted
    ∧ (aheadOf []).power ((aheadOf []).engDom 0) = .on ∧ ixDie 0 < (aheadOf []).nDies ∧ (aheadOf []).frozenStream 0 = false
    ∧ ((aheadOf []).iline (cacheKey 0 0x1200)).valid = false
    ∧ (aheadOf []).readLine 0 0x1200 = some ((aheadOf []).rd 0x1200 256) := by
  decide +kernel

end Sys2Proof.Tests
end

