-- ==== Sys2Proof/Tests/Whole.lean ====
section
/-! SUPPORT. Witnesses for the statements about final responses, frames and the machine as a whole. -/

namespace Sys2Proof.Tests

set_option Elab.async false
open Sys2Proof.Machine

def nextOf : Host.Outcome State Fault Refusal → Option State
  | .next t => some t
  | _ => none
theorem next_of {o : Host.Outcome State Fault Refusal} (h : (nextOf o).isSome = true) : ∃ t, o = .next t := by
  cases o with
  | next t => exact ⟨t, rfl⟩
  | fault _ => cases h
  | refused _ => cases h
theorem next_eq {o : Host.Outcome State Fault Refusal} {p : State → Bool} (h : (match nextOf o with
    | some t => p t
    | none => false) = true) : ∃ t, o = .next t ∧ p t = true := by
  cases o with
  | next t => exact ⟨t, rfl, h⟩
  | fault _ => cases h
  | refused _ => cases h

-- FinalResponsesComplete

/-- Command e of partition 0 has answered PENDING. -/
def owed (e : Nat) (image : Option JobImage) (slot : Option PlateSlot) : PendCmd := ⟨1, .pf, 0, BitVec.ofNat 512 e, 0, [], image, slot⟩
def owing (c : PendCmd) : State := { up with mgmt := { up.mgmt with cmds := [c] } }
def owedStop : PendCmd := owed (ent 0x0102 0 1 0 0) none none
theorem witness_finalStop : (owing owedStop).mgmt.cmds[0]? = some owedStop ∧ (owing owedStop).lysbyUp = true
    ∧ entCode owedStop.entry = 0x0102 := by decide +kernel
def owedUnload : PendCmd := owed (ent 0x0202 0 0 0 0) none none
theorem witness_finalUnload : (owing owedUnload).mgmt.cmds[0]? = some owedUnload ∧ (owing owedUnload).lysbyUp = true
    ∧ entCode owedUnload.entry = 0x0202 := by decide +kernel
def owedStage : PendCmd := owed (ent 0x0401 0 1 12 0) none (some staged)
theorem witness_finalStage : (owing owedStage).mgmt.cmds[0]? = some owedStage ∧ entCode owedStage.entry = 0x0401
    ∧ owedStage.slot = some staged := by decide +kernel
def owedLoad : PendCmd := owed (ent 0x0201 0 0 16 (word 0x2000 [(112, 64)])) (some job1) none
theorem witness_finalLoad : (owing owedLoad).mgmt.cmds[0]? = some owedLoad ∧ entCode owedLoad.entry = 0x0201
    ∧ owedLoad.image = some job1 ∧ (owing owedLoad).partOn (entPart owedLoad.entry) = true := by decide +kernel

-- StepRunsFrontCommand, CountNeverGoesBack, QueueAndOutputs, StepKeepsForm

/-- After reset an asserted PERST_N waits in the queue. -/
def queued1 : State := { State.reset with pending := [.perstAssert 1] }
theorem form_reset : State.reset.Form :=
  ⟨by decide +kernel, .nil, by decide +kernel, by decide +kernel, by decide +kernel, by decide +kernel⟩
theorem witness_step : queued1.pending = [.perstAssert 1] ∧ (∀ l, queued1.pending ≠ .heartwoodSupplyLost :: l)
    ∧ (∀ k l, queued1.pending ≠ .heartwoodSupplyUp k :: l) ∧ (∃ t, step queued1 = .next t) ∧ queued1.Form :=
  ⟨rfl, fun _ h => by simp [queued1] at h, fun _ _ h => by simp [queued1] at h, next_of (by decide +kernel),
    ⟨form_reset.mem, form_reset.poison, form_reset.cfg, form_reset.mbx, form_reset.doms, form_reset.parts⟩⟩
theorem witness_stepIdle : State.reset.pending = [] ∧ ∃ t, step State.reset = .next t :=
  ⟨rfl, next_of (by decide +kernel)⟩
theorem witness_countRegisters : 0 < 2 ∧ 0 = State.reset.mgmt.active ∧ 1 < 2 ∧ 1 ≠ State.reset.mgmt.active := by decide +kernel

-- ApertureWriteStores

theorem witness_apertureWrite : Memory.wf up.mem = true ∧ up.hostUp up.mgmt.hostPort = true ∧ Blk.pf ≠ .i3c
    ∧ ([1, 2] : List Byte) ≠ [] ∧ 0x1000 + 2 ≤ 2 ^ 36 ∧ isHbm (up.apertureAddr .pf 0x1000) = true
    ∧ up.access (vfPart .pf) (up.apertureAddr .pf 0x1000) 2 = .ok := by decide +kernel

-- The frames

def wNop : Nat := word 0 []
theorem witness_controlFrame : isControl me0 (.nop me0) ∧ ∃ t, exec (.nop me0) (issuingState me0 wNop up) = .next t :=
  ⟨.inl rfl, next_of (by decide +kernel)⟩

theorem witness_matrixFrame : (Instr.mxw, Shape.mxw) ∈ [(Instr.mxw, Shape.mxw), (.mxo, .mxo)]
    ∧ ∃ t, exec (.mxw me0) sMxw = .next t := ⟨by simp, next_of (by decide +kernel)⟩
theorem witness_vectorFrame : ∃ t, exec (.vsimple ve0) sVsimple = .next t := next_of (by decide +kernel)

-- TurnedAwayCommandsHaveNoEffect

/-- device.stop of a device that is DISABLED. -/
def refusedStop : State := asks (ent 0x0102 0 1 0 0) (started 1)
theorem witness_turnedAway : refusedStop.Form ∧ lysbyPair (.deviceStop .pf 0) = some (.pf, 0)
    ∧ ∃ t, exec (.deviceStop .pf 0) refusedStop = .next t
      ∧ (t.cmdCons .pf 0 != refusedStop.cmdCons .pf 0 && decide (2 ≤ t.lastStatus .pf 0) && decide (t.lastStatus .pf 0 ≤ 5)) = true :=
  ⟨⟨by decide +kernel, by decide +kernel, by decide +kernel, by decide +kernel, by decide +kernel, by decide +kernel⟩, rfl,
    next_eq (by decide +kernel)⟩

-- TallyOverflow

/-- Tally 5 of core 0 stands at its greatest value. -/
def full : State := up.setTally 0 5 ⟨16777215, false⟩
def oneMore : CountEvent := ⟨0, 0, 5, 1, 0, 0, none⟩
def overflowing : State := { full with eng := { full.eng with events := [oneMore] } }
theorem witness_tallyOverflow : overflowing.eng.events[0]? = some oneMore
    ∧ (overflowing.eng.events.take 0).any (sameLane oneMore) = false ∧ overflowing.power (overflowing.coreKey 0) = .on
    ∧ overflowing.frozenDie 0 = false ∧ (overflowing.bank 0).applied < 4 ∧ (overflowing.bank 0).fifo = []
    ∧ 16777215 < (overflowing.tally 0 5).value + oneMore.amount := by decide +kernel
def fifoed : State := full.setBank 0 { full.bank 0 with fifo := [oneMore] }
theorem witness_tallyOverflowInFifo : (fifoed.bank 0).fifo = [oneMore] ∧ 4 * oneMore.die + oneMore.pos = 0
    ∧ fifoed.power (fifoed.coreKey 0) = .on ∧ fifoed.frozenDie 0 = false
    ∧ 16777215 < (fifoed.tally 0 5).value + oneMore.amount := by decide +kernel

/-- A NOP of ME of core 0 waits on tally 5, which has overflowed. -/
def wWaits : Nat := word 0 [(5, 16), (1, 28)]
def overflown : State := issuingState me0 wWaits (up.setTally 0 5 ⟨16777215, true⟩)
theorem witness_tallyOvfWait : overflown.mayIssue (streamIx me0) = true ∧ overflown.fetch (streamIx me0) = .word (iw wWaits)
    ∧ legalOp me0 (opOf (iw wWaits)) = true ∧ overflown.commonCauses (streamIx me0) (iw wWaits) = []
    ∧ (overflown.stream (streamIx me0)).granted = false ∧ (⟨5, 0, 1, false⟩ : Wait) ∈ waitsOf (iw wWaits)
    ∧ (overflown.tally (waitCore (streamIx me0) ⟨5, 0, 1, false⟩) 5).ovf = true ∧ isOp 0 (iw wWaits) = true := by
  decide +kernel

-- OpcodesOfTheClasses

def undefinedOp : State := issuingState me0 0x40 up
theorem witness_badOpcode : undefinedOp.mayIssue (streamIx me0) = true ∧ undefinedOp.fetch (streamIx me0) = .word (iw 0x40)
    ∧ legalOp me0 (opOf (iw 0x40)) = false := by decide +kernel

end Sys2Proof.Tests
end

