-- ==== Sys2Proof/WellFormed.lean ====
section
/-! DEFINITION. Which commands are well formed: what an operand's type alone does not say. -/

namespace Sys2Proof

/-- A frame's payload fits one frame (R333). -/
def Frame.wellFormed (f : Frame) : Bool := decide (f.payload.length ≤ 4096)

/-- A message's payload fits its length field (Tables 8-3 and 13-5). -/
def Msg.wellFormed (m : Msg) : Bool := decide (m.payload.length < 1048576)

/-- A register write names an aligned word: a 64-bit register of configuration space or of a mailbox page. -/
def RegTarget.wellFormed : RegTarget → Bool
  | .mbx _ off => off % 8 == 0
  | .bar4 _ off => off % 8 == 0
  | .cfg a => a % 8 == 0 && decide (a < 2 ^ 48)

/-- A command is well formed. -/
def WellFormed : Instr → Bool
  | .xmsgRow _ _ m | .xmsgCount _ _ m | .xmsgReturn _ _ m | .xmsgAck _ _ m | .xmsgNack _ _ m | .xmsgReject _ _ m => m.wellFormed
  | .cmsgNode _ m | .cmsgAbsent _ m | .cmsgData _ m | .cmsgRelay _ m | .cmsgAck _ m | .cmsgNack _ m | .cmsgReject _ m =>
    m.wellFormed
  | .load _ f | .store _ f | .atomic _ f | .fill _ f | .evict _ f | .inval _ f => f.wellFormed
  | .loadData _ f | .storeAck _ f | .atomicData _ f | .fillData _ f | .invalAck _ f | .resync _ f => f.wellFormed
  | .beacon _ f _ | .late _ f | .teardown _ f | .alarm _ f | .frameCapture _ f => f.wellFormed
  -- a far cache load names addresses of 48 bits
  | .farCacheLoad _ _ a n d => decide (a < 2 ^ 48) && decide (d < 2 ^ 48) && decide (0 < n)
  -- an access through an aperture writes as many bytes as it is long (R442)
  | .bar2Access _ _ n (some bs) => bs.length == n
  | .registerWrite t _ => t.wellFormed
  -- the lengths of the I3C transfers are 16-bit fields
  | .setmwl _ n | .setmrl _ n => decide (n < 65536)
  | _ => true

end Sys2Proof
end

