-- ==== Sys2Proof/Tests/Slice0.lean ====
section
/-! SUPPORT. Small tests of the model: ill-formed commands that the check refuses, and values taken from the spec. -/

namespace Sys2Proof.Tests

set_option Elab.async false
open Sys2Proof.Machine

-- Ill-formed commands, one for each check

def bytesOf (n : Nat) : List Byte := List.replicate n 0
theorem bytesOf_length (n : Nat) : (bytesOf n).length = n := List.length_replicate
theorem test_illFormed_message : WellFormed (.xmsgCount 0 0 ⟨0, bytesOf 1048576, 0, 0⟩) = false := by
  simp only [WellFormed, Msg.wellFormed, bytesOf_length]; decide
theorem test_wellFormed_message : WellFormed (.cmsgData 0 ⟨0, bytesOf 1048575, 0, 0⟩) = true := by
  simp only [WellFormed, Msg.wellFormed, bytesOf_length]; decide
theorem test_illFormed_frame : WellFormed (.store 0 ⟨0, bytesOf 4097⟩) = false := by
  simp only [WellFormed, Frame.wellFormed, bytesOf_length]; decide
theorem test_wellFormed_frame : WellFormed (.store 0 ⟨0, bytesOf 4096⟩) = true := by
  simp only [WellFormed, Frame.wellFormed, bytesOf_length]; decide
theorem test_illFormed_farLoad : WellFormed (.farCacheLoad xe0 1 (2 ^ 48) 8 0) = false := by decide
theorem test_illFormed_farLoadDst : WellFormed (.farCacheLoad xe0 1 0 8 (2 ^ 48)) = false := by decide
theorem test_illFormed_farLoadEmpty : WellFormed (.farCacheLoad xe0 1 0 0 0) = false := by decide
theorem test_illFormed_apertureWrite : WellFormed (.bar2Access .pf 0 3 (some [1, 2])) = false := by decide
theorem test_illFormed_mbxWrite : WellFormed (.registerWrite (.mbx .pf 12) 0) = false := by decide
theorem test_illFormed_bar4Write : WellFormed (.registerWrite (.bar4 0 1) 0) = false := by decide
theorem test_illFormed_cfgWrite : WellFormed (.registerWrite (.cfg 4) 0) = false := by decide
theorem test_illFormed_cfgAddress : WellFormed (.registerWrite (.cfg (2 ^ 48)) 0) = false := by decide
theorem test_illFormed_setmwl : WellFormed (.setmwl 0 65536) = false := by decide
theorem test_illFormed_setmrl : WellFormed (.setmrl 1 65536) = false := by decide

/-- No row of the table has bits, so no word spells a command. -/
theorem test_noWords : decodeTableWord 512 0x20 = none := rfl

-- Engine programs (chapter 5)

/-- What a test asks of the next state. -/
def after (o : Host.Outcome State Fault Refusal) (p : State → Bool) : Bool := match nextOf o with
  | some t => p t
  | none => false

/-- R112: the PC moves on by one word of 64 B. -/
theorem test_nop_pc : after (exec (.nop me0) (issuingState me0 0 up)) (fun t => (t.stream 0).pc == codeAt + 64) = true := by
  decide +kernel
/-- Table 5-8: SETX writes IMM, here to X2. -/
def wSetx : Nat := word 3 [(2, 128), (9, 160)]
theorem test_setx : after (exec (.setx me0) (issuingState me0 wSetx up)) (fun t => (t.stream 0).xr 2 == 9) = true := by
  decide +kernel
/-- Table 5-8: ADDX adds modulo 2^32. -/
def wAddx : Nat := word 4 [(2, 128), (0xFFFFFFFF, 160)]
def sAddx : State := issuingState me0 wAddx up
def withX (s : State) (v : W32) : State := s.setStream 0 ((s.stream 0).xw 2 v)
theorem test_addx_wraps : after (exec (.addx me0) (withX sAddx 5)) (fun t => (t.stream 0).xr 2 == 4) = true := by decide +kernel
/-- Table 5-8: JUMP goes to PC + 64 × OFFSET, OFFSET signed. -/
def wBack : Nat := word 6 [(0xFFFFFFFE, 160)]
theorem test_jump_back : after (exec (.jump me0) (issuingState me0 wBack up)) (fun t => (t.stream 0).pc == codeAt - 128) = true := by
  decide +kernel
/-- R119: a wait subtracts its amount; a wait with KEEP does not. -/
def wTake3 : Nat := word 0 [(5, 16), (3, 28), (6, 40), (2, 52), (1, 60)]
def sTake3 : State := (issuingState me0 wTake3 up).setTally 0 5 ⟨10, false⟩ |>.setTally 0 6 ⟨2, false⟩
theorem test_wait_subtracts : after (exec (.nop me0) sTake3) (fun t => (t.tally 0 5).value == 7 && (t.tally 0 6).value == 2) = true := by
  decide +kernel
/-- R138: an event carries a tally to 16,777,215 at most, and sets OVF. -/
theorem test_tally_overflow : after (exec (.countEventArrive 0) overflowing) (fun t => t.tally 0 5 == ⟨16777215, true⟩) = true := by
  decide +kernel

-- Arithmetic (chapter 2)

/-- The worked example of R35: 2^24 + 3 is a tie, and rounds to 16,777,220. -/
theorem test_rne_tie : fadd 0x4B800000 0x40400000 = 0x4B800002 := by decide +kernel
/-- The worked example of R52: 2.375 to E2M1 is 3 for r = 0x5A3C0F11, and −2.375 is −2 for r = 0x60000000. -/
theorem test_stochastic : (convVal .e2m1 (.sr 0x5A3C0F11) 0x40180000).code = 5
    ∧ (convVal .e2m1 (.sr 0x60000000) 0xC0180000).code = 12 := by decide +kernel
/-- The scales of Table 2-6. -/
theorem test_e4m3 : (e4m3Val 0x30).rne32 = 0x3F000000 ∧ (e4m3Val 0x3C).rne32 = 0x3FC00000 := by decide +kernel

-- Heartwood, memory, power

/-- R282: at 95 °C the stack is to enter band 2. -/
theorem test_band : bandAfter 0 95 = 2 ∧ bandAfter 2 83 = 0 ∧ bandAfter 0 85 = 1 ∧ bandAfter 0 84 = 0 := by decide
/-- R582: PERST_N of port 1 leaves port 0 ready. -/
theorem test_perst : after (exec (.perstAssert 1) up) (fun t => t.hostUp 0 && t.mgmt.perst == [1]) = true := by decide +kernel
/-- R439: a stop of a DISABLED device answers REFUSED_STATE, code 4. -/
theorem test_refusedState : after (exec (.deviceStop .pf 0) refusedStop) (fun t => t.lastStatus .pf 0 == 4 && t.cmdCons .pf 0 == 1) = true := by
  decide +kernel
/-- R440: a doorbell gives the entry to Lysby, which has not taken it yet. -/
theorem test_doorbell : after (exec (.cmdProdWrite .pf 0 1) (asks (ent 0x0106 0 1 0 0) up))
    (fun t => t.cmdProd .pf 0 == 1 && t.cmdCons .pf 0 == 0) = true := by decide +kernel
/-- device.status answers OK. -/
theorem test_status : after (exec (.deviceStatus .pf 0) (asks (ent 0x0106 0 1 0 0) up)) (fun t => t.lastStatus .pf 0 == 0) = true := by
  decide +kernel

end Sys2Proof.Tests
end

section
/-! PROOFS. Registers after reset (O47), and count events, held accesses and instruction lines (O7). -/

namespace Sys2Proof.Machine

-- Words of configuration space after reset

/-- A word that no write has reached holds its reset value. -/
@[simp] theorem reset_cfgW (a : Nat) : State.reset.cfgW a = cfgReset a := rfl
@[simp] theorem reset_stream (i : Nat) : State.reset.stream i = streamReset := rfl
@[simp] theorem reset_tally (c t : Nat) : State.reset.tally c t = tallyZero := rfl
@[simp] theorem reset_power (k : Nat) : State.reset.power k = .off := rfl

theorem cfgReset_core {c off : Nat} (hc : c < 128) (ho : off < 0x100000) : cfgReset (coreCfg c + off) = coreCfgReset off := by
  have hm : (coreCfg c + off) % 0x100000 = off := by unfold coreCfg; omega
  have hlo : ¬ coreCfg c + off < 0x01F000000000 := by unfold coreCfg; omega
  have hhi : coreCfg c + off < 0x01F008000000 := by unfold coreCfg; omega
  simp only [cfgReset, hm, hlo, hhi, if_true, if_false]

theorem cfgReset_die {d off : Nat} (hd : d < 32) (ho : off < 0x100000) : cfgReset (dieCfg d + off) = dieCfgReset off := by
  have hm : (dieCfg d + off) % 0x100000 = off := by unfold dieCfg; omega
  have hlo : ¬ dieCfg d + off < 0x01F008000000 := by unfold dieCfg; omega
  have hlo' : ¬ dieCfg d + off < 0x01F000000000 := by omega
  have hin : 0x01F010000000 ≤ dieCfg d + off ∧ dieCfg d + off < 0x01F012000000 := by unfold dieCfg; omega
  simp only [cfgReset, hm, hlo, hlo', hin, and_self, if_true, if_false]

theorem cfgReset_mem {m off : Nat} (hm : m < 12) (ho : off < 0x100000) : cfgReset (memCfg m + off) = 0 := by
  have hlo : 0x01F020000000 ≤ memCfg m + off := by unfold memCfg; omega
  have hhi : memCfg m + off < 0x01F030000000 := by unfold memCfg; omega
  have h1 : ¬ memCfg m + off < 0x01F000000000 := by omega
  have h2 : ¬ memCfg m + off < 0x01F008000000 := by omega
  have h3 : ¬ memCfg m + off < 0x01F012000000 := by omega
  have h4 : ¬ 0x01F030000000 ≤ memCfg m + off := by omega
  have h5 : ¬ 0x01F040000000 ≤ memCfg m + off := by omega
  simp only [cfgReset, h1, h2, h3, h4, h5, and_false, false_and, if_false]

-- Reads of configuration space that go to the stored word (Table 10-2)

theorem engStatusAt_core {c off : Nat} (hc : c < 128) (ho : off < 0x100000) (hs : off < 0x200 ∨ 0x220 ≤ off) :
    engStatusAt (coreCfg c + off) = none := by
  have hm : (coreCfg c + off) % 0x100000 = off := by unfold coreCfg; omega
  have hd : ¬ dieCfg 0 ≤ coreCfg c + off := by unfold coreCfg dieCfg; omega
  have hst : ¬ (0x200 ≤ off ∧ off < 0x220) := by omega
  simp only [engStatusAt, hm, hst, hd, and_false, false_and, if_false]

/-- A core's registers outside ENG_STATUS, TLY_ENTRY and the accumulator view read as stored. -/
theorem cfgRead_core (s : State) {c off : Nat} (hc : c < 128) (ho : off < 0x80000) (hs : off < 0x200 ∨ 0x220 ≤ off)
    (ht : off < 0x8000 ∨ 0x9000 ≤ off) : s.cfgRead (coreCfg c + off) = s.cfgW (coreCfg c + off) := by
  have hn := engStatusAt_core hc (Nat.lt_of_lt_of_le ho (by omega)) hs
  have hm : (coreCfg c + off) % 0x100000 = off := by unfold coreCfg; omega
  have hin : coreCfg 0 ≤ coreCfg c + off ∧ coreCfg c + off < coreCfg 128 := by unfold coreCfg; omega
  have hty : ¬ (0x8000 ≤ off ∧ off < 0x9000) := by omega
  have hac : ¬ 0x80000 ≤ off := by omega
  rw [State.cfgRead]
  simp only [hn, hm]
  rw [if_pos hin, if_neg hty, if_neg hac]

/-- Outside the cores' and heartwood's blocks, and off ENG_STATUS, a register reads as stored. -/
theorem cfgRead_plain (s : State) {a : Nat} (hn : engStatusAt a = none) (hc : coreCfg 128 ≤ a) (hh : a < hwCfg 0) :
    s.cfgRead a = s.cfgW a := by
  have hc' : ¬ a < coreCfg 128 := by omega
  have hh' : ¬ hwCfg 0 ≤ a := by omega
  simp only [State.cfgRead, hn, hc', hh', and_false, false_and, if_false]

theorem cfgRead_die (s : State) {d off : Nat} (hd : d < 32) (ho : off < 0x100000) (hs : off < 0x200 ∨ 0x210 ≤ off) :
    s.cfgRead (dieCfg d + off) = s.cfgW (dieCfg d + off) := by
  have hm : (dieCfg d + off) % 0x100000 = off := by unfold dieCfg; omega
  have hc : coreCfg 128 ≤ dieCfg d + off := by unfold coreCfg dieCfg; omega
  have hh : dieCfg d + off < hwCfg 0 := by unfold hwCfg dieCfg; omega
  have hc' : ¬ dieCfg d + off < coreCfg 128 := by omega
  have hst : ¬ (0x200 ≤ off ∧ off < 0x210) := by omega
  exact cfgRead_plain s (by simp only [engStatusAt, hm, hst, hc', and_false, false_and, if_false]) hc hh

theorem cfgRead_mem (s : State) {m off : Nat} (hm : m < 12) (ho : off < 0x100000) :
    s.cfgRead (memCfg m + off) = s.cfgW (memCfg m + off) := by
  have hc : coreCfg 128 ≤ memCfg m + off := by unfold coreCfg memCfg; omega
  have hh : memCfg m + off < hwCfg 0 := by unfold hwCfg memCfg; omega
  have hc' : ¬ memCfg m + off < coreCfg 128 := by omega
  have hd : ¬ memCfg m + off < dieCfg 32 := by unfold dieCfg memCfg; omega
  exact cfgRead_plain s (by simp only [engStatusAt, hc', hd, and_false, false_and, if_false]) hc hh

-- Registers after reset

/-- ENG_STATUS after reset: IDLE, no lock, no loop, PC 0 (Table 5-2). -/
theorem reset_statusWord (i : Nat) : State.reset.statusWord i = 0 := by
  have hidle : streamReset.st = .idle := rfl
  have hw : State.reset.engStatus i = 0 := by rw [State.engStatus, reset_stream]; rfl
  simp [State.statusWord, hidle, hw]

theorem reset_cfgRead_core {c off : Nat} (hc : c < 128) (ho : off < 0x8000) (hs : off < 0x200 ∨ 0x220 ≤ off) :
    State.reset.cfgRead (coreCfg c + off) = coreCfgReset off := by
  rw [cfgRead_core _ hc (by omega) hs (.inl ho), reset_cfgW, cfgReset_core hc (by omega)]

/-- CMP_FIRST of each channel: no unequal position (Table 11-6). -/
theorem reset_cmpFirst {c h : Nat} (hc : c < 128) (hh : h < 16) :
    State.reset.cfgRead (chanReg c h 0x10) = 0xFFFFFFFF00000000 := by
  have ha : chanReg c h 0x10 = coreCfg c + (0x410 + 32 * h) := by unfold chanReg; omega
  have hr : 0x400 ≤ 0x410 + 32 * h ∧ 0x410 + 32 * h < 0x800 ∧ (0x410 + 32 * h) % 32 = 16 := by omega
  rw [ha, reset_cfgRead_core hc (by omega) (by omega), coreCfgReset, if_pos hr]

/-- TRIG_AT of each trace ring: not triggered (Table 20-4). -/
theorem reset_trigAt {d k : Nat} (hd : d < 32) (hk : k < 12) :
    State.reset.cfgRead (ringBase d k + 0x18) = 0xFFFFFFFFFFFFFFFF := by
  have ha : ringBase d k + 0x18 = dieCfg d + (0x2018 + 64 * k) := by unfold ringBase; omega
  have hs : ¬ (0x30000 ≤ 0x2018 + 64 * k ∧ 0x2018 + 64 * k < 0x31000) := by omega
  have hr : 0x2000 ≤ 0x2018 + 64 * k ∧ 0x2018 + 64 * k < 0x2300 ∧ (0x2018 + 64 * k) % 64 = 24 := by omega
  rw [ha, cfgRead_die _ hd (by omega) (by omega), reset_cfgW, cfgReset_die hd (by omega), dieCfgReset, if_neg hs, if_pos hr]

theorem reset_stackStatus {m : Nat} (hm : m < 12) : State.reset.cfgRead (stackA m) = 0 := by
  rw [stackA, cfgRead_mem _ hm (by omega), reset_cfgW, cfgReset_mem hm (by omega)]

/-- GC_VALUE and GC_SRC_PORT of the active die (Table 15-1). -/
theorem reset_countRegisters :
    State.reset.cfgRead (hwCfg 0 + 0x2000) = 0 ∧ State.reset.cfgRead (hwCfg 0 + 0x2008) = 0x3F0 := by
  decide +kernel

/-- Settles O47: each register reads its stored word, and each stored word its reset value. -/
theorem resetValues : Obligations.ResetValues := by
  unfold Obligations.ResetValues
  refine ⟨fun i _ => reset_statusWord i, fun c t _ _ => ?_, fun c hc => ⟨?_, ?_, ?_⟩, fun c h hc hh => reset_cmpFirst hc hh,
    fun d k hd hk => reset_trigAt hd hk, fun m hm => reset_stackStatus hm, reset_countRegisters.1, reset_countRegisters.2,
    rfl, rfl, reset_power⟩
  · rw [State.tlyEntry, reset_tally]; rfl
  all_goals rw [reset_cfgRead_core hc (by omega) (by omega)]; rfl

-- Count events (R134 to R136)

/-- A bank with a free application this cycle and no queue applies the event (R136). -/
theorem bankTake_applied {s : State} {e : CountEvent} (ha : (s.bank (4 * e.die + e.pos)).applied < 4)
    (hf : (s.bank (4 * e.die + e.pos)).fifo = []) :
    s.bankTake e = some ((s.setBank (4 * e.die + e.pos) { s.bank (4 * e.die + e.pos) with
      applied := (s.bank (4 * e.die + e.pos)).applied + 1 }).applyEvent e) := by
  simp [State.bankTake, ha, hf]

/-- A bank at work queues the event while its FIFO has room (R136). -/
theorem bankTake_queued {s : State} {e : CountEvent}
    (hb : 4 ≤ (s.bank (4 * e.die + e.pos)).applied ∨ (s.bank (4 * e.die + e.pos)).fifo ≠ [])
    (hl : (s.bank (4 * e.die + e.pos)).fifo.length < 64) :
    s.bankTake e = some (s.setBank (4 * e.die + e.pos) { s.bank (4 * e.die + e.pos) with
      fifo := (s.bank (4 * e.die + e.pos)).fifo ++ [e] }) := by
  have hbusy : ((s.bank (4 * e.die + e.pos)).applied < 4 && (s.bank (4 * e.die + e.pos)).fifo.isEmpty) = false := by
    rcases hb with h | h
    · simp [Nat.not_lt.mpr h]
    · simp [h]
  simp [State.bankTake, hbusy, hl]

/-- The state in which event `i` has left those under way. -/
def State.dropEvent (s : State) (i : Nat) : State := { s with eng := { s.eng with events := s.eng.events.eraseIdx i } }
/-- The state in which held access `i` has left those held. -/
def State.dropHeld (s : State) (i : Nat) : State := { s with eng := { s.eng with held := s.eng.held.eraseIdx i } }

/-- An event that is first of its lane and whose core is ON and not frozen goes to its bank (R135). -/
theorem eventArrive_on {i : Nat} {e : CountEvent} {s : State} (he : s.eng.events[i]? = some e)
    (hl : (s.eng.events.take i).any (sameLane e) = false)
    (hp : (s.dropEvent i).power (s.coreKey (4 * e.die + e.pos)) = .on) (hz : (s.dropEvent i).frozenDie e.die = false) :
    eventArrive i s = ((s.dropEvent i).sleepTouch (s.coreKey (4 * e.die + e.pos))).bankTake e := by
  have hk : (s.dropEvent i).coreKey (4 * e.die + e.pos) = s.coreKey (4 * e.die + e.pos) := rfl
  unfold State.dropEvent at hp hz hk
  simp [eventArrive, State.dropEvent, he, hl, hk, hp, hz]

theorem fifoApply_on {c : Core} {s : State} (hf : (s.bank c.val).fifo ≠ []) (hp : s.power (s.coreKey c.val) = .on)
    (hz : s.frozenDie (c.val / 4) = false) :
    fifoApply c s = some (((s.bank c.val).fifo.take 4).foldl State.applyEvent
      (s.setBank c.val ⟨min 4 (s.bank c.val).fifo.length, (s.bank c.val).fifo.drop 4⟩)) := by
  have htake : (s.bank c.val).fifo.take (min 4 (s.bank c.val).fifo.length) = (s.bank c.val).fifo.take 4 := by
    rw [← List.take_take, List.take_length]
  have hdrop : (s.bank c.val).fifo.drop (min 4 (s.bank c.val).fifo.length) = (s.bank c.val).fifo.drop 4 := by
    rcases Nat.le_total 4 (s.bank c.val).fifo.length with h | h
    · rw [Nat.min_eq_left h]
    · rw [Nat.min_eq_right h, List.drop_length, List.drop_of_length_le h]
  simp [fifoApply, hf, hp, hz, htake, hdrop]

-- Accesses held for a domain (R22)

theorem heldDone_stream {i : Nat} {h : Held} {s : State} (hi : s.eng.held[i]? = some h) (he : h.event = none)
    (hh : h.host = none) (hp : s.power h.dom = .on) : heldDone i s = some (s.dropHeld i) := by
  simp [heldDone, State.dropHeld, hi, he, hh, hp]

theorem heldDone_host {i : Nat} {h : Held} {x : HostAccess} {s : State} (hi : s.eng.held[i]? = some h)
    (hh : h.host = some x) (hp : s.power h.dom = .on) : heldDone i s = some ((s.dropHeld i).hostAccess x) := by
  simp [heldDone, State.dropHeld, hi, hh, hp]

theorem heldDone_event {i : Nat} {h : Held} {e : CountEvent} {s : State} (hi : s.eng.held[i]? = some h)
    (he : h.event = some e) (hh : h.host = none) (hp : s.power h.dom = .on) (hz : s.frozenDie e.die = false) :
    heldDone i s = (s.dropHeld i).bankTake e := by
  simp [heldDone, State.dropHeld, hi, he, hh, hp, hz]

-- Instruction lines (R144 to R146)

/-- A demand fill whose line can be read fills the fetch buffer where the slot is pinned, and the slot elsewhere (R145). -/
theorem demandFill_reads {st : Stream} {s : State} {data : List Byte} (hs : (s.stream (streamIx st)).st = .waitFetch)
    (hp : s.power (s.engDom (streamIx st)) = .on) (hz : s.frozenStream (streamIx st) = false)
    (ha : s.access (s.partOf (streamIx st)) ((s.stream (streamIx st)).pc / 256 * 256) 256 = .ok)
    (hd : s.readLine (streamIx st) ((s.stream (streamIx st)).pc / 256 * 256) = some data) :
    let i := streamIx st
    let t := s.stream i
    let la := t.pc / 256 * 256
    demandFill st s = some (if s.pinnedOther i la
      then (s.setStream i { t with st := .run, fbuf := some (la, data) }).traceFetch i la 0 3
      else ((s.setIline (cacheKey i la) ⟨true, la, data, none⟩).setStream i { t with st := .run }).traceFetch i la 0 0) := by
  unfold demandFill
  by_cases hpin : s.pinnedOther (streamIx st) ((s.stream (streamIx st)).pc / 256 * 256) = true
  · simp [hs, hp, hz, ha, hd, hpin]
  · simp [hs, hp, hz, ha, hd, hpin]

/-- A line of a FETCHAHEAD that is not its last leaves the lines after it to be filled (R144). -/
theorem aheadFill_more {st : Stream} {s : State} {a : Ahead} {la : Nat} {more : List Nat} {rest : List Ahead}
    (ht : (s.stream (streamIx st)).ahead = a :: rest) (hl : a.lines = la :: more)
    (hp : s.power (s.engDom (streamIx st)) = .on) (hz : s.frozenStream (streamIx st) = false) (hm : more ≠ []) :
    aheadFill st s = some ((s.aheadLine (streamIx st) la a.gen).setStream (streamIx st)
      { s.stream (streamIx st) with ahead := { a with lines := more } :: rest }) := by
  simp [aheadFill, ht, hl, hp, hz, hm]

/-- The last line of a FETCHAHEAD lets its signals go (R144); no WEND waits for it. -/
theorem aheadFill_last {st : Stream} {s : State} {a : Ahead} {la : Nat} {rest : List Ahead}
    (ht : (s.stream (streamIx st)).ahead = a :: rest) (hl : a.lines = [la])
    (hp : s.power (s.engDom (streamIx st)) = .on) (hz : s.frozenStream (streamIx st) = false)
    (hw : (s.stream (streamIx st)).wend = false) :
    aheadFill st s = some (((s.aheadLine (streamIx st) la a.gen).setStream (streamIx st)
      { s.stream (streamIx st) with ahead := rest }).sendSigs (streamIx st) a.word) := by
  simp [aheadFill, ht, hl, hp, hz, hw]

/-- A speculative fetch fills a slot that holds neither its own line nor a pinned one (R146). -/
theorem specFetch_fills {st : Stream} {k : Fin 2} {s : State} {data : List Byte} {la : Nat}
    (hla : ((s.stream (streamIx st)).pc / 256 + 1 + k.val) * 256 = la)
    (hi : (s.stream (streamIx st)).st ≠ .idle) (hf : (s.stream (streamIx st)).st ≠ .faulted)
    (hp : s.power (s.engDom (streamIx st)) = .on) (hd : ixDie (streamIx st) < s.nDies)
    (hz : s.frozenStream (streamIx st) = false)
    (hown : ((s.iline (cacheKey (streamIx st) la)).valid && (s.iline (cacheKey (streamIx st) la)).addr == la) = false)
    (hpin : ((s.iline (cacheKey (streamIx st) la)).valid && (s.iline (cacheKey (streamIx st) la)).pin.isSome) = false)
    (hr : s.readLine (streamIx st) la = some data) :
    specFetch st k s
      = some ((s.setIline (cacheKey (streamIx st) la) ⟨true, la, data, none⟩).traceFetch (streamIx st) la 2 0) := by
  subst hla
  have hgo : ((s.stream (streamIx st)).st == .idle || (s.stream (streamIx st)).st == .faulted
      || s.power (s.engDom (streamIx st)) != .on || ixDie (streamIx st) ≥ s.nDies || s.frozenStream (streamIx st)) = false := by
    simp [hi, hf, hp, hd, hz]
  simp only [specFetch, hgo, hown, hpin, hr]
  rfl

/-- Settles O7: each event's condition holds, so its effect is the one its lemma above names. -/
theorem countEventsAndLineFillsComplete : Obligations.CountEventsAndLineFillsComplete := by
  unfold Obligations.CountEventsAndLineFillsComplete
  refine ⟨?arrive, ?fifo, ?heldStream, ?heldHost, ?heldEvent, ?demand, ?ahead, ?spec⟩
  case arrive =>
    intro i e s he hl k u v b hp hz
    have hgo : eventArrive i s = v.bankTake e := eventArrive_on he hl hp hz
    exact ⟨fun ha hf => attempt_some (hgo.trans (bankTake_applied ha hf)),
      fun hb hn => attempt_some (hgo.trans (bankTake_queued hb hn))⟩
  case fifo => exact fun c s hf hp hz => attempt_some (fifoApply_on hf hp hz)
  case heldStream => exact fun i h s hi he hh hp => attempt_some (heldDone_stream hi he hh hp)
  case heldHost => exact fun i h x s hi hh hp => attempt_some (heldDone_host hi hh hp)
  case heldEvent =>
    intro i h e s hi he hh hp hz u b ha hf
    exact attempt_some ((heldDone_event hi he hh hp hz).trans (bankTake_applied ha hf))
  case demand =>
    intro st s data i t la hs hp hz ha hd
    have hfill := demandFill_reads hs hp hz ha hd
    exact ⟨fun hpin => attempt_some (hfill.trans (by rw [if_pos hpin])),
      fun hpin => attempt_some (hfill.trans (by rw [if_neg (Bool.eq_false_iff.mp hpin)]))⟩
  case ahead =>
    intro st s a la more rest i t u ht hl hp hz
    refine ⟨fun hm => attempt_some (aheadFill_more ht hl hp hz hm), ?_⟩
    rintro rfl hw
    exact attempt_some (aheadFill_last ht hl hp hz hw)
  case spec =>
    intro st k s data i la l hi hf hp hd hz hown hpin hr
    exact attempt_some (specFetch_fills rfl hi hf hp hd hz hown hpin hr)

end Sys2Proof.Machine
end

section
/-! PROOFS. Engine instructions complete with the effect of their job (O4). -/

namespace Sys2Proof.Machine

-- The matrix engine (R66 to R93)

/-- An ME instruction whose operands can be read and reached, and which meets no cause, takes the effect of its job. -/
theorem runMe_done {sh : Shape} {i : Nat} {u : State} {t : StreamSt} {w : IWord} {g : Nat} {cls : Cls}
    (hread : u.unread i (i / 4) [(meF t w).a, (meF t w).b] = [])
    (hpair : pairFor sh (sparse24 sh w) (u.desc (i / 4) (meF t w).a).fmt (u.desc (i / 4) (meF t w).b).fmt = some (g, cls))
    (hcause : u.meCauses i (u.meJob sh (i / 4) t w g cls) w = [])
    (hreach : u.reach (u.partOf i) (u.meAreas (u.meJob sh (i / 4) t w g cls)) = .ok) :
    runMe sh i u t w = .done (u.meFinish i t w (u.meJob sh (i / 4) t w g cls)) := by
  simp only [runMe, hread, minCause, hpair, hcause, hreach]

/-- A row of the matrix engine that attempts shape `sh` completes as its shape does. -/
theorem matrixCompletes_of_exec {c : Stream → Instr} {sh : Shape}
    (hc : ∀ st s, exec (c st) s = attempt s (execMe sh st s)) : matrixCompletes c sh := by
  intro st w s g cls hi ho i u t f j hfield hread hpair hcause hreach
  have hrun : runMe sh i u t w = .done (u.meFinish i t w j) := runMe_done hread hpair hcause hreach
  rw [hc]
  exact attempt_some (issue_done hi (by simp [isOp, ho]) hfield hrun)

-- The vector engine (R94 to R111)

/-- A VE job whose operands can be read and reached, without cause or poison, takes its effect. -/
theorem VeJob.run_done {j : VeJob} {u : State} {i : Nat} {t : StreamSt} {w : IWord} (hread : u.unread i (i / 4) j.hs = [])
    (hcause : j.causes = []) (hclean : u.anyPoison j.reads = false)
    (hreach : u.reach (u.partOf i) (j.reads ++ j.writes) = .ok) :
    j.run u i t w = .done (startFlight (j.effect ()).1 i w t (j.effect ()).2 0 0) := by
  simp [VeJob.run, hread, hcause, hclean, hreach, minCause]

/-- A row of the vector engine that attempts `job` under opcode `op` completes as its job does. -/
theorem vectorCompletes_of_exec {c : Stream → Instr} {op : Nat} {first : StreamSt → IWord → List (Nat × Nat)}
    {job : Nat → State → StreamSt → IWord → VeJob}
    (hc : ∀ st s, exec (c st) s = attempt s (execVe op first job st s)) : vectorCompletes c op first job := by
  intro st w s hi ho i u t j hfield hfirst hread hcause hclean hreach
  have hrun : readFirst (first t w) (veRun (job i) st) i u t w
      = .done (startFlight (j.effect ()).1 i w t (j.effect ()).2 0 0) := by
    rw [readFirst, hfirst]
    exact VeJob.run_done hread hcause hclean hreach
  rw [hc]
  exact attempt_some (issue_done hi (by simp [isOp, ho]) hfield hrun)

/-- Settles O4: each row attempts its shape or its job, which completes under the conditions stated. -/
theorem matrixAndVectorInstructionsComplete : Obligations.MatrixAndVectorInstructionsComplete := by
  unfold Obligations.MatrixAndVectorInstructionsComplete
  exact ⟨matrixCompletes_of_exec fun _ _ => rfl, matrixCompletes_of_exec fun _ _ => rfl,
    matrixCompletes_of_exec fun _ _ => rfl, matrixCompletes_of_exec fun _ _ => rfl,
    matrixCompletes_of_exec fun _ _ => rfl, matrixCompletes_of_exec fun _ _ => rfl,
    vectorCompletes_of_exec fun _ _ => rfl, vectorCompletes_of_exec fun _ _ => rfl,
    vectorCompletes_of_exec fun _ _ => rfl, vectorCompletes_of_exec fun _ _ => rfl,
    vectorCompletes_of_exec fun _ _ => rfl, vectorCompletes_of_exec fun _ _ => rfl,
    vectorCompletes_of_exec fun _ _ => rfl, vectorCompletes_of_exec fun _ _ => rfl,
    vectorCompletes_of_exec fun _ _ => rfl, vectorCompletes_of_exec fun _ _ => rfl,
    vectorCompletes_of_exec fun _ _ => rfl, vectorCompletes_of_exec fun _ _ => rfl,
    vectorCompletes_of_exec fun _ _ => rfl⟩

end Sys2Proof.Machine
end

section
/-! PROOFS. What an engine instruction leaves unchanged: the frame of the operations that engines share. -/

namespace Sys2Proof.Machine

-- Areas of memory

/-- No address of A lies in these areas. -/
def Clear (A : Nat → Prop) (l : List (Nat × Nat)) : Prop := ∀ x, A x → inAreas l x = false

theorem inAreas_eq_false {l : List (Nat × Nat)} {x : Nat} :
    inAreas l x = false ↔ ∀ p ∈ l, x < p.1 ∨ p.1 + p.2 ≤ x := by
  simp only [inAreas, List.any_eq_false, Bool.and_eq_true, decide_eq_true_eq]
  exact forall₂_congr fun p _ => by omega

theorem Clear.subset {A : Nat → Prop} {l m : List (Nat × Nat)} (h : Clear A l) (hs : m ⊆ l) : Clear A m := fun x hx =>
  inAreas_eq_false.2 fun p hp => inAreas_eq_false.1 (h x hx) p (hs hp)

theorem Clear.mem {A : Nat → Prop} {l : List (Nat × Nat)} {p : Nat × Nat} (h : Clear A l) (hp : p ∈ l) : Clear A [p] :=
  h.subset fun _ hq => List.mem_singleton.1 hq ▸ hp

/-- A part of a clear area is clear. -/
theorem Clear.within {A : Nat → Prop} {p : Nat × Nat} {a n : Nat} (h : Clear A [p]) (h1 : p.1 ≤ a) (h2 : a + n ≤ p.1 + p.2) :
    Clear A [(a, n)] := fun x hx =>
  inAreas_eq_false.2 fun q hq => by
    have hp := inAreas_eq_false.1 (h x hx) p (List.mem_singleton_self p)
    rw [List.mem_singleton.1 hq]
    omega

/-- An empty area is clear. -/
theorem Clear.empty {A : Nat → Prop} {a : Nat} : Clear A [(a, 0)] := fun x _ =>
  inAreas_eq_false.2 fun q hq => by rw [List.mem_singleton.1 hq]; exact Nat.lt_or_ge x a

theorem Clear.ring {A : Nat → Prop} {s : State} {d k : Nat} (h : Clear A s.ringAreas) (hd : d < 32) (hk : k < 12) :
    Clear A [s.ringArea d k] :=
  h.mem (List.mem_flatMap.2 ⟨d, List.mem_range.2 hd, List.mem_map.2 ⟨k, List.mem_range.2 hk, rfl⟩⟩)

-- The frame

/-- The parts of the device that no engine instruction changes; every other part is blanked. -/
def State.device (s : State) : State :=
  { s with eng := .init, mem := [], poison := [], cfg := [], mbx := [], doms := [], parts := [], mgmt := .init, log := .init,
           freeCount := 0, out := [] }

/-- A register other than those that say where the trace rings lie (Table 20-4). -/
def NotRingPlace (c : Nat) : Prop := ∀ d k, d < 32 → k < 12 → c ≠ ringBase d k + 8

/-- From s to t an engine operation of stream i has changed no other stream, no tally, no place of a trace ring, no byte at an
address of A, and no part of the device but engines, memory, configuration space, mailboxes, power domains, partitions,
management and error reporting. -/
structure Spares (i : Nat) (A : Nat → Prop) (s t : State) : Prop where
  device : t.device = s.device
  streams : ∀ j, j ≠ i → t.stream j = s.stream j
  tallies : t.eng.tallies = s.eng.tallies
  rings : ∀ d k, d < 32 → k < 12 → t.ringArea d k = s.ringArea d k
  bytes : ∀ a, A a → t.rd1 a = s.rd1 a

variable {i : Nat} {A : Nat → Prop} {s t u : State}

theorem Spares.refl : Spares i A s s := ⟨rfl, fun _ _ => rfl, rfl, fun _ _ _ _ => rfl, fun _ _ => rfl⟩

/-- A state with the same engine programs, configuration space and memory. -/
theorem Spares.same (h : Spares i A s t) (hd : u.device = t.device) (hs : u.eng.streams = t.eng.streams)
    (ht : u.eng.tallies = t.eng.tallies) (hc : u.cfg = t.cfg) (hm : u.mem = t.mem) : Spares i A s u where
  device := hd.trans h.device
  streams j hj := by rw [← h.streams j hj, State.stream, State.stream, hs]
  tallies := ht.trans h.tallies
  rings d k hdd hk := by rw [← h.rings d k hdd hk]; simp only [State.ringArea, State.cfgF, State.cfgW, hc]
  bytes a ha := by rw [← h.bytes a ha, State.rd1, State.rd1, hm]

theorem Spares.ite {c : Prop} [Decidable c] (ht : Spares i A s t) (hu : Spares i A s u) :
    Spares i A s (if c then t else u) := by
  split
  · exact ht
  · exact hu

theorem Spares.setCfgW {c : Nat} {v : W64} (h : Spares i A s t) (hc : NotRingPlace c) : Spares i A s (t.setCfgW c v) where
  device := h.device
  streams := h.streams
  tallies := h.tallies
  rings d k hd hk := by
    rw [← h.rings d k hd hk]
    simp only [State.ringArea, State.cfgF, cfgW_setCfgW_ne t v (hc d k hd hk).symm]
  bytes := h.bytes

theorem Spares.setCfgF {c lo n v : Nat} (h : Spares i A s t) (hc : NotRingPlace c) : Spares i A s (t.setCfgF c lo n v) :=
  h.setCfgW hc

theorem Spares.bumpCfg {c lo n k : Nat} (h : Spares i A s t) (hc : NotRingPlace c) : Spares i A s (t.bumpCfg c lo n k) :=
  h.setCfgF hc

theorem Spares.setStream {x : StreamSt} (h : Spares i A s t) : Spares i A s (t.setStream i x) where
  device := h.device
  streams j hj := (stream_setStream_ne t x hj).trans (h.streams j hj)
  tallies := h.tallies
  rings := h.rings
  bytes := h.bytes

/-- Bytes stored in a clear area. -/
theorem Spares.wr {a : Nat} {bs : List Byte} (h : Spares i A s t) (hc : Clear A [(a, bs.length)]) :
    Spares i A s (t.wr a bs) where
  device := h.device
  streams := h.streams
  tallies := h.tallies
  rings := h.rings
  bytes x hx := by
    rw [rd1_wr_ne t bs (inAreas_eq_false.1 (hc x hx) (a, bs.length) (List.mem_singleton_self _))]
    exact h.bytes x hx

theorem Spares.setPart {p : Nat} {x : PartSt} (h : Spares i A s t) : Spares i A s (t.setPart p x) := h.same rfl rfl rfl rfl rfl
theorem Spares.setDom {k : Nat} {x : Dom} (h : Spares i A s t) : Spares i A s (t.setDom k x) := h.same rfl rfl rfl rfl rfl
theorem Spares.raise {e : ErrEvent} (h : Spares i A s t) : Spares i A s (t.raise e) := h.same rfl rfl rfl rfl rfl
theorem Spares.emit {o : Output} (h : Spares i A s t) : Spares i A s (t.emit o) := h.same rfl rfl rfl rfl rfl
theorem Spares.setMbxW {a : Nat} {v : W64} (h : Spares i A s t) : Spares i A s (t.setMbxW a v) := h.same rfl rfl rfl rfl rfl
theorem Spares.setMbxF {a lo n v : Nat} (h : Spares i A s t) : Spares i A s (t.setMbxF a lo n v) := h.setMbxW
theorem Spares.setAcc {c r k : Nat} {v : W32} (h : Spares i A s t) : Spares i A s (t.setAcc c r k v) :=
  h.same rfl rfl rfl rfl rfl
theorem Spares.wsLeave {c ch : Nat} (h : Spares i A s t) : Spares i A s (t.wsLeave c ch) := h.same rfl rfl rfl rfl rfl

-- Faults, misses and accesses that wait (R93, R145, R22)

theorem faultReg_notRingPlace (_hi : i < 576) : NotRingPlace (faultReg i) := by
  intro d k hd hk
  unfold faultReg ringBase coreCfg dieCfg
  split
  · omega
  · split <;> omega

theorem Spares.recordFault {c pc : Nat} (h : Spares i A s t) (hi : i < 576) : Spares i A s (t.recordFault i c pc) := by
  unfold State.recordFault
  split
  · exact h
  · exact h.setCfgW (faultReg_notRingPlace hi)

theorem Spares.fault {c : Nat} (h : Spares i A s t) (hi : i < 576) : Spares i A s (t.fault i c) :=
  (h.recordFault hi).raise.setStream

theorem Spares.accessError {a : Nat} {iso : Bool} (h : Spares i A s t) : Spares i A s (t.accessError i a iso) := h.raise

theorem Spares.missAt (h : Spares i A s t) : Spares i A s (t.missAt i) := h.setStream.same rfl rfl rfl rfl rfl

theorem Spares.holdStream {k : Nat} (h : Spares i A s t) : Spares i A s (t.holdStream i k) := h.same rfl rfl rfl rfl rfl

theorem Spares.startOn {k : Nat} (h : Spares i A s t) : Spares i A s (t.startOn k) := by
  simp only [State.startOn]
  split
  · exact h
  · exact h.setDom
  · split
    · exact h.setDom
    · exact h

theorem Spares.requestWake {k : Nat} (h : Spares i A s t) : Spares i A s (t.requestWake k) := by
  unfold State.requestWake
  split
  · exact h.setPart
  · exact h.startOn

-- Trace rings, reports and notices (R506, R557, R559)

theorem natLe_length (k n : Nat) : (natLe k n).length = k := by
  induction k generalizing n with
  | zero => rfl
  | succ k ih => rw [natLe, List.length_cons, ih]

theorem traceBytes_length (gc type eng : Nat) (payload : List Byte) : (traceBytes gc type eng payload).length = 32 := by
  simp [traceBytes, natLe_length]

/-- The registers of a ring beside its place. -/
theorem ring_notRingPlace {d k off : Nat} (_hd : d < 32) (_hk : k < 12) (ho : off < 64) (h8 : off ≠ 8) :
    NotRingPlace (ringBase d k + off) := by
  intro e m he hm
  unfold ringBase dieCfg
  omega

/-- An entry of 32 B lies in its slot of the ring. -/
theorem Spares.ringPut {d k : Nat} {bs : List Byte} (h : Spares i A s t) (hd : d < 32) (hk : k < 12)
    (hc : Clear A [s.ringArea d k]) (hl : bs.length = 32) : Spares i A s (t.ringPut d k bs) := by
  unfold State.ringPut
  refine Spares.setCfgW (h.wr ?_) (ring_notRingPlace hd hk (by decide) (by decide))
  rw [hl]
  have hslot := Nat.mod_lt (t.cfgW (ringBase d k + 16)).toNat (Nat.two_pow_pos (t.cfgF (ringBase d k + 8) 48 5))
  refine Clear.within (h.rings d k hd hk ▸ hc) ?_ ?_ <;> simp only [State.ringArea]
  · exact Nat.le_add_right _ _
  · omega

theorem Spares.trace {d k type eng : Nat} {payload : List Byte} (h : Spares i A s t) (hd : d < 32) (hk : k < 12)
    (hc : Clear A [s.ringArea d k]) : Spares i A s (t.trace d k type eng payload) := by
  have hput := h.ringPut hd hk hc (traceBytes_length t.gc type eng payload)
  simp only [State.trace]
  split
  · exact h
  split
  · split
    · exact h.bumpCfg (ring_notRingPlace hd hk (by decide) (by decide))
    · exact hput
  split
  · split
    · exact hput.setCfgF (ring_notRingPlace (off := 0) hd hk (by decide) (by decide))
    · exact hput
  · exact h

theorem Spares.ringTrigger {d k : Nat} (h : Spares i A s t) (hd : d < 32) (hk : k < 12) (hc : Clear A [s.ringArea d k]) :
    Spares i A s (t.ringTrigger d k) := by
  simp only [State.ringTrigger]
  split
  · exact h
  · exact ((h.ringPut hd hk hc (traceBytes_length ..)).setCfgW (ring_notRingPlace hd hk (by decide) (by decide))).setCfgF
      (ring_notRingPlace (off := 0) hd hk (by decide) (by decide))

theorem ringOf_lt (hi : i < 576) : (ringOf i).1 < 32 ∧ (ringOf i).2 < 12 := by
  unfold ringOf
  split <;> constructor <;> dsimp only <;> omega

theorem Spares.traceEng {type : Nat} {payload : List Byte} (h : Spares i A s t) (hi : i < 576)
    (hc : Clear A [s.ringArea (ringOf i).1 (ringOf i).2]) : Spares i A s (t.traceEng i type payload) :=
  h.trace (ringOf_lt hi).1 (ringOf_lt hi).2 hc

theorem lt_of_mem_diesOf {p d : Nat} (h : d ∈ s.diesOf p) : d < 32 := by
  unfold State.diesOf at h
  split at h
  · exact List.mem_range.1 (List.mem_filter.1 h).1
  · cases h

theorem Spares.report {p kind code seq : Nat} {hit : Nat → Bool} (h : Spares i A s t) (hr : Clear A s.ringAreas) :
    Spares i A s (t.report p kind code seq hit) := by
  unfold State.report
  have hentry : Spares i A s ((t.diesOf p).foldl (fun v d =>
      v.trace d 11 9 7 (natLe 2 (boolNat (kind == 2)) ++ natLe 2 code ++ natLe 8 seq)) t) :=
    List.foldlRecOn _ _ h fun v hv d hd => hv.trace (lt_of_mem_diesOf hd) (by decide) (hr.ring (lt_of_mem_diesOf hd) (by decide))
  refine List.foldlRecOn _ _ hentry fun v hv d hd => List.foldlRecOn _ _ hv fun v hv k hk => ?_
  dsimp only
  split
  · exact hv.ringTrigger (lt_of_mem_diesOf hd) (List.mem_range.1 hk) (hr.ring (lt_of_mem_diesOf hd) (List.mem_range.1 hk))
  · exact hv

theorem Spares.setIrq {b : Blk} {bit : Nat} (h : Spares i A s t) : Spares i A s (t.setIrq b bit) := by
  have hset : Spares i A s (t.setMbxF (mbxAddr b 0x18) bit 1 1) := h.setMbxF
  simp only [State.setIrq]
  split
  · exact hset
  split
  · exact Spares.ite (Spares.emit (hset.same rfl rfl rfl rfl rfl)) (hset.same rfl rfl rfl rfl rfl)
  · exact hset.emit

theorem Spares.setMbxBytes {a : Nat} {bs : List Byte} (h : Spares i A s t) : Spares i A s (t.setMbxBytes a bs) :=
  List.foldlRecOn _ _ h fun _ hv _ _ => hv.setMbxW

theorem Spares.postTo {b : Blk} {bytes : List Byte} (h : Spares i A s t) : Spares i A s (t.postTo b bytes) := by
  simp only [State.postTo]
  split
  · exact h.setMbxF
  · exact h.setMbxBytes.setMbxF.setIrq

theorem Spares.notice {p : Option Part} {n : Nat} {payload : List Byte} (h : Spares i A s t) (hr : Clear A s.ringAreas) :
    Spares i A s (t.notice p n payload) := by
  unfold State.notice
  cases p with
  | none => exact Spares.postTo (Spares.postTo h)
  | some q => exact Spares.report (Spares.postTo (Spares.postTo h)) hr

-- Issue (R119)

theorem streamIx_lt (st : Stream) : streamIx st < 576 := by
  cases st with
  | core c e => cases e <;> simp only [streamIx] <;> omega
  | die d e => cases e <;> simp only [streamIx] <;> omega

theorem Spares.traceIssue {x : StreamSt} {w : IWord} (h : Spares i A s t) (hi : i < 576)
    (hc : Clear A [s.ringArea (ringOf i).1 (ringOf i).2]) : Spares i A s (t.traceIssue i x w) := h.traceEng hi hc

theorem Spares.startFlight {x : StreamSt} {w : IWord} {busy quiet fallback : Nat} (h : Spares i A s t) (hi : i < 576)
    (hc : Clear A [s.ringArea (ringOf i).1 (ringOf i).2]) : Spares i A s (startFlight t i w x busy quiet fallback) :=
  (h.traceIssue hi hc).setStream

/-- The state after an instruction whose run, from state u after the waits, has ended as r. -/
def Ran.after (r : Ran) (i : Nat) (u : State) (x : StreamSt) : State :=
  match r with
  | .fault c => u.fault i c
  | .bad c a iso => (u.accessError i a iso).fault i c
  | .asleep k => ((u.setStream i x).holdStream i k).requestWake k
  | .full => u.setStream i { x with queue := true }
  | .done v => v

theorem minCause_eq_none {l : List Nat} (h : minCause l = none) : l = [] := by
  cases l with
  | nil => rfl
  | cons _ _ => cases h

/-- What one attempt to issue can do: the fetch or the word faults, the fetch misses, the waits are not met, or the waits
subtract and the instruction runs. -/
theorem issue_cases {st : Stream} {mine : IWord → Bool} {pre : State → StreamSt → IWord → List Nat}
    {run : State → StreamSt → IWord → Ran} (h : issue st mine pre run s = some t) :
    (∃ c, t = s.fault (streamIx st) c) ∨ t = s.missAt (streamIx st)
      ∨ t = s.setStream (streamIx st) { s.stream (streamIx st) with st := .waitTally }
      ∨ ∃ w, s.fetch (streamIx st) = .word w ∧ legalOp st (opOf w) = true ∧ mine w = true
          ∧ pre s (s.stream (streamIx st)) w = []
          ∧ t = (run (s.afterWaits (streamIx st) w) (issuing (s.stream (streamIx st))) w).after (streamIx st)
              (s.afterWaits (streamIx st) w) (issuing (s.stream (streamIx st))) := by
  unfold issue at h
  simp only at h
  split at h
  · cases h
  split at h
  case h_1 => exact .inl ⟨_, (Option.some.inj h).symm⟩
  case h_2 => exact .inr (.inl (Option.some.inj h).symm)
  case h_3 w hw =>
    split at h
    · exact .inl ⟨_, (Option.some.inj h).symm⟩
    rename_i hlegal
    split at h
    · cases h
    rename_i hmine
    split at h
    · exact .inl ⟨_, (Option.some.inj h).symm⟩
    rename_i hpre
    split at h
    · exact .inl ⟨_, (Option.some.inj h).symm⟩
    split at h
    · exact .inr (.inr (.inl (Option.some.inj h).symm))
    refine .inr (.inr (.inr ⟨w, hw, by simpa using hlegal, by simpa using hmine,
      (List.append_eq_nil_iff.1 (minCause_eq_none hpre)).2, ?_⟩))
    generalize hr : run _ _ w = r at h
    change run (s.afterWaits (streamIx st) w) (issuing (s.stream (streamIx st))) w = r at hr
    rw [hr]
    cases r <;> exact (Option.some.inj h).symm

-- The waits of an instruction subtract from their tallies alone

theorem takeWaits_tallies (s : State) (i : Nat) (ws : List Wait) :
    ∃ T, s.takeWaits i ws = { s with eng := { s.eng with tallies := T } } := by
  unfold State.takeWaits
  refine List.foldlRecOn (motive := fun u : State => ∃ T, u = { s with eng := { s.eng with tallies := T } }) _ _ ⟨_, rfl⟩ ?_
  rintro _ ⟨T, rfl⟩ x _
  dsimp only
  split
  · exact ⟨T, rfl⟩
  · exact ⟨_, rfl⟩

theorem afterWaits_tallies (s : State) (i : Nat) (w : IWord) :
    ∃ T, s.afterWaits i w = { s with eng := { s.eng with tallies := T } } := by
  unfold State.afterWaits
  split
  · exact ⟨_, rfl⟩
  · exact takeWaits_tallies s i (waitsOf w)

theorem tally_lt_of_mem_waitsOf {w : IWord} {x : Wait} (h : x ∈ waitsOf w) : x.tally < 1024 := by
  obtain ⟨lo, _, rfl⟩ := List.mem_map.1 (List.mem_filter.1 h).1
  exact Nat.mod_lt _ (by decide)

theorem afterWaits_tally {w : IWord} {c n : Nat} (hn : n < 1024) (h : waitsOn i w c n = false) :
    (s.afterWaits i w).tally c n = s.tally c n := by
  unfold State.afterWaits State.takeWaits
  split
  · rfl
  refine List.foldlRecOn (motive := fun u : State => u.tally c n = s.tally c n) _ _ rfl fun u hu x hx => ?_
  dsimp only
  split
  · exact hu
  · rename_i hkeep
    have hne : ¬ (waitCore i x = c ∧ x.tally = n) := by
      simpa [hkeep] using List.any_eq_false.1 h x hx
    have hx := tally_lt_of_mem_waitsOf hx
    rw [tally_setTally_ne _ _ (by omega), hu]

-- From the operations to the instruction

theorem engineFrame_of_device (hd : t.device = s.device) (hs : ∀ j, j ≠ i → t.stream j = s.stream j)
    (ht : ∀ core tally, tally < 1024 → (∀ w, s.fetch i = .word w → waitsOn i w core tally = false) →
      t.tally core tally = s.tally core tally) : EngineFrame i s t :=
  ⟨hs, ht, (congrArg State.gc hd :), (congrArg State.pool hd :), (congrArg State.mv hd :), (congrArg State.xch hd :),
    (congrArg State.ce hd :), (congrArg State.net hd :), (congrArg State.time hd :), (congrArg State.svc hd :),
    (congrArg State.pw hd :), (congrArg State.pending hd :)⟩

/-- An attempt that ends before the waits subtract changes no tally. -/
theorem Spares.engineFrame (h : Spares i A s t) : EngineFrame i s t :=
  engineFrame_of_device h.device h.streams fun c n _ _ => by rw [State.tally, State.tally, h.tallies]

theorem Spares.frame (h : Spares i A s t) : EngineFrame i s t ∧ ∀ a, A a → t.rd1 a = s.rd1 a := ⟨h.engineFrame, h.bytes⟩

/-- What the instruction w spares once its waits have subtracted, it leaves unchanged from its issue on. -/
theorem Spares.engineFrame_afterWaits {w : IWord} (h : Spares i A (s.afterWaits i w) t) (hw : s.fetch i = .word w) :
    EngineFrame i s t ∧ ∀ a, A a → t.rd1 a = s.rd1 a := by
  obtain ⟨T, hT⟩ := afterWaits_tallies s i w
  have htally : ∀ c n, t.tally c n = (s.afterWaits i w).tally c n := fun c n => by
    rw [State.tally, State.tally, h.tallies]
  obtain ⟨hd, hs, -, -, hb⟩ := h
  rw [hT] at hd hs hb
  exact ⟨engineFrame_of_device hd hs fun c n hn hwait => (htally c n).trans (afterWaits_tally hn (hwait w hw)), hb⟩

/-- An instruction spares what its completed run spares: a fault, a miss and a wait store nothing in memory. -/
theorem attempt_issue_frame {st : Stream} {mine : IWord → Bool} {pre : State → StreamSt → IWord → List Nat}
    {run : State → StreamSt → IWord → Ran} (h : attempt s (issue st mine pre run s) = .next t)
    (hrun : ∀ w v, s.fetch (streamIx st) = .word w → pre s (s.stream (streamIx st)) w = [] →
      run (s.afterWaits (streamIx st) w) (issuing (s.stream (streamIx st))) w = .done v →
      Spares (streamIx st) A (s.afterWaits (streamIx st) w) v) :
    EngineFrame (streamIx st) s t ∧ ∀ a, A a → t.rd1 a = s.rd1 a := by
  have hi := streamIx_lt st
  cases hissue : issue st mine pre run s with
  | none =>
    rw [attempt_none hissue] at h
    cases h
    exact Spares.frame .refl
  | some v =>
    rw [attempt_some hissue] at h
    cases h
    rcases issue_cases hissue with ⟨c, rfl⟩ | rfl | rfl | ⟨w, hw, -, -, hpre, rfl⟩
    · exact Spares.frame (Spares.fault .refl hi)
    · exact Spares.frame (Spares.missAt .refl)
    · exact Spares.frame (Spares.setStream .refl)
    · refine Spares.engineFrame_afterWaits ?_ hw
      cases hr : run (s.afterWaits (streamIx st) w) (issuing (s.stream (streamIx st))) w with
      | fault c => exact Spares.fault .refl hi
      | bad c a iso => exact Spares.fault (Spares.accessError .refl) hi
      | asleep k => exact (Spares.setStream .refl).holdStream.requestWake
      | full => exact Spares.setStream .refl
      | done v => exact hrun w v hw hpre hr

end Sys2Proof.Machine
end

section
/-! PROOFS. What the operands of the compute engines store: sentinel records, rows of a tensor, and the write-set checker's
notices. -/

namespace Sys2Proof.Machine

variable {i : Nat} {A : Nat → Prop} {s t : State}

-- Sentinel records (R107)

/-- The partial record of a core in a sentinel slot. -/
def sentArea (core slot : Nat) : Nat × Nat := (slot + 128 + 64 * core, 32)

theorem Spares.sentUpdate {core slot : Nat} {x : SentAdd} (h : Spares i A s t) (hc : Clear A [sentArea core slot]) :
    Spares i A s (t.sentUpdate core slot x) := by
  unfold State.sentUpdate
  split
  · exact h
  · refine Spares.wr h ?_
    simp only [List.length_append, natLe_length]
    exact hc

theorem Spares.countInvalid {core c0 n : Nat} {d : Desc} {rows : List Nat} (h : Spares i A s t)
    (hc : Clear A [sentArea core d.sent]) : Spares i A s (t.countInvalid core d rows c0 n) := by
  unfold State.countInvalid
  exact Spares.ite h (h.sentUpdate hc)

-- Element bytes of a row (R32)

theorem mem_chunksOf_zipIdx {α : Type} {n k m : Nat} {l : List α} {p : List α × Nat}
    (hp : p ∈ (chunksOf n k l).zipIdx m) :
    p.1.length ≤ n ∧ n * (p.2 - m) < l.length ∧ n * (p.2 - m) + p.1.length ≤ l.length ∧ m ≤ p.2 := by
  induction k generalizing l m with
  | zero => cases hp
  | succ k ih =>
    cases l with
    | nil => cases hp
    | cons x l =>
      rw [chunksOf, List.zipIdx_cons, List.mem_cons] at hp
      · rcases hp with rfl | hp
        · simp only [List.length_take, List.length_cons, Nat.sub_self, Nat.mul_zero]
          omega
        · obtain ⟨h1, h2, h3, h4⟩ := ih hp
          obtain ⟨q, hq⟩ : ∃ q, p.2 = m + 1 + q := ⟨p.2 - (m + 1), by omega⟩
          rw [List.length_drop, hq, Nat.add_sub_cancel_left] at h2 h3
          rw [hq, Nat.add_assoc, Nat.add_sub_cancel_left, Nat.mul_add, Nat.mul_one]
          omega
      · exact fun h => List.cons_ne_nil _ _ h

/-- Run q of a list cut into runs of n starts at place n × q, inside the list, and ends inside it. -/
theorem mem_cut_zipIdx {α : Type} {n : Nat} {l : List α} {p : List α × Nat} (hp : p ∈ (cut n l).zipIdx) :
    p.1.length ≤ n ∧ n * p.2 < l.length ∧ n * p.2 + p.1.length ≤ l.length := by
  obtain ⟨h1, h2, h3, -⟩ := mem_chunksOf_zipIdx hp
  exact ⟨h1, h2, h3⟩

theorem chunksOf_length {α : Type} {n k : Nat} (hn : 0 < n) {l : List α} (hk : l.length ≤ k) :
    (chunksOf n k l).length = (l.length + n - 1) / n := by
  induction k generalizing l with
  | zero =>
    rw [List.length_eq_zero_iff.1 (Nat.le_zero.1 hk), chunksOf]
    exact (Nat.div_eq_of_lt (by simp; omega)).symm
  | succ k ih =>
    cases l with
    | nil => exact (Nat.div_eq_of_lt (by simp; omega)).symm
    | cons x l =>
      rw [chunksOf, List.length_cons, ih (by rw [List.length_drop, List.length_cons] at *; omega), List.length_drop,
        ← Nat.add_div_right _ hn]
      · rcases Nat.le_total n (x :: l).length with hle | hle
        · congr 1; omega
        · rw [Nat.sub_eq_zero_of_le hle, List.length_cons] at *
          rw [Nat.div_eq_of_lt_le (k := 1), Nat.div_eq_of_lt_le (k := 1)] <;> omega
      · exact fun h => List.cons_ne_nil _ _ h

theorem cut_length {α : Type} {n : Nat} (hn : 0 < n) (l : List α) : (cut n l).length = (l.length + n - 1) / n :=
  chunksOf_length hn (Nat.le_refl _)

theorem packCodes_length (enc : Enc) (codes : List Nat) : (packCodes enc codes).length = (codes.length * enc.bits + 7) / 8 := by
  have hwhole (k : Nat) : (codes.map fun c => natLe k c).flatten.length = codes.length * k := by
    induction codes with
    | nil => exact (Nat.zero_mul k).symm
    | cons c codes ih =>
      rw [List.map_cons, List.flatten_cons, List.length_append, natLe_length, ih, List.length_cons, Nat.succ_mul]
      exact Nat.add_comm _ _
  cases enc
  case e2m1 =>
    simp only [packCodes, Enc.bits, List.length_map, cut_length (by decide : 0 < 2)]
    omega
  case t2 =>
    simp only [packCodes, Enc.bits, List.length_map, cut_length (by decide : 0 < 4)]
    omega
  all_goals
    simp only [packCodes, Enc.bits, hwhole]
    omega

/-- Element codes lie in the whole bytes that their bits touch. -/
theorem Spares.putCodes {d : Desc} {r c : Nat} {codes : List Nat} (h : Spares i A s t)
    (hc : Clear A [(d.base + r * d.stride + c * d.format.enc.bits / 8, (codes.length * d.format.enc.bits + 7) / 8)]) :
    Spares i A s (t.putCodes d r c codes) := by
  have hl := packCodes_length d.format.enc codes
  simp only [State.putCodes]
  split
  · exact h.wr (by rwa [hl])
  · rename_i hpart
    refine h.wr ?_
    have hpos : 0 < codes.length * d.format.enc.bits := Nat.pos_of_ne_zero fun h0 => by simp [h0] at hpart
    rw [List.length_append, List.length_take, hl, List.length_singleton]
    exact hc.within (Nat.le_refl _) (by dsimp only; omega)

/-- Codes stored at columns of a clear run of the row. -/
theorem Spares.putCodes_row {d : Desc} {r c c0 n : Nat} {codes : List Nat} (h : Spares i A s t)
    (hc : Clear A (d.rowParts r c0 n)) (h1 : c0 ≤ c) (h2 : c + codes.length ≤ c0 + n) : Spares i A s (t.putCodes d r c codes) := by
  refine h.putCodes ?_
  rcases Nat.eq_zero_or_pos n with rfl | hn
  · rw [show codes.length = 0 by omega, Nat.zero_mul]
    exact Clear.empty
  · have hlo := Nat.mul_le_mul_right d.format.enc.bits h1
    have hhi := Nat.mul_le_mul_right d.format.enc.bits h2
    rw [Nat.add_mul] at hhi
    have hfirst := hc.mem (p := (d.base + r * d.stride + c0 * d.format.enc.bits / 8,
      ((c0 + n) * d.format.enc.bits + 7) / 8 - c0 * d.format.enc.bits / 8)) (by simp [Desc.rowParts, Nat.ne_of_gt hn])
    exact hfirst.within (by dsimp only; omega) (by dsimp only; omega)

/-- The scale of a block of a clear run of the row. -/
theorem Spares.putScale_row {d : Desc} {r c c0 n code : Nat} (h : Spares i A s t)
    (hc : Clear A (d.rowParts r c0 n)) (h1 : c0 ≤ c) (h2 : c < c0 + n) : Spares i A s (t.putScale d r c code) := by
  simp only [State.putScale]
  split
  · exact h
  · rename_i hblk
    refine h.wr ?_
    have hscale := hc.mem (p := (d.base + r * d.stride + d.format.elemBytes d.cols + c0 / d.format.block,
      (c0 + n - 1) / d.format.block - c0 / d.format.block + 1)) (by
        rw [Desc.rowParts]
        simp [show n ≠ 0 by omega, show d.format.block ≠ 0 by simpa using hblk])
    have hlo : c0 / d.format.block ≤ c / d.format.block := Nat.div_le_div_right h1
    have hhi : c / d.format.block ≤ (c0 + n - 1) / d.format.block := Nat.div_le_div_right (by omega)
    rw [List.length_singleton]
    exact hscale.within (by dsimp only; omega) (by dsimp only; omega)

/-- The columns that n values take: the rest of a partial last block is written too (R72). -/
def Desc.padded (d : Desc) (n : Nat) : Nat :=
  if d.format.block == 0 then n else (n + d.format.block - 1) / d.format.block * d.format.block

/-- A block that begins below n ends within the padded columns. -/
theorem Desc.block_le_padded {d : Desc} {n q : Nat} (hb : d.format.block ≠ 0) (hq : d.format.block * q < n) :
    d.format.block * q + d.format.block ≤ d.padded n := by
  have hpos := Nat.pos_of_ne_zero hb
  have hle : q + 1 ≤ (n + d.format.block - 1) / d.format.block :=
    (Nat.le_div_iff_mul_le hpos).2 (by rw [Nat.add_mul, Nat.mul_comm q]; omega)
  rw [Desc.padded, if_neg (by simpa using hb), ← Nat.mul_succ, Nat.mul_comm]
  exact Nat.mul_le_mul_right _ hle

/-- A run of values is stored in its columns of the row, block by block. -/
theorem Spares.putRow {d : Desc} {seed : W64} {stepNo : W32} {r c : Nat} {xs : List W32} (h : Spares i A s t)
    (hc : Clear A (d.rowParts r c (d.padded xs.length))) : Spares i A s (t.putRow d seed stepNo r c xs).1 := by
  unfold State.putRow
  refine List.foldlRecOn (motive := fun p : State × SentAdd => Spares i A s p.1) _ _ h fun v hv p hp => ?_
  dsimp only
  by_cases hb : d.format.block = 0
  · simp only [hb, beq_self_eq_true, if_true] at hp ⊢
    obtain ⟨-, hlt, hle⟩ := mem_cut_zipIdx hp
    have hpad : d.padded xs.length = xs.length := by simp [Desc.padded, hb]
    rw [hpad] at hc
    refine Spares.putScale_row (Spares.putCodes_row hv hc (Nat.le_add_right _ _) ?_) hc (Nat.le_add_right _ _) (by omega)
    simp only [convBlock, List.length_map, List.length_zipIdx]
    omega
  · have hb' : (d.format.block == 0) = false := by simpa using hb
    simp only [hb', Bool.false_eq_true, if_false] at hp ⊢
    obtain ⟨-, hlt, -⟩ := mem_cut_zipIdx hp
    have hend := Desc.block_le_padded hb hlt
    refine Spares.putScale_row (Spares.putCodes_row hv hc (Nat.le_add_right _ _) ?_) hc (Nat.le_add_right _ _) (by omega)
    rw [List.length_take]
    omega

theorem Spares.putZeros {d : Desc} {r c n : Nat} (h : Spares i A s t) (hc : Clear A (d.rowParts r c (d.padded n))) :
    Spares i A s (t.putZeros d r c n) := by
  have hcodes : Spares i A s (t.putCodes d r c (List.replicate (d.padded n) 0)) :=
    h.putCodes_row hc (Nat.le_refl _) (Nat.add_le_add_left (Nat.le_of_eq List.length_replicate) c)
  unfold State.putZeros
  refine Spares.ite hcodes (List.foldlRecOn (motive := fun v : State => Spares i A s v) _ _ hcodes fun v hv q hq => ?_)
  have hend : q + 1 ≤ d.padded n / d.format.block := List.mem_range.1 hq
  rcases Nat.eq_zero_or_pos d.format.block with hb | hb
  · simp [hb] at hend
  · have hle := (Nat.le_div_iff_mul_le hb).1 hend
    rw [Nat.succ_mul] at hle
    exact hv.putScale_row hc (Nat.le_add_right _ _) (by omega)

-- The write-set checker (R311)

theorem chanReg_notRingPlace {core ch off : Nat} (_h : core < 144) (_hc : ch ≤ 32) (_ho : off < 32) :
    NotRingPlace (chanReg core ch off) := by
  intro d k _ _
  unfold chanReg coreCfg ringBase dieCfg
  omega

/-- A range that enters counts its hits and posts notices of them. -/
theorem Spares.wsEnter {x : WsRange} (h : Spares i A s t) (hr : Clear A s.ringAreas) (hcore : x.core < 144)
    (hchan : x.chan ≤ 32) : Spares i A s (t.wsEnter x) := by
  have hch : (if x.chan == 32 then 0 else x.chan) ≤ 32 := by split <;> omega
  simp only [State.wsEnter]
  generalize (if x.chan == 32 then 0 else x.chan) = ch at hch ⊢
  generalize hfold : List.foldl _ t _ = v
  have hhits : Spares i A s v := by
    rw [← hfold]
    refine List.foldlRecOn (motive := fun v : State => Spares i A s v) _ _ h fun v hv o _ => ?_
    have hbump : Spares i A s (v.bumpCfg (chanReg x.core ch 0x18) 0 32 1) :=
      hv.bumpCfg (chanReg_notRingPlace hcore hch (by decide))
    split
    · exact hbump
    · refine Spares.notice ?_ hr
      exact hbump.same rfl rfl rfl rfl rfl
  exact hhits.same rfl rfl rfl rfl rfl

end Sys2Proof.Machine
end

section
/-! PROOFS. What a matrix instruction leaves unchanged (O55). -/

namespace Sys2Proof.Machine

variable {i : Nat} {A : Nat → Prop} {s t : State}

-- The output stage (R72, R76)

/-- An output row changes accumulators and stack entries alone. -/
theorem Spares.meRow {s0 : State} {j : MeJob} {cover : List Nat} {r : Nat} (h : Spares i A s t) :
    Spares i A s (s0.meRow t j cover r).1 := by
  unfold State.meRow
  refine List.foldlRecOn (motive := fun p : State × List W32 => Spares i A s p.1) _ _ h fun p hp c _ => ?_
  generalize hnodes : List.foldl _ _ (s0.meNodes j r c).1 = st
  have hacc : Spares i A s (if j.sh != .mxo && j.kb < 512
      then p.1.setAcc j.core (j.f.accRow + r) c (s0.meNodes j r c).2 else p.1) := hp.setAcc.ite hp
  dsimp only
  split
  · exact hacc
  · exact List.foldlRecOn (motive := fun v : State => Spares i A s v) _ _ hacc fun v hv _ _ => hv.setAcc

/-- The block that reaches RANGE_END gives one finished value for each of its N columns. -/
theorem meRow_length {s0 : State} {j : MeJob} {cover : List Nat} {r : Nat} (hj : j.last = true) :
    (s0.meRow t j cover r).2.length = j.f.n := by
  have hcols : ∀ (l : List Nat) (f : State × List W32 → Nat → State × List W32),
      (∀ p c, (f p c).2.length = p.2.length + 1) → ∀ p, (l.foldl f p).2.length = p.2.length + l.length := by
    intro l f hf
    induction l with
    | nil => exact fun p => rfl
    | cons c l ih => exact fun p => by rw [List.foldl_cons, ih, hf, List.length_cons]; omega
  rw [State.meRow, hcols, List.length_range, List.length_nil, Nat.zero_add]
  intro p c
  simp only [hj, if_true, List.length_append, List.length_singleton]

/-- The columns that a row of the block writes (R72). -/
theorem MeJob.clear_row {j : MeJob} {r : Nat} (hj : j.last = true) (hr : r < j.f.m) (hc : Clear A j.writes) :
    Clear A (j.dout.rowParts (j.f.mOff + r) j.f.nOff (j.dout.padded j.f.n)) := by
  rw [MeJob.writes, if_pos hj] at hc
  exact hc.subset fun _ hp => List.mem_flatten.2 ⟨_, List.mem_map.2 ⟨r, List.mem_range.2 hr, rfl⟩, hp⟩

/-- The effect of a job stores in its block of OUT and in the sentinel record of OUT. -/
theorem Spares.meEffect {j : MeJob} (h : Spares i A s t) (hc : Clear A j.writes)
    (hsent : Clear A [sentArea j.core j.dout.sent]) : Spares i A s (t.meEffect j) := by
  unfold State.meEffect
  dsimp only
  generalize hrows : List.foldl _ (t, sentZero) _ = p
  have hp : Spares i A s p.1 := by
    rw [← hrows]
    refine List.foldlRecOn (motive := fun p : State × SentAdd => Spares i A s p.1) _ _ h fun p hp r hr => ?_
    have hrow : Spares i A s (t.meRow p.1 j (t.meStack j) r).1 := hp.meRow
    by_cases hj : j.last = true
    · have hclear := MeJob.clear_row hj (List.mem_range.1 hr) hc
      simp only [hj, Bool.not_true, Bool.false_eq_true, if_false]
      split
      · exact Spares.putRow hrow (by rwa [List.length_map, meRow_length hj])
      · exact hrow.putZeros hclear
    · simp only [hj, Bool.not_false, if_true]
      exact hrow
  have hsum : Spares i A s (if j.last then p.1.sentUpdate j.core j.dout.sent p.2 else p.1) := (hp.sentUpdate hsent).ite hp
  exact hsum.same rfl rfl rfl rfl rfl

-- Counts of an instruction (R31, R81, R82)

theorem Spares.sentInvalid {core n : Nat} {d : Desc} (h : Spares i A s t) (hc : Clear A [sentArea core d.sent]) :
    Spares i A s (t.sentInvalid core d n) := by
  unfold State.sentInvalid
  exact Spares.ite h (h.sentUpdate hc)

theorem Spares.meInvalid {j : MeJob} (h : Spares i A s t) (ha : Clear A [sentArea j.core j.da.sent])
    (hb : Clear A [sentArea j.core j.db.sent]) : Spares i A s (t.meInvalid j) := by
  simp only [State.meInvalid]
  split
  · exact h
  generalize hcount : (if j.sh == .mxc then _ else _ : State) = v
  have hv : Spares i A s v := by
    rw [← hcount]
    exact Spares.ite (h.sentInvalid ha) (Spares.ite (h.sentInvalid ha) (h.countInvalid ha))
  exact Spares.ite (hv.sentInvalid hb) (Spares.ite (hv.countInvalid hb) (hv.countInvalid hb))

theorem Spares.meMapCounts {j : MeJob} {dense : Bool} (h : Spares i A s t) : Spares i A s (t.meMapCounts j dense) := by
  simp only [State.meMapCounts]
  split <;> exact h.same rfl rfl rfl rfl rfl

-- The instruction

/-- A matrix instruction stores in its block of OUT, in the sentinel records of its operands and in trace rings. -/
theorem Spares.meFinish {x : StreamSt} {w : IWord} {j : MeJob} (h : Spares i A s t) (hi : i < 576) (hr : Clear A s.ringAreas)
    (hcore : j.core < 144) (hw : Clear A j.writes) (ha : Clear A [sentArea j.core j.da.sent])
    (hb : Clear A [sentArea j.core j.db.sent]) (ho : Clear A [sentArea j.core j.dout.sent]) :
    Spares i A s (t.meFinish i x w j) := by
  have hstored : Spares i A s (((t.meInvalid j).meEffect j).meMapCounts j
      (j.s24 && !j.quiet && !j.tiles.all fun x => t.tileRuns j.mapBase j.db.cols (kb24 j.cls) x.1 x.2)) :=
    ((h.meInvalid ha hb).meEffect hw ho).meMapCounts
  have hread := (hstored.wsLeave (c := j.core) (ch := 32)).wsEnter
    (x := ⟨j.core, 32, false, (boundOf j.reads).1, (boundOf j.reads).2⟩) hr hcore (Nat.le_refl _)
  have hwrite := hread.wsEnter (x := ⟨j.core, 32, true, (boundOf j.writes).1, (boundOf j.writes).2⟩) hr hcore (Nat.le_refl _)
  have hring := hr.ring (ringOf_lt hi).1 (ringOf_lt hi).2
  simp only [State.meFinish]
  exact Spares.startFlight (hwrite.ite hread) hi hring

/-- A run of the matrix engine that completes is that of a job whose formats pair. -/
theorem runMe_eq_done {sh : Shape} {u v : State} {x : StreamSt} {w : IWord} (h : runMe sh i u x w = .done v) :
    ∃ g cls, pairFor sh (sparse24 sh w) (u.desc (i / 4) (meF x w).a).fmt (u.desc (i / 4) (meF x w).b).fmt = some (g, cls)
      ∧ v = u.meFinish i x w (u.meJob sh (i / 4) x w g cls) := by
  simp only [runMe] at h
  split at h
  · cases h
  split at h
  · cases h
  rename_i g cls hpair
  split at h
  · cases h
  split at h
  · cases h
  · cases h
  · exact ⟨g, cls, hpair, (Ran.done.inj h).symm⟩

/-- The bytes that the instruction of shape sh at state s may not store in. -/
def meSpared (sh : Shape) (i : Nat) (s : State) (a : Nat) : Prop :=
  inAreas s.ringAreas a = false ∧ ∀ w, s.fetch i = .word w →
    let u := s.afterWaits i w
    let f := meF (s.stream i) w
    inAreas (u.partialAreas (i / 4) [f.a, f.b, f.out]) a = false
    ∧ ∀ g cls, pairFor sh (sparse24 sh w) (u.desc (i / 4) f.a).fmt (u.desc (i / 4) f.b).fmt = some (g, cls) →
      inAreas (u.meJob sh (i / 4) (issuing (s.stream i)) w g cls).writes a = false

theorem afterWaits_ringAreas (w : IWord) : (s.afterWaits i w).ringAreas = s.ringAreas := by
  obtain ⟨T, hT⟩ := afterWaits_tallies s i w
  rw [hT]
  rfl

/-- A matrix instruction's completed run spares every byte outside the areas of its operands. -/
theorem runMe_spares {sh : Shape} {v : State} {w : IWord} (hi : i < 576) (hw : s.fetch i = .word w)
    (h : runMe sh i (s.afterWaits i w) (issuing (s.stream i)) w = .done v) :
    Spares i (meSpared sh i s) (s.afterWaits i w) v := by
  obtain ⟨g, cls, hpair, rfl⟩ := runMe_eq_done h
  have hring : Clear (meSpared sh i s) (s.afterWaits i w).ringAreas := by
    rw [afterWaits_ringAreas]
    exact fun a ha => ha.1
  have hwrites : Clear (meSpared sh i s) ((s.afterWaits i w).meJob sh (i / 4) (issuing (s.stream i)) w g cls).writes :=
    fun a ha => (ha.2 w hw).2 g cls hpair
  have hsent (h : Nat) (hh : h ∈ [(meF (s.stream i) w).a, (meF (s.stream i) w).b, (meF (s.stream i) w).out]) :
      Clear (meSpared sh i s) [sentArea (i / 4) ((s.afterWaits i w).desc (i / 4) h).sent] :=
    Clear.mem (fun a ha => (ha.2 w hw).1) (List.mem_map.2 ⟨h, hh, rfl⟩)
  have hcore : i / 4 < 144 := by omega
  have ha := hsent _ (List.mem_cons_self ..)
  have hb := hsent _ (List.mem_cons_of_mem _ (List.mem_cons_self ..))
  have ho := hsent _ (List.mem_cons_of_mem _ (List.mem_cons_of_mem _ (List.mem_cons_self ..)))
  exact Spares.meFinish .refl hi hring hcore hwrites ha hb ho

/-- Settles O55: a matrix row attempts its shape, whose run spares what lies outside its operands' areas. -/
theorem matrixInstructionsFrame : Obligations.MatrixInstructionsFrame := by
  unfold Obligations.MatrixInstructionsFrame
  intro st c sh s t hrow hexec i
  have hattempt : attempt s (execMe sh st s) = .next t := by
    simp only [List.mem_cons, List.not_mem_nil, or_false, Prod.mk.injEq] at hrow
    rcases hrow with ⟨rfl, rfl⟩ | ⟨rfl, rfl⟩ | ⟨rfl, rfl⟩ | ⟨rfl, rfl⟩ | ⟨rfl, rfl⟩ | ⟨rfl, rfl⟩ <;> exact hexec
  obtain ⟨hframe, hbytes⟩ := attempt_issue_frame (A := meSpared sh i s) hattempt fun w v hw _ hrun =>
    runMe_spares (streamIx_lt st) hw hrun
  exact ⟨hframe, fun a hring hareas => hbytes a ⟨hring, hareas⟩⟩

end Sys2Proof.Machine
end

section
/-! PROOFS. What a vector operation leaves unchanged (O56). -/

namespace Sys2Proof.Machine

variable {i : Nat} {A : Nat → Prop} {s t : State}

-- Rows of values, rotated or not (R53, R54)

theorem chunksOf_flatten {α : Type} {n k : Nat} (hn : 0 < n) {l : List α} (hk : l.length ≤ k) :
    (chunksOf n k l).flatten = l := by
  induction k generalizing l with
  | zero => rw [List.length_eq_zero_iff.1 (Nat.le_zero.1 hk), chunksOf, List.flatten_nil]
  | succ k ih =>
    cases l with
    | nil => rfl
    | cons x l =>
      rw [chunksOf, List.flatten_cons, ih (by rw [List.length_drop, List.length_cons] at *; omega), List.take_append_drop]
      exact fun h => List.cons_ne_nil _ _ h

theorem rotateBlock_length (inverse : Bool) (xs : List W32) : (rotateBlock inverse xs).length = xs.length := by
  rw [rotateBlock, List.length_map]
  refine List.foldlRecOn (motive := fun ys : List W32 => ys.length = xs.length) _ _ rfl fun ys hys k _ => ?_
  rw [butterfly, List.length_map, List.length_range, hys]

theorem rotateRow_length {n : Nat} (hn : 0 < n) (inverse : Bool) (xs : List W32) :
    (rotateRow n inverse xs).length = xs.length := by
  have hblocks : (List.length ∘ rotateBlock inverse) = List.length := funext fun ys => rotateBlock_length inverse ys
  rw [rotateRow, List.length_flatten, List.map_map, hblocks, ← List.length_flatten]
  exact congrArg List.length (chunksOf_flatten hn (Nat.le_refl _))

/-- At most n rows of width values each. -/
def RowsFit (rows : List (List W32)) (n width : Nat) : Prop := rows.length ≤ n ∧ ∀ x ∈ rows, x.length = width

theorem rowsFit_map_range {f : Nat → List W32} {m n width : Nat} (hm : m ≤ n) (hf : ∀ r, (f r).length = width) :
    RowsFit ((List.range m).map f) n width := by
  refine ⟨by rwa [List.length_map, List.length_range], fun x hx => ?_⟩
  obtain ⟨r, -, rfl⟩ := List.mem_map.1 hx
  exact hf r

theorem row32_length (d : Desc) (r : Nat) : (s.row32 d r).length = d.cols := by
  rw [State.row32, List.length_map, List.length_range]

/-- A rotation along rows or down columns keeps the shape of its rows. -/
theorem RowsFit.rotated {d : Desc} {rows : List (List W32)} {n : Nat} (h : RowsFit rows n d.cols) :
    RowsFit (rotateRows d rows) n d.cols := by
  unfold rotateRows
  dsimp only
  split
  · exact h
  rename_i hrot
  split
  · refine ⟨by rw [List.length_map]; exact h.1, fun x hx => ?_⟩
    obtain ⟨y, hy, rfl⟩ := List.mem_map.1 hx
    rw [rotateRow_length (Nat.pos_of_ne_zero (by simpa using hrot)), h.2 y hy]
  · exact rowsFit_map_range h.1 fun r => by simp only [List.length_map, List.length_range]

-- Softmax and norm rows keep their length (R103)

theorem softmaxRow_length (xs : List W32) : (softmaxRow xs).length = xs.length := by
  simp only [softmaxRow, softExp, List.length_map]

theorem rmsRow_length (rcpL eps : W32) (gam xs : List W32) : (rmsRow rcpL eps gam xs).length = xs.length := by
  simp only [rmsRow, List.length_map, List.length_zipIdx]

theorem layerRow_length (rcpL eps : W32) (gam bet xs : List W32) : (layerRow rcpL eps gam bet xs).length = xs.length := by
  simp only [layerRow, List.length_map, List.length_zipIdx]

-- What the absence of a cause says of a descriptor

/-- LIVE_RANGE keeps the live rows of a row-layout operand within its rows (R130). -/
theorem live_le_rows {core h : Nat} {d : Desc} (hc : s.descCauses i core h d false true = []) : d.live ≤ d.rows := by
  obtain ⟨hleft, hlive⟩ := List.append_eq_nil_iff.1 hc
  obtain ⟨-, hform⟩ := List.append_eq_nil_iff.1 hleft
  have hpanel : d.panel = false := by
    cases hp : d.panel with
    | false => rfl
    | true => simp [hp] at hform
  simpa [Desc.extent, hpanel] using hlive

theorem fmt_of_fp32Cause {d : Desc} (hc : fp32Cause d = []) : d.fmt = 1 := by simpa [fp32Cause] using hc

/-- An FP32 tensor has no blocks to fill. -/
theorem padded_of_fp32Cause {d : Desc} (hc : fp32Cause d = []) (n : Nat) : d.padded n = n := by
  simp [Desc.padded, Desc.format, fmt_of_fp32Cause hc, fmtOf]

/-- A tensor without BAD_DIMENSION has whole blocks (R30). -/
theorem padded_of_blockCause {d : Desc} (hc : blockCause d = []) : d.padded d.cols = d.cols := by
  rw [Desc.padded]
  split
  · rfl
  rename_i hb
  have hb' : d.format.block ≠ 0 := by simpa using hb
  have hdvd : d.format.block ∣ d.cols :=
    Nat.dvd_of_mod_eq_zero (Decidable.byContradiction fun hm => by simp [blockCause, hb', hm] at hc)
  obtain ⟨q, hq⟩ := hdvd
  have hpos := Nat.pos_of_ne_zero hb'
  rw [hq, Nat.add_sub_assoc hpos, Nat.mul_add_div hpos, Nat.div_eq_of_lt (by omega), Nat.add_zero, Nat.mul_comm]

-- Rows stored in a tensor (R97)

theorem Clear.row {d : Desc} {n width r : Nat} (h : Clear A (d.rowsParts n width)) (hr : r < n) :
    Clear A (d.rowParts r 0 width) :=
  h.subset fun _ hp => List.mem_flatten.2 ⟨_, List.mem_map.2 ⟨r, List.mem_range.2 hr, by rw [Nat.zero_add]⟩, hp⟩

/-- Rows and the zeros after them lie in the tensor's first n rows, and their sentinel adds in its partial record. -/
theorem Spares.putRows {core n width : Nat} {d : Desc} {rows : List (List W32)} (h : Spares i A s t)
    (hc : Clear A (d.rowsParts n width)) (hsent : Clear A [sentArea core d.sent]) (hfit : RowsFit rows n width)
    (hpad : d.padded width = width) : Spares i A s (t.putRows core d rows n width) := by
  obtain ⟨hle, hwidth⟩ := hfit
  have hrow (r : Nat) (hr : r < n) : Clear A (d.rowParts r 0 (d.padded width)) := by rw [hpad]; exact hc.row hr
  unfold State.putRows
  dsimp only
  refine List.foldlRecOn (motive := fun v : State => Spares i A s v) _ _ (Spares.sentUpdate ?_ hsent)
    fun v hv k hk => ?_
  · refine List.foldlRecOn (motive := fun p : State × SentAdd => Spares i A s p.1) _ _ h fun p hp q hq => ?_
    obtain ⟨-, hlt, hval⟩ := List.mem_zipIdx hq
    have hlen : q.1.length = width := hwidth q.1 (hval ▸ List.getElem_mem _)
    exact hp.putRow (by rw [hlen]; exact hrow q.2 (by omega))
  · have hk := List.mem_range.1 hk
    exact hv.putZeros (hrow _ (by omega))

theorem Spares.readInvalid {core n : Nat} {d : Desc} (h : Spares i A s t) (hc : Clear A [sentArea core d.sent]) :
    Spares i A s (t.readInvalid core d n) := h.countInvalid hc

theorem Spares.wrN {a n v : Nat} (h : Spares i A s t) (hc : Clear A [(a, n)]) : Spares i A s (t.wrN a n v) :=
  Spares.wr h (by rwa [natLe_length])

-- The operations

/-- An operation whose job, free of causes, stores in the areas that the job names and in the partial records of its handles
alone. -/
def StoresInAreas (job : Nat → State → StreamSt → IWord → VeJob) : Prop :=
  ∀ (i : Nat) (A : Nat → Prop) (u : State) (x : StreamSt) (w : IWord), (job i u x w).causes = [] →
    Clear A (job i u x w).writes → Clear A (u.partialAreas (i / 4) (veF x w).handles) →
    Spares i A u ((job i u x w).effect ()).1

/-- The partial records of the operands that these operations have (R107). -/
theorem clear_operands {core : Nat} {f : VeF} (h : Clear A (s.partialAreas core f.handles)) :
    Clear A [sentArea core (s.desc core f.src0).sent] ∧ Clear A [sentArea core (s.desc core f.src1).sent]
      ∧ Clear A [sentArea core (s.desc core f.src2).sent] ∧ Clear A [sentArea core (s.desc core f.dst).sent] := by
  have hsent (k : Nat) (hk : k ∈ f.handles) : Clear A [sentArea core (s.desc core k).sent] :=
    h.mem (List.mem_map.2 ⟨k, hk, rfl⟩)
  refine ⟨hsent _ ?_, hsent _ ?_, hsent _ ?_, hsent _ ?_⟩ <;> simp [VeF.handles]

theorem elemJob_storesInAreas (op : Nat) : StoresInAreas (elemJob op) := by
  intro i A u x w hcause hwrites hsent
  obtain ⟨h0, h1, h2, hd⟩ := clear_operands hsent
  simp only [elemJob, List.append_eq_nil_iff] at hcause hwrites ⊢
  obtain ⟨⟨⟨⟨⟨⟨⟨hlive, -⟩, -⟩, -⟩, -⟩, -⟩, hfp32⟩, hshape⟩ := hcause
  simp only [ite_eq_left_iff, List.cons_ne_self, imp_false, Decidable.not_not, Bool.and_eq_true, beq_iff_eq] at hshape
  obtain ⟨⟨⟨hrows, hcols⟩, -⟩, -⟩ := hshape
  refine Spares.putRows ?_ hwrites hd (rowsFit_map_range (hrows ▸ live_le_rows hlive) fun r => ?_)
    (padded_of_fp32Cause hfp32 _)
  · have hread := (Spares.refl (i := i) (s := u)).readInvalid (n := (u.desc (i / 4) (veF x w).src0).live) h0
    refine Spares.ite (Spares.readInvalid ?_ h2) ?_ <;> exact Spares.ite (hread.readInvalid h1) hread
  · rw [List.length_map, List.length_range, hcols]

theorem vcvtJob_storesInAreas : StoresInAreas vcvtJob := by
  intro i A u x w hcause hwrites hsent
  obtain ⟨h0, -, -, hd⟩ := clear_operands hsent
  simp only [vcvtJob, List.append_eq_nil_iff] at hcause hwrites ⊢
  obtain ⟨⟨⟨⟨⟨⟨hlive, -⟩, -⟩, -⟩, -⟩, hshape⟩, hblock⟩ := hcause
  simp only [ite_eq_left_iff, List.cons_ne_self, imp_false, Decidable.not_not, Bool.and_eq_true, beq_iff_eq] at hshape
  obtain ⟨hrows, hcols⟩ := hshape
  have hfit : RowsFit ((List.range (u.desc (i / 4) (veF x w).src0).live).map fun r =>
      u.row32 (u.desc (i / 4) (veF x w).src0) r) (u.desc (i / 4) (veF x w).dst).rows (u.desc (i / 4) (veF x w).dst).cols :=
    rowsFit_map_range (hrows ▸ live_le_rows hlive) fun r => by rw [row32_length, hcols]
  exact (Spares.readInvalid .refl h0).putRows hwrites hd hfit.rotated (padded_of_blockCause hblock)

/-- An INT32 result stores its 4 B in column 0 of its row. -/
theorem clear_int32 {d : Desc} {r : Nat} (hf : d.fmt = 10) (h : Clear A (d.rowParts r 0 1)) :
    Clear A [(d.base + r * d.stride, 4)] := by
  simpa [Desc.rowParts, Desc.format, hf, fmtOf, Enc.bits] using h

theorem vredJob_storesInAreas : StoresInAreas vredJob := by
  intro i A u x w hcause hwrites hsent
  obtain ⟨h0, -, -, hd⟩ := clear_operands hsent
  simp only [vredJob, List.append_eq_nil_iff] at hcause hwrites ⊢
  obtain ⟨⟨⟨⟨⟨hlive, -⟩, -⟩, -⟩, hformat⟩, -⟩ := hcause
  have hread := (Spares.refl (i := i) (s := u)).readInvalid (n := (u.desc (i / 4) (veF x w).src0).live) h0
  split
  case isTrue hint =>
    have hfmt : (u.desc (i / 4) (veF x w).dst).fmt = 10 := by simp at hint; exact hint.2
    exact List.foldlRecOn (motive := fun v : State => Spares i A u v) _ _ hread fun v hv r hr =>
      hv.wrN (clear_int32 hfmt (hwrites.row (List.mem_range.1 hr)))
  case isFalse hint =>
    rw [if_neg hint] at hformat
    exact hread.putRows hwrites hd (rowsFit_map_range (live_le_rows hlive) fun _ => rfl) (padded_of_fp32Cause hformat 1)

theorem rowwiseJob_storesInAreas (op : Nat) : StoresInAreas (rowwiseJob op) := by
  intro i A u x w hcause hwrites hsent
  obtain ⟨h0, h1, h2, hd⟩ := clear_operands hsent
  simp only [rowwiseJob, List.append_eq_nil_iff] at hcause hwrites ⊢
  obtain ⟨⟨⟨⟨⟨⟨⟨hlive, -⟩, -⟩, -⟩, -⟩, -⟩, hfp32⟩, -⟩ := hcause
  refine Spares.putRows ?_ hwrites hd (rowsFit_map_range (live_le_rows hlive) fun r => ?_) (padded_of_fp32Cause hfp32 _)
  · have hread := (Spares.refl (i := i) (s := u)).readInvalid (n := (u.desc (i / 4) (veF x w).src0).live) h0
    refine Spares.ite (Spares.countInvalid ?_ h2) ?_ <;> exact Spares.ite (hread.countInvalid h1) hread
  · split
    · rw [softmaxRow_length, row32_length]
    split
    · rw [rmsRow_length, row32_length]
    · rw [layerRow_length, row32_length]

/-- A gate record is 16 B (Table 4-4). -/
theorem gateRecord_length (k : Nat) (norm : Bool) (xs : List W32) : (gateRecord k norm xs).length = 16 := by
  simp only [gateRecord, List.length_append, natLe_length]

theorem flatten_map_length {f : Nat → List Byte} {k : Nat} (hf : ∀ r, (f r).length = k) (n : Nat) :
    ((List.range n).map f).flatten.length = k * n := by
  have hconst : (List.length ∘ f) = fun _ => k := funext hf
  rw [List.length_flatten, List.map_map, hconst, List.map_const', List.sum_replicate_nat, List.length_range, Nat.mul_comm]

theorem vrouteJob_storesInAreas : StoresInAreas vrouteJob := by
  intro i A u x w _ hwrites hsent
  obtain ⟨h0, -, -, -⟩ := clear_operands hsent
  simp only [vrouteJob] at hwrites ⊢
  refine (Spares.readInvalid .refl h0).wr ?_
  rwa [flatten_map_length (k := 16)]
  intro r
  split
  · exact gateRecord_length _ _ _
  · exact natLe_length 16 _

theorem vexitJob_storesInAreas : StoresInAreas vexitJob := by
  intro i A u x w _ hwrites hsent
  obtain ⟨h0, -, -, -⟩ := clear_operands hsent
  simp only [vexitJob] at hwrites ⊢
  have hmask := hwrites.mem (List.mem_cons_self ..)
  have hcount := hwrites.mem (List.mem_cons_of_mem _ (List.mem_cons_self ..))
  refine Spares.wrN (Spares.wr (Spares.readInvalid .refl h0) ?_) hcount
  rwa [List.length_map, List.length_range]

-- The instruction

/-- A job that completes has met no cause, and its flight starts from its effect. -/
theorem VeJob.run_eq_done {j : VeJob} {u v : State} {x : StreamSt} {w : IWord} (h : j.run u i x w = .done v) :
    j.causes = [] ∧ v = startFlight (j.effect ()).1 i w x (j.effect ()).2 0 0 := by
  simp only [VeJob.run] at h
  split at h
  · cases h
  rename_i hcause
  have hnone := minCause_eq_none hcause
  split at h
  · cases h
  · cases h
  refine ⟨?_, (Ran.done.inj h).symm⟩
  split at hnone
  · exact (List.append_eq_nil_iff.1 hnone).1
  · rename_i hlost
    exact absurd (by rw [hnone]; rfl) hlost

/-- The bytes that an operation of this job at state s may not store in. -/
def veSpared (job : Nat → State → StreamSt → IWord → VeJob) (i : Nat) (s : State) (a : Nat) : Prop :=
  inAreas [s.ringArea (ringOf i).1 (ringOf i).2] a = false ∧ ∀ w, s.fetch i = .word w →
    let u := s.afterWaits i w
    inAreas (u.partialAreas (i / 4) (veF (s.stream i) w).handles) a = false
    ∧ inAreas (job i u (issuing (s.stream i)) w).writes a = false

theorem afterWaits_ringArea (w : IWord) (d k : Nat) : (s.afterWaits i w).ringArea d k = s.ringArea d k := by
  obtain ⟨T, hT⟩ := afterWaits_tallies s i w
  rw [hT]
  rfl

/-- A vector operation's completed run spares every byte outside its destination, its operands' partial records and its
trace ring. -/
theorem veRun_spares {job : Nat → State → StreamSt → IWord → VeJob} {st : Stream} {v : State} {w : IWord}
    (hjob : StoresInAreas job) (hw : s.fetch (streamIx st) = .word w)
    (h : veRun (job (streamIx st)) st (s.afterWaits (streamIx st) w) (issuing (s.stream (streamIx st))) w = .done v) :
    Spares (streamIx st) (veSpared job (streamIx st) s) (s.afterWaits (streamIx st) w) v := by
  obtain ⟨hcause, rfl⟩ := VeJob.run_eq_done h
  have hstored := hjob (streamIx st) (veSpared job (streamIx st) s) _ _ w hcause (fun a ha => (ha.2 w hw).2)
    (fun a ha => (ha.2 w hw).1)
  exact hstored.startFlight (streamIx_lt st) (by rw [afterWaits_ringArea]; exact fun a ha => ha.1)

/-- A row of the vector engine without memory operands that are read first has the frame of its job. -/
theorem execVe_frame {op : Nat} {job : Nat → State → StreamSt → IWord → VeJob} {st : Stream} (hjob : StoresInAreas job)
    (h : attempt s (execVe op noFirst job st s) = .next t) :
    EngineFrame (streamIx st) s t ∧ ∀ a, veSpared job (streamIx st) s a → t.rd1 a = s.rd1 a :=
  attempt_issue_frame h fun _ _ hw _ hrun => veRun_spares hjob hw hrun

/-- Settles O56: each row attempts its job, which stores in the areas that it names and in partial records alone. -/
theorem vectorInstructionsFrame : Obligations.VectorInstructionsFrame := by
  unfold Obligations.VectorInstructionsFrame
  intro st c job s t hrow hexec i
  obtain ⟨op, hjob, hattempt⟩ : ∃ op, StoresInAreas job ∧ attempt s (execVe op noFirst job st s) = .next t := by
    simp only [List.mem_cons, List.not_mem_nil, or_false, Prod.mk.injEq] at hrow
    rcases hrow with ⟨rfl, rfl⟩ | ⟨rfl, rfl⟩ | ⟨rfl, rfl⟩ | ⟨rfl, rfl⟩ | ⟨rfl, rfl⟩ | ⟨rfl, rfl⟩ | ⟨rfl, rfl⟩
      | ⟨rfl, rfl⟩ | ⟨rfl, rfl⟩ | ⟨rfl, rfl⟩ | ⟨rfl, rfl⟩
    · exact ⟨0x40, elemJob_storesInAreas _, hexec⟩
    · exact ⟨0x41, elemJob_storesInAreas _, hexec⟩
    · exact ⟨0x42, elemJob_storesInAreas _, hexec⟩
    · exact ⟨0x43, elemJob_storesInAreas _, hexec⟩
    · exact ⟨0x44, vcvtJob_storesInAreas, hexec⟩
    · exact ⟨0x45, vredJob_storesInAreas, hexec⟩
    · exact ⟨0x46, rowwiseJob_storesInAreas _, hexec⟩
    · exact ⟨0x47, rowwiseJob_storesInAreas _, hexec⟩
    · exact ⟨0x48, rowwiseJob_storesInAreas _, hexec⟩
    · exact ⟨0x49, vrouteJob_storesInAreas, hexec⟩
    · exact ⟨0x4A, vexitJob_storesInAreas, hexec⟩
  obtain ⟨hframe, hbytes⟩ := execVe_frame hjob hattempt
  exact ⟨hframe, fun a hring hareas => hbytes a ⟨hring, hareas⟩⟩

end Sys2Proof.Machine
end

section
/-! PROOFS. Rules of the operations that engine programs share: values read back, trace entries, signals, faults and
retirement. -/

namespace Sys2Proof.Machine

-- A value read back

/-- A value other than the default is read back from any table. -/
theorem tget_tput_of_ne {α : Type} [DecidableEq α] {d : Nat → α} (t : Tbl α) {k : Nat} {v : α} (h : v ≠ d k) :
    tget d (tput d t k v) k = v := by
  induction t with
  | nil => simp [tput, tget, h]
  | cons x t ih =>
    obtain ⟨j, u⟩ := x
    rw [tput]
    split
    · exact if_pos rfl
    split
    · exact if_pos rfl
    · rename_i hj
      simp [tget, hj, ih]

theorem stream_setStream_of_ne {i : Nat} {t : StreamSt} (s : State) (h : t ≠ streamReset) :
    (s.setStream i t).stream i = t := tget_tput_of_ne _ h

theorem ne_streamReset_of_st {t : StreamSt} (h : t.st ≠ .idle) : t ≠ streamReset := fun he => h (by rw [he]; rfl)

theorem tally_setTally_of_ne {c n : Nat} {v : Tally} (s : State) (h : v ≠ tallyZero) :
    (s.setTally c n v).tally c n = v := tget_tput_of_ne _ h

-- Trace entries (R559)

/-- 32 B or less cover no line whole. -/
theorem wholeLines_of_le {a n : Nat} (hn : n ≤ 32) : wholeLines a n = [] := by
  rw [wholeLines, List.filter_eq_nil_iff]
  intro l _
  rw [Bool.and_eq_true, decide_eq_true_eq, decide_eq_true_eq]
  omega

/-- A write of 32 B or less clears no poison (R285). -/
theorem wr_eq_of_le {a : Nat} {bs : List Byte} (s : State) (hl : bs.length ≤ 32) :
    s.wr a bs = { s with mem := wrMem s.mem a bs } := by
  simp [State.wr, wholeLines_of_le hl]

theorem ringPut_eq {d k : Nat} {bs : List Byte} (s : State) (hl : bs.length = 32) :
    ∃ M C, s.ringPut d k bs = { s with mem := M, cfg := C } := by
  simp only [State.ringPut, wr_eq_of_le s (Nat.le_of_eq hl)]
  exact ⟨_, _, rfl⟩

/-- An entry offered to a trace ring changes memory and configuration space alone (R559). -/
theorem trace_eq (s : State) (d k type eng : Nat) (payload : List Byte) :
    ∃ M C, s.trace d k type eng payload = { s with mem := M, cfg := C } := by
  obtain ⟨M, C, hput⟩ := ringPut_eq (d := d) (k := k) s (traceBytes_length s.gc type eng payload)
  simp only [State.trace, hput]
  split
  · exact ⟨_, _, rfl⟩
  split
  · split
    · exact ⟨_, _, rfl⟩
    · exact ⟨_, _, rfl⟩
  split
  · split
    · exact ⟨_, _, rfl⟩
    · exact ⟨_, _, rfl⟩
  · exact ⟨_, _, rfl⟩

-- Signals (R119, R135, R139)

/-- A count event that leaves its source is put on its way, or discarded, counted and reported (R135, R139). -/
theorem sendEvent_eq (s : State) (e : CountEvent) :
    ∃ E N L, s.sendEvent e = { s with eng := { s.eng with events := E, evDiscards := N }, log := L } := by
  unfold State.sendEvent
  extract_lets inside u
  split
  · exact ⟨_, _, _, rfl⟩
  split
  · exact ⟨_, _, _, rfl⟩
  · exact ⟨_, _, _, rfl⟩

/-- Signals put events on their way, or discard, count and report them (R135, R139). -/
theorem sendSigs_eq (s : State) (i : Nat) (w : IWord) :
    ∃ E N L, s.sendSigs i w = { s with eng := { s.eng with events := E, evDiscards := N }, log := L } := by
  unfold State.sendSigs
  refine List.foldlRecOn (motive := fun u : State =>
    ∃ E N L, u = { s with eng := { s.eng with events := E, evDiscards := N }, log := L }) _ _ ⟨_, _, _, rfl⟩ ?_
  rintro _ ⟨E, N, L, rfl⟩ g _
  obtain ⟨E', N', L', h⟩ := sendEvent_eq { s with eng := { s.eng with events := E, evDiscards := N }, log := L }
    ⟨if g.remote then g.die else ixDie i, g.pos, g.tally, g.amount, ixDie i, ixEng i, s.partOf i⟩
  exact ⟨E', N', L', h⟩

-- The stream after a fault and after a retirement

@[simp] theorem goTo_st (x : StreamSt) (pc : Nat) (ls : List Loop) : (x.goTo pc ls).st = .run := rfl
@[simp] theorem goTo_x (x : StreamSt) (pc : Nat) (ls : List Loop) : (x.goTo pc ls).x = x.x := rfl
@[simp] theorem next_st (x : StreamSt) : x.next.st = .run := rfl
@[simp] theorem next_x (x : StreamSt) : x.next.x = x.x := rfl

theorem next_ne_streamReset (x : StreamSt) : x.next ≠ streamReset := ne_streamReset_of_st (by simp)

/-- A fault stops its stream where it stands, out of any locked sequence (R149). -/
theorem fault_stream (s : State) (i c : Nat) : (s.fault i c).stream i = { s.stream i with
    st := .faulted, lock := 0, lockPast := false, lockHeld := false, granted := false, queue := false } := by
  have hrecord : (s.recordFault i c (s.stream i).pc).stream i = s.stream i := by
    unfold State.recordFault
    split <;> rfl
  rw [← hrecord]
  exact stream_setStream_of_ne _ (ne_streamReset_of_st (by simp))

theorem bumpCtr_streams (s : State) (i off k : Nat) : (s.bumpCtr i off k).eng.streams = s.eng.streams := by
  unfold State.bumpCtr
  split <;> rfl

/-- A control instruction leaves its stream as its row says, t. -/
theorem finishNow_stream {i : Nat} {w : IWord} {old t : StreamSt} (s : State) (h : t ≠ streamReset) :
    (finishNow s i w old t).stream i = t := by
  obtain ⟨E, N, L, hsigs⟩ := sendSigs_eq ((s.traceIssue i old w).setStream i t) i w
  rw [finishNow, State.stream, bumpCtr_streams, hsigs]
  exact stream_setStream_of_ne _ h

end Sys2Proof.Machine
end

section
/-! PROOFS. Control and descriptor instructions complete (O1, O2, O3). -/

namespace Sys2Proof.Machine

-- Control instructions (R119 to R122)

/-- A control instruction that issues without a cause of its own retires at once. -/
theorem control_done {st : Stream} {op : Nat} {w : IWord} {s : State} (hi : Issues st w s) (ho : opOf w = op)
    {pre : State → StreamSt → IWord → List Nat} (hp : pre s (s.stream (streamIx st)) w = [])
    (f : StreamSt → IWord → StreamSt) :
    control st op pre f s = some (finishNow (s.afterWaits (streamIx st) w) (streamIx st) w
      (issuing (s.stream (streamIx st))) (f (issuing (s.stream (streamIx st))) w)) :=
  issue_done hi (by simp [isOp, ho]) hp rfl

/-- LOOP meets no LOOP_FAULT below the fifth level, with a body that is not empty and ends within every enclosing one (R121). -/
theorem loopCauses_eq_nil {s : State} {t : StreamSt} {w : IWord} (hlevels : t.loops.length < 4) (hbody : fld w 132 12 ≠ 0)
    (hin : ∀ l ∈ t.loops, loopStop t w ≤ l.stop) : loopCauses s t w = [] := by
  have hbeyond : (t.loops.any fun l => l.stop < loopStop t w) = false :=
    List.any_eq_false.2 fun l hl => by simpa using hin l hl
  simp [loopCauses, Nat.not_le.2 hlevels, hbody, hbeyond]

/-- Settles O1: each row is a control instruction whose own cause, where it has one, is excluded. -/
theorem controlInstructionsComplete : Obligations.ControlInstructionsComplete := by
  unfold Obligations.ControlInstructionsComplete
  intro st w s hi i u t
  refine ⟨?nop, ?twait, ?signal, ?setx, ?addx, ?loop, ?jump, ?brx, ?lock, ?halt, ?wend⟩
  case nop => exact fun ho => attempt_some (control_done hi ho rfl _)
  case twait => exact fun ho => attempt_some (control_done hi ho rfl _)
  case signal => exact fun ho => attempt_some (control_done hi ho rfl _)
  case setx => exact fun ho => attempt_some (control_done hi ho rfl _)
  case addx => exact fun ho => attempt_some (control_done hi ho rfl _)
  case halt => exact fun ho => attempt_some (control_done hi ho rfl _)
  case loop =>
    intro ho hlevels hbody hin
    refine (attempt_some (control_done hi ho (loopCauses_eq_nil hlevels hbody hin) _)).trans ?_
    simp only [beq_iff_eq]
    rfl
  case jump => exact fun ho hok => attempt_some (control_done hi ho (if_pos hok) _)
  case brx =>
    intro ho hcond hok
    have hbad : (decide (4 ≤ fld w 131 3) || (brxTaken (s.stream i) w && !branchOk (s.stream i) w)) = false := by
      simpa [hcond] using hok
    exact attempt_some (control_done hi ho (if_neg (Bool.eq_false_iff.1 hbad)) _)
  case lock =>
    intro ho hlo hhi
    have hok : ¬ (fld w 128 7 == 0 || decide (64 < fld w 128 7)) = true := by
      rw [Bool.or_eq_true, beq_iff_eq, decide_eq_true_eq]
      omega
    exact attempt_some (control_done hi ho (if_neg hok) _)
  case wend => exact fun ho hwin => attempt_some (control_done hi ho (by simp [hwin, i]) _)

-- WAITGC (R122)

/-- At or above its count WAITGC is a control instruction like the others. -/
theorem waitGcIssue_reached {st : Stream} {w : IWord} {s : State} (hw : s.fetch (streamIx st) = .word w)
    (hgc : fld w 128 64 ≤ s.gc) : waitGcIssue st s = control st 8 noCauses (fun t _ => t.next) s := by
  simp [waitGcIssue, hw, Nat.not_lt.2 hgc]

/-- Below its count a WAITGC whose waits have not overflowed puts the stream in WAIT_GC. -/
theorem waitGcIssue_below {st : Stream} {w : IWord} {s : State} (hi : Issues st w s) (ho : opOf w = 8)
    (hovf : s.waitOvf (streamIx st) (waitsOf w) = false) (hgc : s.gc < fld w 128 64) :
    waitGcIssue st s = some (s.setStream (streamIx st) { s.stream (streamIx st) with st := .waitGc }) := by
  obtain ⟨hmay, hword, -, hclean, -⟩ := hi
  simp [waitGcIssue, hword, hmay, isOp, ho, hclean, minCause, hovf, hgc]

/-- Settles O2: at or above the count both rows issue the instruction; below it the stream waits. -/
theorem waitgcCompletes : Obligations.WaitgcCompletes := by
  unfold Obligations.WaitgcCompletes
  intro st w s hi ho i u t
  have hdone := control_done hi ho (pre := noCauses) rfl fun t _ => t.next
  refine ⟨fun hgc => attempt_some ((waitGcIssue_reached hi.word hgc).trans hdone), fun hgc hst => ?_,
    fun hgc hovf => attempt_some (waitGcIssue_below hi ho hovf hgc)⟩
  refine attempt_some (Eq.trans ?_ hdone)
  simp [hst, hi.word, isOp, ho, hgc, i]

-- Descriptor instructions (R118, R129, R131, R144)

/-- The handle that DSET and DLIVE name is legal: it is not null, in range, and of the stream's own core where that is a
core's (R129). -/
theorem dsetCauses_eq_nil {i c v : Nat} {s : State} {t : StreamSt} {w : IWord}
    (hh : handle14 i t w (fld w 128 14) = some (c, v)) (hown : i < 512 → fld w 128 14 / 4096 = (i / 4) % 4) :
    dsetCauses i s t w = [] := by
  simpa [dsetCauses, hh] using hown

/-- FETCHAHEAD's lines are whole, at least one and at most 4,096, and in the partition's HBM. -/
theorem aheadCauses_eq_nil {i : Nat} {s : State} {t : StreamSt} {w : IWord} (ha : fld w 128 48 % 256 = 0)
    (hlo : 1 ≤ fld w 176 13) (hhi : fld w 176 13 ≤ 4096)
    (hr : s.codeRange i (fld w 128 48) (256 * fld w 176 13) = true) : aheadCauses i s t w = [] := by
  simp [aheadCauses, ha, hr, Nat.not_lt.2 hhi, Nat.ne_of_gt hlo]

/-- Settles O3: each row's own causes are excluded, and its run ends in the state stated. -/
theorem descriptorInstructionsComplete : Obligations.DescriptorInstructionsComplete := by
  unfold Obligations.DescriptorInstructionsComplete
  intro st w s hi i u t
  refine ⟨?fetchahead, ?dset, ?dlive⟩
  case fetchahead =>
    exact fun ho ha hlo hhi hr => attempt_some (issue_done hi (by simp [isOp, ho]) (aheadCauses_eq_nil ha hlo hhi hr) rfl)
  case dset =>
    intro c v ho hh hown
    have hh' : handle14 i t w (fld w 128 14) = some (c, v) := hh
    exact attempt_some (issue_done hi (by simp [isOp, ho]) (dsetCauses_eq_nil hh hown) (by simp only [hh', t, i, u]))
  case dlive =>
    intro c v ho hh hown hacc hclean
    have hh' : handle14 i t w (fld w 128 14) = some (c, v) := hh
    refine attempt_some (issue_done hi (by simp [isOp, ho]) (dsetCauses_eq_nil hh hown) ?_)
    simp only [i, u, t] at hh' hacc hclean ⊢
    simp [hh', hacc, hclean]

end Sys2Proof.Machine
end

section
/-! PROOFS. Move chains and flights complete (O5, O17). -/

namespace Sys2Proof.Machine

-- MOVE (R125)

/-- A MOVE that issues, meets no MV_DESC and finds room queues its chain; its stream goes on. -/
theorem moveIssue_queued {st : Stream} {w : IWord} {s : State} (hi : Issues st w s) (ho : opOf w = 0x80)
    (hn : fld w 180 16 ≠ 0) (ha : fld w 132 48 % 64 = 0) :
    let i := streamIx st
    let u := s.afterWaits i w
    let x := u.chan (i / 4) (moveChan i w)
    x.queue.length < 8 →
      moveIssue st s = some (finishNow (u.setChan (i / 4) (moveChan i w)
        { x with queue := x.queue ++ [(fld w 132 48, fld w 180 16)] }) i w (issuing (s.stream i)) (issuing (s.stream i)).next) := by
  intro i u x hroom
  have hcause : (fld w 180 16 == 0 || fld w 132 48 % 64 != 0) = false := by simp [hn, ha]
  rw [moveIssue, issue_done hi (t := finishNow _ i w _ (issuing (s.stream i)).next) (by simp [isOp, ho])
    (if_neg (Bool.eq_false_iff.1 hcause)) (if_neg (Nat.not_le.2 hroom))]
  dsimp only
  rw [finishNow_stream _ (next_ne_streamReset _)]
  rfl

-- Descriptors and row groups that are done (R300, R301, R304)

theorem descriptorDone_end {c : Core} {ch : Chan} {s : State} {r : RunningDesc}
    (hr : (s.chan c.val ch.val).running = some r) (hg : r.groups = 0) (hstop : s.chanStopped c.val ch.val = false)
    (hz : s.frozenDie (c.val / 4) = false) (hp : s.power (s.coreKey c.val) = .on) :
    descriptorDone c ch s = some (s.descriptorEnd c.val ch.val r) := by
  simp [descriptorDone, hr, hg, hstop, hz, hp]

theorem tileGroupDone_pulse {c : Core} {ch : Chan} {s : State} {r : RunningDesc}
    (hr : (s.chan c.val ch.val).running = some r) (hg : r.groups ≠ 0) (hstop : s.chanStopped c.val ch.val = false)
    (hz : s.frozenDie (c.val / 4) = false) (hp : s.power (s.coreKey c.val) = .on) :
    tileGroupDone c ch s = some ((s.setChan c.val ch.val { s.chan c.val ch.val with
      running := some { r with groups := r.groups - 1 } }).moveEvent c.val ch.val r) := by
  simp [tileGroupDone, hr, hg, hstop, hz, hp]

/-- Settles O5: each event's condition holds, so its effect is the one its lemma above names. -/
theorem moveChainsComplete : Obligations.MoveChainsComplete := by
  unfold Obligations.MoveChainsComplete
  exact ⟨fun _ _ _ hi ho hn ha hroom => attempt_some (moveIssue_queued hi ho hn ha hroom),
    fun _ _ _ _ hr hg hstop hz hp => attempt_some (descriptorDone_end hr hg hstop hz hp),
    fun _ _ _ _ hr hg hstop hz hp => attempt_some (tileGroupDone_pulse hr hg hstop hz hp)⟩

-- Flights (R123, R126)

theorem engineDone_retires {st : Stream} {s : State} {f : Flight} (hf : (s.stream (streamIx st)).flight = some f)
    (hl : f.left = 0) (hz : s.frozenStream (streamIx st) = false) : engineDone st s = some (s.engineEnd (streamIx st) f) := by
  simp [engineDone, hf, hl, hz]

/-- Settles O17: a flight without cycles left, of a stream that is not frozen, ends. -/
theorem flightsComplete : Obligations.FlightsComplete := by
  unfold Obligations.FlightsComplete
  exact fun _ _ _ hf hl hz => attempt_some (engineDone_retires hf hl hz)

end Sys2Proof.Machine
end

section
/-! PROOFS. Opcodes of the classes of streams, and waits on tallies that have overflowed (O59, O58). -/

namespace Sys2Proof.Machine

-- An attempt to issue that ends in a fault

/-- An opcode outside the class of its stream ends any attempt to issue it in BAD_OPCODE (R117). -/
theorem issue_illegal {st : Stream} {w : IWord} {s : State} (hmay : s.mayIssue (streamIx st) = true)
    (hw : s.fetch (streamIx st) = .word w) (hop : legalOp st (opOf w) = false) (mine : IWord → Bool)
    (pre : State → StreamSt → IWord → List Nat) (run : State → StreamSt → IWord → Ran) :
    issue st mine pre run s = some (s.fault (streamIx st) 0x80) := by
  simp [issue, hmay, hw, hop]

/-- Stream st has instruction w to issue, none of the causes common to all opcodes stands against it, and one of its waits
names a tally that has overflowed. -/
structure WaitsOverflowed (st : Stream) (w : IWord) (s : State) : Prop where
  may : s.mayIssue (streamIx st) = true
  word : s.fetch (streamIx st) = .word w
  legal : legalOp st (opOf w) = true
  clean : s.commonCauses (streamIx st) w = []
  waiting : (s.stream (streamIx st)).granted = false
  overflow : s.waitOvf (streamIx st) (waitsOf w) = true

/-- An instruction of the row that waits on an overflowed tally ends in TALLY_OVF (R138). -/
theorem issue_overflow {st : Stream} {w : IWord} {s : State} (h : WaitsOverflowed st w s) {mine : IWord → Bool}
    {pre : State → StreamSt → IWord → List Nat} (hm : mine w = true) (hp : pre s (s.stream (streamIx st)) w = [])
    (run : State → StreamSt → IWord → Ran) : issue st mine pre run s = some (s.fault (streamIx st) 0x85) := by
  obtain ⟨hmay, hw, hlegal, hclean, hwait, hovf⟩ := h
  simp [issue, hmay, hw, hlegal, hm, hclean, hp, minCause, hwait, hovf]

-- The rows of the engine programs

/-- WAITGC attempts to issue as a control instruction wherever it does not go to WAIT_GC. -/
theorem waitGcIssue_control {st : Stream} {w : IWord} {s : State} (hw : s.fetch (streamIx st) = .word w)
    (h : isOp 8 w = false ∨ s.waitOvf (streamIx st) (waitsOf w) = true) :
    waitGcIssue st s = control st 8 noCauses (fun t _ => t.next) s := by
  rcases h with h | h <;> simp [waitGcIssue, hw, h]

/-- Each row of the engine programs attempts to issue, and does nothing else where WAITGC does not go to WAIT_GC. -/
theorem exec_engineRow {st : Stream} {w : IWord} {s : State} (hw : s.fetch (streamIx st) = .word w)
    (h : isOp 8 w = false ∨ s.waitOvf (streamIx st) (waitsOf w) = true) :
    ∀ r ∈ engineRows st, ∃ run, exec r.1 s = attempt s (issue st r.2.1 r.2.2 run s) := by
  have hwait : execWaitgc st s = attempt s (control st 8 noCauses (fun t _ => t.next) s) :=
    congrArg (attempt s) (waitGcIssue_control hw h)
  simp only [engineRows, List.cons_append, List.nil_append, List.forall_mem_cons]
  exact ⟨⟨_, rfl⟩, ⟨_, rfl⟩, ⟨_, rfl⟩, ⟨_, rfl⟩, ⟨_, rfl⟩, ⟨_, rfl⟩, ⟨_, rfl⟩, ⟨_, rfl⟩, ⟨_, hwait⟩, ⟨_, rfl⟩, ⟨_, rfl⟩,
    ⟨_, rfl⟩, ⟨_, rfl⟩, ⟨_, rfl⟩, ⟨_, rfl⟩, ⟨_, rfl⟩, ⟨_, rfl⟩, ⟨_, rfl⟩, ⟨_, rfl⟩, ⟨_, rfl⟩, ⟨_, rfl⟩, ⟨_, rfl⟩,
    ⟨_, rfl⟩, ⟨_, rfl⟩, ⟨_, rfl⟩, ⟨_, rfl⟩, ⟨_, rfl⟩, ⟨_, rfl⟩, ⟨_, rfl⟩, ⟨_, rfl⟩, ⟨_, rfl⟩, ⟨_, rfl⟩, ⟨_, rfl⟩,
    ⟨_, rfl⟩, ⟨_, rfl⟩, ⟨_, rfl⟩, ⟨_, rfl⟩, ⟨_, rfl⟩, ⟨_, rfl⟩, ⟨_, rfl⟩, ⟨_, rfl⟩, ⟨_, rfl⟩, ⟨_, rfl⟩, ⟨_, rfl⟩, ⟨_, rfl⟩,
    fun _ h => nomatch h⟩

-- MOVE (R313)

/-- An opcode that is illegal in the stream stops no channel: the word is no MOVE there. -/
theorem moveIssue_illegal {st : Stream} {w : IWord} {s : State} (hmay : s.mayIssue (streamIx st) = true)
    (hw : s.fetch (streamIx st) = .word w) (hop : legalOp st (opOf w) = false) :
    moveIssue st s = some (s.fault (streamIx st) 0x80) := by
  have hno : (isOp 0x80 w && legalOp st 0x80) = false := by
    rw [Bool.and_eq_false_imp]
    intro hm
    rwa [← beq_iff_eq.1 hm]
  rw [moveIssue, issue_illegal hmay hw hop]
  simp [fault_stream, hw, hno]

/-- A MOVE that waits on an overflowed tally ends in TALLY_OVF and stops the channels of its engine. -/
theorem moveIssue_overflow {st : Stream} {w : IWord} {s : State} (h : WaitsOverflowed st w s) (ho : opOf w = 0x80)
    (hn : fld w 180 16 ≠ 0) (ha : fld w 132 48 % 64 = 0) :
    moveIssue st s
      = some ((s.fault (streamIx st) 0x85).stopChans (streamIx st / 4) (moveChan (streamIx st) w)) := by
  have hmine : isOp 0x80 w = true := by simp [isOp, ho]
  have hlegal : legalOp st 0x80 = true := ho ▸ h.legal
  rw [moveIssue, issue_overflow h hmine (by simp [hn, ha])]
  simp [fault_stream, h.word, hmine, hlegal]

-- R117

/-- The control opcodes are legal in every stream, every other in the streams of its class (R117, Table 5-6). -/
theorem legalOp_iff (st : Stream) (op : Nat) : legalOp st op = true ↔ op ≤ 0x0E ∨ match st with
    | .core _ .me => 0x20 ≤ op ∧ op ≤ 0x25
    | .core _ .ve => 0x40 ≤ op ∧ op ≤ 0x4C
    | .core _ .mv0 => op = 0x80
    | .core _ .mv1 => op = 0x80
    | .die _ .xe => 0xA0 ≤ op ∧ op ≤ 0xA3
    | .die _ .ce => 0xC0 ≤ op ∧ op ≤ 0xC4 := by
  cases st with
  | core c e => cases e <;> simp [legalOp] <;> omega
  | die d e => cases e <;> simp [legalOp] <;> omega

/-- Settles O59: the classes are Table 5-6's, and every row faults on a word whose opcode is illegal. -/
theorem opcodesOfTheClasses : Obligations.OpcodesOfTheClasses := by
  unfold Obligations.OpcodesOfTheClasses
  refine ⟨legalOp_iff, fun st w s hmay hw hop => ⟨attempt_some (moveIssue_illegal hmay hw hop), fun r hr => ?_⟩⟩
  have hwait : isOp 8 w = false := by
    rw [Bool.eq_false_iff]
    intro hm
    have hlegal : legalOp st (opOf w) = true := (legalOp_iff st _).2 (.inl (by rw [beq_iff_eq.1 hm]; decide))
    rw [hop] at hlegal
    cases hlegal
  obtain ⟨run, hrun⟩ := exec_engineRow hw (.inl hwait) r hr
  rw [hrun]
  exact attempt_some (issue_illegal hmay hw hop _ _ _)

-- Count events past the end of a tally (R138)

/-- The reach of a count event wakes at most a partition's sleep agreement (R182). -/
theorem sleepTouch_eq (s : State) (k : Nat) : ∃ P, s.sleepTouch k = { s with parts := P } := by
  unfold State.sleepTouch
  split
  · exact ⟨_, rfl⟩
  · exact ⟨_, rfl⟩

/-- The record of event e, which would carry its tally past 16,777,215 (R138). -/
structure OverflowRecord (e : CountEvent) (v : ErrEvent) : Prop where
  cls : v.cls = 2
  logical : v.logical.toNat = (4 * e.die + e.pos) % 65536
  detail : v.detail = BitVec.ofNat 64 (e.tally + e.pos * 2 ^ 16 + e.srcDie * 2 ^ 24 + e.srcEng * 2 ^ 32)

/-- An event that would carry its tally past 16,777,215 leaves it there, with OVF set and a UC record (R138). -/
theorem applyEvent_past {s : State} {e : CountEvent}
    (h : 16777215 < (s.tally (4 * e.die + e.pos) e.tally).value + e.amount) :
    (s.applyEvent e).tally (4 * e.die + e.pos) e.tally = ⟨16777215, true⟩
      ∧ ∃ v, (s.applyEvent e).log.raised = s.log.raised ++ [v] ∧ OverflowRecord e v := by
  have hmin : min ((s.tally (4 * e.die + e.pos) e.tally).value + e.amount) 0xFFFFFF = 0xFFFFFF := by omega
  simp only [State.applyEvent, hmin, h, decide_true, if_true, Bool.or_true]
  generalize natLe 3 _ ++ _ ++ _ = payload
  have hfull := tally_setTally_of_ne (c := 4 * e.die + e.pos) (n := e.tally) (v := ⟨0xFFFFFF, true⟩) s (by decide)
  obtain ⟨M, C, htrace⟩ := trace_eq (s.setTally (4 * e.die + e.pos) e.tally ⟨0xFFFFFF, true⟩) e.die e.pos 5
    (e.srcEng % 8) payload
  rw [htrace]
  exact ⟨hfull, _, rfl, rfl, BitVec.toNat_ofNat .., rfl⟩

/-- A bank that applies an event at once (R136). -/
theorem eventArrive_applied {i : Nat} {e : CountEvent} {s : State} (he : s.eng.events[i]? = some e)
    (hl : (s.eng.events.take i).any (sameLane e) = false) (hp : s.power (s.coreKey (4 * e.die + e.pos)) = .on)
    (hz : s.frozenDie e.die = false) (ha : (s.bank (4 * e.die + e.pos)).applied < 4)
    (hf : (s.bank (4 * e.die + e.pos)).fifo = []) :
    ∃ u : State, eventArrive i s = some (u.applyEvent e) ∧ u.log = s.log
      ∧ ∀ c n, u.tally c n = s.tally c n := by
  have hgo := eventArrive_on he hl hp hz
  obtain ⟨P, htouch⟩ := sleepTouch_eq (s.dropEvent i) (s.coreKey (4 * e.die + e.pos))
  rw [htouch] at hgo
  exact ⟨_, hgo.trans (bankTake_applied ha hf), rfl, fun _ _ => rfl⟩

/-- A bank's queue of one event is applied in a later cycle (R136). -/
theorem fifoApply_one {c : Core} {e : CountEvent} {s : State} (hf : (s.bank c.val).fifo = [e])
    (hp : s.power (s.coreKey c.val) = .on) (hz : s.frozenDie (c.val / 4) = false) :
    fifoApply c s = some ((s.setBank c.val ⟨1, []⟩).applyEvent e) := by
  rw [fifoApply_on (by simp [hf]) hp hz, hf]
  rfl

/-- Stream st has instruction w to issue and one of its waits names tally x, which has overflowed. -/
theorem waitsOverflowed_of_ovf {st : Stream} {w : IWord} {s : State} {x : Wait} (hmay : s.mayIssue (streamIx st) = true)
    (hw : s.fetch (streamIx st) = .word w) (hlegal : legalOp st (opOf w) = true)
    (hclean : s.commonCauses (streamIx st) w = []) (hwait : (s.stream (streamIx st)).granted = false) (hx : x ∈ waitsOf w)
    (hovf : (s.tally (waitCore (streamIx st) x) x.tally).ovf = true) : WaitsOverflowed st w s :=
  ⟨hmay, hw, hlegal, hclean, hwait, List.any_eq_true.2 ⟨x, hx, by rw [hovf, Bool.true_or]⟩⟩

/-- Settles O58: an event applied at once or from a queue overflows its tally as `applyEvent_past` says, and a wait on an
overflowed tally ends the instruction, a MOVE's channels with it. -/
theorem tallyOverflow : Obligations.TallyOverflow := by
  unfold Obligations.TallyOverflow
  refine ⟨?arrive, ?fifo, ?waits⟩
  case arrive =>
    intro i e s he hl core hp hz ha hf hpast
    obtain ⟨u, hgo, hlog, htally⟩ := eventArrive_applied he hl hp hz ha hf
    obtain ⟨hfull, v, hraised, hcls, hlogical, hdetail⟩ := applyEvent_past (s := u) (e := e) (by rwa [htally])
    exact ⟨_, v, attempt_some hgo, hfull, by rw [hraised, hlog], hcls, hlogical, hdetail⟩
  case fifo =>
    intro c e s hf hcore hp hz hpast
    rw [← hcore] at hpast
    obtain ⟨hfull, v, hraised, hcls, hlogical, hdetail⟩ := applyEvent_past (s := s.setBank c.val ⟨1, []⟩) hpast
    rw [hcore] at hfull hlogical
    refine ⟨_, v, attempt_some (fifoApply_one hf hp hz), hfull, hraised, hcls, hlogical.trans ?_, hdetail⟩
    exact Nat.mod_eq_of_lt (by omega)
  case waits =>
    intro st w s x hmay hw hlegal hclean hwait hx hovf
    have h := waitsOverflowed_of_ovf hmay hw hlegal hclean hwait hx hovf
    refine ⟨fun r hr hm hp => ?_, fun ho hn ha => attempt_some (moveIssue_overflow h ho hn ha)⟩
    obtain ⟨run, hrun⟩ := exec_engineRow hw (.inr h.overflow) r hr
    rw [hrun]
    exact attempt_some (issue_overflow h hm hp run)

end Sys2Proof.Machine
end

section
/-! PROOFS. What a control instruction leaves unchanged (O54). -/

namespace Sys2Proof.Machine

variable {i : Nat} {s t : State}

-- The stream after a branch and after HALT

/-- A taken branch goes on at its target, with or without the level that it ends. -/
theorem branch_eq_goTo (x : StreamSt) (w : IWord) : ∃ ls, branch x w = x.goTo (branchTo x w) ls := by
  unfold branch
  split
  · split
    · exact ⟨_, rfl⟩
    · exact ⟨_, rfl⟩
  · exact ⟨_, rfl⟩

theorem branch_st (x : StreamSt) (w : IWord) : (branch x w).st = .run := by
  obtain ⟨ls, h⟩ := branch_eq_goTo x w
  rw [h, goTo_st]

theorem branch_x (x : StreamSt) (w : IWord) : (branch x w).x = x.x := by
  obtain ⟨ls, h⟩ := branch_eq_goTo x w
  rw [h, goTo_x]

/-- The end of loop bodies leads back to address 0 from another one only within a level that goes on. -/
theorem settle_ne_zero {pc : Nat} (ls : List Loop) (h : pc ≠ 0) : (settle ls pc).1 ≠ 0 ∨ (settle ls pc).2.1 ≠ [] := by
  induction ls with
  | nil => exact .inl h
  | cons l ls ih =>
    rw [settle]
    split
    · split
      · exact .inr (List.cons_ne_nil _ _)
      · exact ih
    · exact .inl h

/-- A stream that has retired an instruction is never as after reset, not even where it returns to IDLE. -/
theorem halted_ne_streamReset (x : StreamSt) : { x.next with st := .idle } ≠ streamReset := by
  intro he
  rcases settle_ne_zero x.loops (Nat.succ_ne_zero (x.pc + 63)) with h | h
  · exact h (congrArg StreamSt.pc he)
  · exact h (congrArg StreamSt.loops he)

-- What a control instruction can do

/-- The next states of the control row c at state s: it does nothing, faults, misses, waits, or retires; its registers X stay
but for SETX and ADDX. -/
inductive ControlStep (c : Instr) (st : Stream) (s : State) : State → Prop
  | none : ControlStep c st s s
  | fault (cause : Nat) : ControlStep c st s (s.fault (streamIx st) cause)
  | miss : ControlStep c st s (s.missAt (streamIx st))
  | wait (e : EngState) (he : e ≠ .idle) :
    ControlStep c st s (s.setStream (streamIx st) { s.stream (streamIx st) with st := e })
  | retire (w : IWord) (x : StreamSt) (hw : s.fetch (streamIx st) = .word w) (hx : x ≠ streamReset)
    (hkeep : c ≠ .setx st → c ≠ .addx st → x.x = (s.stream (streamIx st)).x) :
    ControlStep c st s (finishNow (s.afterWaits (streamIx st) w) (streamIx st) w (issuing (s.stream (streamIx st))) x)

variable {c : Instr} {st : Stream}

/-- A control instruction that takes effect takes a control step of its row. -/
theorem controlStep_of_some {op : Nat} {pre : State → StreamSt → IWord → List Nat} {f : StreamSt → IWord → StreamSt}
    (h : control st op pre f s = some t) (hf : ∀ x w, f x w ≠ streamReset)
    (hkeep : c ≠ .setx st → c ≠ .addx st → ∀ x w, (f x w).x = x.x) : ControlStep c st s t := by
  rcases issue_cases h with ⟨k, rfl⟩ | rfl | rfl | ⟨w, hw, -, -, -, rfl⟩
  · exact .fault k
  · exact .miss
  · exact .wait _ (by decide)
  · exact .retire w _ hw (hf _ w) fun hset hadd => hkeep hset hadd _ w

/-- A row that attempts a control instruction. -/
theorem controlStep_of_attempt {op : Nat} {pre : State → StreamSt → IWord → List Nat} {f : StreamSt → IWord → StreamSt}
    (h : attempt s (control st op pre f s) = .next t) (hf : ∀ x w, f x w ≠ streamReset)
    (hkeep : c ≠ .setx st → c ≠ .addx st → ∀ x w, (f x w).x = x.x) : ControlStep c st s t := by
  cases hc : control st op pre f s with
  | none =>
    rw [attempt_none hc] at h
    cases h
    exact .none
  | some v =>
    rw [attempt_some hc] at h
    cases h
    exact controlStep_of_some hc hf hkeep

/-- A row that attempts a control instruction after which the stream goes on with the next one. -/
theorem controlStep_of_next {op : Nat} {pre : State → StreamSt → IWord → List Nat}
    (h : attempt s (control st op pre (fun x _ => x.next) s) = .next t) : ControlStep c st s t :=
  controlStep_of_attempt h (fun x _ => next_ne_streamReset x) fun _ _ _ _ => rfl

/-- WAITGC puts its stream in WAIT_GC or issues. -/
theorem controlStep_waitgc (h : exec (.waitgc st) s = .next t) : ControlStep c st s t := by
  change attempt s (waitGcIssue st s) = .next t at h
  unfold waitGcIssue at h
  dsimp only at h
  split at h
  · split at h
    · cases h
      exact .wait _ (by decide)
    · exact controlStep_of_next h
  · exact controlStep_of_next h

/-- A stream that waits in WAIT_GC issues its WAITGC, or nothing happens. -/
theorem controlStep_gcWaitSatisfied (h : exec (.gcWaitSatisfied st) s = .next t) : ControlStep c st s t := by
  change execGcWaitSatisfied st s = .next t at h
  unfold execGcWaitSatisfied at h
  dsimp only at h
  split at h
  · split at h
    · split at h
      · exact controlStep_of_next h
      · cases h
        exact .none
    · cases h
      exact .none
  · cases h
    exact .none

/-- Each control row takes a control step. -/
theorem controlStep_of_exec (hc : isControl st c) (h : exec c s = .next t) : ControlStep c st s t := by
  rcases hc with rfl | rfl | rfl | rfl | rfl | rfl | rfl | rfl | rfl | rfl | rfl | rfl | rfl
  · exact controlStep_of_next h
  · exact controlStep_of_next h
  · exact controlStep_of_next h
  · exact controlStep_of_attempt h (fun _ _ => next_ne_streamReset _) fun hset _ => absurd rfl hset
  · exact controlStep_of_attempt h (fun _ _ => next_ne_streamReset _) fun _ hadd => absurd rfl hadd
  · refine controlStep_of_attempt h (fun x w => ne_streamReset_of_st ?_) fun _ _ x w => ?_
    · dsimp only
      split <;> simp
    · dsimp only
      split <;> simp
  · exact controlStep_of_attempt h (fun x w => ne_streamReset_of_st (by simp [branch_st])) fun _ _ => branch_x
  · refine controlStep_of_attempt h (fun x w => ne_streamReset_of_st ?_) fun _ _ x w => ?_
    · split <;> simp [branch_st]
    · split <;> simp [branch_x]
  · exact controlStep_waitgc h
  · exact controlStep_gcWaitSatisfied h
  · exact controlStep_of_attempt h (fun x w => ne_streamReset_of_st (by simp)) fun _ _ _ _ => rfl
  · exact controlStep_of_attempt h (fun x _ => halted_ne_streamReset x) fun _ _ _ _ => rfl
  · refine controlStep_of_attempt h (fun x w => ne_streamReset_of_st ?_) fun _ _ x w => ?_
    · split <;> simp
    · split <;> simp

-- What a control step spares

/-- The parts of the device that no control instruction changes; every other part is blanked. -/
def State.beside (s : State) : State :=
  { s with eng := { s.eng with streams := [], tallies := [], events := [], missIn := [], evDiscards := 0 },
           mem := [], cfg := [], log := .init }

/-- A register other than the fault register of stream i, its count of issue cycles and those of its trace ring. -/
def SparedReg (i a : Nat) : Prop :=
  a ≠ faultReg i ∧ a ≠ ctrBase i ∧ inAreas [(ringBase (ringOf i).1 (ringOf i).2, 64)] a = false

/-- From s to t a control instruction of stream i has spared what its frame names: the tallies are counted apart. -/
structure ControlSpares (i : Nat) (s t : State) : Prop where
  spares : Spares i (fun a => inAreas [s.ringArea (ringOf i).1 (ringOf i).2] a = false) s t
  beside : t.beside = s.beside
  regs : ∀ a, SparedReg i a → t.cfgW a = s.cfgW a

theorem cfgW_recordFault {k pc a : Nat} (ha : a ≠ faultReg i) : (s.recordFault i k pc).cfgW a = s.cfgW a := by
  unfold State.recordFault
  split
  · rfl
  · exact cfgW_setCfgW_ne s _ ha

theorem recordFault_beside (s : State) (i k pc : Nat) : (s.recordFault i k pc).beside = s.beside := by
  unfold State.recordFault
  split <;> rfl

theorem controlSpares_fault (s : State) {k : Nat} (hi : i < 576) : ControlSpares i s (s.fault i k) where
  spares := Spares.fault .refl hi
  beside := recordFault_beside s i k (s.stream i).pc
  regs _ ha := cfgW_recordFault ha.1

theorem controlSpares_missAt (s : State) : ControlSpares i s (s.missAt i) := ⟨Spares.missAt .refl, rfl, fun _ _ => rfl⟩

theorem controlSpares_setStream (s : State) (x : StreamSt) : ControlSpares i s (s.setStream i x) :=
  ⟨Spares.setStream .refl, rfl, fun _ _ => rfl⟩

-- Retirement: the trace entry, the signals and the count of issue cycles

theorem cfgW_ringPut {d k a : Nat} {bs : List Byte} (ha : a ≠ ringBase d k + 16) : (s.ringPut d k bs).cfgW a = s.cfgW a :=
  cfgW_setCfgW_ne _ _ ha

/-- An entry offered to a ring writes no register outside the ring's block (Table 20-4). -/
theorem cfgW_trace {d k type eng a : Nat} {payload : List Byte} (ha : inAreas [(ringBase d k, 64)] a = false) :
    (s.trace d k type eng payload).cfgW a = s.cfgW a := by
  have hout := inAreas_eq_false.1 ha _ (List.mem_singleton_self _)
  have hne (off : Nat) (ho : off < 64) : a ≠ ringBase d k + off := by dsimp only at hout; omega
  have hput : ∀ bs, (s.ringPut d k bs).cfgW a = s.cfgW a := fun bs => cfgW_ringPut (hne 16 (by decide))
  simp only [State.trace]
  split
  · rfl
  split
  · split
    · exact cfgW_setCfgW_ne s _ (hne 32 (by decide))
    · exact hput _
  split
  · split
    · exact (cfgW_setCfgW_ne _ _ (hne 0 (by decide))).trans (hput _)
    · exact hput _
  · rfl

theorem trace_beside (s : State) (d k type eng : Nat) (payload : List Byte) :
    (s.trace d k type eng payload).beside = s.beside := by
  obtain ⟨M, C, h⟩ := trace_eq s d k type eng payload
  rw [h]
  rfl

theorem ctrBase_notRingPlace (_hi : i < 576) : NotRingPlace (ctrBase i) := by
  intro d k hd hk
  unfold ctrBase ringBase coreCfg dieCfg
  split <;> omega

theorem controlSpares_finishNow (s : State) {w : IWord} {old x : StreamSt} (hi : i < 576) :
    ControlSpares i s (finishNow s i w old x) := by
  obtain ⟨E, N, L, hsigs⟩ := sendSigs_eq ((s.traceIssue i old w).setStream i x) i w
  have hissued : Spares i _ s ((s.traceIssue i old w).setStream i x) :=
    (Spares.traceIssue .refl hi fun _ ha => ha).setStream
  simp only [finishNow, hsigs]
  refine ⟨Spares.setCfgW (hissued.same rfl rfl rfl rfl rfl) (ctrBase_notRingPlace hi), ?_, fun a ha => ?_⟩
  · exact trace_beside s _ _ 1 (ixEng i) _
  · obtain ⟨-, hctr, hring⟩ := ha
    exact (cfgW_setCfgW_ne _ _ hctr).trans (cfgW_trace hring)

-- The instruction

/-- The frame of a control instruction, X apart. -/
structure ControlFrame (i : Nat) (s t : State) : Prop where
  engine : EngineFrame i s t
  bytes : ∀ a, inAreas [s.ringArea (ringOf i).1 (ringOf i).2] a = false → t.rd1 a = s.rd1 a
  beside : t.beside = s.beside
  regs : ∀ a, SparedReg i a → t.cfgW a = s.cfgW a

theorem ControlSpares.frame (h : ControlSpares i s t) : ControlFrame i s t :=
  ⟨h.spares.engineFrame, h.spares.bytes, h.beside, h.regs⟩

theorem ControlSpares.frame_afterWaits {w : IWord} (h : ControlSpares i (s.afterWaits i w) t) (hw : s.fetch i = .word w) :
    ControlFrame i s t := by
  obtain ⟨hengine, hbytes⟩ := h.spares.engineFrame_afterWaits hw
  obtain ⟨T, hT⟩ := afterWaits_tallies s i w
  obtain ⟨-, hbeside, hregs⟩ := h
  rw [afterWaits_ringArea] at hbytes
  rw [hT] at hbeside hregs
  exact ⟨hengine, hbytes, hbeside, hregs⟩

theorem ControlStep.frame (h : ControlStep c st s t) : ControlFrame (streamIx st) s t := by
  have hi := streamIx_lt st
  cases h with
  | none => exact ⟨Spares.engineFrame (A := fun _ => True) .refl, fun _ _ => rfl, rfl, fun _ _ => rfl⟩
  | fault k => exact (controlSpares_fault s hi).frame
  | miss => exact (controlSpares_missAt s).frame
  | wait e he => exact (controlSpares_setStream s _).frame
  | retire w x hw hx hkeep => exact (controlSpares_finishNow _ hi).frame_afterWaits hw

/-- X changes by SETX and ADDX alone (R112). -/
theorem ControlStep.x (h : ControlStep c st s t) (hset : c ≠ .setx st) (hadd : c ≠ .addx st) :
    (t.stream (streamIx st)).x = (s.stream (streamIx st)).x := by
  have hwrite (u : State) (e : EngState) (he : e ≠ .idle) :
      ((u.setStream (streamIx st) { s.stream (streamIx st) with st := e }).stream (streamIx st)).x
        = (s.stream (streamIx st)).x := by
    rw [stream_setStream_of_ne _ (ne_streamReset_of_st he)]
  cases h with
  | none => rfl
  | fault k => rw [fault_stream]
  | miss => exact hwrite s .waitFetch (by decide)
  | wait e he => exact hwrite s e he
  | retire w x hw hx hkeep =>
    rw [finishNow_stream _ hx]
    exact hkeep hset hadd

/-- Settles O54: a control instruction takes a control step, which has the frame and keeps X as stated. -/
theorem controlInstructionsFrame : Obligations.ControlInstructionsFrame := by
  unfold Obligations.ControlInstructionsFrame
  intro st c s t hc h i r
  have hstep := controlStep_of_exec hc h
  obtain ⟨hengine, hbytes, hbeside, hregs⟩ := hstep.frame
  exact ⟨hengine, hbytes, (congrArg State.poison hbeside :), (congrArg State.mbx hbeside :), (congrArg State.doms hbeside :),
    (congrArg State.parts hbeside :), (congrArg State.mgmt hbeside :), (congrArg State.order hbeside :),
    (congrArg State.freeCount hbeside :), (congrArg State.out hbeside :), (congrArg (fun u => u.eng.acc) hbeside :),
    (congrArg (fun u => u.eng.icache) hbeside :), fun a hfault hctr hring => hregs a ⟨hfault, hctr, hring⟩, hstep.x⟩

end Sys2Proof.Machine
end

section
/-! PROOFS. Windows, their boundaries, lateness and sleep agreements (O18, O19, O20). -/

namespace Sys2Proof.Machine

variable {p : Part} {s : State}

-- The close and the boundary (R159 to R164, R172)

theorem windowClose_closes (hin : (s.part p.val).inWindow = true) (hstreams : s.openStream p.val = none)
    (hops : s.opsDone p.val = true) (hcopy : s.copyOwed p.val = false) : windowClose p s = some (s.closeWindow p) := by
  simp [windowClose, hin, hstreams, hops, hcopy]

theorem boundaryStart_runs (hmay : s.mayBound (s.part p.val) = true) (hholds : ((s.answered_ p.val).part p.val).holds = []) :
    boundaryStart p s = some ((s.answered_ p.val).runBoundary p) := by
  simp [boundaryStart, hmay, hholds]

theorem paceSend_sends {b : Nat} (hb : (s.part p.val).bAt = some b) (hphase : (s.part p.val).phase = 1) (hgc : b + 4 ≤ s.gc) :
    paceSend p s = some (s.setPart p.val { s.part p.val with
      phase := 2, pace := (s.part p.val).nextPace, variant := (s.part p.val).nextVariant
      compiled := (s.part p.val).nextCompiled }) := by
  simp [paceSend, hb, hphase, Nat.not_lt.2 hgc]

/-- The window whose plan is loaded is 0 for a partition that is ARMED, and the next one for any other. -/
theorem entryPcLoad_loads {b : Nat} (hb : (s.part p.val).bAt = some b) (hphase : (s.part p.val).phase = 2)
    (hgc : b + 28 ≤ s.gc) :
    let t := s.part p.val
    let a := s.winF t (if t.state = 4 then 0 else t.window + 1) 128 48
    entryPcLoad p s = some (s.setPart p.val { t with
      phase := 3, entries := s.entryPcs p.val t.entryBase, bwAddr := a, bwPlan := s.bwPlanAt a }) := by
  simp [entryPcLoad, hb, hphase, Nat.not_lt.2 hgc]

theorem windowOpen_opens {b : Nat} (hb : (s.part p.val).bAt = some b) (hstate : (s.part p.val).state = 5)
    (hphase : (s.part p.val).phase = 3) (hgc : b + 32 ≤ s.gc) (hfrozen : (s.part p.val).frozen = false)
    (hgraft : s.graftOwed p.val = false) : windowOpen p s = some (s.openWindow p ((s.part p.val).window + 1)) := by
  simp [windowOpen, hb, hstate, hphase, hgc, hfrozen, hgraft]

-- Window 0 (R170, R419)

theorem window0Boundary_runs (hstate : (s.part p.val).state = 4) (hb : (s.part p.val).bAt = none)
    (hgc : (s.part p.val).lc ≤ s.gc + 32) (htake : s.mgmt.takeover = none) :
    window0Boundary p s = some (s.runBoundary0 p) := by
  simp [window0Boundary, hstate, hb, Nat.not_lt.2 hgc, htake]

theorem launchCount_launches (hstate : (s.part p.val).state = 4) (hphase : (s.part p.val).phase = 3)
    (hgc : (s.part p.val).lc ≤ s.gc) (hgraft : s.graftOwed p.val = false) : launchCount p s = some (s.launched p) := by
  simp [launchCount, hstate, hphase, Nat.not_lt.2 hgc, hgraft]

/-- Settles O18: what each event asks for is given, so it has the effect that its lemma above names. -/
theorem windowEventsComplete : Obligations.WindowEventsComplete := by
  unfold Obligations.WindowEventsComplete
  intro p s t
  refine ⟨?close, ?boundary, ?boundary0, ?pace, ?entries, ?opens, ?launch⟩
  case close => exact fun hin hstreams hops hcopy => attempt_some (windowClose_closes hin hstreams hops hcopy)
  case boundary => exact fun hmay hholds => attempt_some (boundaryStart_runs hmay hholds)
  case boundary0 => exact fun hstate hb hgc htake => attempt_some (window0Boundary_runs hstate hb hgc htake)
  case pace => exact fun b hb hphase hgc => attempt_some (paceSend_sends hb hphase hgc)
  case entries => exact fun b hb hphase hgc => attempt_some (entryPcLoad_loads hb hphase hgc)
  case opens =>
    exact fun b hb hstate hphase hgc hfrozen hgraft => attempt_some (windowOpen_opens hb hstate hphase hgc hfrozen hgraft)
  case launch => exact fun hstate hphase hgc hgraft => attempt_some (launchCount_launches hstate hphase hgc hgraft)

-- Lateness, hang limits, hold limits and verdicts (R176 to R179, R395, R535)

theorem meetingCountReached_late (hin : (s.part p.val).inWindow = true) (hlate : (s.part p.val).late = none)
    (hgc : s.mc (s.part p.val) (s.part p.val).window ≤ s.gc) : meetingCountReached p s = some (s.lateStart p) := by
  simp [meetingCountReached, hin, hlate, Nat.not_lt.2 hgc]

theorem hangLimit_holds (hin : (s.part p.val).inWindow = true)
    (hgc : (s.part p.val).hangFrom.getD (s.mc (s.part p.val) (s.part p.val).window) + (s.part p.val).plan.hang ≤ s.gc)
    (hhold : (s.part p.val).holds.any (fun h => h.reason == 2) = false) :
    hangLimit p s = some (s.hold p 2 (some (s.hangEvent p))) := by
  simp only [hangLimit, hin, hhold, Nat.not_lt.2 hgc, decide_false, Bool.not_true, Bool.or_self, Bool.false_eq_true, if_false]

theorem holdLimit_expires {r : HoldReason} {h : Hold}
    (hfind : ((s.part p.val).holds.find? fun h => h.reason == holdCode r) = some h) (hcode : holdCode r ≠ 8)
    (hexp : h.expired = false) (hgc : h.since + (s.part p.val).plan.hang ≤ s.gc) :
    holdLimit p r s = some (s.holdExpires p r h) := by
  simp [holdLimit, hfind, hcode, hexp, Nat.not_lt.2 hgc]

theorem normVerdict_given {b : Nat} {v : Verdict} (hat : (s.part p.val).normAt = some b)
    (hv : (s.part p.val).verdict = some v) (hgc : b + 224 ≤ s.gc) : normVerdict p s = some (s.giveVerdict p v) := by
  simp [normVerdict, hat, hv, Nat.not_lt.2 hgc]

/-- Settles O19: each limit has passed, so its event has the effect that its lemma above names. -/
theorem latenessCompletes : Obligations.LatenessCompletes := by
  unfold Obligations.LatenessCompletes
  intro p s t
  exact ⟨fun hin hlate hgc => attempt_some (meetingCountReached_late hin hlate hgc),
    fun hin hgc hhold => attempt_some (hangLimit_holds hin hgc hhold),
    fun r h hfind hcode hexp hgc => attempt_some (holdLimit_expires hfind hcode hexp hgc),
    fun b v hat hv hgc => attempt_some (normVerdict_given hat hv hgc)⟩

-- Sleep agreements and wakes (R181 to R183)

variable {x : SleepSt}

/-- A participant that may still answer gives READY, or refuses. -/
theorem sleepAnswer_answers {dom : Domain} (hx : (s.part p.val).sleep = some x) (hdone : x.done = false)
    (hgc : s.gc < x.commit) (hdom : x.doms.contains (domKey dom) = true) (hready : x.ready.contains (domKey dom) = false) :
    sleepAnswer p dom s = some (s.setPart p.val { s.part p.val with
      sleep := some (if s.mustRefuse (domKey dom) then { x with refused := true }
        else { x with ready := x.ready ++ [domKey dom] }) }) := by
  simp only [sleepAnswer, hx, hdone, hdom, hready, Nat.not_le.2 hgc, decide_false, Bool.not_true, Bool.or_self,
    Bool.false_eq_true, if_false]
  split <;> rfl

theorem sleepDeadline_cancels (hx : (s.part p.val).sleep = some x) (hdone : x.done = false) (hgc : x.commit ≤ s.gc + 4)
    (hagreed : x.agreed = false) : sleepDeadline p s = some (s.setPart p.val { s.part p.val with
      sleep := none, sleepCancels := (s.part p.val).sleepCancels + 1 }) := by
  simp [sleepDeadline, hx, hdone, Nat.not_lt.2 hgc, hagreed]

theorem sleepCommit_sleeps (hx : (s.part p.val).sleep = some x) (hdone : x.done = false) (hgc : x.commit ≤ s.gc)
    (hagreed : x.agreed = true) :
    sleepCommit p s = some (x.doms.foldl (fun s k => s.setDom k { s.dom k with st := .sleep, going := none })
      (s.setPart p.val { s.part p.val with sleep := some { x with done := true } })) := by
  simp [sleepCommit, hx, hdone, Nat.not_lt.2 hgc, hagreed]

/-- The wake of an agreement waits for the later of its request and the end of the minimum dwell (R182). -/
theorem latchedWake_wakes {w : Nat} (hx : (s.part p.val).sleep = some x) (hw : x.wake = some w) (hdone : x.done = true)
    (hdoms : x.doms ≠ []) (hgc : max w (x.commit + if x.deep then 1250 else 125) ≤ s.gc) :
    latchedWake p s = some (x.doms.foldl (fun s k => s.wakeDom x.deep k)
      (s.setPart p.val { s.part p.val with sleep := some { x with doms := [] } })) := by
  have hempty : x.doms.isEmpty = false := by simpa using hdoms
  simp only [latchedWake, hx, hw, hdone, hempty, Nat.not_lt.2 hgc, decide_false, Bool.not_true, Bool.or_self,
    Bool.false_eq_true, if_false]

theorem scheduledWake_wakes (hopen : (s.part p.val).opened.isSome = true) (hlast : (s.part p.val).last = false)
    (hclosed : (s.part p.val).closed.isSome = true) (hgc : s.gc < s.mc (s.part p.val) (s.part p.val).window)
    (hdue : s.wakesDue p.val ≠ []) :
    scheduledWake p s = some ((s.wakesDue p.val).foldl (fun s x => s.wakeDom x.2 x.1) s) := by
  have hunopened := Option.isNone_eq_false_iff.2 hopen
  have hunclosed := Option.isNone_eq_false_iff.2 hclosed
  simp [scheduledWake, hunopened, hlast, hunclosed, Nat.not_le.2 hgc, hdue]

/-- Settles O20: each event of an agreement finds its condition met; a wake request is always latched. -/
theorem sleepAgreementCompletes : Obligations.SleepAgreementCompletes := by
  unfold Obligations.SleepAgreementCompletes
  intro p s t
  refine ⟨?answer, ?deadline, ?commit, rfl, ?latched, ?scheduled⟩
  case answer =>
    exact fun x dom hx hdone hgc hdom hready => attempt_some (sleepAnswer_answers hx hdone hgc hdom hready)
  case deadline => exact fun x hx hdone hgc hagreed => attempt_some (sleepDeadline_cancels hx hdone hgc hagreed)
  case commit => exact fun x hx hdone hgc hagreed => attempt_some (sleepCommit_sleeps hx hdone hgc hagreed)
  case latched => exact fun x w hx hw hdone hdoms hgc => attempt_some (latchedWake_wakes hx hw hdone hdoms hgc)
  case scheduled =>
    exact fun hopen hlast hclosed hgc hdue => attempt_some (scheduledWake_wakes hopen hlast hclosed hgc hdue)

end Sys2Proof.Machine
end

section
/-! PROOFS. LATE and TEARDOWN frames of a partition's peers (O27). -/

namespace Sys2Proof.Machine

variable {pt : Nat} {f : Frame} {s : State}

/-- A frame with a payload brings as many bytes as its length field says (R320). -/
theorem ComesIn.payload_length {op cls : Nat} (h : ComesIn pt op cls f s) (hop : ¬ (op = 1 ∨ op = 4)) :
    f.payload.length = fLen f := by
  rw [h.size, if_neg hop]

/-- The first LATE of a node in the meeting set of a window that has not passed is noted with its arrival count (R418). -/
theorem lateIn_notes {j : JobImage} (hin : ComesIn pt 0x0A 1 f s) (hlen : fLen f = 24) :
    let u := s.takeArrived pt f
    let q := u.ctxPart (fSrc f)
    let t := u.part q
    let w := bitsAt (leNat f.payload) 0 32
    BitVec.ofNat 64 (bitsAt (leNat f.payload) 64 64) = t.tag → u.hasJob q = true → t.job = some j → u.meetSet t w ≠ 0 →
    ((j.meetSets.getD (u.meetSet t w) []).any fun n => n.val == fSrc f) = true → t.peers.any (fun x => x.1 == w) = false →
    t.window ≤ w → lateIn pt f s = some (u.setPart q { t with peers := t.peers ++ [(w, fSrc f, u.gc)] }) := by
  intro u q t w htag hjob hj hset hmember hfirst hwindow
  have hsize : f.payload.length = 24 := (hin.payload_length (by decide)).trans hlen
  rw [lateIn, letIn_comes hin]
  simp only [u, q, t, w] at htag hjob hj hset hmember hfirst hwindow ⊢
  simp only [hsize, htag, hjob, hj, hset, hmember, hfirst, hwindow, bne_self_eq_false, beq_iff_eq, decide_true,
    Bool.not_true, Bool.not_false, Bool.or_self, Bool.and_self, Bool.false_eq_true, if_false, if_true]

/-- A TEARDOWN with the launch tag of its context's partition, which has windows and is not torn down, acts (R355). -/
theorem teardownIn_tears (hin : ComesIn pt 0x0B 0 f s) (hlen : fLen f = 8) :
    let u := s.takeArrived pt f
    let q : Part := Fin.ofNat 8 (u.ctxPart (fSrc f))
    let t := u.part q.val
    t.tag = BitVec.ofNat 64 (leNat f.payload) → [4, 5, 6, 7].contains t.state = true → t.tornDown = false →
    teardownIn pt f s = some (u.tearDown q).1 := by
  intro u q t htag hstate htorn
  have hsize : f.payload.length = 8 := (hin.payload_length (by decide)).trans hlen
  rw [teardownIn, letIn_comes hin]
  simp only [u, q, t] at htag hstate htorn ⊢
  simp only [hsize, htag, hstate, htorn, beq_self_eq_true, Bool.not_false, Bool.and_self, if_true]

/-- Settles O27: both frames are let in, and pass the checks of their rows. -/
theorem partitionFramesComplete : Obligations.PartitionFramesComplete := by
  unfold Obligations.PartitionFramesComplete
  exact ⟨fun _ _ _ _ hin hlen htag hjob hj hset hmember hfirst hwindow =>
      attempt_some (lateIn_notes hin hlen htag hjob hj hset hmember hfirst hwindow),
    fun _ _ _ hin hlen htag hstate htorn => attempt_some (teardownIn_tears hin hlen htag hstate htorn)⟩

end Sys2Proof.Machine
end

section
/-! PROOFS. From the answer of a command's own checks to the completion of its row. -/

namespace Sys2Proof.Machine

variable {s : State} {e : BitVec 512}

-- The checks that command bodies share (R430, R439, R475)

theorem partIn_of_mem {p : Nat} {l : List Nat} (h : (s.part p).state ∈ l) (a : Ans) : s.partIn p l a = a :=
  if_pos (List.contains_iff_mem.2 h)

theorem notReplay_of_none {p : Nat} (h : (s.part p).replay = none) (a : Ans) : s.notReplay p a = a := by
  simp [State.notReplay, h]

theorem unlessBusy_of_free {c : RightsCls} (h : s.busyWith e c = false) (a : Ans) : s.unlessBusy e c a = a := by
  simp [State.unlessBusy, h]

theorem check_of_true {b : Bool} (h : b = true) (a : Ans) : Ans.check b a = a := if_pos h

-- Rows

variable {c : Blk → Fin 12 → Instr} {r : CmdRow} {body : State → BitVec 512 → Ans}

/-- A row whose body answers OK where `ok` holds completes at once there. -/
theorem commandOk_of_body {ok : Blk → Fin 12 → State → BitVec 512 → Prop} {n : Note} {res : State → BitVec 512 → List Byte}
    {eff : State → BitVec 512 → State} (hrow : ∀ b k s, exec (c b k) s = attempt s (lysby r b k.val body s))
    (hbody : ∀ b k u e, ok b k u e → body u e = .ok n (res u e) (eff u e)) : commandOk c r ok n res eff :=
  fun b k s htaken hok => (hrow b k s).trans (attempt_some (lysby_ok htaken (hbody b k _ _ hok)))

/-- A row whose body answers PENDING where `ok` holds is accepted there. -/
theorem commandPends_of_body {ok : State → BitVec 512 → Prop} {n : State → BitVec 512 → Note}
    {data : State → BitVec 512 → List Nat} {image : Option JobImage} {slot : State → BitVec 512 → Option PlateSlot}
    {eff : State → BitVec 512 → State} (hrow : ∀ b k s, exec (c b k) s = attempt s (lysby r b k.val body s))
    (hbody : ∀ u e, ok u e → body u e = .pend (n u e) (data u e) image (slot u e) (eff u e)) :
    commandPends c r ok n data image slot eff :=
  fun b k s htaken hok => (hrow b k s).trans (attempt_some (lysby_pend htaken (hbody _ _ hok)))

end Sys2Proof.Machine
end

section
/-! PROOFS. Pace, norm, proof, journal and transfer commands (O41). -/

namespace Sys2Proof.Machine

variable {s : State} {e : BitVec 512}

-- Pace (R168, R490)

/-- A plan that stands up to its checks comes into force at once where no window has been armed, and else waits. -/
theorem planBody_ok (hstate : (s.part (entPart e)).state ∈ jobStates) (hreplay : (s.part (entPart e)).replay = none)
    (hfree : s.busyWith e .job = false) (hplan : planOk (planOf e) = true)
    (hshare : s.shareSum (entPart e) (planOf e).share ≤ 64) :
    planBody s e = if (s.part (entPart e)).state = 3 then
      .ok .plain [] (s.setPart (entPart e) ((s.part (entPart e)).takePlan (planOf e)))
      else .ok .latched [] (s.planWaits (entPart e) (planOf e)) := by
  simp only [planBody]
  rw [partIn_of_mem hstate, notReplay_of_none hreplay, unlessBusy_of_free hfree, check_of_true (by simp [hplan, hshare])]
  simp only [beq_iff_eq]

theorem paceReadBody_ok (hstate : (s.part (entPart e)).state ∈ [4, 5, 6, 7]) :
    paceReadBody s e = .ok .plain (s.paceReport (entPart e)) s := partIn_of_mem hstate _

-- Norm bounds and answers (R393, R397, R498)

theorem normArmBody_ok (hstate : (s.part (entPart e)).state ∈ jobStates) (hreplay : (s.part (entPart e)).replay = none)
    (hfree : s.busyWith e .job = false) (hbounds : boundsOk (boundsOf e) = true) :
    normArmBody s e = .ok .latched [] (s.setPart (entPart e) { s.part (entPart e) with bounds := boundsOf e }) := by
  simp only [normArmBody]
  rw [partIn_of_mem hstate, notReplay_of_none hreplay, unlessBusy_of_free hfree, check_of_true hbounds]

/-- SKIP is always an answer; PROCEED is one where the norm is finite (R397). -/
theorem answerBody_ok (hasks : (s.part (entPart e)).asksNorm = true) (hreplay : (s.part (entPart e)).replay = none)
    (hfree : s.busyWith e .job = false)
    (hanswer : payF e 0 1 = 1 ∨ payF e 0 1 = 0 ∧ ∃ v, (s.part (entPart e)).verdict = some v ∧ isFinite32 v.norm = true) :
    answerBody s e
      = .ok .latched [] (s.setPart (entPart e) { s.part (entPart e) with answer := some (payF e 0 1) }) := by
  simp only [answerBody, hasks, Bool.not_true, Bool.false_eq_true, if_false]
  rw [notReplay_of_none hreplay, unlessBusy_of_free hfree, check_of_true]
  rcases hanswer with hskip | ⟨happly, v, hv, hfinite⟩
  · simp [hskip]
  · simp [happly, hv, hfinite]

-- Proofs (R399, R402, R498)

/-- A period of 0 turns proofs off and has phase 0; any other is above its phase (R399). -/
theorem proofBody_ok (hstate : (s.part (entPart e)).state ∈ jobStates) (hfree : s.busyWith e .job = false)
    (hhold : payF e 4 1 < 2)
    (hphase : payF e 0 2 = 0 ∧ payF e 2 2 = 0 ∨ payF e 0 2 ≠ 0 ∧ payF e 2 2 < payF e 0 2) :
    proofBody s e = .ok .latched [] (s.setPart (entPart e) { s.part (entPart e) with
      proofNext := some (payF e 0 2, payF e 2 2, payF e 4 1 == 1) }) := by
  simp only [proofBody]
  rw [partIn_of_mem hstate, unlessBusy_of_free hfree, check_of_true]
  rcases hphase with ⟨hoff, hzero⟩ | ⟨hon, hbelow⟩
  · simp [hhold, hoff, hzero]
  · simp [hhold, hon, hbelow]

theorem compareBody_pends (hstate : (s.part (entPart e)).state ∈ jobStates) (hopen : s.jnlOpen (entPart e) = true)
    (hfree : s.busyWith e .job = false)
    (hlist : payF e 8 4 = 0 ∨ s.inPartHbm (entPart e) (payF e 0 8) (128 * payF e 8 4) = true) :
    compareBody s e = .pend .plain [] none none s := by
  simp only [compareBody, hopen, Bool.not_true, Bool.false_eq_true, if_false]
  rw [partIn_of_mem hstate, unlessBusy_of_free hfree, check_of_true (by simpa using hlist)]

-- The journal (R423, R500)

theorem openBody_ok (hstate : (s.part (entPart e)).state ∈ [2, 3]) (hclosed : s.jnlOpen (entPart e) = false)
    (hfree : s.busyWith e .job = false) (hlo : 12 ≤ payF e 8 1) (hhi : payF e 8 1 ≤ 26) (ha : payF e 0 8 % 4096 = 0)
    (hhbm : s.inPartHbm (entPart e) (payF e 0 8) (64 * 2 ^ payF e 8 1) = true) :
    openBody s e = .ok .none [] (s.openJournal (entPart e) (payF e 0 8) (payF e 8 1)) := by
  simp only [openBody, hclosed, Bool.false_eq_true, if_false]
  rw [partIn_of_mem hstate, unlessBusy_of_free hfree, check_of_true (by simp [hlo, hhi, ha, hhbm])]

theorem closeBody_ok (hstate : (s.part (entPart e)).state ∈ [2, 3, 7]) (hfree : s.busyWith e .job = false) :
    closeBody s e = .ok .none (natLe 8 (s.jnlWrite (entPart e))) (s.closeJournal (entPart e)) := by
  simp only [closeBody]
  rw [partIn_of_mem hstate, unlessBusy_of_free hfree]

-- Transfers of the master state (R403 to R405, R499)

theorem exportBody_pends (hstate : (s.part (entPart e)).state ∈ [6, 7]) (hfree : s.busyWith e .job = false)
    (hmode : payF e 0 1 < 2) (hhbm : s.inPartHbm (entPart e) (payF e 8 8) (payF e 16 8) = true)
    (hroom : exportBytes (s.extents (entPart e) (payF e 0 1)) ≤ payF e 16 8) :
    exportBody s e = .pend .plain [] none none s := by
  simp only [exportBody]
  rw [partIn_of_mem hstate, unlessBusy_of_free hfree, check_of_true (by simp [hmode, hhbm]), if_neg (Nat.not_lt.2 hroom)]

/-- Records in WORKING form are taken where the preamble's digest is that of the parameter table (R405). -/
theorem importBody_pends (hstate : (s.part (entPart e)).state = 3) (hfree : s.busyWith e .job = false)
    (hhbm : s.inPartHbm (entPart e) (payF e 0 8) (payF e 8 8) = true)
    (hdigest : ∀ l, s.importOf (payF e 0 8) (payF e 8 8) = some l → isWorking l = true →
      s.rd (payF e 0 8 + 32) 32 = s.tableDigest (entPart e)) :
    importBody s e = .pend .plain [] none none s := by
  simp only [importBody]
  rw [partIn_of_mem (by simp [hstate]), unlessBusy_of_free hfree, check_of_true]
  rw [hhbm, Bool.true_and]
  split
  next l hl =>
    cases hworking : isWorking l
    · rfl
    · simp [hdigest l hl hworking]
  next => rfl

/-- Settles O41: each row's body answers as its lemma above says. -/
theorem settingCommandsComplete : Obligations.SettingCommandsComplete := by
  unfold Obligations.SettingCommandsComplete
  refine ⟨?planNow, ?planLater, ?paceRead, ?normArm, ?normAnswer, ?proofArm, ?compare, ?jnlOpen, ?jnlClose, ?exportStart, ?importStart⟩
  case planNow =>
    refine commandOk_of_body (fun _ _ _ => rfl) fun _ _ u e ⟨hstate, hreplay, hfree, hplan, hshare⟩ => ?_
    rw [planBody_ok (by simp [hstate, jobStates]) hreplay hfree hplan hshare, if_pos hstate]
  case planLater =>
    refine commandOk_of_body (fun _ _ _ => rfl) fun _ _ u e ⟨hstate, hreplay, hfree, hplan, hshare⟩ => ?_
    have hlater : (u.part (entPart e)).state ≠ 3 := ne_of_mem_of_not_mem hstate (by decide)
    rw [planBody_ok (List.mem_cons_of_mem 3 hstate) hreplay hfree hplan hshare, if_neg hlater]
  case paceRead => exact commandOk_of_body (fun _ _ _ => rfl) fun _ _ _ _ hstate => paceReadBody_ok hstate
  case normArm =>
    exact commandOk_of_body (fun _ _ _ => rfl) fun _ _ _ _ ⟨hstate, hreplay, hfree, hbounds⟩ =>
      normArmBody_ok hstate hreplay hfree hbounds
  case normAnswer =>
    exact commandOk_of_body (fun _ _ _ => rfl) fun _ _ _ _ ⟨hasks, hreplay, hfree, hanswer⟩ =>
      answerBody_ok hasks hreplay hfree hanswer
  case proofArm =>
    exact commandOk_of_body (fun _ _ _ => rfl) fun _ _ _ _ ⟨hstate, hfree, hhold, hphase⟩ =>
      proofBody_ok hstate hfree hhold hphase
  case compare =>
    exact commandPends_of_body (fun _ _ _ => rfl) fun _ _ ⟨hstate, hopen, hfree, hlist⟩ =>
      compareBody_pends hstate hopen hfree hlist
  case jnlOpen =>
    exact commandOk_of_body (fun _ _ _ => rfl) fun _ _ _ _ ⟨hstate, hclosed, hfree, hlo, hhi, ha, hhbm⟩ =>
      openBody_ok hstate hclosed hfree hlo hhi ha hhbm
  case jnlClose => exact commandOk_of_body (fun _ _ _ => rfl) fun _ _ _ _ ⟨hstate, hfree⟩ => closeBody_ok hstate hfree
  case exportStart =>
    exact commandPends_of_body (fun _ _ _ => rfl) fun _ _ ⟨hstate, hfree, hmode, hhbm, hroom⟩ =>
      exportBody_pends hstate hfree hmode hhbm hroom
  case importStart =>
    exact commandPends_of_body (fun _ _ _ => rfl) fun _ _ ⟨hstate, hfree, hhbm, hdigest⟩ =>
      importBody_pends hstate hfree hhbm hdigest

end Sys2Proof.Machine
end

section
/-! PROOFS. Exchange operations begin, their messages and answers arrive, and their landings complete (O9 to O12). -/

namespace Sys2Proof.Machine

-- Instructions that begin (R213 to R217)

/-- An XE instruction with room, a record and areas in reach and no cause begins its operation. -/
theorem runXe_done {role : XRole} {i gates : Nat} {u : State} {t : StreamSt} {w : IWord}
    (hroom : (u.xch.ops.filter fun o => o.die == ixDie i && !o.failed).length < 16)
    (hmb : xMb w < u.cfgF (dieCfg (ixDie i) + 0x120) 48 8) (hrecord : u.reach (u.partOf i) [(u.xeRecord i w, 64)] = .ok)
    (hcause : u.xeCauses role i gates t w (u.xeRecord i w) = [])
    (hreach : u.reach (u.partOf i) (u.xeAreas role i gates t w (u.xeRecord i w)) = .ok) :
    runXe role i gates u t w = .done (u.xeStart role i gates t w (u.xeRecord i w)) := by
  simp only [runXe, if_neg (Nat.not_le.2 hroom), if_neg (Nat.not_le.2 hmb), hrecord, hcause, minCause, hreach]

/-- A row of the exchange engine that attempts `role` on the words of `mine` completes as its role does. -/
theorem exchangeCompletes_of_exec {c : Stream → Instr} {role : XRole} {gates : Nat} {mine : IWord → Bool}
    (hc : ∀ st s, exec (c st) s = attempt s (execXe role mine gates st s)) : exchangeCompletes c role gates mine := by
  intro st w s hi hmine i u t a hhandles hrole hroom hmb hrecord hcause hreach
  have hown : xHandles i (s.stream i) w ++ roleCause role w = [] := List.append_eq_nil_iff.2 ⟨hhandles, hrole⟩
  rw [hc]
  exact attempt_some (issue_done hi hmine hown (runXe_done hroom hmb hrecord hcause hreach))

/-- Settles O9: each row attempts its role, which begins under the conditions stated. -/
theorem exchangeInstructionsComplete : Obligations.ExchangeInstructionsComplete := by
  unfold Obligations.ExchangeInstructionsComplete
  exact ⟨fun _ => exchangeCompletes_of_exec fun _ _ => rfl, exchangeCompletes_of_exec fun _ _ => rfl,
    exchangeCompletes_of_exec fun _ _ => rfl, exchangeCompletes_of_exec fun _ _ => rfl,
    exchangeCompletes_of_exec fun _ _ => rfl, exchangeCompletes_of_exec fun _ _ => rfl⟩

-- Messages that arrive (R219, R223, R224)

/-- A message whose arrival passes every check is taken by its die. -/
theorem xArrive_taken {mtype src d : Nat} {m : Msg} {s : State} (htype : fld m.hdr 0 4 = mtype) (hawake : s.xeAwake d = true)
    (hcrc : msgCrcOk m = true) :
    let u := s.traceMsg (xeIx d) true false src m
    let v := u.countRx src m.port.val (32 + m.payload.length)
    (src = u.node ∨ (u.ctxValid src = true ∧ u.ctxState src ≠ 2)) → v.nodeIn (s.partOfDie d) src = true →
    v.rejects d m = false → xArrive mtype src d m s = v.xTake d src m := by
  intro u v hctx hnode hreject
  have hopen : (src != u.node && (!u.ctxValid src || u.ctxState src == 2)) = false := by
    rcases hctx with hself | ⟨hvalid, hstate⟩
    · simp [hself]
    · simp [hvalid, hstate]
  simp only [u, v] at hopen hnode hreject ⊢
  simp [xArrive, htype, hawake, hcrc, hopen, hnode, hreject]

/-- Without an open receive, a message that fits the receive buffer waits there (R219). -/
theorem xTake_waits {s : State} {d src : Nat} {m : Msg} (hnone : (s.msgSeg d m).bind (fun a => s.receiveOf d a m) = none)
    (hroom : s.bufBytes d + 32 + m.payload.length ≤ 0x40000) :
    s.xTake d src m = some { s with xch := { s.xch with buf := s.xch.buf ++ [⟨d, src, m⟩] } } := by
  simp only [State.xTake, hnone, if_neg (Nat.not_lt.2 hroom)]

/-- At an open receive that has not failed, a message acts as its type says. -/
theorem xTake_received {s : State} {d src : Nat} {m : Msg} {o : XOp}
    (hopen : (s.msgSeg d m).bind (fun a => s.receiveOf d a m) = some o) (hlive : o.failed = false) :
    (fld m.hdr 0 4 = 1 → s.xTake d src m = s.landRow o src m)
    ∧ (fld m.hdr 0 4 = 2 → s.xTake d src m = some (s.landCount o src m))
    ∧ (fld m.hdr 0 4 = 3 → s.xTake d src m = some (s.placeReturn o src m)) := by
  refine ⟨?row, ?count, ?ret⟩
  all_goals
    intro htype
    simp [State.xTake, hopen, hlive, htype]

/-- A row of the table that attempts the arrival of `mtype` completes as its die takes the message. -/
theorem arrivalCompletes_of_exec {c : Node → CDie → Msg → Instr} {mtype : Nat}
    (hc : ∀ src d m s, exec (c src d m) s = attempt s (xArrive mtype src.val d.val m s)) : arrivalCompletes c mtype := by
  intro src d m s t o htype hawake hcrc u v hctx hnode hreject
  have htaken : xArrive mtype src.val d.val m s = v.xTake d.val src.val m :=
    xArrive_taken htype hawake hcrc hctx hnode hreject
  rw [hc, htaken]
  refine ⟨fun hnone hroom => attempt_some (xTake_waits hnone hroom), fun hopen hlive => ?_⟩
  obtain ⟨hrow, hcount, hreturn⟩ := xTake_received (src := src.val) hopen hlive
  exact ⟨fun h hland => attempt_some ((hrow (htype.trans h)).trans hland),
    fun h => attempt_some (hcount (htype.trans h)), fun h => attempt_some (hreturn (htype.trans h))⟩

/-- Settles O10: the three rows attempt the arrival of their type. -/
theorem exchangeMessagesComplete : Obligations.ExchangeMessagesComplete := by
  unfold Obligations.ExchangeMessagesComplete
  exact ⟨arrivalCompletes_of_exec fun _ _ _ _ => rfl, arrivalCompletes_of_exec fun _ _ _ _ => rfl,
    arrivalCompletes_of_exec fun _ _ _ _ => rfl⟩

-- Answers (R218, R220, R221)

/-- What an answer of type `mtype` does to operation p, whose message x it has just taken back: it ends the message, ends
the operation, or sends the message again below the last attempt. -/
def State.answerEffect (u : State) (mtype d : Nat) (p : XOp) (x : XOut) : State :=
  if mtype == 4 then (u.sendCheck p.id).pumpDie d
  else if mtype == 6 then (u.xEnd p 0x28 false).pumpDie d
  else if x.attempt == 3 then (u.xEnd p 0x26 false).pumpDie d
  else (u.setXop { p with todo := { x with attempt := x.attempt + 1 } :: p.todo }).pumpDie d

/-- An answer to an outstanding message of a live operation takes the message back and has its effect. -/
theorem xAnswerArrive_answered {mtype src d : Nat} {m : Msg} {s : State} {o : XOp} {x : XOut} (htype : fld m.hdr 0 4 = mtype)
    (hawake : s.xeAwake d = true) (hcrc : msgCrcOk m = true) (hanswer : s.answered d src m = some (o, x))
    (hlive : o.failed = false) :
    let p : XOp := { o with unacked := o.unacked.erase x }
    xAnswerArrive mtype src d m s
      = some ((((s.heard src).traceMsg (xeIx d) true false src m).setXop p).answerEffect mtype d p x) := by
  simp [xAnswerArrive, htype, hawake, hcrc, hanswer, hlive, State.answerEffect, apply_ite some]

/-- Settles O11: each row's answer is taken in, with the effect of its type. -/
theorem exchangeAnswersComplete : Obligations.ExchangeAnswersComplete := by
  unfold Obligations.ExchangeAnswersComplete
  intro src d m s o x hawake hcrc hanswer hlive p u
  refine ⟨fun hack => ?ack, fun hnack hattempt => ?nack, fun hreject => ?reject⟩
  case ack => exact attempt_some (xAnswerArrive_answered hack hawake hcrc hanswer hlive)
  case nack =>
    have heffect : u.answerEffect 5 d.val p x
        = (u.setXop { p with todo := { x with attempt := x.attempt + 1 } :: p.todo }).pumpDie d.val := by
      simp [State.answerEffect, hattempt]
    exact heffect ▸ attempt_some (xAnswerArrive_answered hnack hawake hcrc hanswer hlive)
  case reject => exact attempt_some (xAnswerArrive_answered hreject hawake hcrc hanswer hlive)

-- Landings (R230, R231)

/-- Settles O12: the operation is a live landing that still owes the area, the area is whole, and its stash is updated. -/
theorem landingCompletes : Obligations.LandingCompletes := by
  unfold Obligations.LandingCompletes
  intro id k s u o hop hrole hlive hk hdone hawake g h counts ex stepNo v hseen hlanded hstash y o' z
  have howed : (o.role != .landing || o.failed || decide (o.rows ≤ k.val) || o.done.contains k.val || !s.xeAwake o.die)
      = false := by
    rw [hrole, hlive, hdone, hawake, decide_eq_false (Nat.not_le.2 hk)]
    rfl
  have hwhole : (headSeen h != 0xFF || headLanded h != counts.sum) = false := by simp [hseen, hlanded]
  have hlands : landComplete id k.val s = some (if o'.done.length == o'.rows then z.xDone o' else z) := by
    simp only [g, h, counts, ex, stepNo, v] at hwhole hstash
    simp only [landComplete, hop, howed, hwhole, hstash, Bool.false_eq_true, if_false]
    rfl
  exact attempt_some hlands

end Sys2Proof.Machine
end

section
/-! PROOFS. The buffer pool: requests, releases, grants to waiters and refills (O8). -/

namespace Sys2Proof.Machine

-- Requests (R248, R249, R253, R254)

/-- A stream of a die of the device, in a domain that is ON and on a die that is not frozen, is served by the pool. -/
theorem poolServes {i : Nat} {s : State} (hdie : ixDie i < s.nDies) (hon : s.power (s.engDom i) = .on)
    (hrun : s.frozenDie (ixDie i) = false) :
    (ixDie i ≥ s.nDies || s.power (s.engDom i) != .on || s.frozenDie (ixDie i)) = false := by
  simp [hdie, hon, hrun]

/-- A request that its home die can serve is granted: its head address is kept with it. -/
theorem poolAllocate_granted {st : Stream} {o bytes key m a : Nat} {s t : State} (hdie : ixDie (streamIx st) < s.nDies)
    (hon : s.power (s.engDom (streamIx st)) = .on) (hrun : s.frozenDie (ixDie (streamIx st)) = false)
    (hhome : s.homeDie (ixDie (streamIx st)) o key = some m)
    (hhead : s.allocAt (s.partOf (streamIx st)) m o bytes = .head a t) :
    poolAllocate st o bytes key s
      = some { t with pool := { t.pool with granted := t.pool.granted ++ [(⟨streamIx st, o, bytes, key, 0⟩, a)] } } := by
  simp only [poolAllocate, poolServes hdie hon hrun, Bool.false_eq_true, if_false, hhome, hhead]

/-- A request that must wait is handed to its home die's queue. -/
theorem poolAllocate_waits {st : Stream} {o bytes key m : Nat} {s : State} (hdie : ixDie (streamIx st) < s.nDies)
    (hon : s.power (s.engDom (streamIx st)) = .on) (hrun : s.frozenDie (ixDie (streamIx st)) = false)
    (hhome : s.homeDie (ixDie (streamIx st)) o key = some m)
    (hwait : s.allocAt (s.partOf (streamIx st)) m o bytes = .wait) :
    poolAllocate st o bytes key s = s.queueReq m ⟨streamIx st, o, bytes, key, 0⟩ := by
  simp only [poolAllocate, poolServes hdie hon hrun, Bool.false_eq_true, if_false, hhome, hwait]

/-- While one of the die's 256 places is free, a request joins the queue of its owner's region and counts in WAITS. -/
theorem queueReq_joins {s : State} {m : Nat} {q : PoolReq} (hroom : s.dieWaiters m < 256) :
    let r := s.cfgF (ownA m q.owner) 2 6
    s.queueReq m q
      = some ((s.setWaiters m r (s.waiters (regKey m r) ++ [q])).bumpCfg (ownA m q.owner + 24) 0 32 1) := by
  simp only [State.queueReq, if_neg (Nat.not_le.2 hroom)]

-- Releases (R256)

/-- A release that finds its cell, or its chain whole, frees what it names. -/
theorem poolRelease_done {st : Stream} {a : Nat} {chain : Bool} {s t : State} (hdie : ixDie (streamIx st) < s.nDies)
    (hon : s.power (s.engDom (streamIx st)) = .on) (hrun : s.frozenDie (ixDie (streamIx st)) = false)
    (hdone : s.release (s.partOf (streamIx st)) a chain = .done t) : poolRelease st a chain s = some t := by
  simp only [poolRelease, poolServes hdie hon hrun, Bool.false_eq_true, if_false, hdone]

-- Waiters and the spill cache (R251, R254)

/-- On a memory die whose domain is ON the waiters of a region are granted in order. -/
theorem execPoolWaiterGrant_grants {m : MDie} {r : Fin 64} {s : State} (hon : s.power (memKey m.val) = .on) :
    execPoolWaiterGrant m r s = .next (grantWaiters m.val r.val 256 s) :=
  attempt_some (by simp [hon])

/-- The cache of an enabled region that grants spill cells is refilled below a quarter of its share, while the ring holds
entries. -/
theorem execSpillCacheRefill_refills {m : MDie} {r : Fin 64} {s : State} (henabled : s.cfgF (regA m.val r.val) 0 1 = 1)
    (hlow : 4 * (s.spillCache (regKey m.val r.val)).length < s.cacheShare m.val r.val)
    (hring : s.ringCount m.val r.val ≠ 0) (hlive : s.pool.dead.contains (regKey m.val r.val) = false) :
    execSpillCacheRefill m r s = .next (s.refill m.val r.val) := by
  have hdue : (s.cfgF (regA m.val r.val) 0 1 == 1
      && decide (4 * (s.spillCache (regKey m.val r.val)).length < s.cacheShare m.val r.val)
      && s.ringCount m.val r.val != 0 && !s.pool.dead.contains (regKey m.val r.val)) = true := by
    rw [henabled, decide_eq_true hlow, bne_iff_ne.2 hring, hlive]
    rfl
  exact attempt_some (if_pos hdue)

/-- Settles O8: a request is granted or queued as its home die answers, and a release, a grant to waiters and a refill
find their conditions met. -/
theorem poolCommandsComplete : Obligations.PoolCommandsComplete := by
  unfold Obligations.PoolCommandsComplete
  refine ⟨?request, ?release, ?grant, ?refill⟩
  case request =>
    intro st o bytes key m a s t i hdie hon hrun hhome
    exact ⟨fun hhead => attempt_some (poolAllocate_granted hdie hon hrun hhome hhead),
      fun hwait hroom => attempt_some ((poolAllocate_waits hdie hon hrun hhome hwait).trans (queueReq_joins hroom))⟩
  case release => exact fun _ _ _ _ _ hdie hon hrun hdone => attempt_some (poolRelease_done hdie hon hrun hdone)
  case grant => exact fun _ _ _ hon => execPoolWaiterGrant_grants hon
  case refill => exact fun _ _ _ henabled hlow hring hlive => execSpillCacheRefill_refills henabled hlow hring hlive

end Sys2Proof.Machine
end

section
/-! PROOFS. The canonical form of the tables, at reset and in every step (O49, O50). -/

namespace Sys2Proof.Machine

variable {s t : State}

/-- Tables without entries are in their canonical form. -/
theorem State.Form.of_empty (hmem : s.mem = []) (hpoison : s.poison = []) (hcfg : s.cfg = []) (hmbx : s.mbx = [])
    (hdoms : s.doms = []) (hparts : s.parts = []) : s.Form where
  mem := by rw [hmem]; rfl
  poison := by rw [hpoison]; exact .nil
  cfg := by rw [hcfg]; rfl
  mbx := by rw [hmbx]; rfl
  doms := by rw [hdoms]; rfl
  parts := by rw [hparts]; rfl

theorem reset_form : State.reset.Form := .of_empty rfl rfl rfl rfl rfl rfl

/-- Settles O49: no table has an entry after reset. -/
theorem resetHasForm : Obligations.ResetHasForm := reset_form

/-- The form speaks of the tables alone, not of the queue. -/
theorem State.Form.with_pending (h : s.Form) (l : List Instr) : State.Form { s with pending := l } :=
  ⟨h.mem, h.poison, h.cfg, h.mbx, h.doms, h.parts⟩

-- Loss and return of the heartwood supply, which `exec_keeps` leaves out (R576 to R583)

theorem State.keptStack_keeps {s0 old : State} {m : Nat} (h : Keeps s0 s) : Keeps s0 (s.keptStack old m) :=
  State.setCfgF_keeps (State.setCfgF_keeps (State.setCfgF_keeps h))

/-- A cold part has empty tables, but for what HBM_STATUS keeps. -/
theorem State.cold_form (s : State) : s.cold.Form :=
  (Keeps.foldl (Keeps.refl _) fun _ _ => State.keptStack_keeps).form (.of_empty rfl rfl rfl rfl rfl rfl)

theorem supplyLost_form (hlost : supplyLost s = some t) : t.Form := by
  obtain ⟨_, ht⟩ := Option.ite_none_right_eq_some.1 hlost
  exact Option.some.inj ht ▸ s.cold_form

theorem supplyUp_form {slot : Nat} (h : s.Form) (hup : supplyUp slot s = some t) : t.Form := by
  obtain ⟨_, ht⟩ := Option.ite_none_left_eq_some.1 hup
  exact Option.some.inj ht ▸ ⟨h.mem, h.poison, h.cfg, h.mbx, h.doms, h.parts⟩

/-- An event that changes nothing where its condition fails keeps the form if its effect does. -/
theorem attempt_form {o : Option State} (h : s.Form) (ho : ∀ u, o = some u → u.Form) (ht : attempt s o = .next t) :
    t.Form := by
  cases o with
  | none => exact Host.Outcome.next.inj ht ▸ h
  | some u => exact Host.Outcome.next.inj ht ▸ ho u rfl

-- Every step

theorem exec_form {c : Instr} (h : s.Form) (hexec : exec c s = .next t) : t.Form := by
  by_cases hlost : c = .heartwoodSupplyLost
  · subst hlost
    exact attempt_form h (fun _ => supplyLost_form) hexec
  by_cases hup : ∃ slot, c = .heartwoodSupplyUp slot
  · obtain ⟨slot, rfl⟩ := hup
    exact attempt_form h (fun _ => supplyUp_form h) hexec
  · exact (exec_keeps c s hlost (not_exists.1 hup) t hexec).form h

/-- Settles O50: a step runs the front command on the queue's rest, or is a tick. -/
theorem stepKeepsForm : Obligations.StepKeepsForm := by
  unfold Obligations.StepKeepsForm
  intro s t h hstep
  cases hqueue : s.pending with
  | nil =>
    simp only [step, hqueue] at hstep
    exact Host.Outcome.next.inj hstep ▸ (State.tick_keeps (Keeps.refl s)).form h
  | cons c l =>
    simp only [step, hqueue] at hstep
    exact exec_form (h.with_pending l) hstep

end Sys2Proof.Machine
end

section
/-! PROOFS. What a write to memory stores, and host writes through an aperture (O53). -/

namespace Sys2Proof.Machine

variable {s : State}

-- Bytes and lines (R10, R283, R285)

theorem mem_linesOf {a n l : Nat} (hn : n ≠ 0) : l ∈ linesOf a n ↔ a / 64 ≤ l ∧ l ≤ (a + n - 1) / 64 := by
  simp only [linesOf, beq_iff_eq, if_neg hn, List.mem_map, List.mem_range]
  constructor
  · rintro ⟨i, hi, rfl⟩
    omega
  · intro hl
    exact ⟨l - a / 64, by omega, by omega⟩

theorem mem_wholeLines {a n l : Nat} : l ∈ wholeLines a n ↔ a ≤ 64 * l ∧ 64 * l + 64 ≤ a + n := by
  rw [wholeLines, List.mem_filter, Bool.and_eq_true, decide_eq_true_eq, decide_eq_true_eq, and_iff_right_iff_imp]
  intro hl
  exact (mem_linesOf (by omega)).2 (by omega)

theorem rd_wr_same {a : Nat} {bs : List Byte} (hwf : Memory.wf s.mem = true) : (s.wr a bs).rd a bs.length = bs := by
  apply List.ext_getElem
  · simp [State.rd]
  · intro i _ hi
    simpa [State.rd, State.rd1, State.wr] using tget_wrMem bs s.mem a i hwf hi

theorem mem_poison_wr {a l : Nat} {bs : List Byte} :
    l ∈ (s.wr a bs).poison ↔ l ∈ s.poison ∧ ¬ (a ≤ 64 * l ∧ 64 * l + 64 ≤ a + bs.length) := by
  rw [← mem_wholeLines]
  simp [State.wr]

-- Apertures (R442)

/-- A host port that is up makes an access of a function whose bytes lie in its aperture. -/
theorem bar2Access_makes {b : Blk} {off n : Nat} {data : Option (List Byte)} (hup : s.hostUp s.mgmt.hostPort = true)
    (hb : b ≠ .i3c) (hn : n ≠ 0) (hoff : off + n ≤ 2 ^ 36) :
    bar2Access b off n data s = some (s.hostAccess ⟨b, s.apertureAddr b off, n, data⟩) := by
  simp only [bar2Access, hup, beq_false_of_ne hb, beq_false_of_ne hn, Nat.not_lt.2 hoff, Bool.not_true, decide_false,
    Bool.or_self, Bool.false_eq_true, if_false]

theorem hostAccess_writes {b : Blk} {a : Nat} {bs : List Byte} (hhbm : isHbm a = true)
    (hacc : s.access (vfPart b) a bs.length = .ok) : s.hostAccess ⟨b, a, bs.length, some bs⟩ = s.wr a bs := by
  simp only [State.hostAccess, hhbm, if_true, hacc, List.take_length]

/-- Settles O53: the access is made as a write of memory, which stores and clears what the rules above say. -/
theorem apertureWriteStores : Obligations.ApertureWriteStores := by
  unfold Obligations.ApertureWriteStores
  intro b off bs s hwf hup hb hbs hoff a hhbm hacc
  have hmade : bar2Access b off bs.length (some bs) s = some (s.wr a bs) := by
    rw [bar2Access_makes hup hb (mt List.length_eq_zero_iff.1 hbs) hoff, hostAccess_writes hhbm hacc]
  refine ⟨s.wr a bs, attempt_some hmade, rd_wr_same hwf, ?frame, fun l => mem_poison_wr, rfl⟩
  case frame => exact fun x hx => rd1_wr_ne s bs (by simpa using inAreas_eq_false.1 hx)

end Sys2Proof.Machine
end

section
/-! PROOFS. Memory dies at work on their own: temperature, scrubs, repairs and traffic generators (O31). -/

namespace Sys2Proof.Machine

variable {s : State} {m : Nat}

-- Temperature and bands (R282)

theorem hbmTempSample_samples {t : Nat} (hret : s.retired m = false) (hpower : s.power (memKey m) ≠ .off) :
    let b := s.cfgF (stackA m) 0 2
    let u := s.setCfgF (stackA m) 8 8 t
    hbmTempSample m t s = some { u with svc := { u.svc with
      bandDue := tput (fun _ => none) u.svc.bandDue m
        (if bandAfter b t = b then none else some (bandAfter b t, u.gc)) } } := by
  simp [hbmTempSample, hret, hpower]

theorem bandChange_enters {b k : Nat} (hdue : tget (fun _ => none) s.svc.bandDue m = some (b, k)) :
    bandChange m s = some (s.enterBand m b) := by
  simp [bandChange, hdue]

-- Scrubs (R286)

theorem hbmScrub_sweeps {hits : List (Nat × Nat)} (hret : s.retired m = false) (hon : s.power (memKey m) = .on)
    (hgc : cnt s.svc.hbmTick m + 2 ^ 20 ≤ s.gc) : hbmScrub m hits s = some (s.hbmSwept m hits) := by
  simp only [hbmScrub, hret, hon, Nat.not_lt.2 hgc, bne_self_eq_false, decide_false, Bool.or_self,
    Bool.false_eq_true, if_false]

theorem sramScrub_sweeps {u : Nat} {hits : List Nat} (hon : s.power (s.sramDom u) = .on)
    (hgc : cnt s.svc.sramTick u + 2 ^ 16 ≤ s.gc) : sramScrub u hits s = some (s.sramSwept u hits) := by
  simp only [sramScrub, hon, Nat.not_lt.2 hgc, bne_self_eq_false, decide_false, Bool.or_self, Bool.false_eq_true,
    if_false]

-- Repair (R287, R289, R292)

theorem rowRemap_repairs {pc bank row : Nat} {bad : List Nat} (hret : s.retired m = false)
    (hpower : s.power (memKey m) ≠ .off) :
    rowRemap m pc bank row bad s
      = some ((s.poisonRow m pc bank row bad).repairRow ((64 * m + pc) * 64 + bank, row)) := by
  simp [rowRemap, hret, hpower]

theorem stackRetirement_retires {cause pc bank : Nat} (hret : s.retired m = false) (hnone : cause ≠ 0)
    (hservice : cause ≠ 5) :
    stackRetirement m cause pc bank s = some (s.retireStack m cause (pc % 256) (bank % 256)) := by
  simp [stackRetirement, hret, hnone, hservice]

-- Traffic generators (R290, R291)

variable {p : Nat}

theorem tgenStart_starts (hmay : s.tgenMay m = true) (hidle : s.cfgF (tgA m p + 0x30) 0 1 = 0) :
    tgenStart m p s = some (s.startTgen m p) := by
  simp [tgenStart, hmay, hidle]

theorem tgenStop_stops (hruns : s.cfgF (tgA m p + 0x30) 0 1 = 1) :
    tgenStop m p s = some (s.setTgen m p { s.tgen m p with stopping := true }) := by
  simp [tgenStop, hruns]

/-- A run ends by its count or by STOP; without either it goes on until an error. -/
theorem tgenRunEnd_ends {made : Nat} (hruns : s.cfgF (tgA m p + 0x30) 0 1 = 1)
    (hends : (s.tgenSet m p).count ≠ 0 ∨ (s.tgen m p).stopping = true) :
    tgenRunEnd m p made s = some ((s.tgenRan m p made).1.tgenResult m p (s.tgenRan m p made).2) := by
  have hgoes : ((s.tgenSet m p).count == 0 && !(s.tgen m p).stopping) = false := by
    rcases hends with hcount | hstop
    · simp [hcount]
    · simp [hstop]
  simp [tgenRunEnd, hruns, hgoes]

/-- Settles O31: each event finds its condition met, so it has the effect that its lemma above names. -/
theorem memoryServiceCompletes : Obligations.MemoryServiceCompletes := by
  unfold Obligations.MemoryServiceCompletes
  intro m s hret
  refine ⟨?sample, ?band, ?hbmScrub, ?sramScrub, ?row, ?stack, ?start, ?stop, ?runEnd⟩
  case sample => exact fun t hpower => attempt_some (hbmTempSample_samples hret hpower)
  case band => exact fun b k hdue => attempt_some (bandChange_enters hdue)
  case hbmScrub => exact fun hits hon hgc => attempt_some (hbmScrub_sweeps hret hon hgc)
  case sramScrub => exact fun u hits hon hgc => attempt_some (sramScrub_sweeps hon hgc)
  case row => exact fun pc bank row bad hpower => attempt_some (rowRemap_repairs hret hpower)
  case stack => exact fun c pc bank hnone hservice => attempt_some (stackRetirement_retires hret hnone hservice)
  case start => exact fun p hmay hidle => attempt_some (tgenStart_starts hmay hidle)
  case stop => exact fun p hruns => attempt_some (tgenStop_stops hruns)
  case runEnd => exact fun p made hruns hends => attempt_some (tgenRunEnd_ends hruns hends)

end Sys2Proof.Machine
end

section
/-! PROOFS. Lanes, ports and links, and the ALARM of another device (O25). -/

namespace Sys2Proof.Machine

variable {s : State} {p : Nat}

-- Lanes and ports (R318, R319, R457)

theorem spareSwitch_switches {lane t : Nat} (hspare : (s.lnk p).spare = some (lane, t)) (hgc : t ≤ s.gc) :
    spareSwitch p s = some (s.laneSwitched p lane t) := by
  simp [spareSwitch, hspare, Nat.not_lt.2 hgc]

theorem laneFailure_spares {lane : Nat} (hup : s.linkUp p = true) (hfree : s.spareFree p = true) (hlane : lane < 4) :
    laneFailure p lane s
      = some ((s.armSpare p lane (s.gc + 1024)).sendCtl p 4 (lane + 256 * (s.gc + 1024))) := by
  simp [laneFailure, hup, hfree, hlane]

theorem portDown_takesDown (hup : s.linkUp p = true) (hfree : s.spareFree p = false) :
    portDown p s = some (s.takeDown p (if s.link p = 3 ∨ (s.lnk p).spare.isSome then 1 else 2)) := by
  simp [portDown, hup, hfree]

/-- Training with a peer that does not bear this device's own node ID brings a NATIVE link up. -/
theorem linkTrained_up {n : Nat} (hcan : s.canTrain p = true) (hnative : s.portMode p = 1)
    (hother : (s.nodeAssigned && n == s.node) = false) :
    linkTrained p n s = some (((s.setCfgF (portA p + 8) 16 14 n).setLnk p linkReset).setLinkState p 2) := by
  simp only [linkTrained, hcan, hnative, hother, Bool.not_true, Bool.false_eq_true, if_false, beq_self_eq_true, if_true]

-- Links between dies (R274)

/-- While the module has a redundant lane left, the repair of the failed one is queued. -/
theorem d2dFailure_queues {u : Unit52} {link module lane : Nat} :
    let k := unitKey u
    s.net.d2dLost.contains (k, link) = false →
    tget (fun _ => 0) s.net.d2dUsed ((k * 6 + link) * 16 + module)
      + (s.net.d2d.filter fun x => x.1 == k && x.2.1 == link && x.2.2.1 == module).length < 4 →
    d2dFailure u link module lane s
      = some { s with net := { s.net with d2d := s.net.d2d ++ [(k, link, module, lane)] } } := by
  intro k hlink hlanes
  simp only [k] at hlink hlanes ⊢
  simp only [d2dFailure, hlink, Bool.false_eq_true, if_false, if_pos hlanes]

-- ALARM (R532)

theorem alarmIn_alarms {f : Frame} (hin : ComesIn p 0x0C 0 f s) :
    alarmIn p f s = some ((s.takeArrived p f).alarmed (leNat f.payload)) := letIn_comes hin _

/-- Settles O25: each event finds its condition met, so it has the effect that its lemma above names. -/
theorem linkEventsComplete : Obligations.LinkEventsComplete := by
  unfold Obligations.LinkEventsComplete
  intro pt s p
  refine ⟨?spare, ?switch, ?lane, ?down, ?training, ?d2d, ?alarm⟩
  case spare => exact fun lane t hnative hfree => attempt_some (if_pos (Bool.and_eq_true_iff.2 ⟨hnative, hfree⟩))
  case switch => exact fun lane t hspare hgc => attempt_some (spareSwitch_switches hspare hgc)
  case lane => exact fun lane hup hfree hlane => attempt_some (laneFailure_spares hup hfree hlane)
  case down => exact fun hup hfree => attempt_some (portDown_takesDown hup hfree)
  case training => exact fun peer hcan hnative hother => attempt_some (linkTrained_up hcan hnative hother)
  case d2d => exact fun u link module lane hlink hlanes => attempt_some (d2dFailure_queues hlink hlanes)
  case alarm => exact fun f hin => attempt_some (alarmIn_alarms hin)

end Sys2Proof.Machine
end

section
/-! PROOFS. Service commands (O44). -/

namespace Sys2Proof.Machine

variable {s : State} {e : BitVec 512}

-- Checks of a device command (R439, R475)

theorem inDev_of_mem {l : List Nat} (h : s.mgmt.devState ∈ l) (a : Ans) : s.inDev l a = a :=
  if_pos (List.contains_iff_mem.2 h)

theorem allIn_of_none {l : List Nat} (h : s.blocker l = none) (a : Ans) : s.allIn l a = a := by
  simp [State.allIn, h]

-- The service state (R504)

theorem enterBody_ok (hdev : s.mgmt.devState = 2) (hidle : s.blocker idleStates = none)
    (hfree : s.busyWith e .service = false) : enterBody s e = .ok .none [] (setDev 8 s) := by
  rw [enterBody, inDev_of_mem (by simp [hdev]), allIn_of_none hidle, unlessBusy_of_free hfree]

theorem exitBody_ok (hdev : s.mgmt.devState = 8) (hfree : s.busyWith e .service = false) :
    exitBody s e = .ok .none [] (setDev 2 s.stopTgens) := by
  rw [exitBody, inDev_of_mem (by simp [hdev]), unlessBusy_of_free hfree]

-- Traffic generators (R290, R291)

/-- Units that lie idle on a stack that is ON start at once. -/
theorem tgenBody_ok (hdev : s.mgmt.devState ∈ [2, 8]) (hm : payF e 0 1 < 12) (htest : s.tgenFree (payF e 0 1) = true)
    (hfree : s.busyWith e .service = false)
    (hidle : ∀ i < payF e 2 1 + 1 - payF e 1 1, s.cfgF (tgA (payF e 0 1) (payF e 1 1 + i) + 0x30) 0 1 ≠ 1)
    (hlo : payF e 1 1 ≤ payF e 2 1) (hhi : payF e 2 1 < 64) (hstart : payF e 8 8 % 4 = 1)
    (hctl : payF e 8 8 / 2 ^ 20 = 0) (hon : s.power (memKey (payF e 0 1)) = .on) :
    tgenBody s e = .ok .none [] (s.runTgens e) := by
  have hnone : ((List.range (payF e 2 1 + 1 - payF e 1 1)).any
      fun i => s.cfgF (tgA (payF e 0 1) (payF e 1 1 + i) + 0x30) 0 1 == 1) = false := by
    simpa using hidle
  simp only [tgenBody]
  rw [inDev_of_mem hdev, htest, if_neg (by simp), unlessBusy_of_free hfree, hnone, if_neg (by simp),
    check_of_true (by simp only [hm, hlo, hhi, hstart, hctl, decide_true, beq_self_eq_true, Bool.and_self]), hon,
    if_pos (beq_self_eq_true Power.on)]

theorem tgenReadBody_ok (hdev : s.mgmt.devState ∈ [2, 8]) (hm : payF e 0 1 < 12) (hp : payF e 1 1 < 64) :
    tgenReadBody s e = .ok .none (([0x30, 0x38, 0x40, 0x48].map fun o =>
      natLe 8 (s.cfgW (tgA (payF e 0 1) (payF e 1 1) + o)).toNat).flatten) s := by
  simp only [tgenReadBody]
  rw [inDev_of_mem hdev, check_of_true (by simp [hm, hp])]

-- Records and wear (R505, R545)

/-- A record is read in halves, by its own partition or with device scope. -/
theorem recordBody_ok {bs : List Byte} (hhalf : payF e 8 1 < 2) (hrecord : s.record (payF e 0 8) = some bs)
    (hown : entDev e = true ∨ (bitsAt (leNat (bs.take 1)) 7 1 = 0 ∧ bitsAt (leNat (bs.take 1)) 4 3 = entPart e)) :
    recordBody s e = .ok .plain (if payF e 8 1 == 0 then bs.take 48 else bs.drop 48) s := by
  have hmay : (!entDev e
      && (bitsAt (leNat (bs.take 1)) 7 1 == 1 || bitsAt (leNat (bs.take 1)) 4 3 != entPart e)) = false := by
    rcases hown with hdev | ⟨hpart, hsame⟩
    · simp [hdev]
    · simp [hpart, hsame]
  simp only [recordBody]
  rw [check_of_true (by simpa using hhalf), hrecord]
  exact if_neg (by simp [hmay])

theorem wearBody_ok (hunit : payF e 0 2 < 113) : wearBody s e = .ok .none (s.wearBytes (payF e 0 2)) s :=
  check_of_true (by simpa using hunit) _

-- Retirement and return (R292, R548)

theorem retireBody_ok (hdev : s.mgmt.devState = 8) (hfree : s.busyWith e .service = false) (hm : payF e 0 1 < 12)
    (hserial : BitVec.ofNat 64 (payF e 8 8) = s.mgmt.serial) (hret : s.retired (payF e 0 1) = false) :
    retireBody s e = .ok .none [] (s.retireStack (payF e 0 1) 5 0xFF 0xFF) := by
  simp only [retireBody]
  rw [inDev_of_mem (by simp [hdev]), unlessBusy_of_free hfree, check_of_true (by simp [hm, hserial]), hret,
    if_neg Bool.false_ne_true]

theorem prepareReturn_pends (hdev : s.mgmt.devState = 8) (hfree : s.busyWith e .service = false)
    (hserial : BitVec.ofNat 64 (payF e 0 8) = s.mgmt.serial) : prepareReturn s e = .pend .none [] none none s := by
  rw [prepareReturn, inDev_of_mem (by simp [hdev]), unlessBusy_of_free hfree, check_of_true (by simp [hserial])]

/-- Settles O44: each row's body answers as its lemma above says. -/
theorem serviceCommandsComplete : Obligations.ServiceCommandsComplete := by
  unfold Obligations.ServiceCommandsComplete
  refine ⟨?enter, ?exit, ?tgenRun, ?tgenRead, ?record, ?wear, ?retire, ?ret⟩
  case enter =>
    exact commandOk_of_body (fun _ _ _ => rfl) fun _ _ _ _ ⟨hdev, hidle, hfree⟩ => enterBody_ok hdev hidle hfree
  case exit => exact commandOk_of_body (fun _ _ _ => rfl) fun _ _ _ _ ⟨hdev, hfree⟩ => exitBody_ok hdev hfree
  case tgenRun =>
    exact commandOk_of_body (fun _ _ _ => rfl)
      fun _ _ _ _ ⟨hdev, hm, htest, hfree, hidle, hlo, hhi, hstart, hctl, hon⟩ =>
        tgenBody_ok hdev hm htest hfree hidle hlo hhi hstart hctl hon
  case tgenRead => exact commandOk_of_body (fun _ _ _ => rfl) fun _ _ _ _ ⟨hdev, hm, hp⟩ => tgenReadBody_ok hdev hm hp
  case record =>
    exact fun bs => commandOk_of_body (fun _ _ _ => rfl) fun _ _ _ _ ⟨hhalf, hrecord, hown⟩ =>
      recordBody_ok hhalf hrecord hown
  case wear => exact commandOk_of_body (fun _ _ _ => rfl) fun _ _ _ _ hunit => wearBody_ok hunit
  case retire =>
    exact commandOk_of_body (fun _ _ _ => rfl) fun _ _ _ _ ⟨hdev, hfree, hm, hserial, hret⟩ =>
      retireBody_ok hdev hfree hm hserial hret
  case ret =>
    exact commandPends_of_body (fun _ _ _ => rfl) fun _ _ ⟨hdev, hfree, hserial⟩ =>
      prepareReturn_pends hdev hfree hserial

end Sys2Proof.Machine
end

section
/-! PROOFS. The six move operations start with their effect (O6). -/

namespace Sys2Proof.Machine

variable {p : Option Part} {w : MWord} {x : ChanSt} {a n : Nat}

/-- A job that nothing stops, whose accesses end well and whose reads may be used, ends as its effect does. -/
theorem MoveJob.run_eq_effect {j : MoveJob} {c : Nat} {s : State} (hstop : j.stop = none) (hway : j.way c p s = .ok)
    (hpoison : (j.poisonStops && s.anyPoison j.reads) = false) : j.run c p s = j.effect () := by
  simp only [MoveJob.run, hstop, hway, hpoison, Bool.false_eq_true, if_false]

/-- An operation that ends well leaves its descriptor under way, the rest of its chain to follow (R294, R295), and its
ranges in the write-set checker (R311). -/
theorem moveBegin_underWay {i c ch mism first bytes : Nat} {s v u : State}
    (hrun : (moveJob i c p w v).run c p v = .ok u mism first bytes) :
    moveBegin i c ch p a w n x s v = (u.setChan c ch { x with
      rest := (a + 64, n - 1), running := some ⟨a, w, tileGroups w, mism, first, bytes⟩ }).wsDescriptor c ch w := by
  rw [moveBegin, hrun]

/-- A channel that is ready takes a well-formed descriptor inside its core store, and begins it under its own OP. -/
theorem moveStart_begins {op : Nat} {c : Core} {ch : Chan} {s : State} (hready : s.chanReady c.val ch.val = true)
    (hhead : (s.chan c.val ch.val).head = some (a, n, x)) (hchain : chainOk c.val a n = true)
    (hclean : s.poisoned a 64 = false) (hw : BitVec.ofNat 512 (s.rdN a 64) = w) (hgood : mDescBad w = false)
    (hop : mOp w = op) :
    moveStart op c ch s = some (moveBegin (mvStream c.val ch.val) c.val ch.val (s.partOf (mvStream c.val ch.val)) a w n x s
      (s.chanTake c.val ch.val a x)) := by
  subst hw
  simp only [moveStart, hready, hhead, hchain, hclean, hgood, hop, Bool.not_true, bne_self_eq_false, Bool.false_eq_true,
    if_false]

/-- The six rows differ in the OP they start alone, so one argument serves them all. -/
theorem moveCompletes_of_start {row : Core → Chan → Instr} {op : Nat}
    (hrow : ∀ c ch s, exec (row c ch) s = attempt s (moveStart op c ch s)) : moveCompletes row op := by
  intro c ch s u a n mism first bytes x hready hhead hchain hclean w p v j hgood hop hstop hway hpoison heffect
  have hrun : j.run c.val p v = .ok u mism first bytes := (MoveJob.run_eq_effect hstop hway hpoison).trans heffect
  rw [hrow, attempt_some (moveStart_begins hready hhead hchain hclean rfl hgood hop), moveBegin_underWay hrun]

/-- Settles O6: each row starts the descriptor whose OP is its own. -/
theorem moveOperationsComplete : Obligations.MoveOperationsComplete := by
  unfold Obligations.MoveOperationsComplete
  refine ⟨?copy, ?fill, ?compare, ?convert, ?relayout, ?gather⟩
  case copy => exact moveCompletes_of_start fun _ _ _ => rfl
  case fill => exact moveCompletes_of_start fun _ _ _ => rfl
  case compare => exact moveCompletes_of_start fun _ _ _ => rfl
  case convert => exact moveCompletes_of_start fun _ _ _ => rfl
  case relayout => exact moveCompletes_of_start fun _ _ _ => rfl
  case gather => exact moveCompletes_of_start fun _ _ _ => rfl

end Sys2Proof.Machine
end

section
/-! PROOFS. Requests in their turn at their home, the answers that end requests, and loads to other nodes (O21, O22, O23). -/

namespace Sys2Proof.Machine

variable {p : Nat} {f : Frame} {s t u : State} {r : Region}

-- A frame that comes in and its place in its stream (R337, R339, R567)

/-- No cut captures a frame that comes in, so its row takes effect. -/
theorem ComesIn.runs {op cls : Nat} {row : State → Option State} (hin : ComesIn p op cls f s) (hrow : row s = some t) :
    attempt s (unlessFrozen f row s) = .next t :=
  attempt_some ((if_neg (Bool.eq_false_iff.1 hin.running)).trans hrow)

/-- The row of a frame that comes in ends as its body does. -/
theorem ComesIn.completes {op cls : Nat} {body : State → Option State} (hin : ComesIn p op cls f s)
    (hbody : body (s.takeArrived p f) = some t) :
    attempt s (unlessFrozen f (fun s => s.letIn p op cls f body) s) = .next t :=
  hin.runs ((letIn_comes hin body).trans hbody)

theorem State.inTurn_now {apply again : State → Option State} (hturn : u.turn p f = .now) (happly : apply u = some t) :
    u.inTurn p f apply again = some (t.pastTurn p f) := by
  rw [State.inTurn, hturn]
  exact congrArg (Option.map _) happly

theorem State.homeGate_awake {l : List (Nat × Nat)} {k : Option State} (hawake : u.homeAcc l = .ok) :
    u.homeGate p f l k = k := by
  rw [State.homeGate, hawake]

/-- A request at its home that is applied passes the gate of its memory and its turn, and its stream goes on. -/
theorem AtHome.applied {op : Nat} {l : List (Nat × Nat)} {apply again : State → Option State} (hhome : AtHome p op f l s)
    (happly : apply (s.takeArrived p f) = some t) :
    (s.takeArrived p f).homeGate p f l ((s.takeArrived p f).inTurn p f apply again) = some (t.pastTurn p f) :=
  (State.homeGate_awake hhome.awake).trans (State.inTurn_now hhome.turn happly)

-- What a home does with a request that its region allows (R342 to R344, R349, R350)

theorem homeLoad_serves {first : Bool} (hregion : u.checkRegion (u.ctxPart (fSrc f)) f (fLen f) (fun r => r.permR) = .ok r)
    (hawake : u.homeAcc [(fAddr f, fLen f)] = .ok) :
    homeLoad p f first u
      = some (u.respond p 0x21 0 f (u.rd (fAddr f) (fLen f)) (u.pmaskOf (fAddr f) (fLen f))) := by
  simp only [homeLoad, hregion, hawake]

theorem homeStore_writes (hregion : u.checkRegion (u.ctxPart (fSrc f)) f (fLen f) (fun r => r.permW) = .ok r)
    (hawake : u.homeAcc [(fAddr f, fLen f)] = .ok) : homeStore p f u = some (u.homeWrite p f r) := by
  simp only [homeStore, hregion, hawake, bne_self_eq_false, Bool.false_eq_true, if_false]

theorem homeAtomic_modifies (hregion : u.checkRegion (u.ctxPart (fSrc f)) f (fLen f) (fun r => r.permA) = .ok r)
    (hform : aopBad f = false) (hawake : u.homeAcc [(fAddr f, aopWidth (fAop f))] = .ok) :
    homeAtomic p f u = some (u.homeModify p f r) := by
  simp only [homeAtomic, hregion, hform, hawake, bne_self_eq_false, Bool.false_eq_true, if_false]

theorem homeFill_gives {first : Bool} (hregion : u.checkRegion (u.ctxPart (fSrc f)) f 1 (fun r => r.permR) = .ok r)
    (hawake : u.homeAcc [(fAddr f / 256 * 256, 256)] = .ok) : homeFill p f first u = some (u.homeGive p f r) := by
  simp only [homeFill, hregion, hawake, bne_self_eq_false, Bool.false_eq_true, if_false]

/-- A line that is still being filled is marked for its loss, any other is dropped. -/
theorem invalApply_drops {k : Nat} {l : FcLine} (hheld : u.fcFind (fSrc f) (fAddr f / 256) = some (k, l)) :
    invalApply p f true u
      = some ((if l.filling then u.setFc k (some { l with doomed := true }) else u.setFc k none).respond p 0x26 0 f [] 0) := by
  simp only [invalApply, hheld, Bool.not_true, Bool.false_eq_true, if_false]

/-- Settles O21: each request comes in, its memory is awake and its turn has come, so what its home does with it is what
its row does. EVICT and INVAL touch no memory that could sleep. -/
theorem homeRequestsComplete : Obligations.HomeRequestsComplete := by
  unfold Obligations.HomeRequestsComplete
  intro pt f s r u q past
  refine ⟨?load, ?store, ?atomic, ?fill, ?evict, ?inval⟩
  case load =>
    intro hhome hlen hregion
    exact hhome.comes.completes ((if_neg (by simpa using hlen)).trans
      (hhome.applied (homeLoad_serves hregion hhome.awake)))
  case store =>
    intro hhome hlen hregion
    exact hhome.comes.completes ((if_neg (by simpa using hlen)).trans
      (hhome.applied (homeStore_writes hregion hhome.awake)))
  case atomic =>
    intro hhome hform hregion
    exact hhome.comes.completes (hhome.applied (homeAtomic_modifies hregion hform hhome.awake))
  case fill =>
    intro hhome hregion
    exact hhome.comes.completes (hhome.applied (homeFill_gives hregion hhome.awake))
  case evict => exact fun hhome => hhome.comes.completes (State.inTurn_now hhome.turn rfl)
  case inval =>
    intro k l hhome hheld
    exact hhome.comes.completes (State.inTurn_now hhome.turn (invalApply_drops hheld))

-- Answers at the requester (R338, R346, R352)

/-- A response to a tracked request ends it and is taken by the use that the request was made for. -/
theorem Answers.taken {op : Nat} {q : Req} (hans : Answers p op f q s) (k : State → ReqUse → Option State) :
    s.answer p op f k = k ((s.takeArrived p f).answerReq q) q.use := by
  rw [State.answer, letIn_comes hans.comes, hans.request]

theorem Answers.completes {op : Nat} {q : Req} {k : State → ReqUse → Option State} (hans : Answers p op f q s)
    (htake : k ((s.takeArrived p f).answerReq q) q.use = some t) :
    attempt s (unlessFrozen f (fun s => s.answer p op f k) s) = .next t :=
  hans.comes.runs ((hans.taken k).trans htake)

/-- FILL_DATA names its line by the request that it answers. -/
theorem fillDataIn_lands {q : Req} (hans : Answers p 0x24 f q s) (huse : q.use = .fill) (hreq : s.reqOf p f = some q) :
    fillDataIn p f s
      = some (fillData ⟨setFld f.hdr 64 48 (fAddr q.frame), f.payload⟩ ((s.takeArrived p f).answerReq q)) := by
  simp only [fillDataIn, hans.taken, huse, hreq, Option.map_some, Option.getD_some]

-- Requests that are sent again (R340, R354)

/-- One request past the timeout of its context has its whole stream sent again. -/
theorem requestTimeout_resends {n : Nat} {q : Req} (hup : s.ctxState n = 0) (hmem : q ∈ s.reqsOf n) (hport : q.port = p)
    (hlate : q.sentAt + s.cfgF (ctxA n + 16) 0 32 ≤ s.gc) : requestTimeout n p s = some (s.resendStream n p) := by
  have hany : (s.reqsOf n).any (fun r => r.port == p && decide (r.sentAt + s.cfgF (ctxA n + 16) 0 32 ≤ s.gc)) = true :=
    List.any_eq_true.2 ⟨q, hmem, by simp [hport, hlate]⟩
  simp only [requestTimeout, hup, hany, bne_self_eq_false, Bool.not_true, Bool.or_self, Bool.false_eq_true, if_false]

/-- The oldest request of a SUSPECT context goes again on its own port, or on the first usable one where that is lost. -/
theorem suspectResend_retries {n v : Nat} {q : Req} {rest : List Req} {vs : List Nat} (hstate : s.ctxState n = 1)
    (hreqs : s.reqsOf n = q :: rest) (husable : s.usable n = v :: vs) (hdue : q.sentAt + 65536 ≤ s.gc) :
    suspectResend n s = some (if (v :: vs).contains q.port then s.resendReq q else s.moveReq q v) := by
  simp only [suspectResend, hreqs, husable, hstate, Nat.not_lt.2 hdue, bne_self_eq_false, decide_false, Bool.or_self,
    Bool.false_eq_true, if_false]

/-- Settles O22: an answer with status OK has the effect of its request's use; a RESYNC, a timeout and a retry that is due
pass the checks of their rows. -/
theorem fabricAnswersComplete : Obligations.FabricAnswersComplete := by
  unfold Obligations.FabricAnswersComplete
  refine ⟨?answers, ?timeout, ?suspect⟩
  case answers =>
    intro pt f s q u
    have hok {op : Nat} (hans : Answers pt.val op f q s) : (fStatus f == 0) = true := beq_iff_eq.2 hans.good
    refine ⟨?load, ?store, ?atomic, ?fill, ?inval, ?resync⟩
    case load =>
      intro i dst hans huse
      exact hans.completes (by simp only [huse, hok hans, if_true, u])
    case store =>
      intro i hans huse
      exact hans.completes (by simp only [huse, hok hans, if_true, u])
    case atomic =>
      intro i dst hans huse
      exact hans.completes (by simp only [huse, hok hans, if_true, u])
    case fill => exact fun hans huse hreq => hans.comes.runs (fillDataIn_lands hans huse hreq)
    case inval =>
      intro id hans huse
      exact hans.completes (by simp only [huse, u])
    case resync => exact fun hin => hin.completes rfl
  case timeout => exact fun n pt s q hup hmem hport hlate => attempt_some (requestTimeout_resends hup hmem hport hlate)
  case suspect =>
    exact fun n s q v rest vs hstate hreqs husable hdue => attempt_some (suspectResend_retries hstate hreqs husable hdue)

-- Loads to other nodes (R343, R346, R349)

/-- A well-formed LOAD to an UP context of its own partition goes through the far cache where the context is cacheable and
one line holds it, and else as a request. -/
theorem farCacheLoad_toUp {st : Stream} {n a len dst : Nat} :
    let i := streamIx st
    512 ≤ i → s.power (s.engDom i) = .on → s.frozenDie (ixDie i) = false → s.ctxState n = 0 → s.ctxValid n = true →
    some (Fin.ofNat 8 (s.ctxPart n)) = s.partOf i → 1 ≤ len → len ≤ 4096 → s.noPort n = false →
    s.access (s.partOf i) dst len = .ok →
    farCacheLoad st n a len dst s =
      if s.cfgF (ctxA n) 6 1 == 1 && s.fcSets != 0 && a % 256 + len ≤ 256 then s.fcLoad n a len i dst
      else s.issueReq 1 n a len [] (.load i dst) := by
  intro i hengine hpower hrunning hup hvalid hpart hpos hmax hport haccess
  simp only [i] at hengine hpower hrunning hpart haccess ⊢
  have hlen : (len == 0) = false := beq_eq_false_iff_ne.2 (Nat.ne_of_gt hpos)
  simp only [farCacheLoad, Nat.not_lt.2 hengine, hpower, hrunning, hup, hvalid, hpart, hlen, Nat.not_lt.2 hmax, hport,
    haccess, bne_self_eq_false, decide_false, Nat.reduceBEq, Bool.not_true, Bool.or_self, Bool.and_false,
    Bool.false_eq_true, if_false]

/-- Settles O23: the context's CACHEABLE bit decides between the far cache and a request. -/
theorem farLoadsComplete : Obligations.FarLoadsComplete := by
  unfold Obligations.FarLoadsComplete
  intro st n a len dst s t i hengine hpower hrunning hup hvalid hpart hpos hmax hport haccess
  have hgo := farCacheLoad_toUp (a := a) hengine hpower hrunning hup hvalid hpart hpos hmax hport haccess
  refine ⟨fun hplain hissue => attempt_some (hgo.trans ((if_neg ?plain).trans hissue)),
    fun hcacheable hsets hline hload => attempt_some (hgo.trans ((if_pos ?cached).trans hload))⟩
  case plain => simp [hplain]
  case cached => simp [hcacheable, hsets, hline]

end Sys2Proof.Machine
end

section
/-! PROOFS. Units of a NATIVE link: data, ACK, NAK, credits, echoes and the acknowledgement timer (O24). -/

namespace Sys2Proof.Machine

variable {s : State} {p : Nat}

/-- A data unit of the right CRC and type that bears the expected LSN is taken. -/
theorem dataUnit_takes {tag : W64} {data : List Byte} {crc : W32} (hnative : s.native p = true) (hcrc : unitCrc tag data = crc)
    (htype : fld tag 0 2 = 0) (horder : fld tag 8 16 = (s.lnk p).rxLsn) :
    dataUnit p tag data crc s = some (s.unitTaken p tag data) := by
  simp only [dataUnit, hnative, hcrc, htype, horder, bne_self_eq_false, Bool.not_true, Bool.or_self, Bool.false_eq_true,
    if_false]

section
variable {lsn : W16} (hnative : s.native p = true)
  (hstored : ((s.lnk p).store.findIdx fun u => u.1 == lsn.toNat) < (s.lnk p).store.length)
include hnative hstored

/-- An ACK of a stored unit empties the replay store up to it and lets waiting frames go. -/
theorem unitAckIn_frees : unitAckIn p lsn s = some (linkPump p 4096 (s.setLnk p { s.lnk p with
    store := (s.lnk p).store.drop (((s.lnk p).store.findIdx fun u => u.1 == lsn.toNat) + 1) })) := by
  simp only [unitAckIn, hnative, Nat.not_le.2 hstored, Bool.not_true, Bool.false_eq_true, if_false]

/-- A NAK of a stored unit sends the store again from that unit on. -/
theorem unitNakIn_replays :
    let kept := (s.lnk p).store.drop ((s.lnk p).store.findIdx fun u => u.1 == lsn.toNat)
    unitNakIn p lsn s = some (kept.foldl (fun s u => s.emit (.data p u.2.1 u.2.2 (unitCrc u.2.1 u.2.2)))
      ((s.setLnk p { s.lnk p with store := kept }).bumpCfg (portA p + 0x18) 0 32 1)) := by
  simp only [unitNakIn, hnative, Nat.not_le.2 hstored, Bool.not_true, Bool.false_eq_true, if_false]

end

/-- Credits come back to a class up to its full count, and let waiting frames go. -/
theorem creditIn_gives {c n : Nat} (hnative : s.native p = true) (hspan : s.portSpan p = false) :
    creditIn p c n s = some (linkPump p 4096 (s.setLnk p { s.lnk p with
      credits := (s.lnk p).credits.set c (min ((s.lnk p).credits.getD c 0 + n) (creditsFull.getD c 0)) })) := by
  simp only [creditIn, hnative, hspan, Bool.not_true, Bool.or_self, Bool.false_eq_true, if_false]

/-- Settles O24: on a NATIVE port that is up each unit and the timer find their row's condition met. -/
theorem linkUnitsComplete : Obligations.LinkUnitsComplete := by
  unfold Obligations.LinkUnitsComplete
  intro pt s hnative p l
  refine ⟨?data, ?replay, ?credit, ?echo, ?echoReply, ?timer⟩
  case data => exact fun tag data crc hcrc htype horder => attempt_some (dataUnit_takes hnative hcrc htype horder)
  case replay =>
    exact fun lsn hstored =>
      ⟨attempt_some (unitAckIn_frees hnative hstored), attempt_some (unitNakIn_replays hnative hstored)⟩
  case credit => exact fun cls count hspan => attempt_some (creditIn_gives hnative hspan)
  case echo => exact fun count => attempt_some (if_pos hnative)
  case echoReply => exact fun count => attempt_some (if_pos hnative)
  case timer => exact fun hdue => attempt_some (if_pos (by simpa [hnative] using hdue))

end Sys2Proof.Machine
end

section
/-! PROOFS. Collective operations join their queue and begin, and their messages and answers arrive (O13 to O16). -/

namespace Sys2Proof.Machine

-- Instructions that join their queue (R358, R361 to R363, R371)

/-- A CE instruction with room, a queue it may use, member entries in reach and no cause joins its queue. -/
theorem runCe_done {i : Nat} {u : State} {t : StreamSt} {w : IWord}
    (hroom : (u.ce.ops.filter fun o => o.die == ixDie i && !o.failed).length < 16) (hqueue : u.ceQueueBad i w = false)
    (hmembers : u.reach (u.partOf i) [(u.cgMembers (cGroup w), 16 * u.cgSize (cGroup w))] = .ok)
    (hcause : u.ceCauses i t w = []) : runCe i u t w = .done (u.ceAccept i t w) := by
  simp only [runCe, if_neg (Nat.not_le.2 hroom), hqueue, Bool.false_eq_true, if_false, hmembers, hcause, minCause]

/-- A row of the collective engine that attempts opcode `op` completes as its operation joins the queue. -/
theorem collectiveCompletes_of_exec {c : Stream → Instr} {op : Nat}
    (hc : ∀ st s, exec (c st) s = attempt s (execCe op st s)) : collectiveCompletes c op := by
  intro st w s hi hop i u t g hhandles hroom hqueue hmembers hcause
  have hmine : isOp op w = true := beq_iff_eq.2 hop
  rw [hc]
  exact attempt_some (issue_done hi hmine hhandles (runCe_done hroom hqueue hmembers hcause))

/-- Settles O13: each row attempts its opcode, and all five share one run. -/
theorem collectiveInstructionsComplete : Obligations.CollectiveInstructionsComplete := by
  unfold Obligations.CollectiveInstructionsComplete
  exact ⟨collectiveCompletes_of_exec fun _ _ => rfl, collectiveCompletes_of_exec fun _ _ => rfl,
    collectiveCompletes_of_exec fun _ _ => rfl, collectiveCompletes_of_exec fun _ _ => rfl,
    collectiveCompletes_of_exec fun _ _ => rfl⟩

-- Operations that begin (R362, R363)

@[simp] theorem State.cePrepared_die (s : State) (o : COp) (g : Nat) : (s.cePrepared o g).die = o.die := rfl
@[simp] theorem State.cePrepared_kind (s : State) (o : COp) (g : Nat) : (s.cePrepared o g).kind = o.kind := rfl

/-- Settles O14: the queue's first operation waits on an awake die, and its contribution is in reach and unpoisoned. -/
theorem collectiveOperationBegins : Obligations.CollectiveOperationBegins := by
  unfold Obligations.CollectiveOperationBegins
  intro g s o hfirst hwaits hlive hawake q hreach hclean
  have hmay : (o.begun || o.failed || !s.xeAwake o.die) = false := by rw [hwaits, hlive, hawake]; rfl
  have hbegins : ceBegin g.val s = some (s.ceStart q g.val) := by
    simp only [q] at hreach hclean
    simp only [ceBegin, hfirst, hmay, State.cePrepared_die, State.cePrepared_kind, hreach, hclean, Bool.false_eq_true,
      if_false, q]
  exact attempt_some hbegins

-- Messages that arrive (R373 to R377)

/-- A sequence number is not behind itself (R377). -/
theorem behind16_self (a : Nat) : behind16 a a = false := by simp [behind16]

/-- What a message that passed every check of its arrival does: it is used by the running operation of its OPSEQ, waits in
the receive buffer, or is refused because its OPSEQ has gone by (R377). -/
def State.cDeliver (s : State) (src : Nat) (m : Msg) : Option State :=
  let g := fld m.hdr 12 11
  let d := g / 64
  let seq := fld m.hdr 112 16
  let run := s.runningCop g
  if behind16 seq (match run with | some o => o.opseq | none => s.cgOpseq g) then some (s.cAnswer (ceIx d) src m 6)
  else match run.filter fun o => o.opseq == seq with
    | some o => s.cTake o src m
    | none =>
      if 0x40000 < s.cBufBytes d + 32 + m.payload.length then none
      else some { s with ce := { s.ce with buf := s.ce.buf ++ [⟨d, src, m⟩] } }

/-- A message whose arrival passes every check is delivered to its group queue. -/
theorem cArrive_delivers {ok : Msg → Bool} {src : Nat} {m : Msg} {s : State} :
    let g := fld m.hdr 12 11
    let d := g / 64
    let u := s.traceMsg (ceIx d) true true src m
    let v := u.countRx src m.port.val (32 + m.payload.length)
    ok m = true → s.xeAwake d = true → cmsgCrcOk m = true →
    (src = u.node ∨ (u.ctxValid src = true ∧ u.ctxState src ≠ 2)) → v.nodeIn (s.partOfDie d) src = true →
    fld m.hdr 192 16 = v.stepOf (s.partOfDie d) % 65536 → v.cgEnabled g = true →
    cArrive ok src m s = v.cDeliver src m := by
  intro g d u v hok hawake hcrc hctx hnode hstep henabled
  have hopen : (src != u.node && (!u.ctxValid src || u.ctxState src == 2)) = false := by
    rcases hctx with hself | ⟨hvalid, hstate⟩
    · simp [hself]
    · simp [hvalid, hstate]
  have hcurrent : (fld m.hdr 192 16 != v.stepOf (s.partOfDie d) % 65536 || !v.cgEnabled g) = false := by
    simp [hstep, henabled]
  simp only [g, d, u, v] at hawake hopen hnode hcurrent ⊢
  simp only [cArrive, hok, hawake, hcrc, hopen, hnode, hcurrent, Bool.not_true, Bool.or_self, Bool.false_eq_true, if_false]
  rfl

/-- With no operation running, a message whose OPSEQ has not gone by waits in the receive buffer if it fits. -/
theorem cDeliver_waits {s : State} {src : Nat} {m : Msg} (hidle : s.runningCop (fld m.hdr 12 11) = none)
    (hahead : behind16 (fld m.hdr 112 16) (s.cgOpseq (fld m.hdr 12 11)) = false)
    (hroom : s.cBufBytes (fld m.hdr 12 11 / 64) + 32 + m.payload.length ≤ 0x40000) :
    s.cDeliver src m = some { s with ce := { s.ce with buf := s.ce.buf ++ [⟨fld m.hdr 12 11 / 64, src, m⟩] } } := by
  simp only [State.cDeliver, hidle, hahead, Option.filter_none, if_neg (Nat.not_lt.2 hroom), Bool.false_eq_true, if_false]

/-- A message of the running operation's OPSEQ is used by that operation. -/
theorem cDeliver_taken {s : State} {src : Nat} {m : Msg} {o : COp} (hrunning : s.runningCop (fld m.hdr 12 11) = some o)
    (hseq : fld m.hdr 112 16 = o.opseq) : s.cDeliver src m = s.cTake o src m := by
  simp [State.cDeliver, hrunning, hseq, behind16_self, Option.filter]

/-- A row of the table that attempts the arrival of the messages `ok` describes completes as its queue takes them. -/
theorem cmsgCompletes_of_exec {c : Node → Msg → Instr} {ok : Msg → Bool}
    (hc : ∀ src m s, exec (c src m) s = attempt s (cArrive ok src.val m s)) : cmsgCompletes c ok := by
  intro src m s t o g d u v hok hawake hcrc hctx hnode hstep henabled
  have hdelivers : cArrive ok src.val m s = v.cDeliver src.val m :=
    cArrive_delivers hok hawake hcrc hctx hnode hstep henabled
  rw [hc, hdelivers]
  exact ⟨fun hidle hahead hroom => attempt_some (cDeliver_waits hidle hahead hroom),
    fun hrunning hseq htake => attempt_some ((cDeliver_taken hrunning hseq).trans htake)⟩

/-- Settles O15: the four rows attempt the arrival of their kind of message. -/
theorem collectiveMessagesComplete : Obligations.CollectiveMessagesComplete := by
  unfold Obligations.CollectiveMessagesComplete
  exact ⟨cmsgCompletes_of_exec fun _ _ _ => rfl, cmsgCompletes_of_exec fun _ _ _ => rfl,
    cmsgCompletes_of_exec fun _ _ _ => rfl, cmsgCompletes_of_exec fun _ _ _ => rfl⟩

-- Answers (R376)

/-- A sent message as it goes again: ATTEMPT one higher, and the header's CRC-32C with it (R376). -/
def CSent.again (x : CSent) : CSent :=
  let h := setBits x.m.hdr.toNat 128 2 (fld x.m.hdr 128 2 + 1)
  { x with m := { x.m with hdr := BitVec.ofNat 256 (setBits h 224 32 (crc32c ((natLe 32 h).take 28)).toNat) } }

/-- What an answer of type `mtype` does to operation p, whose direct message x it has just taken back: it lets go what x
held, ends the operation, or sends x again below the last attempt. -/
def State.cAnswerEffect (u : State) (mtype : Nat) (p : COp) (x : CSent) : State :=
  if mtype == 4 then u.cAck p.id x.owed
  else if mtype == 6 then u.cFail p 0x65
  else if fld x.m.hdr 128 2 == 3 then u.cFail p 0x64
  else (u.bumpCfg (cgA p.group + 24) 32 32 1).setCop { p with resend := p.resend ++ [x.again] }

/-- An answer to a direct message of a live operation takes the message back, has its effect, and lets the die send. -/
theorem cAnswerArrive_answered {mtype src : Nat} {m : Msg} {s : State} {o : COp} {x : CSent} (htype : fld m.hdr 0 4 = mtype)
    (hcrc : cmsgCrcOk m = true) (hanswer : s.cAnswered src m = some (o, x)) (hawake : s.xeAwake o.die = true)
    (hlive : o.failed = false) (hdirect : x.relay = false) :
    let p : COp := { o with sent := o.sent.erase x }
    let u := ((s.heard src).traceMsg (ceIx o.die) true true src m).setCop p
    cAnswerArrive mtype src m s = some ((u.cAnswerEffect mtype p x).cPumpAll o.die) := by
  simp [cAnswerArrive, htype, hcrc, hanswer, hawake, hlive, hdirect, State.cAnswerEffect, CSent.again]

/-- Settles O16: each row's answer is taken in, with the effect of its type. -/
theorem collectiveAnswersComplete : Obligations.CollectiveAnswersComplete := by
  unfold Obligations.CollectiveAnswersComplete
  intro src m s o x hcrc hanswer hawake hlive hdirect p u h h'
  refine ⟨fun hack => ?ack, fun hnack hattempt => ?nack, fun hreject => ?reject⟩
  case ack => exact attempt_some (cAnswerArrive_answered hack hcrc hanswer hawake hlive hdirect)
  case nack =>
    have heffect : u.cAnswerEffect 5 p x
        = (u.bumpCfg (cgA p.group + 24) 32 32 1).setCop { p with resend := p.resend ++ [x.again] } := by
      simp [State.cAnswerEffect, hattempt]
    exact heffect ▸ attempt_some (cAnswerArrive_answered hnack hcrc hanswer hawake hlive hdirect)
  case reject => exact attempt_some (cAnswerArrive_answered hreject hcrc hanswer hawake hlive hdirect)

end Sys2Proof.Machine
end

section
/-! PROOFS. What every step keeps: the queue, the outputs and the direction of the count (O46, O51, O52). -/

namespace Sys2Proof.Machine

variable {s t : State}

/-- Settles O46: on either kind of queue the step is the one its definition names. -/
theorem stepRunsFrontCommand : Obligations.StepRunsFrontCommand := by
  unfold Obligations.StepRunsFrontCommand
  refine ⟨fun c l s hqueue => ?_, fun s hqueue => ?_⟩
  · rw [step, hqueue]
  · rw [step, hqueue]

/-- A step is a tick on an empty queue, and else the front command, run on the queue's rest. -/
theorem step_cases (hstep : step s = .next t) :
    (s.pending = [] ∧ t = s.tick) ∨ ∃ c l, s.pending = c :: l ∧ exec c { s with pending := l } = .next t := by
  cases hqueue : s.pending with
  | nil =>
    rw [step, hqueue] at hstep
    exact .inl ⟨rfl, (Host.Outcome.next.inj hstep).symm⟩
  | cons c l =>
    rw [step, hqueue] at hstep
    exact .inr ⟨c, l, rfl, hstep⟩

/-- Settles O51: a tick and every command but the two supply events keep the direction of the count. -/
theorem countNeverGoesBack : Obligations.CountNeverGoesBack := by
  unfold Obligations.CountNeverGoesBack
  intro s t hlost hup hstep
  obtain ⟨-, rfl⟩ | ⟨c, l, hqueue, hexec⟩ := step_cases hstep
  · exact (State.tick_keeps (Keeps.refl s)).count
  · have hc : c ≠ .heartwoodSupplyLost := fun h => hlost l (h ▸ hqueue)
    have hc' : ∀ k, c ≠ .heartwoodSupplyUp k := fun k h => hup k l (h ▸ hqueue)
    exact (exec_keeps c { s with pending := l } hc hc' t hexec).count

-- The queue and the outputs (log 4, log 34)

/-- What state t keeps of state s in every command, a loss and a rise of supply among them. -/
structure KeepsIo (s t : State) : Prop where
  pending : t.pending = s.pending
  order : t.order = s.order
  free : s.freeCount ≤ t.freeCount
  out : ∃ l, t.out = s.out ++ l

theorem Keeps.io (h : Keeps s t) : KeepsIo s t := ⟨h.pending, h.order, h.free, h.out⟩

theorem KeepsIo.refl (s : State) : KeepsIo s s := (Keeps.refl s).io

theorem KeepsIo.of_eq {u : State} (hpending : u.pending = s.pending) (horder : u.order = s.order)
    (hfree : u.freeCount = s.freeCount) (hout : u.out = s.out) : KeepsIo s u :=
  ⟨hpending, horder, Nat.le_of_eq hfree.symm, [], by rw [hout, List.append_nil]⟩

theorem KeepsIo.trans {u : State} (h : KeepsIo s u) (k : KeepsIo u t) : KeepsIo s t := by
  obtain ⟨l, hl⟩ := h.out
  obtain ⟨m, hm⟩ := k.out
  exact ⟨k.pending.trans h.pending, k.order.trans h.order, Nat.le_trans h.free k.free,
    l ++ m, by rw [hm, hl, List.append_assoc]⟩

/-- A part without supply starts from reset, but for its queue, its ordering code, its outputs and the free values drawn. -/
theorem State.cold_keepsIo (s : State) : KeepsIo s s.cold := by
  refine KeepsIo.trans ?_ (Keeps.foldl (Keeps.refl _) fun _ _ => State.keptStack_keeps).io
  exact KeepsIo.of_eq rfl rfl rfl rfl

theorem attempt_keepsIo {o : Option State} (ho : ∀ u, o = some u → KeepsIo s u) (ht : attempt s o = .next t) : KeepsIo s t := by
  cases o with
  | none => exact Host.Outcome.next.inj ht ▸ KeepsIo.refl s
  | some u => exact Host.Outcome.next.inj ht ▸ ho u rfl

theorem supplyLost_keepsIo (hlost : supplyLost s = some t) : KeepsIo s t := by
  obtain ⟨_, ht⟩ := Option.ite_none_right_eq_some.1 hlost
  exact Option.some.inj ht ▸ s.cold_keepsIo

theorem supplyUp_keepsIo {slot : Nat} (hup : supplyUp slot s = some t) : KeepsIo s t := by
  obtain ⟨_, ht⟩ := Option.ite_none_left_eq_some.1 hup
  exact Option.some.inj ht ▸ .of_eq rfl rfl rfl rfl

theorem exec_keepsIo {c : Instr} (hexec : exec c s = .next t) : KeepsIo s t := by
  by_cases hlost : c = .heartwoodSupplyLost
  · subst hlost
    exact attempt_keepsIo (fun _ => supplyLost_keepsIo) hexec
  by_cases hup : ∃ slot, c = .heartwoodSupplyUp slot
  · obtain ⟨slot, rfl⟩ := hup
    exact attempt_keepsIo (fun _ => supplyUp_keepsIo) hexec
  · exact (exec_keeps c s hlost (not_exists.1 hup) t hexec).io

/-- Settles O52: the command leaves the queue it is run on, and a tick leaves the empty queue. -/
theorem queueAndOutputs : Obligations.QueueAndOutputs := by
  unfold Obligations.QueueAndOutputs
  intro s t hstep
  obtain ⟨hqueue, rfl⟩ | ⟨c, l, hqueue, hexec⟩ := step_cases hstep
  · obtain ⟨hpending, horder, hfree, hout⟩ := (State.tick_keeps (Keeps.refl s)).io
    exact ⟨by rw [hpending, hqueue, List.tail_nil], horder, hfree, hout⟩
  · obtain ⟨hpending, horder, hfree, hout⟩ := exec_keepsIo hexec
    exact ⟨by rw [hpending, hqueue, List.tail_cons], horder, hfree, hout⟩

end Sys2Proof.Machine
end

section
/-! PROOFS. The global count: its registers (O48) and the messages that discipline it (O26). -/

namespace Sys2Proof.Machine

variable {s : State} {p : Nat}

-- Registers of a heartwood die's block (R409)

/-- A heartwood die's block reads as its register file, which is zero on the standby die. -/
theorem cfgRead_hw {h off : Nat} (hh : h < 2) (ho : off < 0x100000) : s.cfgRead (hwCfg h + off) = s.hwWord h off := by
  have hoff : (hwCfg h + off) % 0x100000 = off := by unfold hwCfg; omega
  have hdie : (hwCfg h + off - hwCfg 0) / 0x100000 = h := by unfold hwCfg; omega
  have hcores : ¬ hwCfg h + off < coreCfg 128 := by unfold hwCfg coreCfg; omega
  have hdies : ¬ hwCfg h + off < dieCfg 32 := by unfold hwCfg dieCfg; omega
  have hin : hwCfg 0 ≤ hwCfg h + off ∧ hwCfg h + off < hwCfg 2 := by unfold hwCfg; omega
  have hstatus : engStatusAt (hwCfg h + off) = none := by
    simp only [engStatusAt, hcores, hdies, and_false, false_and, if_false]
  rw [State.cfgRead]
  simp only [hstatus, hoff]
  rw [if_neg (fun hcore => hcores hcore.2), if_pos hin, hdie]

theorem hwWord_standby {h : Nat} (hh : h ≠ s.mgmt.active) (off : Nat) : s.hwWord h off = 0 := by
  simp [State.hwWord, hh]

theorem hwWord_count : s.hwWord s.mgmt.active 0x2000 = BitVec.ofNat 64 s.gc := by
  simp [State.hwWord]

/-- The active die shows the stored word of every register but the count and LIMITS. -/
theorem hwWord_stored {off : Nat} (hcount : off ≠ 0x2000) (hlimits : off ≠ 0x3000) :
    s.hwWord s.mgmt.active off = s.cfgW (hwReg off) := by
  simp [State.hwWord, hcount, hlimits]

/-- Settles O48: a read of either block is a read of its register file. -/
theorem countRegistersOfTheActiveDie : Obligations.CountRegistersOfTheActiveDie := by
  unfold Obligations.CountRegistersOfTheActiveDie
  intro s h hh
  refine ⟨fun hactive => ⟨?count, fun k hk => ?stored⟩, fun hstandby k hk => ?zero⟩
  case count => rw [cfgRead_hw hh (by decide), hactive, hwWord_count]
  case stored =>
    have hk' : k = 8 ∨ k = 0x10 ∨ k = 0x18 := by simpa using hk
    rw [Nat.add_assoc, cfgRead_hw hh (by omega), hactive, hwWord_stored (by omega) (by omega)]
  case zero =>
    have hk' : k = 0 ∨ k = 8 ∨ k = 0x10 ∨ k = 0x18 := by simpa using hk
    rw [Nat.add_assoc, cfgRead_hw hh (by omega), hwWord_standby hstandby]

-- Beacons between devices (R413, R417)

/-- A BEACON of the device's own root, in TRACKING or HOLDOVER, gives a SOURCE port its offset. -/
theorem beaconIn_updates {f : Frame} {rx : Nat} (hin : ComesIn p 9 1 f s) (hlen : fLen f = 32) (hport : s.beaconPort p 1 = true) :
    let w := leNat f.payload
    (bitsAt w 80 3 = 2 ∨ bitsAt w 80 3 = 3) → bitsAt w 112 14 = s.time.root →
    let off : Int := ((256 * bitsAt w 0 64 + bitsAt w 64 8 : Nat) : Int)
      + (128 * s.cfgF (portA p + 8) 32 32 + 16 * s.tAsym p) - (rx : Int)
    beaconIn p f rx s = some ((s.takeArrived p f).timeUpdate p (off / 16) (some (bitsAt w 72 8))) := by
  intro w hstate hroot off
  have hsize : f.payload.length = 32 := (hin.payload_length (by decide)).trans hlen
  have hnode : (s.takeArrived p f).node = s.node := rfl
  have hrole : (s.takeArrived p f).beaconPort p 1 = true := hport
  have hown : (s.takeArrived p f).time.root = s.time.root := rfl
  have hlive : (bitsAt (leNat f.payload) 80 3 != 2 && bitsAt (leNat f.payload) 80 3 != 3) = false := by
    rcases hstate with h | h <;> simp only [w] at h <;> simp [h]
  simp only [w] at hroot
  simp only [beaconIn, hin.live, hin.opcode, hin.dst, hin.cls, hsize, hlen, hnode, hrole, hown, hlive, hroot,
    bne_self_eq_false, Bool.not_true, Bool.or_self, Bool.false_eq_true, if_false]
  rfl

theorem beaconSend_sends (hport : s.beaconPort p 2 = true) (hnode : s.nodeAssigned = true) (hdue : s.sendDue p 16384 = true) :
    beaconSend p s = some (s.beaconOut p) := by
  simp [beaconSend, hport, hnode, hdue]

-- PTP (R412)

/-- A Sync waits for its Follow_Up in two steps, and is answered by a Delay_Req in one. -/
theorem ptpSync_taken {twoStep : Bool} {seq : W16} {t1 t2 : Int} (hport : s.ptpPort p 1 = true) :
    ptpSync p twoStep seq t1 t2 s
      = some (if twoStep then s.setPtp p (some ⟨seq, none, t2, none⟩) else s.sendDelayReq p ⟨seq, some t1, t2, none⟩) := by
  cases twoStep <;> simp [ptpSync, hport]

theorem ptpFollowUp_requests {seq : W16} {t1 : Int} {x : PtpSt} (hport : s.ptpPort p 1 = true) (hx : s.ptp p = some x)
    (hseq : x.seq = seq) (hwaits : x.t1 = none) :
    ptpFollowUp p seq t1 s = some (s.sendDelayReq p { x with t1 := some t1 }) := by
  simp [ptpFollowUp, hx, hport, hseq, hwaits]

/-- Delay_Resp closes the exchange: its four times give the offset (R412). -/
theorem ptpDelayResp_updates {seq : W16} {t1 t2 t3 t4 : Int} (hport : s.ptpPort p 1 = true)
    (hx : s.ptp p = some ⟨seq, some t1, t2, some t3⟩) :
    ptpDelayResp p seq t4 s
      = some ((s.setPtp p none).timeUpdate p (t1 - t2 + ((t2 - t1) + (t4 - t3)) / 2 + s.tAsym p) none) := by
  simp [ptpDelayResp, hx, hport]

theorem ptpSyncSend_sends (hport : s.ptpPort p 2 = true) (hdue : s.sendDue p 244141 = true) :
    let seq := BitVec.ofNat 16 (tget (fun _ => 0) s.time.bseq p)
    ptpSyncSend p s = some (((s.noteSent p).emit (.ptp p 0 seq s.stamp16)).emit (.ptp p 8 seq s.stamp16)) := by
  simp [ptpSyncSend, hport, hdue]

-- The state of the count and its copies (R408, R411, R416)

/-- With every source silent, TRACKING gives way to HOLDOVER. -/
theorem sourceTimeout_holds (hsource : s.gcSrc ≠ 63) (hsilent : s.heardAt s.gcSrc + 2 ^ 20 ≤ s.gc) (hstate : s.gcState = 2)
    (hall : ∀ q ∈ s.time.sources, s.heardAt q + 2 ^ 20 ≤ s.gc) :
    sourceTimeout s = some ({ s with time := { s.time with growAt := s.gc } }.setGcState 3) := by
  have hlive : (s.time.sources.filter fun q =>
      s.gc < s.heardAt q + 2 ^ 20 && decide (0 < tget (fun _ => 0) s.time.last q)) = [] :=
    List.filter_eq_nil_iff.2 fun q hq hlive =>
      Nat.not_lt.2 (hall q hq) (of_decide_eq_true (Bool.and_eq_true_iff.1 hlive).1)
  simp only [sourceTimeout, hlive, hstate, beq_false_of_ne hsource, Nat.not_lt.2 hsilent, decide_false, Bool.or_self,
    Bool.false_eq_true, if_false, beq_self_eq_true, if_true]

theorem errEstGrowth_grows (hstate : s.gcState = 3) (hdue : s.time.growAt + 16384 ≤ s.gc) :
    let u := { s with time := { s.time with growAt := s.time.growAt + 16384 } }.bumpCfg (hwReg 0x2008) 32 32 1
    errEstGrowth s = some (if u.gcBound < u.gcErr then u.setGcState 4 else u) := by
  simp [errEstGrowth, hstate, Nat.not_lt.2 hdue]

theorem countBeaconSend_sends (hsupply : s.mgmt.supply = true) (hdue : s.time.beaconAt + 256 ≤ s.gc) :
    countBeaconSend s = some { s with time := { s.time with
      beaconAt := s.gc, owing := below 52 fun k => k != 50 + s.mgmt.active } } := by
  simp [countBeaconSend, hsupply, Nat.not_lt.2 hdue]

theorem countBeaconReceive_agrees {u : Unit52} (howing : s.time.owing.contains (unitKey u) = true) :
    countBeaconReceive u s = some { s with time := { s.time with
      owing := ndel s.time.owing (unitKey u), copies := tput (fun _ => 0) s.time.copies (unitKey u) 0 } } := by
  simp [countBeaconReceive, (List.contains_iff_mem.1 howing)]

/-- Settles O26: each message and each timer finds its condition met, so it has the effect that its lemma above names. -/
theorem timeMessagesComplete : Obligations.TimeMessagesComplete := by
  unfold Obligations.TimeMessagesComplete
  refine ⟨fun pt s => ?port, fun s => ?device⟩
  case port =>
    refine ⟨?beacon, ?send, ?sync, ?followUp, ?delayReq, ?delayResp, ?syncSend⟩
    case beacon => exact fun f rx hin hlen hport hstate hroot => attempt_some (beaconIn_updates hin hlen hport hstate hroot)
    case send => exact fun hport hnode hdue => attempt_some (beaconSend_sends hport hnode hdue)
    case sync => exact fun twoStep seq t1 t2 hport => attempt_some (ptpSync_taken hport)
    case followUp => exact fun seq t1 x hport hx hseq hwaits => attempt_some (ptpFollowUp_requests hport hx hseq hwaits)
    case delayReq => exact fun seq rx hport => attempt_some (if_pos hport)
    case delayResp => exact fun seq t1 t2 t3 t4 hport hx => attempt_some (ptpDelayResp_updates hport hx)
    case syncSend => exact fun hport hdue => attempt_some (ptpSyncSend_sends hport hdue)
  case device =>
    exact ⟨fun hsource hsilent hstate hall => attempt_some (sourceTimeout_holds hsource hsilent hstate hall),
      fun hstate hdue => attempt_some (errEstGrowth_grows hstate hdue),
      fun hsupply hdue => attempt_some (countBeaconSend_sends hsupply hdue),
      fun u howing => attempt_some (countBeaconReceive_agrees howing)⟩

end Sys2Proof.Machine
end

section
/-! PROOFS. The two heartwood dies and their I3C ports (O28, O29). -/

namespace Sys2Proof.Machine

variable {s : State} {h : Nat}

-- Heartbeats and takeover (R435, R436)

theorem heartbeatSend_beats (halive : s.hwAlive s.mgmt.active = true) (hdue : s.mgmt.lastBeat + 256 ≤ s.gc) :
    heartbeatSend s = some { s with mgmt := { s.mgmt with lastBeat := s.gc } } := by
  simp [heartbeatSend, halive, Nat.not_lt.2 hdue]

/-- A standby in service claims the role of an active die that has missed the beat. -/
theorem heartbeatTimeout_claims (hstandby : s.mgmt.standbyOk = true) (hsupply : s.mgmt.supply = true)
    (hbooted : s.mgmt.booted = true) (hserves : s.mgmt.takeover = none) (hmissed : s.mgmt.lastBeat + 1280 ≤ s.gc) :
    heartbeatTimeout s = some { s with mgmt := { s.mgmt with
      takeover := some s.mgmt.lastBeat, deadHw := s.mgmt.deadHw ++ [s.mgmt.active], active := s.otherHw
      standbyOk := false, mirror := [], lastBeat := s.gc } } := by
  simp [heartbeatTimeout, hstandby, hsupply, hbooted, hserves, Nat.not_lt.2 hmissed]

theorem takeoverComplete_serves (htake : s.mgmt.takeover = some h) (hdue : h + 3780 ≤ s.gc) :
    let u := allBlks.foldl (fun s b => s.setIrq b 14) { s with mgmt := { s.mgmt with takeover := none } }
    takeoverComplete s = some (u.takeEvent
      { mkErr 0 4 u.otherHw 0xFF 0x0502 with stamp := u.gc, detail := BitVec.ofNat 64 h }) := by
  simp only [takeoverComplete, htake, if_neg (Nat.not_lt.2 hdue)]

-- The mirror and the standby (R434, R437)

theorem mirrorRecord_reaches (hstandby : s.mgmt.standbyOk = true) (hup : s.lysbyUp = true) :
    mirrorRecord s = some { s with mgmt := { s.mgmt with mirror := s.mgmt.mirror ++ [s.gc] } } := by
  simp [mirrorRecord, hstandby, hup]

theorem mirrorAck_acknowledges {t : Nat} {l : List Nat} (hmirror : s.mgmt.mirror = t :: l) (hsoon : s.gc ≤ t + 40) :
    mirrorAck s = some { s with mgmt := { s.mgmt with mirror := l } } := by
  simp [mirrorAck, hmirror, Nat.not_lt.2 hsoon]

/-- A check of a standby in service that has failed is recorded; the second is of an overdue record. -/
theorem standbyFailure_records {check : Nat} (hstandby : s.mgmt.standbyOk = true) (hup : s.lysbyUp = true) (hcheck : check ≠ 0)
    (hoverdue : check = 2 → ∃ t ∈ s.mgmt.mirror, t + 40 < s.gc) :
    let u : State := { s with mgmt := { s.mgmt with
      standbyOk := false, mirror := [], deadHw := s.mgmt.deadHw ++ [s.otherHw] } }
    standbyFailure check s = some (u.takeEvent
      { mkErr 0 4 s.otherHw 0xFF 0x0501 with stamp := s.gc, detail := BitVec.ofNat 64 check }) := by
  have hlate : (check == 2 && !s.mgmt.mirror.any fun t => t + 40 < s.gc) = false := by
    simpa only [Bool.and_eq_false_imp, beq_iff_eq, Bool.not_eq_false', List.any_eq_true, decide_eq_true_eq] using hoverdue
  simp only [standbyFailure, hstandby, hup, beq_false_of_ne hcheck, hlate, Bool.not_true, Bool.or_self, Bool.false_eq_true,
    if_false]

theorem heartwoodSilence_faults (hsupply : s.mgmt.supply = true) (hbooted : s.mgmt.booted = true)
    (halone : s.mgmt.standbyOk = false) (hmissed : s.mgmt.lastBeat + 1280 ≤ s.gc) :
    heartwoodSilence s = some { s with mgmt := { s.mgmt with faultN := true, deadHw := [0, 1] } } := by
  simp [heartwoodSilence, hsupply, hbooted, halone, Nat.not_lt.2 hmissed]

/-- Settles O28: each event of the two dies finds its condition met. -/
theorem heartwoodEventsComplete : Obligations.HeartwoodEventsComplete := by
  unfold Obligations.HeartwoodEventsComplete
  intro s
  refine ⟨?beat, ?timeout, ?takeover, ?record, ?acknowledge, ?standby, ?silence⟩
  case beat => exact fun halive hdue => attempt_some (heartbeatSend_beats halive hdue)
  case timeout =>
    exact fun hstandby hsupply hbooted hserves hmissed =>
      attempt_some (heartbeatTimeout_claims hstandby hsupply hbooted hserves hmissed)
  case takeover => exact fun h htake hdue => attempt_some (takeoverComplete_serves htake hdue)
  case record => exact fun hstandby hup => attempt_some (mirrorRecord_reaches hstandby hup)
  case acknowledge => exact fun t l hmirror hsoon => attempt_some (mirrorAck_acknowledges hmirror hsoon)
  case standby =>
    exact fun c hstandby hup hcheck hoverdue => attempt_some (standbyFailure_records hstandby hup hcheck hoverdue)
  case silence =>
    exact fun hsupply hbooted halone hmissed => attempt_some (heartwoodSilence_faults hsupply hbooted halone hmissed)

-- The I3C port of a die (R452 to R455, Table 16-13)

theorem i3cOn_of_addressed (halive : s.hwAlive h = true) (haddr : (s.i3c h).addr.isSome = true) : s.i3cOn h = true := by
  simp [State.i3cOn, halive, haddr]

/-- ENTDAA gives the port its address when its provisioned ID is the lowest. -/
theorem entdaa_wins {others : List Nat} {addr : Nat} (halive : s.hwAlive h = true) (hfree : (s.i3c h).addr = none)
    (hlowest : ∀ o ∈ others, s.i3cPid h < o) :
    entdaa h others addr s = some (s.setI3c h { s.i3c h with addr := some addr }) := by
  have hall : (others.all fun o => s.i3cPid h < o) = true := List.all_eq_true.2 fun o ho => decide_eq_true (hlowest o ho)
  simp only [entdaa, halive, hfree, hall, Option.isSome_none, Bool.not_true, Bool.or_self, Bool.false_eq_true, if_false,
    if_true]

section
variable (hon : s.i3cOn h = true)
include hon

theorem getbcr_answers : getbcr h s = some (s.emit (.bytes [6])) := if_pos hon
theorem getdcr_answers : getdcr h s = some (s.emit (.bytes [0])) := if_pos hon

/-- A private write of an offset and data sets the offset; the data reaches the block at the active die alone. -/
theorem privateWrite_stores {bytes : List Byte} (hlen : 2 ≤ (bytes.take (s.i3c h).mwl).length) :
    let bs := bytes.take (s.i3c h).mwl
    let u := s.setI3c h { s.i3c h with off := leNat (bs.take 2) }
    privateWrite h bytes s = some (if h = s.mgmt.active then u.i3cStore (leNat (bs.take 2)) (bs.drop 2) else u) := by
  have hactive : ∀ c, (s.setI3c h c).mgmt.active = s.mgmt.active := fun _ => rfl
  simp only [privateWrite, hon, hactive, Nat.not_lt.2 hlen, decide_false, Bool.not_true, Bool.or_self, Bool.false_eq_true,
    if_false, beq_iff_eq]

theorem privateRead_standby {n : Nat} (hstandby : h ≠ s.mgmt.active)
    (hpage : (s.i3c h).off + min n (s.i3c h).mrl ≤ 0x1000) :
    privateRead h n s = some (s.emit (.bytes (s.mbxView .i3c (s.i3c h).off (min n (s.i3c h).mrl)))) := by
  simp only [privateRead, hon, beq_false_of_ne hstandby, if_pos hpage, Bool.not_true, Bool.false_eq_true, if_false]

/-- A private read at the active die takes the causes of MBX_IRQ when its bytes cover that register. -/
theorem privateRead_active {n : Nat} (hactive : h = s.mgmt.active) :
    privateRead h n s = some ((if (0x18 + 0x10000 - (s.i3c h).off) % 0x10000 < min n (s.i3c h).mrl then s.irqTake .i3c
      else s).emit (.bytes (s.mbxView .i3c (s.i3c h).off (min n (s.i3c h).mrl)))) := by
  simp only [privateRead, hon, beq_iff_eq.2 hactive, Bool.not_true, Bool.false_eq_true, if_false, if_true]

end

theorem ibiRetry_requests {y : Nat} {l : List Nat} (halive : s.hwAlive s.mgmt.active = true) (hibi : s.mgmt.ibi = y :: l)
    (hready : s.ibiReady = true) : ibiRetry s = some (s.emit (.ibi y)) := by
  simp [ibiRetry, hibi, halive, hready]

/-- Settles O29: a live die takes and drops its address, and one with an address answers every other transfer. -/
theorem i3cTransfersComplete : Obligations.I3cTransfersComplete := by
  unfold Obligations.I3cTransfersComplete
  intro h s halive c
  refine ⟨?entdaa, attempt_some (if_pos halive), fun haddr => ?addressed, ?retry⟩
  case entdaa => exact fun others addr hfree hlowest => attempt_some (entdaa_wins halive hfree hlowest)
  case addressed =>
    have hon := i3cOn_of_addressed halive haddr
    refine ⟨fun n => attempt_some (if_pos hon), fun n => attempt_some (if_pos hon), attempt_some (if_pos hon),
      attempt_some (getbcr_answers hon), attempt_some (getdcr_answers hon), attempt_some (if_pos hon),
      fun ev => attempt_some (if_pos hon), fun ev => attempt_some (if_pos hon), ?write, ?readStandby, ?readActive⟩
    case write => exact fun bytes hlen => attempt_some (privateWrite_stores hon hlen)
    case readStandby => exact fun n hstandby hpage => attempt_some (privateRead_standby hon hstandby hpage)
    case readActive => exact fun n hactive => attempt_some (privateRead_active hon hactive)
  case retry => exact fun y l hactive hibi hready => attempt_some (ibiRetry_requests (hactive ▸ halive) hibi hready)

end Sys2Proof.Machine
end

section
/-! PROOFS. Supplies, boot, main power, PERST_N and the reference clock (O34, O60). -/

namespace Sys2Proof.Machine

variable {s : State} {h : Nat}

-- Supply, boot, main power, reference (R458 to R461, R576 to R581)

theorem supplyUp_rises {slot : Nat} (hoff : s.mgmt.supply = false) : supplyUp slot s
    = some { s with gc := 0, mgmt := { s.mgmt with supply := true, slot := slot, faultN := false } } := by
  simp [supplyUp, hoff]

/-- The state in which the boot has given the heartwood dies their roles (R458). -/
def State.withRoles (s : State) : State :=
  { s with mgmt := { s.mgmt with active := s.mgmt.firstActive, deadHw := s.mgmt.hwFused } }

section
variable (hsupply : s.mgmt.supply = true)
include hsupply

section
variable (hbooted : s.mgmt.booted = false) (hvalid : s.mgmt.validImage = true)
include hbooted hvalid

/-- The boot gives the dies their roles, and runs the image that it finds. -/
theorem boot_runs {slot : Nat} {i : FwImage} (himage : s.withRoles.mgmt.bootImage = some (slot, i)) :
    boot s = some (s.withRoles.bootFrom slot i) := by
  unfold boot
  split
  next hrefused => simp [hsupply, hbooted, hvalid] at hrefused
  next =>
    dsimp only
    split
    next hnone => cases himage.symm.trans hnone
    next hsome => cases himage.symm.trans hsome; rfl

/-- A boot that finds no valid image ends in FAULTED. -/
theorem boot_faults (himage : s.withRoles.mgmt.bootImage = none) : boot s = some { s.withRoles with
    mgmt := { s.withRoles.mgmt with devState := 9, validImage := false, faultN := true } } := by
  unfold boot
  split
  next hrefused => simp [hsupply, hbooted, hvalid] at hrefused
  next =>
    dsimp only
    split
    next => rfl
    next hsome => cases himage.symm.trans hsome

end

theorem mainSet_good {mv : Nat} (hlow : s.mgmt.mainGood = false) (hmv : 11200 ≤ mv) : mainSet mv s = some s.mainOn := by
  simp [mainSet, hsupply, hlow, Nat.not_lt.2 hmv]

theorem mainClear_lost {mv : Nat} (hgood : s.mgmt.mainGood = true) (hmv : mv < 10800) :
    mainClear mv s = some (s.mainOff mv) := by
  simp [mainClear, hsupply, hgood, Nat.not_le.2 hmv]

/-- A reference more than 50 ppm off is recorded as fatal (R581). -/
theorem refclkLost_records {ppm : Int} (hbooted : s.mgmt.booted = true) (hrange : ppm < -50 ∨ 50 < ppm) :
    refclkLost ppm s = some (s.takeEvent { mkErr 3 4 s.mgmt.active 0xFF 0x0407 with
      stamp := s.gc, detail := BitVec.ofNat 64 (ppm % 2 ^ 32).toNat }) := by
  have hout : (decide (-50 ≤ ppm) && decide (ppm ≤ 50)) = false := by
    rcases hrange with hlow | hhigh
    · simp [Int.not_le.2 hlow]
    · simp [Int.not_le.2 hhigh]
  simp only [refclkLost, hsupply, hbooted, hout, Bool.not_true, Bool.or_self, Bool.false_eq_true, if_false]

end

-- PERST_N (R441, R582)

theorem perstAssert_asserts (hhigh : s.mgmt.perst.contains h = false) : perstAssert h s = some { s with mgmt := { s.mgmt with
    perst := s.mgmt.perst ++ [h], hostReady := s.mgmt.hostReady.filter fun x => x.1 != h } } :=
  if_neg (by rw [hhigh]; exact Bool.false_ne_true)

theorem perstDeassert_trains (hlow : s.mgmt.perst.contains h = true) :
    let u : State := { s with mgmt := { s.mgmt with perst := s.mgmt.perst.filter fun x => x != h } }
    perstDeassert h s = some (u.hostTrains h) :=
  if_neg (by rw [hlow]; exact Bool.false_ne_true)

/-- Settles O34: each event of the supplies and pins finds its condition met. -/
theorem supplyEventsComplete : Obligations.SupplyEventsComplete := by
  unfold Obligations.SupplyEventsComplete
  intro s
  refine ⟨?supplyUp, ?supplyLost, ?boot, ?mainSet, ?mainClear, ?reference, ?perst, ?release⟩
  case supplyUp => exact fun slot hoff => attempt_some (supplyUp_rises hoff)
  case supplyLost => exact fun hsupply => attempt_some (if_pos hsupply)
  case boot =>
    exact fun hsupply hbooted hvalid =>
      ⟨fun slot i himage => attempt_some (boot_runs hsupply hbooted hvalid himage),
        fun himage => attempt_some (boot_faults hsupply hbooted hvalid himage)⟩
  case mainSet => exact fun mv hsupply hlow hmv => attempt_some (mainSet_good hsupply hlow hmv)
  case mainClear => exact fun mv hsupply hgood hmv => attempt_some (mainClear_lost hsupply hgood hmv)
  case reference => exact fun ppm hsupply hbooted hrange => attempt_some (refclkLost_records hsupply hbooted hrange)
  case perst => exact fun hp hhigh => attempt_some (perstAssert_asserts hhigh)
  case release => exact fun hp hlow => attempt_some (perstDeassert_trains hlow)

/-- What PERST_N of host port h may change of state s: whether h is in reset, and when h is ready (R582). -/
structure PerstFrame (h : Nat) (s t : State) : Prop where
  rest : t = { s with mgmt := { s.mgmt with perst := t.mgmt.perst, hostReady := t.mgmt.hostReady } }
  perst : ∀ g, g ≠ h → t.mgmt.perst.contains g = s.mgmt.perst.contains g
  ready : ∀ g, g ≠ h → t.mgmt.hostReady.filter (fun x => x.1 == g) = s.mgmt.hostReady.filter (fun x => x.1 == g)

theorem PerstFrame.refl (h : Nat) (s : State) : PerstFrame h s s := ⟨rfl, fun _ _ => rfl, fun _ _ => rfl⟩

/-- Entries of port h do not count among those of another port. -/
theorem filter_ready_drop {g : Nat} (hg : g ≠ h) (l : List (Nat × Nat)) :
    (l.filter fun x => x.1 != h).filter (fun x => x.1 == g) = l.filter fun x => x.1 == g := by
  rw [List.filter_filter]
  refine List.filter_congr fun x _ => ?_
  by_cases hx : x.1 = g
  · simp [hx, hg]
  · simp [hx]

theorem hostTrains_frame (s : State) (h : Nat) : PerstFrame h s (s.hostTrains h) := by
  unfold State.hostTrains
  split
  · exact .refl h s
  · refine ⟨rfl, fun _ _ => rfl, fun g hg => ?_⟩
    simp [List.filter_append, filter_ready_drop hg, Ne.symm hg]

@[simp] theorem hostTrains_perst (s : State) (h : Nat) : (s.hostTrains h).mgmt.perst = s.mgmt.perst := by
  unfold State.hostTrains
  split <;> rfl

/-- An attempt changes nothing where its condition does not hold, and else has its effect (log 1). -/
theorem attempt_cases {t : State} {o : Option State} (ht : attempt s o = .next t) : (o = none ∧ t = s) ∨ o = some t := by
  cases o with
  | none => exact .inl ⟨rfl, (Host.Outcome.next.inj ht).symm⟩
  | some u => exact .inr (congrArg some (Host.Outcome.next.inj ht))

theorem perstAssert_frame {t : State} (ht : perstAssert h s = some t) :
    PerstFrame h s t ∧ t.mgmt.perst.contains h = true := by
  obtain ⟨_, ht⟩ := Option.ite_none_left_eq_some.1 ht
  obtain rfl := Option.some.inj ht
  refine ⟨⟨rfl, fun g hg => ?_, fun g hg => filter_ready_drop hg _⟩, ?_⟩
  · simp [hg]
  · simp

theorem perstDeassert_frame {t : State} (ht : perstDeassert h s = some t) :
    PerstFrame h s t ∧ t.mgmt.perst.contains h = false := by
  obtain ⟨_, ht⟩ := Option.ite_none_left_eq_some.1 ht
  obtain rfl := Option.some.inj ht
  obtain ⟨hrest, hperst, hready⟩ :=
    hostTrains_frame { s with mgmt := { s.mgmt with perst := s.mgmt.perst.filter fun x => x != h } } h
  refine ⟨⟨hrest, fun g hg => ?_, hready⟩, ?_⟩
  · rw [hperst g hg]
    simp [hg]
  · rw [hostTrains_perst]
    simp

/-- Settles O60: PERST_N that is already as asked changes nothing, and else has the frame of its port. -/
theorem perstTouchesItsPortAlone : Obligations.PerstTouchesItsPortAlone := by
  unfold Obligations.PerstTouchesItsPortAlone
  intro hp c s t hc hexec
  have hframe : PerstFrame hp.val s t ∧ (c = .perstAssert hp → t.mgmt.perst.contains hp.val = true)
      ∧ (c = .perstDeassert hp → t.mgmt.perst.contains hp.val = false) := by
    rcases hc with rfl | rfl
    · obtain ⟨hnone, rfl⟩ | hsome := attempt_cases hexec
      · have hlow : t.mgmt.perst.contains hp.val = true := by
          refine Decidable.byContradiction fun hhigh => ?_
          cases (perstAssert_asserts (eq_false_of_ne_true hhigh)).symm.trans hnone
        exact ⟨.refl _ _, fun _ => hlow, nofun⟩
      · obtain ⟨hframe, hlow⟩ := perstAssert_frame hsome
        exact ⟨hframe, fun _ => hlow, nofun⟩
    · obtain ⟨hnone, rfl⟩ | hsome := attempt_cases hexec
      · have hhigh : t.mgmt.perst.contains hp.val = false := by
          refine Decidable.byContradiction fun hlow => ?_
          cases (perstDeassert_trains (eq_true_of_ne_false hlow)).symm.trans hnone
        exact ⟨.refl _ _, nofun, fun _ => hhigh⟩
      · obtain ⟨hframe, hhigh⟩ := perstDeassert_frame hsome
        exact ⟨hframe, nofun, fun _ => hhigh⟩
  obtain ⟨⟨hrest, hperst, hready⟩, hassert, hdeassert⟩ := hframe
  exact ⟨hrest, fun g hg => ⟨hperst g hg, hready g hg⟩, hassert, hdeassert⟩

end Sys2Proof.Machine
end

section
/-! PROOFS. Power domains, sensors, energy and protection (O32, O33). -/

namespace Sys2Proof.Machine

variable {s : State} {k w : Nat}

-- Domains, package sleep, sensors, energy (R507 to R515)

theorem domainDone_settles (hgoing : (s.dom k).going.isSome = true) : domainDone k s = some (s.settleDom k) := by
  simp [domainDone, Option.isNone_eq_false_iff.2 hgoing]

theorem packageSleep_sleeps (hready : s.mgmt.devState = 2) (hawake : s.mgmt.asleep = false) (hidle : s.allIdle = true)
    (hdue : s.mgmt.lastWork + oneSecond ≤ s.gc) : packageSleep s = some s.sleepPackage := by
  simp [packageSleep, hready, hawake, hidle, Nat.not_lt.2 hdue]

theorem sensorSample_senses {i : Nat} {t : Int} (hi : i < sensorsOf k) : sensorSample k i t s = some (s.sensed k i t) :=
  if_neg (Nat.not_le.2 hi)

theorem energySlot_books {slot shared input peak : Nat} {owned : List Nat} (hdue : 2500 * (slot + 1) + 100 ≤ s.gc) :
    energySlot slot owned shared input peak s = some (s.bookSlot slot owned shared input peak) := if_neg (Nat.not_lt.2 hdue)

/-- Settles O32: each event of the domains and sensors finds its condition met. -/
theorem powerEventsComplete : Obligations.PowerEventsComplete := by
  unfold Obligations.PowerEventsComplete
  intro s
  refine ⟨?domain, ?sleep, ?sensor, ?energy⟩
  case domain => exact fun dom hgoing => attempt_some (domainDone_settles hgoing)
  case sleep => exact fun hready hawake hidle hdue => attempt_some (packageSleep_sleeps hready hawake hidle hdue)
  case sensor => exact fun u i t hi => attempt_some (sensorSample_senses hi)
  case energy => exact fun slot owned shared input peak hdue => attempt_some (energySlot_books hdue)

-- Thermal clamps and the trip (R520, R522)

theorem thermalClamp_clamps (hhot : 420 ≤ (s.thermalTop k).1) (hfree : s.pw.clamps.contains k = false)
    (hunit : k < 50 ∨ 52 ≤ k) : thermalClamp k s = some (s.clampUnit k) := by
  have hclampable : ¬ (50 ≤ k ∧ k < 52) := by omega
  simp only [thermalClamp, hfree, Int.not_lt.2 hhot, ← Bool.decide_and, hclampable, decide_false, Bool.or_self,
    Bool.false_eq_true, if_false]

theorem thermalRelease_frees (hclamped : s.pw.clamps.contains k = true) (hcool : s.cooled k = true) :
    thermalRelease k s = some (s.freeUnit k) := by
  simp only [thermalRelease, hclamped, hcool, Bool.not_true, Bool.or_self, Bool.false_eq_true, if_false]

theorem thermalTrip_trips (hhot : (if 52 ≤ k then 440 else 460) ≤ (s.thermalTop k).1) (hrun : s.cfgF (hwReg 0x3000) 39 1 = 0) :
    thermalTrip k s = some (s.trip k) := by
  simp only [thermalTrip, Int.not_lt.2 hhot, hrun, decide_false, Nat.reduceBEq, Bool.or_self, Bool.false_eq_true, if_false]

-- Current limits and overcurrent (R518, R519, R521)

theorem currentLimit_limits {da : Nat} (hfree : s.currClamp = false) (hover : s.currLimit ≤ da) :
    currentLimit da s = some (s.limitCurrent da) := by
  simp [currentLimit, hfree, Nat.not_lt.2 hover]

/-- Above the envelope the ladder goes up a rung, its first at once and each further one after 10 µs. -/
theorem avgLimit_climbs (hover : 102 * s.envUnder s.pw.cap < w * 100) (hroom : s.avgRung < s.rungs)
    (hdue : s.avgRung = 0 ∨ s.pw.rungAt + 2500 ≤ s.gc) : avgLimit w s = some (s.rungUp (s.avgRung + 1)) := by
  have hnow : (s.avgRung != 0 && s.gc < s.pw.rungAt + 2500) = false := by
    rcases hdue with hfirst | hlater
    · simp [hfirst]
    · simp [Nat.not_lt.2 hlater]
  simp only [avgLimit, Nat.not_le.2 hover, Nat.not_le.2 hroom, hnow, decide_false, Bool.or_self, Bool.false_eq_true, if_false]

theorem avgRelease_descends (hon : s.avgRung ≠ 0) (hunder : w * 100 < 95 * s.envUnder s.pw.cap)
    (hdue : s.pw.rungAt + 2500 ≤ s.gc) : avgRelease w s = some ((s.setRung (s.avgRung - 1)).setAlert) := by
  simp only [avgRelease, beq_false_of_ne hon, Nat.not_le.2 hunder, Nat.not_lt.2 hdue, decide_false, Bool.or_self,
    Bool.false_eq_true, if_false]

theorem regOvercurrent_cuts {out d : Nat} (hfeeds : outputDom k out = some d)
    (hon : s.power d ≠ .off ∨ (s.dom d).going.isSome = true) : regOvercurrent k out s = some (s.overcurrent k out d) := by
  have hlive : (s.power d == .off && (s.dom d).going.isNone) = false := by
    rcases hon with hpower | hgoing
    · simp [hpower]
    · simp [Option.isNone_eq_false_iff.2 hgoing]
  simp only [regOvercurrent, hfeeds, hlive, Bool.false_eq_true, if_false]

/-- Settles O33: each protection finds its threshold passed, and each release finds its condition met. -/
theorem protectionsComplete : Obligations.ProtectionsComplete := by
  unfold Obligations.ProtectionsComplete
  intro s
  refine ⟨?clamp, ?release, ?limit, ?limitRelease, ?climb, ?descend, ?overcurrent, ?trip⟩
  case clamp => exact fun u hhot hfree hunit => attempt_some (thermalClamp_clamps hhot hfree hunit)
  case release => exact fun u hclamped hcool => attempt_some (thermalRelease_frees hclamped hcool)
  case limit => exact fun da hfree hover => attempt_some (currentLimit_limits hfree hover)
  case limitRelease => exact fun hclamped => attempt_some (if_pos hclamped)
  case climb => exact fun w hover hroom hdue => attempt_some (avgLimit_climbs hover hroom hdue)
  case descend => exact fun w hon hunder hdue => attempt_some (avgRelease_descends hon hunder hdue)
  case overcurrent => exact fun u out d hfeeds hon => attempt_some (regOvercurrent_cuts hfeeds hon)
  case trip => exact fun u hhot hrun => attempt_some (thermalTrip_trips hhot hrun)

end Sys2Proof.Machine
end

section
/-! PROOFS. Error records, ageing samples and the stages of a graft (O30, O35). -/

namespace Sys2Proof.Machine

variable {s : State}

-- Events and records (R525 to R530, R547)

theorem errorEvent_raised {e : ErrEvent} {l : List ErrEvent} (hraised : s.log.raised = e :: l) :
    errorEvent none s = some (({ s with log := { s.log with raised := l } }).takeEvent e) := by
  simp only [errorEvent, hraised]

theorem recordWrite_writes {x : FifoEnt} {rest : List FifoEnt} (hfifo : s.log.fifo = x :: rest) (hdue : s.recordDue = true) :
    recordWrite s = some (s.writeRecord x rest) := by
  simp [recordWrite, hfifo, hdue]

/-- A record that has not waited 10 s is appended while the rate and the log's size allow it (R526, R547). -/
theorem flashAppend_appends {r : BitVec 512} {k : Nat} {rest : List (BitVec 512 × Nat)} (hdue : s.log.flashDue = (r, k) :: rest)
    (hfresh : ∀ x ∈ s.log.flashDue, s.gc < x.2 + 10 * oneSecond)
    (hrate : (s.log.appends.filter fun t => s.gc < t + oneSecond).length < 64) (hroom : s.log.flash.length < 16384) :
    ∃ t, flashAppend s = some t ∧ t.log.flash = s.log.flash ++ [r] ∧ t.log.flashDue = rest
      ∧ t.log.appends = (s.log.appends.filter fun t => s.gc < t + oneSecond) ++ [s.gc] := by
  have hlive : (s.log.flashDue.filter fun x => !decide (x.2 + 10 * oneSecond ≤ s.gc)) = (r, k) :: rest :=
    hdue ▸ List.filter_eq_self.2 fun x hx => by simp [Nat.not_le.2 (hfresh x (hdue ▸ hx))]
  have hmay : ¬ (decide (64 ≤ (s.log.appends.filter fun t => s.gc < t + oneSecond).length)
      || decide (16384 ≤ s.log.flash.length)) = true := by
    simp [Nat.not_le.2 hrate, Nat.not_le.2 hroom]
  simp only [flashAppend, hlive]
  exact ⟨_, if_neg hmay, rfl, rfl, rfl⟩

/-- Settles O30: each event of the record path finds its condition met. -/
theorem recordsComplete : Obligations.RecordsComplete := by
  unfold Obligations.RecordsComplete
  intro s
  refine ⟨fun e => rfl, ?raised, ?record, ?flash⟩
  case raised => exact fun e l hraised => attempt_some (errorEvent_raised hraised)
  case record => exact fun x rest hfifo hdue => attempt_some (recordWrite_writes hfifo hdue)
  case flash =>
    intro r k rest hdue hfresh hrate hroom
    obtain ⟨t, happend, hstate⟩ := flashAppend_appends hdue hfresh hrate hroom
    exact ⟨t, attempt_some happend, hstate⟩

-- Ageing and grafts (R539 to R544)

theorem ageingSample_takes {readings : List (Nat × Nat)} (hsupply : s.mgmt.supply = true) (hbooted : s.mgmt.booted = true)
    (hdue : ∀ t, s.mgmt.aged = some t → t + 2 ^ 38 ≤ s.gc) :
    ageingSample readings s = some { s with mgmt := { s.mgmt with
      aged := some s.gc
      wearAge := readings.foldl (fun t r => tput (fun _ => 0) t r.1 r.2) s.mgmt.wearAge } } := by
  cases haged : s.mgmt.aged with
  | none => simp [ageingSample, hsupply, hbooted, haged]
  | some t =>
    simp only [ageingSample, hsupply, hbooted, haged, decide_eq_true (hdue t haged), Bool.not_true, Bool.or_self,
      Bool.false_eq_true, if_false]

section
variable {d : Nat} {g : Graft} (hgraft : s.graftOf d = some g)
include hgraft

theorem graftFinalCopy_copies (hphase : g.phase = 3) (hgood : s.faulted = false) (hmay : s.copyMay g = true) :
    graftFinalCopy d s = some (s.putGraft { g with phase := 4 }) := by
  simp [graftFinalCopy, hgraft, hphase, hgood, hmay]

/-- At the agreed count the routers take the new map. -/
theorem graftMapSwitch_switches (hphase : g.phase = 4) (hgood : s.faulted = false) (hagreed : g.agreed ≠ 0)
    (hdue : g.agreed ≤ s.gc) : graftMapSwitch d s = some (s.switchMap g g.agreed) := by
  simp [graftMapSwitch, hgraft, hphase, hgood, hagreed, Nat.not_lt.2 hdue]

theorem graftForwardEnd_ends (hphase : g.phase = 5) (hdue : g.until_ ≤ s.gc) : graftForwardEnd d s
    = some ((s.disableAll (dieDomains g.old)).setGrafts (s.mgmt.grafts.filter fun h => h.die != d)) := by
  simp [graftForwardEnd, hgraft, hphase, Nat.not_lt.2 hdue]

end

/-- Settles O35: a sample is due, and each stage of a graft finds the stage before it done. -/
theorem wearAndGraftComplete : Obligations.WearAndGraftComplete := by
  unfold Obligations.WearAndGraftComplete
  intro s
  refine ⟨?ageing, fun d g hgraft hgood => ⟨?copy, ?switch⟩, ?forward⟩
  case ageing => exact fun readings hsupply hbooted hdue => attempt_some (ageingSample_takes hsupply hbooted hdue)
  case copy => exact fun hphase hmay => attempt_some (graftFinalCopy_copies hgraft hphase hgood hmay)
  case switch =>
    exact fun hphase hagreed hdue => attempt_some (graftMapSwitch_switches hgraft hphase hgood hagreed hdue)
  case forward => exact fun d g hgraft hphase hdue => attempt_some (graftForwardEnd_ends hgraft hphase hdue)

end Sys2Proof.Machine
end

section
/-! PROOFS. Cuts, halts, triggers, snapshots and the scan chain (O36). -/

namespace Sys2Proof.Machine

variable {s : State} {p : Part}

-- The cut and its resume (R565 to R569)

theorem cut_cuts {n : Nat} (hat : (s.part p.val).cutAt = some n) (hdue : (s.part p.val).cutDue s.gc = true)
    (hopen : (s.part p.val).opening = true → (s.part p.val).phase = 3) (hgraft : s.graftOwed p.val = false) :
    cut_ p s = some (s.cutPart p n) := by
  have hready : ((s.part p.val).opening && (s.part p.val).phase != 3) = false := by
    simpa only [Bool.and_eq_false_imp, bne_eq_false_iff_eq] using hopen
  simp only [cut_, hat, hdue, hready, hgraft, Bool.not_true, Bool.or_self, Bool.false_eq_true, if_false]

theorem cutResume_thaws {n : Nat} (hat : (s.part p.val).resumeAt = some n) (hfrozen : (s.part p.val).frozen = true)
    (hdue : n ≤ s.gc) : cutResume p s = some (s.thaw p) := by
  simp [cutResume, hat, hfrozen, hdue]

theorem frameCapture_captures {pt : Nat} {f : Frame} (hlive : s.portLive pt = true) (hcut : s.frozenFor f = true)
    (hclass : 2 ≤ fClass f) (hdst : fDst f = s.node) : frameCapture pt f s = some (s.captureFrame pt f) := by
  simp [frameCapture, hlive, hcut, Nat.not_lt.2 hclass, hdst]

-- Halts and triggers (R559, R564)

theorem engineHalt_halts {st : Stream} {k : Nat} {byCut : Bool} (hat : (s.stream (streamIx st)).haltAt = some (k, byCut))
    (hmay : s.mayHalt (streamIx st) k = true) : engineHalt st s = some (s.haltStream (streamIx st) k byCut) := by
  simp [engineHalt, hat, hmay]

theorem traceTrigger_fires {d k : Nat} (harmed : s.cfgF (Sys2Proof.Machine.ringBase d k) 0 2 = 1)
    (hkind : s.cfgF (Sys2Proof.Machine.ringBase d k) 13 3 = 0)
    (hdue : (s.cfgW (Sys2Proof.Machine.ringBase d k + 0x30)).toNat ≤ s.gc) : traceTrigger d k s = some (s.ringTrigger d k) := by
  simp [traceTrigger, harmed, hkind, hdue]

-- Snapshots (R553, R554)

/-- At count K a pending snapshot that has not latched yet keeps what it covers. -/
theorem snapshotLatch_latches {i k : Nat} {c : PendCmd} (hc : s.mgmt.cmds[i]? = some c) (hdata : c.data = [k])
    (hcode : entCode c.entry = 0x0908) (hdue : k ≤ s.gc) :
    snapshotLatch i s = some { s with mgmt := { s.mgmt with
      cmds := s.mgmt.cmds.set i { c with data := k :: (s.snapHead c.entry k ++ s.snapWords c.entry) } } } := by
  simp only [snapshotLatch, hc, hdata, hcode, Nat.not_lt.2 hdue, bne_self_eq_false, decide_false, Bool.or_self,
    Bool.false_eq_true, if_false]

theorem snapTimeout_fails {i : Nat} {c : PendCmd} (hc : s.mgmt.cmds[i]? = some c) (hcode : entCode c.entry = 0x0908)
    (hdue : c.data.headD 0 + 250000 ≤ s.gc) :
    snapTimeout i s = some ((s.finish c stFailed (failResult 7)).bumpCfg (hwReg 0x5038) 0 32 1) := by
  simp only [snapTimeout, hc, hcode, Nat.not_lt.2 hdue, bne_self_eq_false, decide_false, Bool.or_self, Bool.false_eq_true,
    if_false]

-- The scan chain (R570)

/-- An instruction that drives pins is taken while every domain is OFF; any other is always taken. -/
theorem exec_boundaryScan {i : JtagInstr} (hother : i ≠ .idcode) (hpins : drivesPins i = true → s.allOff = true) :
    exec (.boundaryScan i) s = .next { s with mgmt := { s.mgmt with jtag := i } } := by
  have htaken : (drivesPins i && !s.allOff) = false := by
    simpa only [Bool.and_eq_false_imp, Bool.not_eq_false'] using hpins
  change execBoundaryScan i s = _
  simp only [execBoundaryScan, htaken, Bool.false_eq_true, if_false, beq_false_of_ne hother]

/-- Settles O36: each event finds its condition met, so it has the effect that its lemma above names. -/
theorem debugEventsComplete : Obligations.DebugEventsComplete := by
  unfold Obligations.DebugEventsComplete
  intro s
  refine ⟨?cut, ?resume, ?capture, ?halt, ?trigger, fun ring => rfl, ?latch, ?timeout, fun c v => rfl, ?scan, rfl⟩
  case cut => exact fun p n hat hdue hopen hgraft => attempt_some (cut_cuts hat hdue hopen hgraft)
  case resume => exact fun p n hat hfrozen hdue => attempt_some (cutResume_thaws hat hfrozen hdue)
  case capture => exact fun pt f hlive hcut hclass hdst => attempt_some (frameCapture_captures hlive hcut hclass hdst)
  case halt => exact fun st k byCut hat hmay => attempt_some (engineHalt_halts hat hmay)
  case trigger => exact fun ring harmed hkind hdue => attempt_some (traceTrigger_fires harmed hkind hdue)
  case latch => exact fun i c k hc hdata hcode hdue => attempt_some (snapshotLatch_latches hc hdata hcode hdue)
  case timeout => exact fun i c hc hcode hdue => attempt_some (snapTimeout_fails hc hcode hdue)
  case scan => exact fun i hother hpins => exec_boundaryScan hother hpins

end Sys2Proof.Machine
end

section
/-! PROOFS. Accesses of the host and the tray controller (O37). -/

namespace Sys2Proof.Machine

variable {s : State} {b : Blk}

-- Index registers, causes and plain writes (R440, R444 to R448)

section
variable (hreach : s.reaches b = true)
include hreach

theorem cmdProdWrite_rings {k : Nat} {v : W16} (hk : k < pairsOf b) : cmdProdWrite b k v s = some (s.ringCmd b k v) := by
  simp [cmdProdWrite, hreach, Nat.not_le.2 hk]

theorem rspConsWrite_rings {k : Nat} {v : W16} (hk : k < pairsOf b) : rspConsWrite b k v s = some (s.ringRsp b k v) := by
  simp [rspConsWrite, hreach, Nat.not_le.2 hk]

theorem mbxIrqTake_takes : mbxIrqTake b s = some ((s.irqTake b).emit (.readback (s.mbxRead b 0x18 false).toNat)) := by
  simp [mbxIrqTake, hreach]

theorem registerWrite_mbx {off : Nat} {v : W64} (haligned : off % 8 = 0) :
    registerWrite (.mbx b off) v s = some (s.mbxPlain b off v) := by
  simp [registerWrite, hreach, haligned]

end

theorem registerWrite_cfg {a : Nat} {v : W64} (hup : s.lysbyUp = true) (haligned : a % 8 = 0) :
    registerWrite (.cfg a) v s = some (s.cfgWrite a v) := by
  simp [registerWrite, hup, haligned]

/-- The standby port that the host takes becomes the serving port (R443). -/
theorem portTake_takes {h : Nat} {v : W64} (hup : s.hostUp h = true) (hstandby : h ≠ s.mgmt.hostPort) (hset : fld v 0 1 = 1) :
    portTake h v s = some (allBlks.foldl (fun s b => s.setIrq b 15) { s with mgmt := { s.mgmt with hostPort := h } }) := by
  simp [portTake, hup, hstandby, hset]

-- BAR4 and BAR2 of the serving port (R423, R442, R472)

section
variable (hup : s.hostUp s.mgmt.hostPort = true)
include hup

/-- JNL_READ advances up to JNL_WRITE; above it the write sets JNL_READ_ERR alone. -/
theorem jnlReadWrite_advances {p : Part} {v : W64} : jnlReadWrite p v s = some
    (if (s.mbxW (bar4Addr p.val 0x10)).toNat < v.toNat then s.setMbxF (bar4Addr p.val 0x20) 2 1 1
      else s.setMbxW (bar4Addr p.val 0x18) v) := by
  simp only [jnlReadWrite, hup, Bool.not_true, Bool.false_eq_true, if_false]
  split <;> rfl

theorem registerWrite_bar4 {p : Part} {v : W64} (hclear : fld v 2 1 = 1) :
    registerWrite (.bar4 p 0x20) v s = some (s.setMbxF (bar4Addr p.val 0x20) 2 1 0) := by
  simp [registerWrite, hup, hclear]

theorem doorbellWrite_pends {p : Part} {k : Fin 16} {v : W64} : doorbellWrite p k v s = some (s.pendBell p k v) := by
  simp [doorbellWrite, hup]

end

section
variable {a len : Nat} (hhbm : isHbm a = true) (haccess : s.access (vfPart b) a len = .ok)
include hhbm haccess

theorem hostAccess_reads : s.hostAccess ⟨b, a, len, none⟩ = s.emit (.bytes (s.rd a len)) := by
  simp only [State.hostAccess, hhbm, haccess, if_true]

theorem hostAccess_stores {bs : List Byte} : s.hostAccess ⟨b, a, len, some bs⟩ = s.wr a (bs.take len) := by
  simp only [State.hostAccess, hhbm, haccess, if_true]

end

/-- Settles O37: each access is one its agent may make, so it has the effect that its lemma above names. -/
theorem hostAccessesComplete : Obligations.HostAccessesComplete := by
  unfold Obligations.HostAccessesComplete
  intro s
  refine ⟨?index, ?causes, ?register, ?config, ?port, rfl, rfl, fun hup => ⟨?journal, ?journalError, ?doorbell, ?aperture⟩⟩
  case index =>
    exact fun b k v hreach hk => ⟨attempt_some (cmdProdWrite_rings hreach hk), attempt_some (rspConsWrite_rings hreach hk)⟩
  case causes => exact fun b hreach => attempt_some (mbxIrqTake_takes hreach)
  case register => exact fun b off v hreach haligned => attempt_some (registerWrite_mbx hreach haligned)
  case config => exact fun a v hup haligned => attempt_some (registerWrite_cfg hup haligned)
  case port => exact fun hp v hup hstandby hset => attempt_some (portTake_takes hup hstandby hset)
  case journal => exact fun p v => attempt_some (jnlReadWrite_advances hup)
  case journalError => exact fun p v hclear => attempt_some (registerWrite_bar4 hup hclear)
  case doorbell => exact fun p k v => attempt_some (doorbellWrite_pends hup)
  case aperture =>
    intro b off len data a hfunction hlen hfits hhbm haccess
    have hmade := bar2Access_makes (data := data) hup hfunction (Nat.ne_of_gt hlen) hfits
    cases data with
    | none => exact attempt_some (hmade.trans (congrArg some (hostAccess_reads hhbm haccess)))
    | some bs => exact attempt_some (hmade.trans (congrArg some (hostAccess_stores hhbm haccess)))

end Sys2Proof.Machine
end

section
/-! PROOFS. Device commands (O38). -/

namespace Sys2Proof.Machine

variable {s : State} {e : BitVec 512}

-- Start, stop and reset (R461, R462, R479, R480)

theorem startBody_pends {x : PlateSlot} {slot : Nat} (hdev : s.mgmt.devState = 1) (hfree : s.busyWith e .power = false)
    (hgood : s.mgmt.mainGood = true) (hplate : s.bootPlate = some (x, slot)) :
    startBody s e
      = .pend .none [1] none none ((s.applyPlate x slot).readyKeys.foldl State.enable (s.applyPlate x slot)) := by
  rw [startBody, inDev_of_mem (by simp [hdev]), unlessBusy_of_free hfree, hgood, hplate]
  rfl

theorem stopBody_pends (hdev : s.mgmt.devState = 2) (hidle : s.blocker idleStates = none) (hfree : s.busyWith e .power = false) :
    stopBody s e = .pend .none [] none none (s.disableAll switched) := by
  rw [stopBody, inDev_of_mem (by simp [hdev]), allIn_of_none hidle, unlessBusy_of_free hfree]

theorem resetBody_pends (hdev : s.mgmt.devState ≠ 0) : resetBody s e = .pend .none [] none none s.startReset :=
  if_neg (by simpa using hdev)

-- Measurement, cap and rollback (R481, R482)

theorem measureBody_ok (hm : payF e 0 1 < 8) : measureBody s e = .ok .none (s.mgmt.meas.getD (payF e 0 1) []) s :=
  check_of_true (decide_eq_true hm) _

/-- A cap of 0 lifts it; any other lies between 400 W and the envelope (R481). -/
theorem capBody_ok (hdev : s.mgmt.devState ∈ [1, 2, 8]) (hfree : s.busyWith e .power = false)
    (hcap : payF e 0 2 = 0 ∨ (400 ≤ payF e 0 2 ∧ payF e 0 2 ≤ s.envelope)) :
    capBody s e = .ok .none [] (s.setCap (payF e 0 2)) := by
  simp only [capBody]
  rw [inDev_of_mem hdev, unlessBusy_of_free hfree, check_of_true (by simpa using hcap)]

theorem commitBody_ok (hdev : s.mgmt.devState ∈ [1, 2, 8]) (hfree : s.busyWith e .admin = false)
    (hlo : s.mgmt.fusedMin ≤ payF e 0 1) (hhi : payF e 0 1 ≤ s.runningRollback) :
    commitBody s e = .ok .none (natLe 1 (payF e 0 1)) { s with mgmt := { s.mgmt with fusedMin := payF e 0 1 } } := by
  simp only [commitBody]
  rw [inDev_of_mem hdev, unlessBusy_of_free hfree, check_of_true (by simp [hlo, hhi])]

/-- Settles O38: each row's body answers as its lemma above says; identity and status ask for nothing. -/
theorem deviceCommandsComplete : Obligations.DeviceCommandsComplete := by
  unfold Obligations.DeviceCommandsComplete
  refine ⟨fun x slot => ?start, ?stop, ?reset, ?identity, ?measure, ?status, ?cap, ?commit⟩
  case start =>
    exact commandPends_of_body (fun _ _ _ => rfl) fun _ _ ⟨hdev, hfree, hgood, hplate⟩ =>
      startBody_pends hdev hfree hgood hplate
  case stop =>
    exact commandPends_of_body (fun _ _ _ => rfl) fun _ _ ⟨hdev, hidle, hfree⟩ => stopBody_pends hdev hidle hfree
  case reset => exact commandPends_of_body (fun _ _ _ => rfl) fun _ _ hdev => resetBody_pends hdev
  case identity => exact commandOk_of_body (fun _ _ _ => rfl) fun _ _ _ _ _ => rfl
  case measure => exact commandOk_of_body (fun _ _ _ => rfl) fun _ _ _ _ hm => measureBody_ok hm
  case status => exact commandOk_of_body (fun _ _ _ => rfl) fun _ _ _ _ _ => rfl
  case cap => exact commandOk_of_body (fun _ _ _ => rfl) fun _ _ _ _ ⟨hdev, hfree, hcap⟩ => capBody_ok hdev hfree hcap
  case commit =>
    exact commandOk_of_body (fun _ _ _ => rfl) fun _ _ _ _ ⟨hdev, hfree, hlo, hhi⟩ => commitBody_ok hdev hfree hlo hhi

end Sys2Proof.Machine
end

section
/-! PROOFS. Plate, overlay, node and time commands (O39). -/

namespace Sys2Proof.Machine

variable {s : State} {e : BitVec 512}

-- Plates (R464, R465, R492)

/-- A plate whose bytes are in reach, whose checks pass and whose signatures verify is staged. -/
theorem stageBody_pends {pl : Plate} (hdev : s.mgmt.devState ∈ [2, 8]) (hfree : s.busyWith e .admin = false)
    (hbuf : s.bufOk e (payF e 0 8) (payF e 8 4) = true) (hsize : payF e 8 4 ≤ 0x100000) (hplate : s.plateOk pl = true) :
    stageBody pl true s e
      = .pend .none [] none (some ⟨pl, sha384 (s.rd (payF e 0 8) (payF e 8 4)), true⟩) s := by
  simp only [stageBody]
  rw [inDev_of_mem hdev, unlessBusy_of_free hfree, check_of_true (by simp [hbuf, hsize, hplate])]
  rfl

theorem applyBody_pends {x : PlateSlot} (hdev : s.mgmt.devState = 2) (hidle : s.blocker idleStates = none)
    (hfree : s.busyWith e .admin = false) (hslot : s.mgmt.plates[payF e 0 1]? = some (some x)) (hi : payF e 0 1 < 2)
    (hgood : x.good = true) (hplate : s.plateOk x.plate = true) : applyBody s e = .pend .none [payF e 0 1] none none s := by
  simp only [applyBody]
  rw [inDev_of_mem (by simp [hdev]), allIn_of_none hidle, unlessBusy_of_free hfree, check_of_true (decide_eq_true hi)]
  simp only [hslot, hgood, Bool.not_true, Bool.false_eq_true, if_false]
  rw [check_of_true hplate]

-- Overlays (R466 to R468)

theorem overlayState_of_may (hmay : s.overlayMay e = true) (a : Ans) : s.overlayState e a = a := by
  unfold State.overlayMay at hmay
  unfold State.overlayState
  split at hmay
  next hdevice =>
    obtain ⟨hdev, hrest⟩ := Bool.and_eq_true_iff.1 hmay
    rw [if_pos hdevice, inDev_of_mem (by simp [beq_iff_eq.1 hdev]), allIn_of_none (Option.isNone_iff_eq_none.1 hrest)]
  next hpart =>
    obtain ⟨hstate, hreplay⟩ := Bool.and_eq_true_iff.1 hmay
    rw [if_neg hpart, partIn_of_mem (List.contains_iff_mem.1 hstate), notReplay_of_none (Option.isNone_iff_eq_none.1 hreplay)]

/-- An overlay whose checks pass takes the lowest free handle. -/
theorem overlayApplyBody_pends {h : Nat} (hmay : s.overlayMay e = true)
    (hfree : (s.mgmt.overlays.findIdx? fun o => o.isNone) = some h) (hbuf : s.bufOk e (payF e 0 8) (payF e 8 2) = true)
    (hok : s.overlayOk (entScope e) (s.rd (payF e 0 8) (payF e 8 2)) = true) :
    let bs := s.rd (payF e 0 8) (payF e 8 2)
    overlayApplyBody true s e
      = .pend (.window (s.overlayWindow e)) [h, (s.overlayWindow e).getD 0xFFFFFFFF] none none
        (s.setOverlay h (some ⟨entScope e, leNat ((sha384 bs).take 8), sha384 bs,
          (List.range (bitsAt (leNat (bs.take 16)) 40 16)).map (overlayEntry bs), 0⟩)) := by
  simp only [overlayApplyBody]
  rw [overlayState_of_may hmay]
  simp only [hfree]
  rw [check_of_true (by simp [hbuf, hok])]
  rfl

theorem overlayRemoveBody_pends {o : Overlay} (hmay : s.overlayMay e = true) (hidle : s.handleBusy (payF e 0 1) = false)
    (ho : s.mgmt.overlays[payF e 0 1]? = some (some o)) (hscope : o.part = entScope e) :
    overlayRemoveBody s e
      = .pend (.window (s.overlayWindow e)) [payF e 0 1, (s.overlayWindow e).getD 0xFFFFFFFF] none none
        (s.setOverlay (payF e 0 1) (some { o with phase := 2 })) := by
  simp only [overlayRemoveBody]
  rw [overlayState_of_may hmay]
  simp only [hidle, ho, Bool.false_eq_true, if_false]
  rw [check_of_true (beq_iff_eq.2 hscope)]

-- Node and time (R456, R457, R494)

theorem nodeBody_ok (hdev : s.mgmt.devState = 2) (hidle : s.blocker idleStates = none) (hfree : s.busyWith e .fabric = false)
    (hnode : payF e 0 2 < 16384) (hvillage : payF e 2 2 < 4096) :
    let v := ((s.setCfgF (ioCfg 0) 0 14 (payF e 0 2)).setCfgF (ioCfg 0) 14 1 1).setCfgF (ioCfg 0) 16 12 (payF e 2 2)
    nodeBody s e = .ok .none [] (v.net.heldPorts.foldl State.startPort { v with net := { v.net with heldPorts := [] } }) := by
  simp only [nodeBody]
  rw [inDev_of_mem (by simp [hdev]), allIn_of_none hidle, unlessBusy_of_free hfree, check_of_true (by simp [hnode, hvillage])]

theorem timeBody_ok (hdev : s.mgmt.devState ∈ [2, 8]) (hrest : s.blocker restStates = none)
    (hfree : s.busyWith e .fabric = false) (hsources : s.sourcesOk e = true) :
    timeBody s e = .ok .none [] (s.takeSources e) := by
  rw [timeBody, inDev_of_mem hdev, allIn_of_none hrest, unlessBusy_of_free hfree, check_of_true hsources]

/-- A command without COMMAND entry notes nothing. -/
theorem noteCmd_none {b : Blk} {k status : Nat} : s.noteCmd .none b k e status = s := by
  unfold State.noteCmd
  split <;> rfl

/-- Settles O39: each row's body answers as its lemma above says; a list and a query ask for nothing. -/
theorem configurationCommandsComplete : Obligations.ConfigurationCommandsComplete := by
  unfold Obligations.ConfigurationCommandsComplete
  refine ⟨?stage, fun x => ?apply, fun h => ?overlayApply, fun o => ?overlayRemove, ?list, ?node, ?time, ?query⟩
  case stage =>
    intro b k pl s htaken e u hdev hfree hbuf hsize hplate
    have hpends := lysby_pend htaken (stageBody_pends hdev hfree hbuf hsize hplate)
    rw [noteCmd_none] at hpends
    exact attempt_some hpends
  case apply =>
    exact commandPends_of_body (fun _ _ _ => rfl) fun _ _ ⟨hdev, hidle, hfree, hslot, hi, hgood, hplate⟩ =>
      applyBody_pends hdev hidle hfree hslot hi hgood hplate
  case overlayApply =>
    exact commandPends_of_body (fun _ _ _ => rfl) fun _ _ ⟨hmay, hfree, hbuf, hok⟩ =>
      overlayApplyBody_pends hmay hfree hbuf hok
  case overlayRemove =>
    exact commandPends_of_body (fun _ _ _ => rfl) fun _ _ ⟨hmay, hidle, ho, hscope⟩ =>
      overlayRemoveBody_pends hmay hidle ho hscope
  case list => exact commandOk_of_body (fun _ _ _ => rfl) fun _ _ _ _ _ => rfl
  case node =>
    exact commandOk_of_body (fun _ _ _ => rfl) fun _ _ _ _ ⟨hdev, hidle, hfree, hnode, hvillage⟩ =>
      nodeBody_ok hdev hidle hfree hnode hvillage
  case time =>
    exact commandOk_of_body (fun _ _ _ => rfl) fun _ _ _ _ ⟨hdev, hrest, hfree, hsources⟩ =>
      timeBody_ok hdev hrest hfree hsources
  case query => exact commandOk_of_body (fun _ _ _ => rfl) fun _ _ _ _ _ => rfl

end Sys2Proof.Machine
end

section
/-! PROOFS. Job commands (O40). -/

namespace Sys2Proof.Machine

variable {s : State} {e : BitVec 512}

-- Load, unload and launch (R419, R484 to R486)

/-- A READY partition of a device with a node takes an image that passes its checks and needs no failed die. -/
theorem loadBody_pends {img : JobImage} (hstate : (s.part (entPart e)).state = 2) (hnode : s.nodeAssigned = true)
    (hfree : s.busyWith e .job = false) (hsize : payF e 8 8 ≠ 0)
    (hhbm : s.inPartHbm (entPart e) (payF e 0 8) (payF e 8 8) = true)
    (himage : imageBad s ((s.clearForLoad (entPart e)).writeImage img) (Fin.ofNat 8 (entPart e)) img = false)
    (hdies : s.needsFailed (entPart e) = false) : loadBody img s e = .pend .plain [] (some img) none s := by
  simp only [loadBody]
  rw [partIn_of_mem (by simp [hstate]), hnode, if_neg (by simp), unlessBusy_of_free hfree,
    check_of_true (by simp only [bne_iff_ne.2 hsize, hhbm, himage, Bool.not_false, Bool.and_self]), hdies, if_neg Bool.false_ne_true]

theorem unloadBody_pends (hstate : (s.part (entPart e)).state ∈ [3, 6, 7]) (hfree : s.busyWith e .job = false) :
    unloadBody s e = .pend .plain [] none none
      ((s.endPartCmds (entPart e) s.mgmt.nextCmd 3).endStops (entPart e) 6 none).dropOrphans := by
  simp only [unloadBody]
  rw [partIn_of_mem hstate, unlessBusy_of_free hfree]

/-- A LOADED job that fits arms at a count far enough ahead; one that meets other nodes needs a count to meet by (R486). -/
theorem launchBody_ok {j : JobImage} (hstate : (s.part (entPart e)).state = 3) (hfree : s.busyWith e .job = false)
    (hjob : (s.part (entPart e)).job = some j) (hcount : s.gc + 2500 ≤ payF e 0 8) (hflags : payF e 20 4 = 0)
    (hreserved : payF e 32 20 = 0) (hfits : s.jobFits (entPart e) j = true) (hmeets : jobMeets j = true → 2 ≤ s.gcState) :
    launchBody s e = .ok .plain [] (s.launchJob (entPart e) e none) := by
  have hreplays : (bitsAt 0 0 1 == 1) = false := by decide
  have hcounts : ¬ (jobMeets j && (s.gcState == 0 || s.gcState == 1)) = true := by
    simp only [Bool.and_eq_true, Bool.or_eq_true, beq_iff_eq, not_and]
    intro hmeet
    have := hmeets hmeet
    omega
  simp only [launchBody, hflags, hreplays, hreserved, Bool.false_eq_true, if_false]
  rw [partIn_of_mem (by simp [hstate]), unlessBusy_of_free hfree, hjob]
  dsimp only
  rw [check_of_true (by simp [hcount, hfits]), if_neg hcounts]

-- Teardown and resume (R420, R487, R536, R569)

/-- An active partition whose launch tag the command carries is torn down, from the launch count on. -/
theorem teardownBody_pends (hstate : (s.part (entPart e)).state ∈ activeStates) (hfree : s.busyWith e .job = false)
    (htag : BitVec.ofNat 64 (payF e 0 8) = (s.part (entPart e)).tag)
    (hlaunched : (s.part (entPart e)).state = 4 → (s.part (entPart e)).lc ≤ s.gc) :
    teardownBody s e = .pend .plain [(s.tearDown (Fin.ofNat 8 (entPart e))).2] none none
      (((s.tearDown (Fin.ofNat 8 (entPart e))).1.endPartCmds (entPart e) s.mgmt.nextCmd 2).dropOrphans) := by
  have hbefore : ¬ ((s.part (entPart e)).state == 4 && decide (s.gc < (s.part (entPart e)).lc)) = true := by
    simpa only [Bool.and_eq_true, beq_iff_eq, decide_eq_true_eq, not_and, Nat.not_lt] using hlaunched
  simp only [teardownBody]
  rw [partIn_of_mem hstate, unlessBusy_of_free hfree, check_of_true (beq_iff_eq.2 htag), if_neg hbefore]

theorem resumeBody_pends (hstate : (s.part (entPart e)).state ∈ [6, 7]) (htorn : (s.part (entPart e)).tornDown = false)
    (hlast : (s.part (entPart e)).state = 7 → (s.part (entPart e)).last = false) (hfree : s.busyWith e .job = false) :
    resumeBody s e = .pend (.window (some ((s.part (entPart e)).window + 1))) [] none none (s.resume (entPart e)) := by
  have hgoes : ¬ ((s.part (entPart e)).tornDown || ((s.part (entPart e)).state == 7 && (s.part (entPart e)).last)) = true := by
    simpa [htorn] using hlast
  simp only [resumeBody]
  rw [partIn_of_mem hstate, if_neg hgoes, unlessBusy_of_free hfree]

-- Variant sets, batches and audits (R258, R488, R489)

theorem variantBody_ok {j : JobImage} (hstate : (s.part (entPart e)).state ∈ jobStates)
    (hreplay : (s.part (entPart e)).replay = none) (hfree : s.busyWith e .job = false)
    (hjob : (s.part (entPart e)).job = some j) (hset : payF e 0 1 < j.sets.length) :
    variantBody s e
      = .ok .latched (natLe 4 ((if (s.part (entPart e)).state == 4 then (s.part (entPart e)).step0
          else (s.part (entPart e)).stepNo) + 1).toNat)
        (s.setPart (entPart e) { s.part (entPart e) with setNext := some (payF e 0 1) }) := by
  simp only [variantBody]
  rw [partIn_of_mem hstate, notReplay_of_none hreplay, unlessBusy_of_free hfree, check_of_true]
  simpa only [hjob] using decide_eq_true hset

section
variable (hstate : (s.part (entPart e)).state ∈ activeStates) (hfree : s.busyWith e .job = false)
  (hbatch : payF e 16 4 = (s.part (entPart e)).batch)
  (hhbm : s.inPartHbm (entPart e) (payF e 0 8) (payF e 8 8) = true)
include hstate hfree hbatch hhbm

/-- A batch of up to 1 MiB that does not diverge is taken at once. -/
theorem inputBody_ok (hlo : 1 ≤ payF e 8 8) (hhi : payF e 8 8 ≤ 2 ^ 20) (hsame : (s.takeBatch e).2 = false) :
    inputBody s e = .ok .plain (sha256 (s.batchBytes e)) (s.takeBatch e).1 := by
  have hmax : payF e 8 8 ≤ 2 ^ 40 := Nat.le_trans hhi (by decide)
  simp only [inputBody]
  rw [partIn_of_mem hstate, unlessBusy_of_free hfree,
    check_of_true (by simp only [hbatch, hlo, hmax, hhbm, beq_self_eq_true, decide_true, Bool.and_self]),
    if_neg (Nat.not_lt.2 hhi), hsame, if_neg Bool.false_ne_true]

/-- A batch above 1 MiB is answered when its digest is known. -/
theorem inputBody_pends (hlo : 2 ^ 20 < payF e 8 8) (hhi : payF e 8 8 ≤ 2 ^ 40) :
    inputBody s e = .pend .plain [] none none (s.nextBatch (entPart e)) := by
  have hmin : 1 ≤ payF e 8 8 := Nat.le_trans (by decide) (Nat.le_of_lt hlo)
  simp only [inputBody]
  rw [partIn_of_mem hstate, unlessBusy_of_free hfree,
    check_of_true (by simp only [hbatch, hmin, hhi, hhbm, beq_self_eq_true, decide_true, Bool.and_self]), if_pos hlo]

end

theorem auditBody_pends (hstate : (s.part (entPart e)).state ∈ jobStates) (hfree : s.busyWith e .job = false)
    (hhbm : s.inPartHbm (entPart e) (payF e 0 8) (payF e 8 4) = true) :
    auditBody s e = .pend .plain ((s.ownersOf (entPart e)).map fun x =>
      [x.1, x.2, s.cfgF (ownA x.1 x.2 + 8) 32 32, s.cfgF (ownA x.1 x.2 + 16) 32 32]).flatten none none s := by
  simp only [auditBody]
  rw [partIn_of_mem hstate, unlessBusy_of_free hfree, check_of_true hhbm]

/-- Settles O40: each row's body answers as its lemma above says. -/
theorem jobCommandsComplete : Obligations.JobCommandsComplete := by
  unfold Obligations.JobCommandsComplete
  refine ⟨fun img => ?load, ?unload, fun j => ?launch, ?teardown, ?resume, fun j => ?variant, ?input, ?inputLong, ?audit⟩
  case load =>
    exact commandPends_of_body (fun _ _ _ => rfl) fun _ _ ⟨hstate, hnode, hfree, hsize, hhbm, himage, hdies⟩ =>
      loadBody_pends hstate hnode hfree hsize hhbm himage hdies
  case unload =>
    exact commandPends_of_body (fun _ _ _ => rfl) fun _ _ ⟨hstate, hfree⟩ => unloadBody_pends hstate hfree
  case launch =>
    exact commandOk_of_body (fun _ _ _ => rfl)
      fun _ _ _ _ ⟨hstate, hfree, hjob, hcount, hflags, hreserved, hfits, hmeets⟩ =>
        launchBody_ok hstate hfree hjob hcount hflags hreserved hfits hmeets
  case teardown =>
    exact commandPends_of_body (fun _ _ _ => rfl) fun _ _ ⟨hstate, hfree, htag, hlaunched⟩ =>
      teardownBody_pends hstate hfree htag hlaunched
  case resume =>
    exact commandPends_of_body (fun _ _ _ => rfl) fun _ _ ⟨hstate, htorn, hlast, hfree⟩ =>
      resumeBody_pends hstate htorn hlast hfree
  case variant =>
    exact commandOk_of_body (fun _ _ _ => rfl) fun _ _ _ _ ⟨hstate, hreplay, hfree, hjob, hset⟩ =>
      variantBody_ok hstate hreplay hfree hjob hset
  case input =>
    exact commandOk_of_body (fun _ _ _ => rfl) fun _ _ _ _ ⟨hstate, hfree, hbatch, hlo, hhi, hhbm, hsame⟩ =>
      inputBody_ok hstate hfree hbatch hhbm hlo hhi hsame
  case inputLong =>
    exact commandPends_of_body (fun _ _ _ => rfl) fun _ _ ⟨hstate, hfree, hbatch, hlo, hhi, hhbm⟩ =>
      inputBody_pends hstate hfree hbatch hhbm hlo hhi
  case audit =>
    exact commandPends_of_body (fun _ _ _ => rfl) fun _ _ ⟨hstate, hfree, hhbm⟩ => auditBody_pends hstate hfree hhbm

end Sys2Proof.Machine
end

section
/-! PROOFS. Graft commands (O42). -/

namespace Sys2Proof.Machine

variable {s : State} {e : BitVec 512}

/-- While no graft is open, a die of the partition is prepared with the spare that the command finds (R495, R541). -/
theorem prepareBody_pends {x : Nat} (hreplay : (s.part (entPart e)).replay = none)
    (hstate : (s.part (entPart e)).state ∈ [2, 3, 4, 5, 6, 7]) (hdie : s.dieIn (entPart e) (payF e 0 1) = true)
    (hspare : payF e 1 1 = 0xFF ∨ s.mgmt.coppice.contains (payF e 1 1) = true)
    (hnone : s.mgmt.grafts.any Graft.open_ = false) (hx : s.spareFor (payF e 1 1) = some x) :
    prepareBody s e = .pend .plain [payF e 0 1] none none (s.startGraft (payF e 0 1) (entPart e) x) := by
  have hsame : (s.mgmt.grafts.any fun g => g.die == payF e 0 1 && g.open_) = false :=
    List.any_eq_false.2 fun g hg hopen =>
      List.any_eq_false.1 hnone g hg (Bool.and_eq_true_iff.1 hopen).2
  simp only [prepareBody]
  rw [notReplay_of_none hreplay, partIn_of_mem hstate, check_of_true (by simpa [hdie] using hspare), hsame, hnone, hx]
  rfl

section
variable {g : Graft} (hreplay : (s.part (entPart e)).replay = none) (hgraft : s.graftOf (payF e 0 1) = some g)
  (hpart : g.part = entPart e) (hphase : g.phase = 2)
include hreplay hgraft hpart hphase

/-- In a partition with windows, a prepared graft is committed for the first boundary from its count on (R496). -/
theorem graftCommitBody_pends (hstate : (s.part (entPart e)).state ∈ activeStates) (hcount : g.earliest ≤ payF e 8 8) :
    graftCommitBody s e = .pend (.window (s.commitWindow (entPart e) (payF e 8 8))) [g.die] none none
      (s.putGraft { g with phase := 3, count := payF e 8 8 }) := by
  simp only [graftCommitBody]
  rw [notReplay_of_none hreplay, hgraft]
  simp only [hpart, hphase, bne_self_eq_false, Bool.or_self, Bool.false_eq_true, if_false]
  rw [if_pos (List.contains_iff_mem.2 hstate), check_of_true (decide_eq_true hcount)]

theorem abortBody_ok : abortBody s e = .ok .plain [] (s.dropGraft g.die) := by
  simp only [abortBody]
  rw [notReplay_of_none hreplay, hgraft]
  simp only [hpart, hphase, bne_self_eq_false, Bool.or_self, Bool.false_eq_true, if_false]

end

theorem graftStatusBody_ok {g : Graft} (hdie : s.dieIn (entPart e) (payF e 0 1) = true)
    (hgraft : s.graftOf (payF e 0 1) = some g) (hphase : g.phase ≠ 5) :
    graftStatusBody s e = .ok .plain (natLe 1 g.code ++ natLe 1 g.spare ++ natLe 6 0 ++ natLe 8 g.agreed) s := by
  simp only [graftStatusBody]
  rw [check_of_true hdie, hgraft]
  exact if_neg (by simpa using hphase)

/-- Settles O42: each row's body answers as its lemma above says. -/
theorem graftCommandsComplete : Obligations.GraftCommandsComplete := by
  unfold Obligations.GraftCommandsComplete
  refine ⟨fun x => ?prepare, fun g => ?commit, fun g => ?abort, fun g => ?status⟩
  case prepare =>
    exact commandPends_of_body (fun _ _ _ => rfl) fun _ _ ⟨hreplay, hstate, hdie, hspare, hnone, hx⟩ =>
      prepareBody_pends hreplay hstate hdie hspare hnone hx
  case commit =>
    exact commandPends_of_body (fun _ _ _ => rfl) fun _ _ ⟨hreplay, hgraft, hpart, hphase, hstate, hcount⟩ =>
      graftCommitBody_pends hreplay hgraft hpart hphase hstate hcount
  case abort =>
    exact commandOk_of_body (fun _ _ _ => rfl) fun _ _ _ _ ⟨hreplay, hgraft, hpart, hphase⟩ =>
      abortBody_ok hreplay hgraft hpart hphase
  case status =>
    exact commandOk_of_body (fun _ _ _ => rfl) fun _ _ _ _ ⟨hdie, hgraft, hphase⟩ => graftStatusBody_ok hdie hgraft hphase

end Sys2Proof.Machine
end

section
/-! PROOFS. Debug commands (O43). -/

namespace Sys2Proof.Machine

variable {s : State} {e : BitVec 512} {b : Blk} {k : Nat}

-- Stops and halts (R502, R564)

/-- A stop of the device needs a partition in reach, one of a partition an active partition. -/
theorem stopLegal_of_reach (hreach : if entDev e then s.mgmt.devState = 2 ∧ s.stopTargets e ≠ []
    else (s.part (entPart e)).state ∈ activeStates) (a : Ans) : s.stopLegal e a = a := by
  unfold State.stopLegal
  split at hreach
  next hdevice =>
    obtain ⟨hdev, htargets⟩ := hreach
    rw [if_pos hdevice, inDev_of_mem (by simp [hdev]), if_neg (by simpa using htargets)]
  next hpart => rw [if_neg hpart, partIn_of_mem hreach]

theorem stopAtBody_pends (hreach : if entDev e then s.mgmt.devState = 2 ∧ s.stopTargets e ≠ []
    else (s.part (entPart e)).state ∈ activeStates) (hcount : s.gc + 2500 ≤ payF e 0 8) :
    stopAtBody s e = .pend .plain [bitSet (s.stopTargets e)] none none (s.setStop e (payF e 0 8)) := by
  rw [stopAtBody, stopLegal_of_reach hreach, check_of_true (decide_eq_true hcount)]

theorem cancelBody_ok (hstops : s.stopsOf e ≠ []) : cancelBody s e = .ok .plain [] (s.cancelStops e) :=
  if_neg (by simpa using hstops)

theorem haltBody_pends (hstate : (s.part (entPart e)).state ∈ [5, 6]) (hfree : s.busyWith e .job = false)
    (hengines : s.haltOk (entPart e) e = true) : haltBody s e = .pend .plain [] none none (s.askHalt e) := by
  simp only [haltBody]
  rw [partIn_of_mem hstate, unlessBusy_of_free hfree, check_of_true hengines]

theorem runBody_ok (hstate : (s.part (entPart e)).state ∈ [5, 6]) (hhalted : s.anyHalted (entPart e) = true)
    (hfree : s.busyWith e .job = false) (hengines : s.haltOk (entPart e) e = true) :
    runBody s e = .ok .plain [] (s.runHalted e) := by
  simp only [runBody]
  rw [partIn_of_mem hstate, hhalted, if_neg (by simp), unlessBusy_of_free hfree, check_of_true hengines]

-- Peek and take (R503, R561, R563)

/-- Up to 48 bytes in reach, behind a domain that is ON and without poison, come in the response (R561). -/
theorem peekBody_ok (hlo : 1 ≤ payF e 8 4) (hhi : payF e 8 4 ≤ 48) (hdst : payF e 16 8 = 0)
    (hreach : s.mayReach b k e (payF e 0 8) (payF e 8 4) = true)
    (hplace : inCfg (payF e 0 8) (payF e 8 4) = true
      ∨ (s.mapped (payF e 0 8) (payF e 8 4) = true ∧ s.poisoned (payF e 0 8) (payF e 8 4) = false))
    (hon : ∀ d, s.domAt (payF e 0 8) = some d → s.power d = .on) :
    peekBody b k s e = .ok .none (s.view (payF e 0 8) (payF e 8 4)) s := by
  have hlen : ¬ (payF e 8 4 == 0 || 2 ^ 20 < payF e 8 4 || (payF e 16 8 == 0 && 48 < payF e 8 4)) = true := by
    have hmax : ¬ 2 ^ 20 < payF e 8 4 := Nat.not_lt.2 (Nat.le_trans hhi (by decide))
    simp only [beq_false_of_ne (Nat.ne_of_gt hlo), hmax, Nat.not_lt.2 hhi, decide_false, Bool.and_false, Bool.or_self,
      Bool.false_eq_true, not_false_eq_true]
  have hmapped : ¬ (!inCfg (payF e 0 8) (payF e 8 4) && !s.mapped (payF e 0 8) (payF e 8 4)) = true := by
    rcases hplace with hcfg | ⟨hmem, -⟩
    · simp [hcfg]
    · simp [hmem]
  have hclean : ¬ (!inCfg (payF e 0 8) (payF e 8 4) && s.poisoned (payF e 0 8) (payF e 8 4)) = true := by
    rcases hplace with hcfg | ⟨-, hpoison⟩
    · simp [hcfg]
    · simp [hpoison]
  simp only [peekBody]
  rw [if_neg hlen, hreach, if_neg (by simp), if_neg hmapped, hdst, if_neg (by simp)]
  cases hdom : s.domAt (payF e 0 8) with
  | none => exact if_neg hclean
  | some d =>
    simp only [Option.map_some, hon d hdom]
    exact if_neg hclean

/-- A TAKE field in reach reads and acts, in device scope or in a partition with a job. -/
theorem takeBody_ok {v : Nat} {t : State} (hscope : entDev e = true ∨ (s.part (entPart e)).state ∈ jobStates)
    (hreach : s.mayReach b k e (payF e 0 8) 8 = true) (htake : s.takeAt (payF e 0 8) = some (v, t)) :
    takeBody b k s e = .ok .plain (natLe 8 v) t := by
  simp only [takeBody, hreach, htake, Bool.not_true, Bool.false_eq_true, if_false]
  split
  next => rfl
  next hpart => exact partIn_of_mem (hscope.resolve_left hpart) _

-- Trace rings and snapshots (R554, R557)

theorem armBody_ok (hstate : (s.part (entPart e)).state ∈ jobStates) (hdie : s.dieIn (entPart e) (payF e 0 2 / 12) = true)
    (hsize : s.cfgF (Sys2Proof.Machine.ringBase (payF e 0 2 / 12) (payF e 0 2 % 12) + 8) 48 5 ≠ 0) (hpost : payF e 2 1 ≤ 16)
    (hmode : payF e 3 1 < 2) (hkind : payF e 4 1 < 4) :
    armBody s e = .ok .plain [] (s.armRing (payF e 0 2 / 12) (payF e 0 2 % 12) e) := by
  simp only [armBody]
  rw [partIn_of_mem hstate, check_of_true]
  simp only [hdie, bne_iff_ne.2 hsize, hpost, hmode, hkind, decide_true, Bool.and_self]

theorem snapBody_pends (hscope : entDev e = true ∨ (s.part (entPart e)).state ∈ jobStates)
    (hbuf : s.bufOk e (payF e 0 8) (payF e 8 4) = true) (hroom : s.snapBytes e ≤ payF e 8 4) :
    snapBody s e = .pend .plain [(s.gc + 2500 + 255) / 256 * 256] none none s := by
  simp only [snapBody]
  rw [check_of_true (by simp only [hbuf, hroom, decide_true, Bool.and_self])]
  split
  next => rfl
  next hpart => exact partIn_of_mem (hscope.resolve_left hpart) _

/-- A row whose body looks at its pair completes as one whose body does not. -/
theorem commandOk_of_pairBody {c : Blk → Fin 12 → Instr} {r : CmdRow} {body : Blk → Nat → State → BitVec 512 → Ans}
    {ok : Blk → Fin 12 → State → BitVec 512 → Prop} {n : Note} {res : State → BitVec 512 → List Byte}
    {eff : State → BitVec 512 → State} (hrow : ∀ b k s, exec (c b k) s = attempt s (lysby r b k.val (body b k.val) s))
    (hbody : ∀ b k u e, ok b k u e → body b k.val u e = .ok n (res u e) (eff u e)) : commandOk c r ok n res eff :=
  fun b k s htaken hok => (hrow b k s).trans (attempt_some (lysby_ok htaken (hbody b k _ _ hok)))

/-- Settles O43: each row's body answers as its lemma above says. -/
theorem debugCommandsComplete : Obligations.DebugCommandsComplete := by
  unfold Obligations.DebugCommandsComplete
  refine ⟨?stop, ?cancel, ?halt, ?run, ?peek, fun v t => ?take, ?arm, ?snap⟩
  case stop =>
    exact commandPends_of_body (fun _ _ _ => rfl) fun _ _ ⟨hreach, hcount⟩ => stopAtBody_pends hreach hcount
  case cancel => exact commandOk_of_body (fun _ _ _ => rfl) fun _ _ _ _ hstops => cancelBody_ok hstops
  case halt =>
    exact commandPends_of_body (fun _ _ _ => rfl) fun _ _ ⟨hstate, hfree, hengines⟩ => haltBody_pends hstate hfree hengines
  case run =>
    exact commandOk_of_body (fun _ _ _ => rfl) fun _ _ _ _ ⟨hstate, hhalted, hfree, hengines⟩ =>
      runBody_ok hstate hhalted hfree hengines
  case peek =>
    exact commandOk_of_pairBody (body := peekBody) (fun _ _ _ => rfl) fun _ _ _ _ ⟨hlo, hhi, hdst, hreach, hplace, hon⟩ =>
      peekBody_ok hlo hhi hdst hreach hplace hon
  case take =>
    exact commandOk_of_pairBody (body := takeBody) (fun _ _ _ => rfl) fun _ _ _ _ ⟨hscope, hreach, htake⟩ =>
      takeBody_ok hscope hreach htake
  case arm =>
    exact commandOk_of_body (fun _ _ _ => rfl) fun _ _ _ _ ⟨hstate, hdie, hsize, hpost, hmode, hkind⟩ =>
      armBody_ok hstate hdie hsize hpost hmode hkind
  case snap =>
    exact commandPends_of_body (fun _ _ _ => rfl) fun _ _ ⟨hscope, hbuf, hroom⟩ => snapBody_pends hscope hbuf hroom

end Sys2Proof.Machine
end

section
/-! PROOFS. Final responses of pending commands (O45). -/

namespace Sys2Proof.Machine

variable {s : State} {c : PendCmd}

/-- The event of a pending command is that of its code, while Lysby runs (R476). -/
theorem pendingComplete_runs {i : Nat} {failed : List Nat} (hc : s.mgmt.cmds[i]? = some c) (hup : s.lysbyUp = true) :
    pendingComplete i failed s = completeCmd c failed s := by
  simp only [pendingComplete, hc, hup, if_true]

/-- A load completes once the domains of its partition are ON. -/
theorem completeLoad_loads {j : JobImage} (himage : c.image = some j) (hon : s.partOn (entPart c.entry) = true) :
    let p := entPart c.entry
    let bytes := s.rd (payF c.entry 0 8) (payF c.entry 8 8)
    let u := s.loadJob (Fin.ofNat 8 p) j bytes
    completeLoad c s = some ((u.setPart p { u.part p with digest := sha256 bytes }).finish c stOk (sha256 bytes)) := by
  simp only [completeLoad, himage, hon, Bool.not_true, Bool.false_eq_true, if_false]

/-- Settles O45: the code of each command names its event, which gives the response stated. -/
theorem finalResponsesComplete : Obligations.FinalResponsesComplete := by
  unfold Obligations.FinalResponsesComplete
  intro i failed s c hc hup
  have hruns := pendingComplete_runs (failed := failed) hc hup
  refine ⟨fun hcode => ?stop, fun hcode => ?unload, fun x hcode hslot => ?stage, fun j hcode himage hon => ?load⟩
  case stop => exact attempt_some (by rw [hruns, completeCmd, hcode]; rfl)
  case unload => exact attempt_some (by rw [hruns, completeCmd, hcode]; rfl)
  case stage => exact attempt_some (by rw [hruns, completeCmd, hcode]; simp only [completeStage, hslot])
  case load => exact attempt_some (by rw [hruns, completeCmd, hcode]; exact completeLoad_loads himage hon)

end Sys2Proof.Machine
end

section
/-! PROOFS. What a response writes, and where its status is read back. -/

namespace Sys2Proof.Machine

variable {s t u : State} {b : Blk} {k : Nat}

-- Bytes and fields of words

/-- Byte i of a little-endian number (R10). -/
theorem leNat_byte {l : List Byte} {i : Nat} (hi : i < l.length) : leNat l / 256 ^ i % 256 = l[i].toNat := by
  induction l generalizing i with
  | nil => exact absurd hi (Nat.not_lt_zero i)
  | cons x l ih =>
    have hx : x.toNat < 256 := x.isLt
    cases i with
    | zero => simp only [leNat, List.getElem_cons_zero]; omega
    | succ i =>
      rw [leNat, Nat.pow_succ', ← Nat.div_div_eq_div_mul, List.getElem_cons_succ, ← ih (Nat.lt_of_succ_lt_succ hi)]
      congr 2
      omega

/-- A byte of a number stays where it is in a word that is wide enough. -/
theorem fld_ofNat_byte {m i : Nat} (x : Nat) (h : 8 * i + 8 ≤ m) : fld (BitVec.ofNat m x) (8 * i) 8 = x / 256 ^ i % 256 := by
  have hm : 2 ^ m = 2 ^ (8 * i) * (2 ^ 8 * 2 ^ (m - 8 * i - 8)) := by rw [← Nat.pow_add, ← Nat.pow_add]; congr 1; omega
  have hpow : 2 ^ (8 * i) = 256 ^ i := Nat.pow_mul 2 8 i
  rw [fld, bitsAt, BitVec.toNat_ofNat, Nat.shiftRight_eq_div_pow, hm, Nat.mod_mul_right_div_self, Nat.mod_mul_right_mod]
  exact congrArg (x / · % 256) hpow

theorem fld_setFld_low16 {w : W64} {v : Nat} : fld (setFld w 0 16 v) 0 16 = v % 65536 := by
  have hw := w.isLt
  simp only [fld, setFld, setBits, bitsAt, BitVec.toNat_ofNat, Nat.shiftRight_zero, Nat.pow_zero, Nat.mul_one]
  omega

-- Words of a mailbox block

theorem mbxW_setMbxW_same {a : Nat} {w : W64} (hform : tblWf (fun _ => 0) s.mbx = true) : (s.setMbxW a w).mbxW a = w :=
  tget_tput s.mbx hform a w

/-- Words written elsewhere leave a word as it is. -/
theorem mbxW_foldl_setMbxW_ne {a x : Nat} {l : List (List Byte × Nat)} (hl : ∀ p ∈ l, x ≠ a + 8 * p.2) :
    (l.foldl (fun s p => s.setMbxW (a + 8 * p.2) (BitVec.ofNat 64 (leNat p.1))) s).mbxW x = s.mbxW x := by
  induction l generalizing s with
  | nil => rfl
  | cons p l ih =>
    rw [List.foldl_cons, ih fun q hq => hl q (List.mem_cons_of_mem p hq),
      mbxW_setMbxW_ne s _ (hl p (List.mem_cons_self ..))]

/-- Bytes written change words of their own range alone. -/
theorem mbxW_setMbxBytes_ne {a x : Nat} {bs : List Byte} (hx : x < a ∨ a + bs.length ≤ x) :
    (s.setMbxBytes a bs).mbxW x = s.mbxW x :=
  mbxW_foldl_setMbxW_ne fun p hp => by
    obtain ⟨-, hlt, -⟩ := mem_cut_zipIdx hp
    omega

/-- The first word of bytes written holds the first 8 of them. -/
theorem mbxW_setMbxBytes_first {a : Nat} {bs : List Byte} (hform : tblWf (fun _ => 0) s.mbx = true) (hbs : bs ≠ []) :
    (s.setMbxBytes a bs).mbxW a = BitVec.ofNat 64 (leNat (bs.take 8)) := by
  obtain ⟨x, l, rfl⟩ := List.exists_cons_of_ne_nil hbs
  rw [State.setMbxBytes, cut, List.length_cons, chunksOf, List.zipIdx_cons, List.foldl_cons, mbxW_foldl_setMbxW_ne]
  · exact mbxW_setMbxW_same hform
  · intro p hp
    obtain ⟨-, -, -, hlater⟩ := mem_chunksOf_zipIdx hp
    omega
  · exact List.cons_ne_nil x l

/-- What is put out on a condition is at most one thing more. -/
theorem emit_of_eq (p : Bool) (o : Output) (s : State) :
    ∃ out, (if p then s.emit o else s) = { s with out := out } ∧ (out = s.out ∨ ∃ o, out = s.out ++ [o]) := by
  cases p with
  | true => exact ⟨_, rfl, .inr ⟨o, rfl⟩⟩
  | false => exact ⟨_, rfl, .inl rfl⟩

/-- Setting a bit of MBX_IRQ writes that bit, and otherwise at most lists an in-band interrupt and puts out one thing. -/
theorem setIrq_eq (s : State) (b : Blk) (bit : Nat) :
    ∃ ibi out, s.setIrq b bit = { s.setMbxF (mbxAddr b 0x18) bit 1 1 with mgmt := { s.mgmt with ibi := ibi }, out := out }
      ∧ (out = s.out ∨ ∃ o, out = s.out ++ [o]) := by
  unfold State.setIrq
  dsimp only
  split
  · exact ⟨s.mgmt.ibi, s.out, rfl, .inl rfl⟩
  · cases b with
    | pf => exact ⟨s.mgmt.ibi, _, rfl, .inr ⟨_, rfl⟩⟩
    | vf _ => exact ⟨s.mgmt.ibi, _, rfl, .inr ⟨_, rfl⟩⟩
    | i3c =>
      exact ⟨_, emit_of_eq _ _ _⟩

/-- The interrupt bits are written, and no other word. -/
theorem mbxW_setIrq_ne {a bit : Nat} (ha : a ≠ mbxAddr b 0x18) : (s.setIrq b bit).mbxW a = s.mbxW a := by
  obtain ⟨ibi, out, heq, -⟩ := setIrq_eq s b bit
  rw [heq]
  exact mbxW_setMbxW_ne s _ ha

-- Places of a pair's ring and responses (Tables 16-5 and 16-7)

theorem rspSlot_le (i : Nat) (hk : k < 12) :
    mbxAddr b 0x2400 ≤ rspSlot b k i ∧ rspSlot b k i % 8 = 0 := by
  unfold rspSlot mbxAddr
  omega

theorem ringA_lt (hk : k < 12) : mbxAddr b 0x18 < ringA b k ∧ ringA b k + 16 ≤ mbxAddr b 0x2400 := by
  unfold ringA mbxAddr
  omega

-- Responses (Table 16-9)

theorem rspBytes_length {e : BitVec 512} {final : Bool} {status state accept : Nat} {blocked : Option Nat}
    {result : List Byte} : (rspBytes e final status state blocked accept result).length = 64 := by
  simp [rspBytes, natLe_length]

/-- STATUS is byte 5 of a response (Table 16-9). -/
theorem rspBytes_status {e : BitVec 512} {final : Bool} {status state accept : Nat} {result : List Byte} (hs : status < 256) :
    ((rspBytes e final status state none accept result)[5]'(by rw [rspBytes_length]; decide)).toNat = status := by
  have hpart : entPart e < 8 := Nat.mod_lt _ (by decide)
  have hbool (x : Bool) : boolNat x ≤ 1 := by cases x <;> decide
  have hdev := hbool (entDev e)
  have hfinal := hbool final
  simp only [rspBytes, natLe, List.cons_append, List.nil_append, List.getElem_cons_succ, List.getElem_cons_zero,
    BitVec.toNat_ofNat]
  omega

/-- Byte i of the bytes of a block that begin at a word's address. -/
theorem mbxBytes_getElem {a n i : Nat} (ha : a % 8 = 0) (hi : i < 8) (hn : i < (s.mbxBytes a n).length) :
    (s.mbxBytes a n)[i].toNat = fld (s.mbxW a) (8 * i) 8 := by
  have hword : (a + i) / 8 * 8 = a := by omega
  have hbyte : (a + i) % 8 = i := by omega
  simp only [State.mbxBytes, List.getElem_map, List.getElem_range, hword, hbyte, BitVec.toNat_ofNat]
  exact Nat.mod_eq_of_lt (Nat.mod_lt _ (by decide))

theorem mbxBytes_length {a n : Nat} : (s.mbxBytes a n).length = n := by simp [State.mbxBytes]

/-- The newest response stands in the slot before RSP_PROD, and its status in byte 5 (Table 16-9). -/
theorem lastStatus_eq_fld (hk : k < 12) :
    s.lastStatus b k = fld (s.mbxW (rspSlot b k (s.rspProd b k + 65535))) 40 8 := by
  have hlen : 5 < (s.mbxBytes (rspSlot b k (s.rspProd b k + 65535)) 64).length := by rw [mbxBytes_length]; decide
  rw [State.lastStatus, fld_ofNat_byte (i := 5) _ (by decide), leNat_byte hlen,
    mbxBytes_getElem (rspSlot_le _ hk).2 (by decide) hlen]

/-- A response written goes to the slot of RSP_PROD (R448). -/
theorem mbxW_putResponse_slot {bytes : List Byte} (hform : s.Form) (hk : k < 12) (hbytes : bytes ≠ []) :
    (s.putResponse b k bytes).mbxW (rspSlot b k (s.rspProd b k)) = BitVec.ofNat 64 (leNat (bytes.take 8)) := by
  obtain ⟨hslot, -⟩ := rspSlot_le (b := b) (s.rspProd b k) hk
  obtain ⟨hirq, hring⟩ := ringA_lt (b := b) hk
  rw [State.putResponse, mbxW_setIrq_ne (by omega), State.setMbxF, mbxW_setMbxW_ne _ _ (by omega),
    mbxW_setMbxBytes_first hform.mbx hbytes]

/-- RSP_PROD advances by one, and wraps (R448). -/
theorem rspProd_putResponse {bytes : List Byte} (hform : s.Form) (hk : k < 12) :
    (s.putResponse b k bytes).rspProd b k = (s.rspProd b k + 1) % 65536 := by
  obtain ⟨hirq, -⟩ := ringA_lt (b := b) hk
  have hwritten : (s.setMbxBytes (rspSlot b k (s.rspProd b k)) bytes).Form :=
    (State.setMbxBytes_keeps (Keeps.refl s)).form hform
  rw [State.rspProd, State.mbxF, State.putResponse, mbxW_setIrq_ne (by omega), State.setMbxF,
    mbxW_setMbxW_same hwritten.mbx, fld_setFld_low16]

/-- The slot before an advanced RSP_PROD is the slot that was written. -/
theorem rspSlot_before_next {n : Nat} : rspSlot b k ((n + 1) % 65536 + 65535) = rspSlot b k n := by
  have hmod : ((n + 1) % 65536 + 65535) % 16 = n % 16 := by omega
  rw [rspSlot, rspSlot, hmod]

/-- The newest response of a pair carries the status that was written (R448). -/
theorem lastStatus_putResponse {bytes : List Byte} (hform : s.Form) (hk : k < 12) (hlen : bytes.length = 64) :
    (s.putResponse b k bytes).lastStatus b k = (bytes[5]'(by omega)).toNat := by
  have hbytes : bytes ≠ [] := List.ne_nil_of_length_pos (by omega)
  have hfirst : 5 < (bytes.take 8).length := by rw [List.length_take]; omega
  rw [lastStatus_eq_fld hk, rspProd_putResponse hform hk, rspSlot_before_next, mbxW_putResponse_slot hform hk hbytes,
    fld_ofNat_byte (i := 5) _ (by decide), leNat_byte hfirst, List.getElem_take]

end Sys2Proof.Machine
end

section
/-! PROOFS. O57: a command that is turned away has no effect. Such a command's answer goes to the state in which its entry was
taken, whatever its body did, so that only the taking and the response are seen. -/

namespace Sys2Proof.Machine

variable {s t u : State} {b : Blk} {k : Nat}

-- What taking an entry and answering it can touch

/-- State t differs from s in the mailbox blocks, the outputs, the doorbells, the in-band interrupts and the times of the last
take and the last work alone. -/
inductive MailboxOnly (s : State) : State → Prop
  | intro (lastTake : Option Nat) (bells : List (Nat × Blk × Nat × Nat)) (lastWork : Nat) (ibi : List Nat) (mbx : Tbl W64)
      (out : List Output) :
    MailboxOnly s { s with
      mgmt := { s.mgmt with lastTake := lastTake, bells := bells, lastWork := lastWork, ibi := ibi }, mbx := mbx, out := out }

namespace MailboxOnly

theorem trans (h : MailboxOnly s t) (h' : MailboxOnly t u) : MailboxOnly s u := by
  cases h
  cases h'
  exact .intro ..

theorem state_eq (h : MailboxOnly s t) : t = { s with mgmt := t.mgmt, mbx := t.mbx, out := t.out } := by cases h; rfl

theorem mgmt_eq (h : MailboxOnly s t) :
    t.mgmt = { s.mgmt with
      lastTake := t.mgmt.lastTake, bells := t.mgmt.bells, lastWork := t.mgmt.lastWork, ibi := t.mgmt.ibi } := by
  cases h; rfl

end MailboxOnly

theorem mbx_mailboxOnly (s : State) (mbx : Tbl W64) : MailboxOnly s { s with mbx := mbx } :=
  .intro s.mgmt.lastTake s.mgmt.bells s.mgmt.lastWork s.mgmt.ibi mbx s.out

theorem setMbxBytes_eq (s : State) (a : Nat) (bs : List Byte) : ∃ mbx, s.setMbxBytes a bs = { s with mbx := mbx } := by
  unfold State.setMbxBytes
  induction (cut 8 bs).zipIdx generalizing s with
  | nil => exact ⟨s.mbx, rfl⟩
  | cons p l ih =>
    obtain ⟨mbx, heq⟩ := ih (s.setMbxW (a + 8 * p.2) (BitVec.ofNat 64 (leNat p.1)))
    exact ⟨mbx, heq⟩

theorem setIrq_mailboxOnly (s : State) (b : Blk) (bit : Nat) : MailboxOnly s (s.setIrq b bit) := by
  obtain ⟨ibi, out, heq, -⟩ := setIrq_eq s b bit
  rw [heq]
  exact .intro s.mgmt.lastTake s.mgmt.bells s.mgmt.lastWork ibi _ out

theorem takeHead_mailboxOnly (s : State) (b : Blk) (k : Nat) : MailboxOnly s (s.takeHead b k) :=
  .intro _ _ s.mgmt.lastWork s.mgmt.ibi _ s.out

theorem worked_eq (s : State) (c : RightsCls) :
    ∃ lastWork, s.worked c = { s with mgmt := { s.mgmt with lastWork := lastWork } } := by
  unfold State.worked
  split
  · exact ⟨s.mgmt.lastWork, rfl⟩
  · exact ⟨_, rfl⟩

theorem worked_mailboxOnly (s : State) (c : RightsCls) : MailboxOnly s (s.worked c) := by
  obtain ⟨lastWork, heq⟩ := worked_eq s c
  rw [heq]
  exact .intro s.mgmt.lastTake s.mgmt.bells lastWork s.mgmt.ibi s.mbx s.out

theorem putResponse_mailboxOnly (s : State) (b : Blk) (k : Nat) (bytes : List Byte) :
    MailboxOnly s (s.putResponse b k bytes) := by
  obtain ⟨mbx, heq⟩ := setMbxBytes_eq s (rspSlot b k (s.rspProd b k)) bytes
  rw [State.putResponse, heq]
  exact (mbx_mailboxOnly s _).trans (setIrq_mailboxOnly _ b k)

/-- A response puts out at most one interrupt. -/
theorem putResponse_out (s : State) (b : Blk) (k : Nat) (bytes : List Byte) :
    (s.putResponse b k bytes).out = s.out ∨ ∃ o, (s.putResponse b k bytes).out = s.out ++ [o] := by
  obtain ⟨mbx, heq⟩ := setMbxBytes_eq s (rspSlot b k (s.rspProd b k)) bytes
  rw [State.putResponse, heq]
  obtain ⟨ibi, out, hirq, hout⟩ :=
    setIrq_eq (({ s with mbx := mbx } : State).setMbxF (ringA b k + 8) 0 16 (s.rspProd b k + 1)) b k
  rw [hirq]
  exact hout

/-- The words that a response touches: its slot, the ring's response register and the interrupt bits. -/
theorem mbxW_putResponse_ne {bytes : List Byte} {a : Nat}
    (hslot : a < rspSlot b k (s.rspProd b k) ∨ rspSlot b k (s.rspProd b k) + bytes.length ≤ a)
    (hring : a ≠ ringA b k + 8) (hirq : a ≠ mbxAddr b 0x18) : (s.putResponse b k bytes).mbxW a = s.mbxW a := by
  rw [State.putResponse, mbxW_setIrq_ne hirq, State.setMbxF, mbxW_setMbxW_ne _ _ hring, mbxW_setMbxBytes_ne hslot]

-- Answers

/-- What an answered command leaves of the state in which its entry was to be taken, where the response is all that it gets. -/
structure OnlyAnswered (s : State) (b : Blk) (k : Nat) (t : State) : Prop where
  only : MailboxOnly s t
  out : t.out = s.out ∨ ∃ o, t.out = s.out ++ [o]
  words : ∀ a, inAreas [(ringA b k, 16), (rspSlot b k (s.rspProd b k), 64), (mbxAddr b 0x18, 8)] a = false →
    t.mbxW a = s.mbxW a

/-- A response other than BUSY, BAD_ARGS, REFUSED_STATE and REFUSED_RIGHTS is the last of its pair. -/
def AnsweredOtherwise (b : Blk) (k : Nat) (t : State) : Prop := t.lastStatus b k < 2 ∨ 5 < t.lastStatus b k

theorem answeredOtherwise_of_status {v : State} {e : BitVec 512} {final : Bool} {status state accept : Nat}
    {result : List Byte} (hform : v.Form) (hk : k < 12) (hs : status < 2 ∨ status = stFailed) :
    AnsweredOtherwise b k (v.putResponse b k (rspBytes e final status state none accept result)) := by
  have hfailed : stFailed = 6 := rfl
  rw [AnsweredOtherwise, lastStatus_putResponse hform hk rspBytes_length, rspBytes_status (by omega)]
  omega

/-- An answer other than OK, PENDING and FAILED is a response in the state given, as is that of a sealed part: whatever the
body did is dropped. -/
theorem answerCmd_cases {c : RightsCls} {e : BitVec 512} {a : Ans} (hform : u.Form) (hk : k < 12) (ha : AnsK u a) :
    (∃ bytes, bytes.length = 64 ∧ s.answerCmd c b k e a = s.putResponse b k bytes)
      ∨ AnsweredOtherwise b k (s.answerCmd c b k e a) := by
  cases a with
  | rights => exact .inl ⟨_, rspBytes_length, rfl⟩
  | refused => exact .inl ⟨_, rspBytes_length, rfl⟩
  | busy => exact .inl ⟨_, rspBytes_length, rfl⟩
  | bad => exact .inl ⟨_, rspBytes_length, rfl⟩
  | failed reason v =>
    unfold State.answerCmd
    dsimp only
    split
    · exact .inl ⟨_, rspBytes_length, rfl⟩
    · exact .inr (answeredOtherwise_of_status (ha.form hform) hk (.inr rfl))
  | ok n res v =>
    unfold State.answerCmd
    dsimp only
    split
    · exact .inl ⟨_, rspBytes_length, rfl⟩
    · exact .inr (answeredOtherwise_of_status ((State.noteCmd_keeps ha).form hform) hk (.inl (by decide)))
  | pend n data image slot v =>
    unfold State.answerCmd
    dsimp only
    split
    · exact .inl ⟨_, rspBytes_length, rfl⟩
    · exact .inr (answeredOtherwise_of_status ((Keeps.lit (State.noteCmd_keeps ha)).form hform) hk (.inl (by decide)))

/-- A command that runs is answered in the state in which its entry was taken, with an answer of its checks or its body. -/
theorem runCmd_eq_answerCmd {r : CmdRow} {e : BitVec 512} {body : State → BitVec 512 → Ans}
    (hs : Keeps u s) (hbody : ∀ v, Keeps u v → AnsK u (body v e)) :
    ∃ a, AnsK u a ∧ s.runCmd r b k e body = (s.worked (classOf r e)).answerCmd (classOf r e) b k e a := by
  refine ⟨_, ?_, rfl⟩
  split
  · exact AnsK.bad
  split
  · exact AnsK.refused
  split
  · exact AnsK.rights
  split
  · exact AnsK.refused
  split
  · exact AnsK.refused
  exact hbody _ (State.wakeFor_keeps (State.worked_keeps hs))

theorem mbxW_takeHead_ne {a : Nat} (ha : a ≠ ringA b k) : (s.takeHead b k).mbxW a = s.mbxW a := mbxW_setMbxW_ne s _ ha

theorem mbxW_worked (s : State) (c : RightsCls) (a : Nat) : (s.worked c).mbxW a = s.mbxW a := by
  obtain ⟨lastWork, heq⟩ := worked_eq s c
  rw [heq]
  rfl

theorem worked_out (s : State) (c : RightsCls) : (s.worked c).out = s.out := by
  obtain ⟨lastWork, heq⟩ := worked_eq s c
  rw [heq]

/-- Taking an entry and writing its response touch the ring, the response's slot and the interrupt bits alone. -/
theorem onlyAnswered_putResponse {c : RightsCls} {bytes : List Byte} (hlen : bytes.length = 64) :
    OnlyAnswered s b k (((s.takeHead b k).worked c).putResponse b k bytes) := by
  refine ⟨((takeHead_mailboxOnly s b k).trans (worked_mailboxOnly _ c)).trans (putResponse_mailboxOnly _ b k bytes), ?_,
    fun a ha => ?_⟩
  · have hout := putResponse_out ((s.takeHead b k).worked c) b k bytes
    rwa [worked_out] at hout
  · have hprod : ((s.takeHead b k).worked c).rspProd b k = s.rspProd b k := by
      rw [State.rspProd, State.mbxF, mbxW_worked, mbxW_takeHead_ne (by omega)]
      rfl
    simp only [inAreas, List.any_cons, List.any_nil, Bool.or_false, Bool.or_eq_false_iff, Bool.and_eq_false_iff,
      decide_eq_false_iff_not] at ha
    obtain ⟨hring, hslot, hirq⟩ := ha
    rw [mbxW_putResponse_ne (by rw [hprod, hlen]; omega) (by omega) (by omega), mbxW_worked, mbxW_takeHead_ne (by omega)]

/-- A command that is taken is only answered, or its response is none of the four that turn it away. -/
theorem lysby_cases {r : CmdRow} {body : State → BitVec 512 → Ans} (hform : s.Form) (hk : k < 12)
    (hbody : ∀ v e, Keeps s v → AnsK s (body v e)) (ht : lysby r b k body s = some t) :
    OnlyAnswered s b k t ∨ AnsweredOtherwise b k t := by
  unfold lysby at ht
  dsimp only at ht
  split at ht
  · cases ht
  · obtain ⟨a, ha, hrun⟩ := runCmd_eq_answerCmd (r := r) (b := b) (k := k) (State.takeHead_keeps (Keeps.refl s))
      fun v hv => hbody v (s.headEntry b k) hv
    rw [hrun] at ht
    cases ht
    obtain ⟨bytes, hlen, hanswer⟩ | hother :=
      answerCmd_cases (s := (s.takeHead b k).worked (classOf r (s.headEntry b k))) (b := b) (k := k) hform hk ha
    · rw [hanswer]
      exact .inl (onlyAnswered_putResponse hlen)
    · exact .inr hother

-- The rows of chapter 17

/-- Instruction c runs a row of chapter 17 on pair k of block b. -/
def RunsRow (c : Instr) (b : Blk) (k : Nat) : Prop :=
  ∃ r body, (∀ s, exec c s = attempt s (lysby r b k body s))
    ∧ ∀ (s v : State) (e : BitVec 512), Keeps s v → AnsK s (body v e)

theorem RunsRow.of_body {c : Instr} {r : CmdRow} {body : State → BitVec 512 → Ans}
    (hexec : ∀ s, exec c s = attempt s (lysby r b k body s))
    (hbody : ∀ {s v : State} {e : BitVec 512}, Keeps s v → AnsK s (body v e)) : RunsRow c b k :=
  ⟨r, body, hexec, fun _ _ _ => hbody⟩

/-- Each command of chapter 17 runs its row, whose body keeps what every operation keeps. -/
theorem runsRow_of_lysbyPair {c : Instr} {b : Blk} {k : Fin 12} (h : lysbyPair c = some (b, k)) : RunsRow c b k.val := by
  cases c with
  | deviceStart => cases h; exact .of_body (fun _ => rfl) startBody_keeps
  | deviceStop => cases h; exact .of_body (fun _ => rfl) stopBody_keeps
  | deviceReset => cases h; exact .of_body (fun _ => rfl) resetBody_keeps
  | deviceIdentity => cases h; exact .of_body (fun _ => rfl) AnsK.ok
  | deviceMeasure => cases h; exact .of_body (fun _ => rfl) measureBody_keeps
  | deviceStatus => cases h; exact .of_body (fun _ => rfl) AnsK.ok
  | powerCap => cases h; exact .of_body (fun _ => rfl) capBody_keeps
  | firmwareCommit => cases h; exact .of_body (fun _ => rfl) commitBody_keeps
  | jobLoad => cases h; exact .of_body (fun _ => rfl) loadBody_keeps
  | jobUnload => cases h; exact .of_body (fun _ => rfl) unloadBody_keeps
  | jobLaunch => cases h; exact .of_body (fun _ => rfl) launchBody_keeps
  | jobTeardown => cases h; exact .of_body (fun _ => rfl) teardownBody_keeps
  | jobResume => cases h; exact .of_body (fun _ => rfl) resumeBody_keeps
  | jobVariant => cases h; exact .of_body (fun _ => rfl) variantBody_keeps
  | inputCommit => cases h; exact .of_body (fun _ => rfl) inputBody_keeps
  | poolAudit => cases h; exact .of_body (fun _ => rfl) auditBody_keeps
  | pacePlan => cases h; exact .of_body (fun _ => rfl) planBody_keeps
  | paceRead => cases h; exact .of_body (fun _ => rfl) paceReadBody_keeps
  | plateStage => cases h; exact .of_body (fun _ => rfl) stageBody_keeps
  | plateApply => cases h; exact .of_body (fun _ => rfl) applyBody_keeps
  | overlayApply => cases h; exact .of_body (fun _ => rfl) overlayApplyBody_keeps
  | overlayRemove => cases h; exact .of_body (fun _ => rfl) overlayRemoveBody_keeps
  | overlayList => cases h; exact .of_body (fun _ => rfl) AnsK.ok
  | nodeAssign => cases h; exact .of_body (fun _ => rfl) nodeBody_keeps
  | timeSource => cases h; exact .of_body (fun _ => rfl) timeBody_keeps
  | partQuery => cases h; exact .of_body (fun _ => rfl) AnsK.ok
  | graftPrepare => cases h; exact .of_body (fun _ => rfl) prepareBody_keeps
  | graftCommit => cases h; exact .of_body (fun _ => rfl) graftCommitBody_keeps
  | graftAbort => cases h; exact .of_body (fun _ => rfl) abortBody_keeps
  | graftStatus => cases h; exact .of_body (fun _ => rfl) graftStatusBody_keeps
  | normArm => cases h; exact .of_body (fun _ => rfl) normArmBody_keeps
  | normAnswer => cases h; exact .of_body (fun _ => rfl) answerBody_keeps
  | proofArm => cases h; exact .of_body (fun _ => rfl) proofBody_keeps
  | proofCompareCommand => cases h; exact .of_body (fun _ => rfl) compareBody_keeps
  | journalOpen => cases h; exact .of_body (fun _ => rfl) openBody_keeps
  | journalClose => cases h; exact .of_body (fun _ => rfl) closeBody_keeps
  | exportStart => cases h; exact .of_body (fun _ => rfl) exportBody_keeps
  | importStart => cases h; exact .of_body (fun _ => rfl) importBody_keeps
  | stopAt => cases h; exact .of_body (fun _ => rfl) stopAtBody_keeps
  | stopCancel => cases h; exact .of_body (fun _ => rfl) cancelBody_keeps
  | debugHalt => cases h; exact .of_body (fun _ => rfl) haltBody_keeps
  | debugRun => cases h; exact .of_body (fun _ => rfl) runBody_keeps
  | peek => cases h; exact .of_body (fun _ => rfl) peekBody_keeps
  | take => cases h; exact .of_body (fun _ => rfl) takeBody_keeps
  | traceArm => cases h; exact .of_body (fun _ => rfl) armBody_keeps
  | countersSnap => cases h; exact .of_body (fun _ => rfl) snapBody_keeps
  | serviceEnter => cases h; exact .of_body (fun _ => rfl) enterBody_keeps
  | serviceExit => cases h; exact .of_body (fun _ => rfl) exitBody_keeps
  | tgenRun => cases h; exact .of_body (fun _ => rfl) tgenBody_keeps
  | tgenRead => cases h; exact .of_body (fun _ => rfl) tgenReadBody_keeps
  | recordRead => cases h; exact .of_body (fun _ => rfl) recordBody_keeps
  | wearRead => cases h; exact .of_body (fun _ => rfl) wearBody_keeps
  | stackRetire => cases h; exact .of_body (fun _ => rfl) retireBody_keeps
  | returnPrepare => cases h; exact .of_body (fun _ => rfl) prepareReturn_keeps
  | _ => cases h

/-- Settles O57: a command that is taken and not answered OK, PENDING or FAILED is answered where its entry was taken. -/
theorem turnedAwayCommandsHaveNoEffect : Obligations.TurnedAwayCommandsHaveNoEffect := by
  unfold Obligations.TurnedAwayCommandsHaveNoEffect
  intro c b k s t hform hpair hexec htaken hlow hhigh
  obtain ⟨r, body, hrow, hbody⟩ := runsRow_of_lysbyPair hpair
  obtain ⟨-, rfl⟩ | hran := attempt_cases ((hrow s).symm.trans hexec)
  · exact absurd rfl htaken
  · obtain ⟨honly, hout, hwords⟩ | hother := lysby_cases hform k.isLt (hbody s) hran
    · exact ⟨honly.state_eq, honly.mgmt_eq, hout, hwords⟩
    · unfold AnsweredOtherwise at hother
      omega

end Sys2Proof.Machine
end
